-- ==== Sys2Proof/Word.lean ====
section
/-! DEFINITION. The word types of the TZ8: a byte, the wider words software sees, and nothing else. -/

namespace Sys2Proof

/-- One byte, the smallest addressable unit of every address space (R24). -/
abbrev Byte := BitVec 8
/-- A 16-bit word. -/
abbrev Word16 := BitVec 16
/-- A 32-bit word. -/
abbrev Word32 := BitVec 32
/-- A 64-bit word: a thread's scalar register, and the widest control register (R112). -/
abbrev Word64 := BitVec 64

end Sys2Proof
end

