-- ==== Sys2Proof/Machine/Bits.lean ====
section
/-! DEFINITION. Bit fields, little-endian bytes, sign extension, indexed tables and the cyclic redundancy checks. -/

namespace Sys2Proof.Machine

/-- Bits `hi` to `lo` of a number. -/
def bits (x hi lo : Nat) : Nat := x / 2 ^ lo % 2 ^ (hi + 1 - lo)

/-- One bit of a number. -/
def bit (x i : Nat) : Nat := x / 2 ^ i % 2

/-- A Boolean as a one-bit field. -/
def b2n (b : Bool) : Nat := if b then 1 else 0

/-- The number whose bits in `mask` come from `new` and whose other bits come from `old`. -/
def mergeBits (old new mask : Nat) : Nat := (old ^^^ (old &&& mask)) ||| (new &&& mask)

/-- The little-endian number that bytes spell (R24). -/
def leNat : List Byte → Nat
  | [] => 0
  | b :: t => b.toNat + 256 * leNat t

/-- The `n` little-endian bytes of a number (R24). -/
def toLe : Nat → Nat → List Byte
  | 0, _ => []
  | n + 1, v => BitVec.ofNat 8 v :: toLe n (v / 256)

/-- The big-endian number that bytes spell, for network fields. -/
def beNat (l : List Byte) : Nat := l.foldl (fun a b => a * 256 + b.toNat) 0

/-- The `n` big-endian bytes of a number. -/
def toBe (n v : Nat) : List Byte := (toLe n v).reverse

/-- `n` bytes of a list from offset `off`. -/
def slice (l : List Byte) (off n : Nat) : List Byte := (l.drop off).take n

/-- The little-endian field of `n` bytes at offset `off`; bytes past the end read 0. -/
def leAt (l : List Byte) (off n : Nat) : Nat := leNat (slice l off n)

/-- A big-endian number of `n` bytes at an offset. -/
def beAt (l : List Byte) (off n : Nat) : Nat := beNat (slice l off n)

/-- The byte at an offset; 0 past the end. -/
def byteAt (l : List Byte) (off : Nat) : Nat := (l.getD off 0).toNat

/-- A number of `w` bits read as two's complement. -/
def sext (w v : Nat) : Int :=
  let u := v % 2 ^ w
  if u < 2 ^ (w - 1) then (u : Int) else (u : Int) - (2 ^ w : Nat)

/-- An integer wrapped to `w` bits. -/
def wrap (w : Nat) (i : Int) : Nat := (i % ((2 ^ w : Nat) : Int)).toNat

/-- The bits of a number, least significant first. -/
def natBits : Nat → Nat → List Bool
  | 0, _ => []
  | n + 1, v => (v % 2 == 1) :: natBits n (v / 2)

/-- The number that bits spell, least significant first. -/
def ofBits : List Bool → Nat
  | [] => 0
  | b :: t => b2n b + 2 * ofBits t

/-- The number of ones among the low `n` bits. -/
def popCount : Nat → Nat → Nat
  | 0, _ => 0
  | n + 1, v => v % 2 + popCount n (v / 2)

/-- Quotient rounded up. -/
def ceilDiv (a b : Nat) : Nat := (a + b - 1) / b

/-- The position of the most significant one; 0 for 0. -/
def ilog2 (n : Nat) : Nat := Nat.log2 n

/-- Entry `i` of a table, or `d` outside it. -/
def vget {α : Type} {n : Nat} (d : α) (v : Vector α n) (i : Nat) : α :=
  if h : i < n then v[i] else d

/-- A table with entry `i` replaced; unchanged outside it. -/
def vset {α : Type} {n : Nat} (v : Vector α n) (i : Nat) (a : α) : Vector α n :=
  if h : i < n then v.set i a else v

/-- A table with entry `i` changed by `f`; unchanged outside it. -/
def vmod {α : Type} {n : Nat} (v : Vector α n) (i : Nat) (f : α → α) : Vector α n :=
  if h : i < n then v.set i (f v[i]) else v

/-- A list with entry `i` changed by `f`; unchanged outside it. -/
def lmod {α : Type} : List α → Nat → (α → α) → List α
  | [], _, _ => []
  | a :: t, 0, f => f a :: t
  | a :: t, i + 1, f => a :: lmod t i f

/-- The value a key has in an association list. -/
def alookup {α : Type} : List (Nat × α) → Nat → Option α
  | [], _ => none
  | (k, v) :: t, x => if x = k then some v else if x < k then none else alookup t x

/-- An association list with a key's entry set, keys strictly rising. -/
def aset {α : Type} : List (Nat × α) → Nat → α → List (Nat × α)
  | [], x, a => [(x, a)]
  | (k, v) :: t, x, a =>
    if x = k then (k, a) :: t else if x < k then (x, a) :: (k, v) :: t else (k, v) :: aset t x a

/-- An association list with a key's entry removed. -/
def aerase {α : Type} (l : List (Nat × α)) (x : Nat) : List (Nat × α) :=
  l.filter (fun p => p.1 != x)

/-- The lowest number in `lo` to `lo + n - 1` that is not in a list. -/
def lowestFree (used : List Nat) : Nat → Nat → Option Nat
  | _, 0 => none
  | lo, n + 1 => if used.contains lo then lowestFree used (lo + 1) n else some lo

/-- One bit step of a reflected CRC. -/
def crcBit (poly r : Nat) : Nat := if r % 2 = 1 then (r / 2) ^^^ poly else r / 2

/-- One byte of a reflected CRC. -/
def crcByte (poly r : Nat) (b : Byte) : Nat :=
  let r := r ^^^ b.toNat
  let r := crcBit poly (crcBit poly (crcBit poly (crcBit poly r)))
  crcBit poly (crcBit poly (crcBit poly (crcBit poly r)))

/-- CRC-32C: the Castagnoli polynomial reflected, all ones in and out (R48). -/
def crc32c (l : List Byte) : Nat := (l.foldl (crcByte 0x82F63B78) 0xFFFFFFFF) ^^^ 0xFFFFFFFF

/-- One bit step of an unreflected CRC of width `w`. -/
def crcMsbBit (w poly r : Nat) : Nat :=
  if r / 2 ^ (w - 1) % 2 = 1 then (r * 2 % 2 ^ w) ^^^ poly else r * 2 % 2 ^ w

/-- One byte of an unreflected CRC of width `w`. -/
def crcMsbByte (w poly r : Nat) (b : Byte) : Nat :=
  (List.range 8).foldl (fun a _ => crcMsbBit w poly a) (r ^^^ (b.toNat * 2 ^ (w - 8)))

/-- An unreflected CRC of width `w` with a given initial value and no final inversion. -/
def crcMsb (w poly init : Nat) (l : List Byte) : Nat := l.foldl (crcMsbByte w poly) init

/-- CRC-64 of polynomial 0x42F0_E1EB_A9EA_3693, all ones in and out, without reflection (R393). -/
def crc64 (l : List Byte) : Nat := crcMsb 64 0x42F0E1EBA9EA3693 (2 ^ 64 - 1) l ^^^ (2 ^ 64 - 1)

end Sys2Proof.Machine
end

