-- ==== Sys2Proof/Syntax.lean ====
section
/-! DEFINITION. The commands and events of the TZ8: one constructor of `Instr` for each row of the opcode table. -/

namespace Sys2Proof

/-- A stored error that an access meets: the address it strikes, and its kind: 0 for the bits `flips` inverted in the stored
byte and its check bits (data in [7:0], check bits c0 to c4 in [12:8]), 1 for a correctable error, 2 for one that a second read
finds correctable, 3 for an uncorrectable one. -/
structure Upset where
  addr : Nat
  kind : Nat
  flips : Nat
  deriving DecidableEq, Repr

/-- A bank as the host's commands name it: the number in 16B and 8B mode, the bank group and the bank address in BG mode
(R19, R23). -/
inductive BankAddr where
  | flat (n : BitVec 4)
  | grouped (bg ba : BitVec 2)
  deriving DecidableEq, Repr

/-- The bank number, 0 to 15 (R23). -/
def BankAddr.number : BankAddr → Nat
  | .flat n => n.toNat
  | .grouped bg ba => 4 * bg.toNat + ba.toNat

/-- The place of a burst on a channel: bank, row and column (R23). -/
structure BurstAddr where
  bank : BankAddr
  row : Nat
  col : Nat
  deriving DecidableEq, Repr

/-- A chain at its feedback cutoff: its number, and the bytes that have arrived of a frame still returning (R360). -/
structure ChainCut where
  chain : Nat
  part : List Byte
  deriving DecidableEq, Repr

/-- The rows of spec/opcode_table.json. A host command's row names the package queue and the place of the command in
that queue's list of commands not yet answered; a thread's row names its tile, the thread and the fields of the
instruction word (R267); an event's row names the unit it comes from and what the outside supplies. -/
inductive Instr where
  /-- HOST_READ (R16): A host read burst on a host-port channel returns data at the standard read latency, or the fill pattern for unbacked or poisoned words -/
  | hostRead (ch : Nat) (a : BurstAddr) (bl32 : Bool) (ups : List Upset)
  /-- EV_LOST_READ (R34): A host read burst covering the 32-byte block at 0x1000 of the doorbell page returns EV_LOST.COUNT and EV_LOST.SAT and clears both -/
  | evLostRead (ch : Nat)
  /-- HOST_WRITE (R24): A host write burst stores the bytes its data mask enables into a data window, command queue or doorbell register -/
  | hostWrite (ch : Nat) (a : BurstAddr) (beats : List Word16) (mask : Nat) (link : Nat)
  /-- MODE_REGISTER_WRITE (R20): A host mode-register write programs a writable field of a supported feature; fields of unsupported features ignore it -/
  | modeRegisterWrite (ch : Nat) (mr : Nat) (v : Nat)
  /-- MODE_REGISTER_READ (R20): A host mode-register read returns the fixed identity values, the programmed fields or the actual training and calibration status -/
  | modeRegisterRead (ch : Nat) (mr : Nat)
  /-- LINK_TRAINING (R19): A host training command (command bus training, WCK2CK levelling, read DQ calibration, FIFO training, duty-cycle adjust) runs as JESD209-5 defines -/
  | linkTraining (ch : Nat) (kind : Nat) (result : Nat)
  /-- ZQ_CALIBRATION (R19): A ZQ calibration latch command is served as JESD209-5 defines -/
  | zqCalibration (ch : Nat)
  /-- POST_PACKAGE_REPAIR (R19): A post-package repair command is ignored -/
  | postPackageRepair (ch : Nat)
  /-- REFRESH (R21): An all-bank, per-bank or refresh-management command is accepted with no effect -/
  | refresh (ch : Nat) (kind : Nat)
  /-- POWER_DOWN_ENTRY (R22): Power-down entry puts the channel's receivers into their low-power state and changes nothing else -/
  | powerDownEntry (ch : Nat)
  /-- POWER_DOWN_EXIT (R22): Power-down exit takes the channel's receivers out of their low-power state -/
  | powerDownExit (ch : Nat)
  /-- SELF_REFRESH_ENTRY (R22): Self-refresh entry on a channel; with SR_HINT set and both channels asleep the host counts as idle -/
  | selfRefreshEntry (ch : Nat) (pd : Bool)
  /-- SELF_REFRESH_EXIT (R22): Self-refresh exit is served at tXSR; host idle and its gating end -/
  | selfRefreshExit (ch : Nat)
  /-- DEEP_SLEEP_ENTRY (R22): Deep sleep entry is treated as self-refresh entry -/
  | deepSleepEntry (ch : Nat)
  /-- DEEP_SLEEP_EXIT (R22): Deep sleep exit is served at tXDSM; host idle ends -/
  | deepSleepExit (ch : Nat)
  /-- RESET_N_ASSERT (R37): RESET_N assertion resets only the port's interface state on both channels -/
  | resetNAssert
  /-- RESET_N_RELEASE (R37): RESET_N release makes the TZ8 write a HOST_RESET record, or one after DEVICE_START if released before acceptance -/
  | resetNRelease
  /-- SQ_TAIL_WRITE (R52): A host write of SQ_TAIL submits slots to a queue, or is ignored and counted in CMDQ.DISCARD when it would shrink the unread count -/
  | sqTailWrite (q : Nat) (v : Nat)
  /-- RQ_HEAD_WRITE (R52): A host write of RQ_HEAD frees reply-ring slots, or is ignored and counted when it would pass RQ_TAIL -/
  | rqHeadWrite (q : Nat) (v : Nat)
  /-- EV_HEAD_WRITE (R35): A host write of EV_HEAD frees event-ring slots, or is ignored and counted in EV_DISCARD when it would pass EV_TAIL -/
  | evHeadWrite (ch : Nat) (v : Nat)
  /-- COMMAND_READ (R54): In round-robin over the queues, the TZ8 reads a command's slots and applies the checks of R54 in order, consuming slots and advancing EXPECT_SEQ -/
  | commandRead (ups : List Upset)
  /-- COMMAND_DISPATCH (R61): A read command is dispatched once no hold of R61, R62 or start-up bring-up applies -/
  | commandDispatch (q : Nat)
  /-- COMMAND_COMPLETE (R60): A command's execution completes and its final reply is written, or held in the reorder window behind earlier replies -/
  | commandComplete (q : Nat)
  /-- DEADLINE_PASSED (R63): A command's relative deadline expires; before execution it replies DEADLINE_MISSED, during execution it is judged at completion -/
  | deadlinePassed (q : Nat) (k : Nat)
  /-- SYS_PING (R66): sys.ping returns its value in RESULT -/
  | sysPing (q : Nat) (k : Nat)
  /-- SYS_REG_READ (R443): sys.reg.read returns a register's contents, clearing any RC fields in the same access -/
  | sysRegRead (q : Nat) (k : Nat)
  /-- SYS_REG_WRITE (R443): sys.reg.write writes the masked bits of a register and returns its read-back without clearing RC fields -/
  | sysRegWrite (q : Nat) (k : Nat)
  /-- REGISTER_WRITE (R443): A write to a register field with no behaviour of its own stores the value, keeping the old value for out-of-range writes -/
  | registerWrite (a : Nat) (v : Nat) (mask : Nat)
  /-- TILE_ARITH_STATUS_WRITE (R98): A write of 0 to a bit of TILE.ARITH_STATUS clears it, unless hardware sets it in the same access -/
  | tileArithStatusWrite (t : Nat) (v : Nat) (mask : Nat)
  /-- LOOP_SAT_CLEAR (R363): Writing 1 to STROKE.LOOP.SAT_SECT or SAT_OUT bits clears those sticky saturation flags -/
  | loopSatClear (l : Nat) (v : Nat) (mask : Nat)
  /-- CAP_LIMIT_WRITE (R495): A write to CAP.LIMIT acts as pwr.cap would -/
  | capLimitWrite (v : Nat) (mask : Nat)
  /-- CAP_SAG_WRITE (R495): A write to CAP.SAG acts as pwr.sag would -/
  | capSagWrite (v : Nat) (mask : Nat)
  /-- TIER_POOL_WRITE (R165): A write to TIER.COX_POOL, NVS_POOL or T1_RESERVE is applied or refused so that allocations stay inside and the reserve never meets the pool -/
  | tierPoolWrite (a : Nat) (v : Nat) (mask : Nat)
  /-- FUSE_S_RING_WRITE (R352): A write to FUSE.S_RING sets a stream's input ring, or is ignored while fusion is enabled or for a bad ring -/
  | fuseSRingWrite (i : Nat) (v : Nat) (mask : Nat)
  /-- SAFE_VERDICT_WRITE (R421): A write to SAFE.VERDICT names the verdict ring, or keeps the old value for a misplaced or misaligned ring -/
  | safeVerdictWrite (v : Nat) (mask : Nat)
  /-- SYS_STATUS (R68): sys.status writes the integrity table or the voltage table to dest -/
  | sysStatus (q : Nat) (k : Nat)
  /-- SYS_COUNTER_READ (R443): sys.counter.read returns a counter by ID, clearing it atomically when clear is 1 -/
  | sysCounterRead (q : Nat) (k : Nat)
  /-- SYS_EVENT_MASK (R73): sys.event.mask enables or disables a class 0 or 1 event code -/
  | sysEventMask (q : Nat) (k : Nat)
  /-- SYS_QUEUE_SYNC (R56): sys.queue.sync sets the queue's EXPECT_SEQ to its SEQ + 1 and returns the previous value -/
  | sysQueueSync (q : Nat) (k : Nat)
  /-- MEM_PULL (R150): mem.pull copies bytes from a data window into the T1 or NVS host region -/
  | memPull (q : Nat) (k : Nat) (ups : List Upset)
  /-- MEM_PUSH (R150): mem.push copies bytes from the T1 or NVS host region into a data window, replying POISONED when poison enters the window -/
  | memPush (q : Nat) (k : Nat) (ups : List Upset)
  /-- MEM_COPY (R150): mem.copy copies between host-region ranges of T1 and NVS as if the source were read first -/
  | memCopy (q : Nat) (k : Nat) (ups : List Upset)
  /-- MEM_FILL (R150): mem.fill writes a repeated 8-byte pattern into a host-region range -/
  | memFill (q : Nat) (k : Nat)
  /-- MEM_MODE (R174): mem.mode converts a T1 host-region range between byte mode and line mode, line by line -/
  | memMode (q : Nat) (k : Nat)
  /-- MEM_SCRUB (R186): mem.scrub sets the scrub lap limit and enable and returns the last lap time -/
  | memScrub (q : Nat) (k : Nat)
  /-- MEM_SPILLAREA (R149): mem.spillarea sets or removes the KV spill area in the NVS pool -/
  | memSpillarea (q : Nat) (k : Nat)
  /-- MODEL_LOAD (R272): model.load checks and verifies an image, writes its home copy to NVS and copies it to the requested tier -/
  | modelLoad (q : Nat) (k : Nat)
  /-- MODEL_EVICT (R162): model.evict frees every copy of an unpinned model once it is not in use -/
  | modelEvict (q : Nat) (k : Nat)
  /-- MODEL_PIN (R163): model.pin pins or unpins a model and returns the previous pin -/
  | modelPin (q : Nat) (k : Nat)
  /-- MODEL_SWAP (R274): model.swap checks compatibility and holds steps of both models until the swap takes effect -/
  | modelSwap (q : Nat) (k : Nat)
  /-- MODEL_SWAP_EFFECT (R274): Once no step of the old model is in use, its contexts are rebound to the new model, its copies freed and MODEL_SWAPPED raised -/
  | modelSwapEffect (old : Nat)
  /-- MODEL_TIER (R162): model.tier promotes or demotes a model between cold, warm and hot, evicting least recently used models for room -/
  | modelTier (q : Nat) (k : Nat)
  /-- MODEL_INFO (R275): model.info writes the 64-byte model record to dest -/
  | modelInfo (q : Nat) (k : Nat)
  /-- JOB_SUBMIT (R279): job.submit checks phase order and parameters and makes step 0 of its batch steps ready -/
  | jobSubmit (q : Nat) (k : Nat)
  /-- JOB_CANCEL (R281): job.cancel removes the context's undispatched steps and discards a spilled one -/
  | jobCancel (q : Nat) (k : Nat)
  /-- SCHED_CLIENT (R276): sched.client registers or re-registers a client with a class and weight -/
  | schedClient (q : Nat) (k : Nat)
  /-- SCHED_STATS (R305): sched.stats writes per-client accounting records, capturing and clearing them atomically when asked -/
  | schedStats (q : Nat) (k : Nat)
  /-- SEM_ALLOC (R296): sem.alloc allocates the lowest run of free semaphores, each starting taken with no holder -/
  | semAlloc (q : Nat) (k : Nat)
  /-- SEM_FREE (R296): sem.free frees a range of the client's semaphores that have no holder and no waiter -/
  | semFree (q : Nat) (k : Nat)
  /-- CTX_OPEN (R209): ctx.open allocates the lowest free context ID and initialises a sequence, job or planner-query descriptor -/
  | ctxOpen (q : Nat) (k : Nat)
  /-- CTX_CLOSE (R210): ctx.close frees a context and its pages, slots and directory, breaking any semaphores it holds -/
  | ctxClose (q : Nat) (k : Nat)
  /-- KV_APPEND (R226): kv.append converts and appends tokens to every named list, all or nothing -/
  | kvAppend (q : Nat) (k : Nat)
  /-- KV_TRIM (R226): kv.trim drops front and back tokens of every list of a context -/
  | kvTrim (q : Nat) (k : Nat)
  /-- KV_MOVE (R226): kv.move spills a page range to NVS or fetches it back to T1 and waits for completion -/
  | kvMove (q : Nat) (k : Nat)
  /-- KV_FETCH (R226): kv.fetch starts fetches of a page range's SPILLED pages without waiting -/
  | kvFetch (q : Nat) (k : Nat)
  /-- KV_STATS (R227): kv.stats writes a context's KV header and per-list record to dest -/
  | kvStats (q : Nat) (k : Nat)
  /-- PLAN_LATTICE (R309): plan.lattice validates and registers, replaces or removes a lattice table -/
  | planLattice (q : Nat) (k : Nat)
  /-- PLAN_MAP (R312): plan.map makes a new occupancy map version current -/
  | planMap (q : Nat) (k : Nat)
  /-- PLAN_QUERY (R314): plan.query checks its parameters and queues a search for a planner unit -/
  | planQuery (q : Nat) (k : Nat)
  /-- PLAN_CANCEL (R319): plan.cancel ends a running query with TIMEOUT and CANCELLED -/
  | planCancel (q : Nat) (k : Nat)
  /-- PLAN_SEARCH_END (R316): A planner search ends by selecting a goal or with an empty queue -/
  | planSearchEnd (u : Nat) (cut : Nat)
  /-- FUSE_STREAM (R327): fuse.stream configures or removes a fusion input stream -/
  | fuseStream (q : Nat) (k : Nat)
  /-- FUSE_XFORM (R334): fuse.xform writes one transform table entry -/
  | fuseXform (q : Nat) (k : Nat)
  /-- FUSE_LINK (R336): fuse.link binds a moving-link stream to a chain joint and sets its refinement limit -/
  | fuseLink (q : Nat) (k : Nat)
  /-- FUSE_TRACKS (R346): fuse.tracks sets the track confirmation, deletion, age and late-sample settings -/
  | fuseTracks (q : Nat) (k : Nat)
  /-- FUSE_OUT (R349): fuse.out names the fusion output ring -/
  | fuseOut (q : Nat) (k : Nat)
  /-- FUSE_ENABLE (R351): fuse.enable starts fusion after its checks, or stops it and deletes every track -/
  | fuseEnable (q : Nat) (k : Nat)
  /-- STROKE_CHAIN (R353): stroke.chain configures or stops a joint chain -/
  | strokeChain (q : Nat) (k : Nat)
  /-- STROKE_LOOP (R364): stroke.loop loads a loop's compensator sections and clears its histories and flags -/
  | strokeLoop (q : Nat) (k : Nat)
  /-- STROKE_PROFILE (R366): stroke.profile sets a loop's velocity, acceleration and jerk limits -/
  | strokeProfile (q : Nat) (k : Nat)
  /-- STROKE_LIMIT (R369): stroke.limit sets a loop's following-error limit, timer and fault action -/
  | strokeLimit (q : Nat) (k : Nat)
  /-- STROKE_TARGET (R368): stroke.target sets a loop's target from the next sample instant -/
  | strokeTarget (q : Nat) (k : Nat)
  /-- STROKE_ENABLE (R370): stroke.enable moves a loop to RUN or OFF -/
  | strokeEnable (q : Nat) (k : Nat)
  /-- STROKE_TUNE (R375): stroke.tune starts a relay auto-tune on a loop in RUN -/
  | strokeTune (q : Nat) (k : Nat)
  /-- STROKE_FF (R374): stroke.ff sets a chain's feed-forward decay -/
  | strokeFf (q : Nat) (k : Nat)
  /-- SAFE_JOB (R402): safe.job marks a model safety-relevant with its golden input and known output, or removes the mark -/
  | safeJob (q : Nat) (k : Nat)
  /-- SAFE_FROZEN (R419): safe.frozen enables or disables a port's frozen-frame detector -/
  | safeFrozen (q : Nat) (k : Nat)
  /-- SAFE_SELFTEST (R420): safe.selftest writes the umpires' self-test report to dest -/
  | safeSelftest (q : Nat) (k : Nat)
  /-- PWR_CAP (R480): pwr.cap sets the package power cap and the throttle order -/
  | pwrCap (q : Nat) (k : Nat)
  /-- PWR_SAG (R489): pwr.sag sets the sag warning and reset levels and the sag cap -/
  | pwrSag (q : Nat) (k : Nat)
  /-- PWR_HINT (R478): pwr.hint announces a coming power level so boosts are held back and VDD_CORE raised in time -/
  | pwrHint (q : Nat) (k : Nat)
  /-- PWR_STATE (R451): pwr.state moves between Row and Paddle at once, or starts entry to Easy or Moored -/
  | pwrState (q : Nat) (k : Nat)
  /-- PWR_LOCK (R487): pwr.lock locks or unlocks the rating of the named compute domains -/
  | pwrLock (q : Nat) (k : Nat)
  /-- CLK_SOURCE (R465): clk.source moves the cox between the RC oscillator and the PLL -/
  | clkSource (q : Nat) (k : Nat)
  /-- CLK_OUT (R469): clk.out sets or stops a clock output's frequency and spread -/
  | clkOut (q : Nat) (k : Nat)
  /-- NET_PORT (R382): net.port sets a port's role, PHY mode and default VID -/
  | netPort (q : Nat) (k : Nat)
  /-- NET_VLAN (R398): net.vlan creates, changes or removes a VLAN -/
  | netVlan (q : Nat) (k : Nat)
  /-- NET_SHAPER (R388): net.shaper sets or removes a credit-based shaper on a port's queue class -/
  | netShaper (q : Nat) (k : Nat)
  /-- NET_FILTER (R389): net.filter sets or removes a stream filter and flow meter -/
  | netFilter (q : Nat) (k : Nat)
  /-- NET_TEMPLATE (R391): net.template copies an intake template into a template slot or removes it -/
  | netTemplate (q : Nat) (k : Nat)
  /-- NET_KEY (R396): net.key installs or removes a MACsec association on a trunk port -/
  | netKey (q : Nat) (k : Nat)
  /-- FAULT_STATUS (R444): fault.status writes the fault header and one entry per unit to dest -/
  | faultStatus (q : Nat) (k : Nat)
  /-- FAULT_RETIRE (R439): fault.retire retires a named unit with cause 8 -/
  | faultRetire (q : Nat) (k : Nat)
  /-- FAULT_PROBE (R441): fault.probe probes a quarantined unit, or reports the state of any other -/
  | faultProbe (q : Nat) (k : Nat)
  /-- FAULT_BUCKET (R430): fault.bucket sets the retirement threshold and window for a unit type -/
  | faultBucket (q : Nat) (k : Nat)
  /-- FW_STAGE (R502): fw.stage verifies a firmware image and loads it into the standby cox pair -/
  | fwStage (q : Nat) (k : Nat)
  /-- FW_HANDOVER (R503): fw.handover makes the standby pair active with its staged image -/
  | fwHandover (q : Nat) (k : Nat)
  /-- START_IMAGE_SLOT_WRITE (R503): After a handover the new image is written to the current start-image slot and the old becomes previous -/
  | startImageSlotWrite
  /-- STANDBY_RELOADED (R503): The former active pair is loaded with the new image and starts shadowing -/
  | standbyReloaded (pass : Bool)
  /-- SEC_KEY (R260): sec.key writes or revokes a one-time-programmable key slot -/
  | secKey (q : Nat) (k : Nat)
  /-- SEC_VERIFY (R260): sec.verify checks an image's header and signature without loading it -/
  | secVerify (q : Nat) (k : Nat)
  /-- ALU_REG (R267): A thread executes a register-register scalar operation -/
  | aluReg (t : Nat) (th : Nat) (mod : Nat) (rd : Nat) (ra : Nat) (rb : Nat)
  /-- ALU_IMM (R267): A thread executes a register-immediate scalar operation -/
  | aluImm (t : Nat) (th : Nat) (mod : Nat) (rd : Nat) (ra : Nat) (imm : Nat)
  /-- COMPARE (R267): A thread sets its condition flag from a comparison -/
  | compare (t : Nat) (th : Nat) (mod : Nat) (ra : Nat) (rb : Nat)
  /-- BRANCH (R267): A thread branches always or on its condition flag -/
  | branch (t : Nat) (th : Nat) (mod : Nat) (imm : Nat)
  /-- LOAD (R123): A thread loads from T0, T1 or a host window through its tile's read cache or uncached -/
  | load (t : Nat) (th : Nat) (mod : Nat) (rd : Nat) (ra : Nat) (imm : Nat) (ups : List Upset)
  /-- STORE (R123): A thread stores to memory, updating its own read cache and the write-combining buffer -/
  | store (t : Nat) (th : Nat) (mod : Nat) (ra : Nat) (rb : Nat) (imm : Nat)
  /-- ATOMIC (R123): A thread performs an atomic at home and receives the old value -/
  | atomic (t : Nat) (th : Nat) (mod : Nat) (rd : Nat) (ra : Nat) (rb : Nat)
  /-- VECTOR_LOAD (R110): A thread loads 256 bytes from T0 into a vector register -/
  | vectorLoad (t : Nat) (th : Nat) (rd : Nat) (ra : Nat) (imm : Nat)
  /-- VECTOR_STORE (R110): A thread stores a vector register's 256 bytes to T0 -/
  | vectorStore (t : Nat) (th : Nat) (rd : Nat) (ra : Nat) (imm : Nat)
  /-- VECTOR_OP (R95): A thread executes a 64-lane IEEE 754 vector operation -/
  | vectorOp (t : Nat) (th : Nat) (mod : Nat) (rd : Nat) (ra : Nat) (rb : Nat)
  /-- PREFIX_SCAN (R111): A thread runs a prefix scan over each half of a vector register -/
  | prefixScan (t : Nat) (th : Nat) (mod : Nat) (rd : Nat) (ra : Nat) (rb : Nat)
  /-- ARR_RUN (R106): A thread starts an array operation from an array descriptor -/
  | arrRun (t : Nat) (th : Nat) (ra : Nat) (rb : Nat)
  /-- ARR_CONV (R235): A thread starts a direct or block-diagonal convolution pass on an array -/
  | arrConv (t : Nat) (th : Nat) (ra : Nat) (rb : Nat)
  /-- ARR_WAIT (R109): A thread blocks until an array's last operation has written its output and flags -/
  | arrWait (t : Nat) (th : Nat) (rb : Nat)
  /-- ARRAY_REDUCTION_DONE (R109): An array finishes an operation's reduction steps and, with CONV set, starts output conversion -/
  | arrayReductionDone (t : Nat) (a : Nat)
  /-- OUTPUT_CONVERSION_DONE (R107): An array finishes converting a tile, writes its outputs and scales and ORs its flags -/
  | outputConversionDone (t : Nat) (a : Nat)
  /-- SWEEP_RUN (R191): A thread issues a sweep descriptor to the package sweep queue -/
  | sweepRun (t : Nat) (th : Nat) (ra : Nat)
  /-- SWEEP_WAIT (R191): A thread blocks until every sweep it issued has finished -/
  | sweepWait (t : Nat) (th : Nat)
  /-- SWEEP_COMPLETE (R199): A sweep finishes its last block and writes outputs, statistics, merges and appends -/
  | sweepComplete (p : Nat)
  /-- KV_GRACE_EXPIRED (R224): A page the walker needs is not readable by its KV grace deadline and is replaced by its summary pseudo-token -/
  | kvGraceExpired (p : Nat) (list : Nat) (page : Nat)
  /-- KV_FETCH_COMPLETE (R214): A page's fetch from NVS completes and the page becomes CLEAN -/
  | kvFetchComplete (ctx : Nat) (list : Nat) (page : Nat)
  /-- KV_SPILL_DURABLE (R214): A spilling page's NVS copy becomes durable and, once HOLDS is 0, its frame is freed -/
  | kvSpillDurable (ctx : Nat) (list : Nat) (page : Nat)
  /-- XF_RUN (R244): A thread issues a transform descriptor to the package transform queue -/
  | xfRun (t : Nat) (th : Nat) (ra : Nat)
  /-- XF_WAIT (R244): A thread blocks until every transform run it issued has finished -/
  | xfWait (t : Nat) (th : Nat)
  /-- XF_RUN_COMPLETE (R250): A transform engine finishes a SPECTRUM or CONVOLVE run and writes its outputs -/
  | xfRunComplete (e : Nat)
  /-- POOL_RUN (R252): A thread starts a pooling or channel argmax operation on the vector unit -/
  | poolRun (t : Nat) (th : Nat) (ra : Nat)
  /-- POOL_COMPLETE (R254): A pool operation writes its outputs and flags and the issuing thread is released -/
  | poolComplete (t : Nat)
  /-- BOW_START (R126): A thread starts a bow engine on a stream after a fence.dev -/
  | bowStart (t : Nat) (th : Nat) (ra : Nat) (rb : Nat)
  /-- BOW_WAIT (R126): A thread blocks until every STORE of the engine's stream is performed at home -/
  | bowWait (t : Nat) (th : Nat) (rb : Nat)
  /-- BOW_DESCRIPTOR (R127): A bow engine executes the next access descriptor once run-ahead and slot state allow -/
  | bowDescriptor (t : Nat) (e : Nat) (ups : List Upset)
  /-- FILL_COMPLETE (R129): A LOAD's last byte lands, the slot becomes FULL and waiting threads wake, or a discarded late fill empties its slot -/
  | fillComplete (t : Nat) (slot : Nat)
  /-- DRAIN_COMPLETE (R129): A STORE's drain is performed at home and its slot becomes EMPTY -/
  | drainComplete (t : Nat) (slot : Nat)
  /-- BUF_WAIT (R157): A thread waits on a buffer slot, returning RD 0 when full or RD 1 past a fetch deadline -/
  | bufWait (t : Nat) (th : Nat) (rd : Nat) (imm : Nat)
  /-- BUF_POST (R129): A thread posts an empty slot for a STORE -/
  | bufPost (t : Nat) (th : Nat) (imm : Nat)
  /-- BUF_RELEASE (R129): A thread releases a full slot, or a late filling slot whose data will be discarded -/
  | bufRelease (t : Nat) (th : Nat) (imm : Nat)
  /-- STEP_DONE (R128): A thread increments the tile's COMPLETED count -/
  | stepDone (t : Nat) (th : Nat)
  /-- FENCE_TILE (R124): A thread orders its memory operations as seen within the tile -/
  | fenceTile (t : Nat) (th : Nat)
  /-- FENCE_DEV (R124): A thread waits until its earlier stores and atomics are acknowledged at home -/
  | fenceDev (t : Nat) (th : Nat)
  /-- FLUSH (R124): A thread sends the tile's write-combining lines in a range home -/
  | flush (t : Nat) (th : Nat) (ra : Nat) (rb : Nat)
  /-- INVAL (R124): A thread discards the tile's read-cache lines in a range -/
  | inval (t : Nat) (th : Nat) (ra : Nat) (rb : Nat)
  /-- CREW_BARRIER (R117): A rank arrives at the crew barrier, which completes once every rank has arrived -/
  | crewBarrier (t : Nat) (th : Nat)
  /-- LAYER_LATE (R155): A rank arrives at layer.late, a barrier that returns 1 to all ranks when any layer LOAD missed its fetch deadline -/
  | layerLate (t : Nat) (th : Nat) (rd : Nat) (imm : Nat)
  /-- FETCH_DEADLINE (R155): A DEADLINE LOAD's fetch deadline passes, waking blocked buf.wait with RD 1 -/
  | fetchDeadline (t : Nat) (slot : Nat)
  /-- SEM_ACQUIRE (R296): A thread takes a semaphore, with BROKEN status if it was broken, or blocks -/
  | semAcquire (t : Nat) (th : Nat) (rd : Nat) (ra : Nat)
  /-- SEM_RELEASE (R296): A thread fences and frees a semaphore, handing it to the highest-class longest waiter -/
  | semRelease (t : Nat) (th : Nat) (ra : Nat)
  /-- BOOST_EXPIRED (R298): A boost lasting 50 µs tears the holder down and breaks its semaphores -/
  | boostExpired (sem : Nat)
  /-- THREAD_EXIT (R114): A thread exits; the tile's part of the step ends once all threads exited and engines drained -/
  | threadExit (t : Nat) (th : Nat)
  /-- STEP_END (R114): Every tile of the crew has ended its part and the batch step ends -/
  | stepEnd (ctx : Nat)
  /-- SPILL_DRAIN_COMPLETE (R291): A spilling crew finishes draining its arrays, runs, fills and drains -/
  | spillDrainComplete (ctx : Nat)
  /-- SPILL_SAVE_COMPLETE (R291): A spilling crew's save records are written and the crew dissolves -/
  | spillSaveComplete (ctx : Nat)
  /-- RESUME_ISSUE (R294): Restore completes and the resumed step's threads and engines issue again -/
  | resumeIssue (ctx : Nat)
  /-- TEARDOWN_COMPLETE (R133): The torn-down crew is idle, its job.submit replies TORN_DOWN and CONTEXT_TORN_DOWN is raised -/
  | teardownComplete (ctx : Nat)
  /-- LINE_FRAME_ARRIVAL (R142): A T1 or NVS line frame arrives and is checked; a mismatch is a link error -/
  | lineFrameArrival (a : Nat) (write : Bool) (errs : List Byte) (ups : List Upset)
  /-- STACK_REFRESH (R143): A T1 stack refreshes its own arrays inside the base die -/
  | stackRefresh (stack : Nat)
  /-- NVS_PAGE_WRITE_DURABLE (R147): An NVS page write becomes durable, atomically -/
  | nvsPageWriteDurable (page : Nat)
  /-- NVS_PATROL (R183): An NVS stack patrols pages in spare time and rewrites those past its threshold -/
  | nvsPatrol (page : Nat) (corrected : Nat)
  /-- SCRUB_ACCESS (R185): In idle time the scrubber reads, corrects and writes back lines of T0 or T1 -/
  | scrubAccess (a : Nat) (ups : List Upset)
  /-- SCRUB_LAP_ALARM (R186): A lap in progress reaches LIMIT_MS without completing and raises SCRUB_LAP_ALARM -/
  | scrubLapAlarm
  /-- T1_CHECK_SELFTEST (R176): The cox runs the check-logic self-test on the next T1 channel of the rotation -/
  | t1CheckSelftest (pass : Bool)
  /-- REBUILD_GRANULE_COPY (R184): The cox copies a retired T1 channel's granule to its remap home -/
  | rebuildGranuleCopy (g : Nat) (lost : Nat)
  /-- NVS_REBUILD_PAGE (R437): A page of a retired NVS channel is copied to its remap home -/
  | nvsRebuildPage (page : Nat) (lost : Bool)
  /-- INPUT_SLOT_READY (R329): The fusion engine sees the next expected input slot's READY word become non-zero and consumes the slot -/
  | inputSlotReady (i : Nat)
  /-- COASTED_INSTANT (R337): No lead frame arrives by T_last + 1.5 P̂_lead and a coasted instant is formed -/
  | coastedInstant
  /-- INSTANT_CLOSE (R342): An instant closes when its due entries are ready or its close deadline passes, and is processed in order -/
  | instantClose
  /-- DEGRADED_RECORD (R11): While the die bridge is down the cox writes a level-4 record at each instant the lead would have formed -/
  | degradedRecord
  /-- SAMPLE_INSTANT (R354): A chain's byte-clock count reaches the next cycle start, which is the cycle's sample instant -/
  | sampleInstant (c : Nat)
  /-- CHAIN_FRAME_RETURN (R360): A returning chain frame's feedback words are checked and each valid word drives its loop's sample -/
  | chainFrameReturn (c : Nat) (frame : List Byte)
  /-- FEEDBACK_CUTOFF (R360): The cutoff 0.5 µs before the next sample instant passes and the cycle's feedback is settled -/
  | feedbackCutoff (c : ChainCut)
  /-- CHAIN_CLOCK_LOST (R355): A chain's recovered clock is lost; the chain switches to the fallback or stops -/
  | chainClockLost (c : Nat)
  /-- FF_COMMIT (R373): A store to a chain's COMMIT word submits a feed-forward frame, which is accepted as pending or refused -/
  | ffCommit (c : Nat)
  /-- FRAME_RECEIVE (R383): A frame received on a sensor or trunk port is classified, filtered, learnt and forwarded or taken by a template -/
  | frameReceive (port : Nat) (frame : List Byte) (bad : Bool)
  /-- FRAME_TRANSMIT (R384): An egress port starts sending the frame of the highest eligible queue -/
  | frameTransmit (port : Nat)
  /-- PORT_LINK (R382): A port's link comes up or goes down and PORT_LINK is raised -/
  | portLink (port : Nat) (up : Bool)
  /-- FDB_AGE_OUT (R383): A learnt address is aged out after AGE_S seconds without a frame from it -/
  | fdbAgeOut (i : Nat)
  /-- CHECK_RECORD (R404): A checked chain's record reaches the comparator and is judged exact, bounded or uncheckable -/
  | checkRecord (t : Nat) (a : Nat)
  /-- CHECK_RECORD_TIMEOUT (R404): No record arrives within 2 µs of a chain's end while the bridge is up, a disagreement -/
  | checkRecordTimeout (t : Nat) (a : Nat)
  /-- GOLDEN_COMPARE (R408): The golden comparator forms the golden pass's signature and compares it with the expected one -/
  | goldenCompare (ctx : Nat)
  /-- TILE_TEST_DONE (R412): The tile tests run after a golden mismatch finish and failing tiles are charged -/
  | tileTestDone (ctx : Nat) (fails : List Byte)
  /-- SEGMENT_START (R416): An umpire's next self-test segment starts when no safety step runs or is predicted on its tiles -/
  | segmentStart (u : Nat)
  /-- SEGMENT_END (R415): A self-test segment ends and, after the sixteenth, a complete test clears the stale bit -/
  | segmentEnd (u : Nat) (pass : Bool)
  /-- TEST_DEFERRAL (R417): 90 ms into the latent-fault interval the umpire requests gap holds for its remaining segments -/
  | testDeferral (u : Nat)
  /-- CHECKER_TEST_OVERDUE (R417): 100 ms pass without a complete test; the umpire is marked stale and the event raised -/
  | checkerTestOverdue (u : Nat)
  /-- GAP_HOLD_ELAPSED (R302): A requested self-test gap has passed with no held step running and the hold ends -/
  | gapHoldElapsed (u : Nat)
  /-- INTERNAL_CHECK_ERROR (R433): A unit's own parity or residue check finds a mismatch and the unit is charged -/
  | internalCheckError (ty : Nat) (n : Nat)
  /-- PROBE_RESULT (R441): A quarantined unit's probe passes, restoring it, or fails, retiring it with cause 7 -/
  | probeResult (ty : Nat) (n : Nat) (pass : Bool)
  /-- PROBE_TIMEOUT (R440): 1 ms passes without a probe result and the unit is retired with cause 7 -/
  | probeTimeout (ty : Nat) (n : Nat)
  /-- PATH_COMPARE (R440): The cox compares the management and data paths every 100 µs and fences units where they disagree -/
  | pathCompare
  /-- FENCE_NOT_CONFIRMED (R440): A retired unit's fence is not confirmed within 1 ms and its domain is switched off -/
  | fenceNotConfirmed (ty : Nat) (n : Nat)
  /-- DIE_BRIDGE_SILENCE (R11): The die bridge delivers no valid token for 10 µs; compute-die units are fenced and quarantined and DIE_BRIDGE_DOWN raised -/
  | dieBridgeSilence
  /-- DIE_BRIDGE_RESTORED (R11): The retrained bridge carries valid tokens within 1 ms; units are probed, restored and DIE_BRIDGE_UP raised -/
  | dieBridgeRestored (answers : List Byte)
  /-- DIE_BRIDGE_RETRAIN_TIMEOUT (R11): The bridge stays silent for 1 ms and every compute-die unit is retired -/
  | dieBridgeRetrainTimeout
  /-- DOMAIN_GATE (R448): In Paddle a domain idle for IDLE_US is gated off -/
  | domainGate (d : Nat)
  /-- AGENT_ANSWER (R452): A domain agent answers a state-entry request with ACCEPT, REFUSE or DELAY -/
  | agentAnswer (d : Nat)
  /-- AGENT_DELAY_TIMEOUT (R452): A delaying agent's bound passes without an answer and it counts as refusing -/
  | agentDelayTimeout (d : Nat)
  /-- ENTRY_POINT_REACHED (R453): An entry stage ends at its abort point, where the entry proceeds or is abandoned -/
  | entryPointReached
  /-- RAILS_OFF (R455): The target state's rails are switched off and, for Moored, RAILS_EN falls after the 100 µs port window -/
  | railsOff
  /-- TIMER_WAKE (R456): The elapsed count reaches PWR.TIMER.AT and the TIMER wake source fires -/
  | timerWake
  /-- SAG_RISE (R456): VSYS_SENSE stays above warning plus hysteresis for 1 ms and fires SAG_RISE -/
  | sagRise
  /-- LINK_ENERGY (R456): Energy detected on a 10GBASE-T1 port fires its LINK wake source -/
  | linkEnergy (port : Nat)
  /-- CALL_TOKEN (R461): A dual-rail token arrives on the call port and CALL_ACK answers it -/
  | callToken (b : Bool)
  /-- EASY_RETURN_STAGE (R457): A stage of the return from Easy completes: domains on, T1 retrained, retention restored, compute up, umpire tests done -/
  | easyReturnStage
  /-- JUDGE_WINDOW (R464): A clock judge window ends and the candidate is judged passing or lost, becoming stable after K passes -/
  | judgeWindow (c : Nat) (n : Nat)
  /-- CLOCK_NO_EDGE (R464): A stable candidate shows no edge for 4 nominal periods and is lost -/
  | clockNoEdge (c : Nat)
  /-- CAP_CONTROL_TICK (R482): Every 100 µs E and M are updated and the controller throttles, unthrottles or boosts against the effective cap -/
  | capControlTick (est : Nat) (meas : Nat)
  /-- TELEMETRY_LOST (R485): No valid AVSBus reading for 1 ms; the controller enters NO_TELEMETRY -/
  | telemetryLost
  /-- MISMATCH_TIMER (R485): A disagreement lasting 5 ms enters MISMATCH and raises POWER_ESTIMATE_MISMATCH -/
  | mismatchTimer
  /-- AGREEMENT_TIMER (R485): Agreement or valid readings for 100 ms return the controller toward AGREE -/
  | agreementTimer
  /-- UNRELIABLE_TIMER (R485): 1 s of disagreement marks the estimate unreliable -/
  | unreliableTimer
  /-- THERMAL_LIMIT (R484): A sensor within 2 °C of the maximum lowers compute domains one point each 100 µs until 5 °C below -/
  | thermalLimit (temp : Int)
  /-- TEMPERATURE_BAND_CHANGE (R474): A domain's hottest sensor crosses a band edge and its voltage follows the new band -/
  | temperatureBandChange (d : Nat) (temp : Int)
  /-- HINT_INTERVAL_BEGIN (R478): A hint's interval begins 50 µs before t_h, holding boosts and raising VDD_CORE -/
  | hintIntervalBegin (i : Nat)
  /-- HINT_LAPSE (R479): A hint's interval lapses at t_h + 1 ms -/
  | hintLapse (i : Nat)
  /-- RATING_SLIP (R488): A locked domain does not take a pacing token within its period and a slip is counted -/
  | ratingSlip (d : Nat)
  /-- RATING_SLIP_REPORT (R488): For each 1 ms in which a domain slipped, one RATING_SLIP event is raised -/
  | ratingSlipReport
  /-- SAG_WARN_FALL (R491): VSYS_SENSE falls below the warning level and the sag chain takes force -/
  | sagWarnFall
  /-- SAG_WARN_RISE (R491): VSYS_SENSE rises above warning plus 20 mV and CONFIRMING starts its 1 ms timer -/
  | sagWarnRise
  /-- SAG_CONFIRMED (R493): 1 ms of CONFIRMING passes; the sag chain ends and SAG_WARN is raised -/
  | sagConfirmed
  /-- SAG_RESET_FALL (R491): VSYS_SENSE falls below the reset level and the device resets, or in Moored only counts -/
  | sagResetFall
  /-- SUPPLY_VALID (R511): A rail stays above its valid threshold for 5 µs and is judged valid -/
  | supplyValid (r : Nat)
  /-- SUPPLY_LOSS (R512): A rail below its threshold restarts the start sequence or resets the device -/
  | supplyLoss (r : Nat)
  /-- AON_BROWNOUT (R459): The always-on supply browns out in Moored and the device makes a cold start with START_CAUSE 2 -/
  | aonBrownout
  /-- POR_RELEASE (R497): The power-on-reset filter releases 80 µs after the last rail is qualified and RAILS_EN rises -/
  | porRelease
  /-- START_COMPLETE (R497): The start image is verified, SRAM cleared, queues opened and DEVICE_START written; command packets are accepted -/
  | startComplete (currentOk : Bool) (previousOk : Bool)
  /-- BRINGUP_MILESTONE (R498): A background bring-up milestone completes and releases the commands held for it -/
  | bringupMilestone (m : Nat)
  /-- COX_LOCKSTEP_FAIL (R505): The active cox pair's lockstep comparison fails and the standby pair takes over -/
  | coxLockstepFail
  /-- DOMAIN_WAKE_COMPLETE (R448): A gated domain finishes powering up, including a tile pair's poison fill, and the work placed on it starts within its wake latency -/
  | domainWakeComplete (d : Nat)
  /-- WRITE_ACKNOWLEDGED (R124): A thread store, atomic or write-combining line is performed and acknowledged at its home, releasing any fence.dev, flush, sem.release or barrier arrival that waits on it -/
  | writeAcknowledged (t : Nat) (i : Nat)
  deriving DecidableEq, Repr

end Sys2Proof
end

