-- ==== Sys2Proof/Decode.lean ====
section
/-! DEFINITION. The table's words, and the 64-bit instruction words of a tile's threads (R267). -/

namespace Sys2Proof

open Sys2Proof.Machine

/-- The command a word of the opcode table spells: none, because no row of the table gives bits. -/
def decodeTableWord (_nbits _w : Nat) : Option Instr := none

/-- A unit operation: OP 0x10 (R267). -/
def unitInstr (t th mod ra rb : Nat) : Option Instr :=
  match mod with
  | 0 => some (.arrRun t th ra rb)
  | 1 => some (.arrConv t th ra rb)
  | 2 => some (.arrWait t th rb)
  | 3 => some (.sweepRun t th ra)
  | 4 => some (.sweepWait t th)
  | 5 => some (.xfRun t th ra)
  | 6 => some (.xfWait t th)
  | 7 => some (.poolRun t th ra)
  | _ => none

/-- A bow or buffer operation: OP 0x11 (R267). -/
def bowInstr (t th mod rd ra rb imm : Nat) : Option Instr :=
  match mod with
  | 0 => some (.bowStart t th ra rb)
  | 1 => some (.bowWait t th rb)
  | 2 => some (.bufWait t th rd imm)
  | 3 => some (.bufPost t th imm)
  | 4 => some (.bufRelease t th imm)
  | 5 => some (.stepDone t th)
  | _ => none

/-- An order or synchronisation operation: OP 0x12 (R267). -/
def syncInstr (t th mod rd ra rb imm : Nat) : Option Instr :=
  match mod with
  | 0 => some (.fenceTile t th)
  | 1 => some (.fenceDev t th)
  | 2 => some (.flush t th ra rb)
  | 3 => some (.inval t th ra rb)
  | 4 => some (.crewBarrier t th)
  | 5 => some (.layerLate t th rd imm)
  | 6 => some (.semAcquire t th rd ra)
  | 7 => some (.semRelease t th ra)
  | 8 => some (.threadExit t th)
  | _ => none

/-- The row of the table for a 64-bit instruction word that R267 lists: OP in [7:0], RD in [12:8], RA in [17:13], RB in [22:18], MOD in
[31:26], IMM in [63:32], and [25:23] 0. -/
def listedInstrOf (t th w : Nat) : Option Instr :=
  let rd := bits w 12 8
  let ra := bits w 17 13
  let rb := bits w 22 18
  let mod := bits w 31 26
  let imm := bits w 63 32
  if bits w 25 23 ≠ 0 then none
  else match bits w 7 0 with
    | 0x01 => some (.aluReg t th mod rd ra rb)
    | 0x02 => some (.aluImm t th mod rd ra imm)
    | 0x03 => some (.compare t th mod ra rb)
    | 0x04 => some (.branch t th mod imm)
    | 0x05 => some (.load t th mod rd ra imm [])
    | 0x06 => some (.store t th mod ra rb imm)
    | 0x07 => some (.atomic t th mod rd ra rb)
    | 0x08 => if mod = 0 then some (.vectorLoad t th rd ra imm) else if mod = 1 then some (.vectorStore t th rd ra imm) else none
    | 0x09 => some (.vectorOp t th mod rd ra rb)
    | 0x0A => some (.prefixScan t th mod rd ra rb)
    | 0x10 => unitInstr t th mod ra rb
    | 0x11 => bowInstr t th mod rd ra rb imm
    | 0x12 => syncInstr t th mod rd ra rb imm
    | _ => none

/-- The row that stands for a word R267 does not list: ALU_REG with a MOD that no operation has, whose effect is the thread fault of
cause ILLEGAL. DESIGN CHOICE (log entry 12): the table has no row of its own for such a word. -/
def illegalInstr (t th : Nat) : Instr := .aluReg t th 63 0 0 0

/-- The row of the table that thread `th` of tile `t` executes when it reaches a 64-bit instruction word (R267), with no stored
error met. Every word has one: an OP or a MOD that R267 does not list, or non-zero [25:23], is ILLEGAL. -/
def threadInstrOf (t th w : Nat) : Option Instr := some ((listedInstrOf t th w).getD (illegalInstr t th))

/-- The fields of an instruction word put in their places (R267); [25:23] are 0. -/
def threadFields (op rd ra rb mod imm : Nat) : Nat :=
  op + rd * 2 ^ 8 + ra * 2 ^ 13 + rb * 2 ^ 18 + mod * 2 ^ 26 + imm * 2 ^ 32

/-- The tile, the thread and the 64-bit word of a thread's instruction (R267), a field its operation does not have being 0; `none`
for a row that is no instruction, and for a load that meets a stored error, which is no part of a word. -/
def threadWordOf (i : Instr) : Option (Nat × Nat × Nat) :=
  match i with
  | .aluReg t th mod rd ra rb => some (t, th, threadFields 0x01 rd ra rb mod 0)
  | .aluImm t th mod rd ra imm => some (t, th, threadFields 0x02 rd ra 0 mod imm)
  | .compare t th mod ra rb => some (t, th, threadFields 0x03 0 ra rb mod 0)
  | .branch t th mod imm => some (t, th, threadFields 0x04 0 0 0 mod imm)
  | .load t th mod rd ra imm [] => some (t, th, threadFields 0x05 rd ra 0 mod imm)
  | .store t th mod ra rb imm => some (t, th, threadFields 0x06 0 ra rb mod imm)
  | .atomic t th mod rd ra rb => some (t, th, threadFields 0x07 rd ra rb mod 0)
  | .vectorLoad t th rd ra imm => some (t, th, threadFields 0x08 rd ra 0 0 imm)
  | .vectorStore t th rd ra imm => some (t, th, threadFields 0x08 rd ra 0 1 imm)
  | .vectorOp t th mod rd ra rb => some (t, th, threadFields 0x09 rd ra rb mod 0)
  | .prefixScan t th mod rd ra rb => some (t, th, threadFields 0x0A rd ra rb mod 0)
  | .arrRun t th ra rb => some (t, th, threadFields 0x10 0 ra rb 0 0)
  | .arrConv t th ra rb => some (t, th, threadFields 0x10 0 ra rb 1 0)
  | .arrWait t th rb => some (t, th, threadFields 0x10 0 0 rb 2 0)
  | .sweepRun t th ra => some (t, th, threadFields 0x10 0 ra 0 3 0)
  | .sweepWait t th => some (t, th, threadFields 0x10 0 0 0 4 0)
  | .xfRun t th ra => some (t, th, threadFields 0x10 0 ra 0 5 0)
  | .xfWait t th => some (t, th, threadFields 0x10 0 0 0 6 0)
  | .poolRun t th ra => some (t, th, threadFields 0x10 0 ra 0 7 0)
  | .bowStart t th ra rb => some (t, th, threadFields 0x11 0 ra rb 0 0)
  | .bowWait t th rb => some (t, th, threadFields 0x11 0 0 rb 1 0)
  | .bufWait t th rd imm => some (t, th, threadFields 0x11 rd 0 0 2 imm)
  | .bufPost t th imm => some (t, th, threadFields 0x11 0 0 0 3 imm)
  | .bufRelease t th imm => some (t, th, threadFields 0x11 0 0 0 4 imm)
  | .stepDone t th => some (t, th, threadFields 0x11 0 0 0 5 0)
  | .fenceTile t th => some (t, th, threadFields 0x12 0 0 0 0 0)
  | .fenceDev t th => some (t, th, threadFields 0x12 0 0 0 1 0)
  | .flush t th ra rb => some (t, th, threadFields 0x12 0 ra rb 2 0)
  | .inval t th ra rb => some (t, th, threadFields 0x12 0 ra rb 3 0)
  | .crewBarrier t th => some (t, th, threadFields 0x12 0 0 0 4 0)
  | .layerLate t th rd imm => some (t, th, threadFields 0x12 rd 0 0 5 imm)
  | .semAcquire t th rd ra => some (t, th, threadFields 0x12 rd ra 0 6 0)
  | .semRelease t th ra => some (t, th, threadFields 0x12 0 ra 0 7 0)
  | .threadExit t th => some (t, th, threadFields 0x12 0 0 0 8 0)
  | _ => none

end Sys2Proof
end

