-- ==== Sys2Proof/Machine/Crypto.lean ====
section
/-! DEFINITION. The standard algorithms the spec names: SHA-384 and ECDSA over P-384 (R259, R260), and IEEE 802.1AE
protection with GCM-AES-128 and GCM-AES-256 (R396, R397). Their contents are the standards' (PRESUMED). -/

namespace Sys2Proof.Machine

/-! ### SHA-384 -/

/-- The first 80 prime numbers: those below 410 (19 is the greatest whose square is below it). -/
def firstPrimes : List Nat :=
  let few := [2, 3, 5, 7, 11, 13, 17, 19]
  few ++ ((List.range 390).map (· + 20)).filter (fun n => few.all (fun d => n % d != 0))

/-- The first 64 bits after the point of the `k`-th root of a number below 2^(3 * k), found bit by bit. -/
def rootBits (k p : Nat) : Nat :=
  (List.range 67).foldr (fun i r => if (r + 2 ^ i) ^ k ≤ p * 2 ^ (64 * k) then r + 2 ^ i else r) 0 % 2 ^ 64

/-- The round constants of SHA-384 come from the cube roots of the first 80 primes. -/
def shaK : List Nat := firstPrimes.map (rootBits 3)

/-- Its initial hash value comes from the square roots of the ninth to the sixteenth prime. -/
def shaInit : List Nat := ((firstPrimes.drop 8).take 8).map (rootBits 2)

/-- A 64-bit word rotated right. -/
def rotr (x n : Nat) : Nat := (x >>> n) ||| ((x <<< (64 - n)) % 2 ^ 64)

/-- One round: the eight working words and the 16 schedule words in hand, oldest first. -/
def shaRound (st : List Nat × List Nat) (k : Nat) : List Nat × List Nat :=
  match st with
  | ([a, b, c, d, e, f, g, h], w :: ws) =>
    let t1 := h + (rotr e 14 ^^^ rotr e 18 ^^^ rotr e 41) + ((e &&& f) ^^^ ((2 ^ 64 - 1 - e) &&& g)) + k + w
    let t2 := (rotr a 28 ^^^ rotr a 34 ^^^ rotr a 39) + ((a &&& b) ^^^ (a &&& c) ^^^ (b &&& c))
    let x := ws.getD 0 0
    let y := ws.getD 13 0
    let n := (rotr y 19 ^^^ rotr y 61 ^^^ (y >>> 6)) + ws.getD 8 0 + (rotr x 1 ^^^ rotr x 8 ^^^ (x >>> 7)) + w
    ([(t1 + t2) % 2 ^ 64, a, b, c, (d + t1) % 2 ^ 64, e, f, g], ws ++ [n % 2 ^ 64])
  | _ => st

/-- One block of 128 bytes taken into the hash value. -/
def shaBlock (h : List Nat) (b : List Byte) : List Nat :=
  let r := shaK.foldl shaRound (h, (List.range 16).map (fun i => beNat (slice b (8 * i) 8)))
  (h.zip r.1).map (fun p => (p.1 + p.2) % 2 ^ 64)

/-- SHA-384 of a byte string, as a number (R259). -/
def sha384 (b : List Byte) : Nat :=
  let m := b ++ [0x80] ++ List.replicate ((239 - b.length % 128) % 128) 0 ++ toBe 16 (8 * b.length)
  let h := (List.range (m.length / 128)).foldl (fun h i => shaBlock h (slice m (128 * i) 128)) shaInit
  (h.take 6).foldl (fun a w => a * 2 ^ 64 + w) 0

/-! ### ECDSA over P-384 -/

/-- The prime of the field. -/
def p384P : Nat := 2 ^ 384 - 2 ^ 128 - 2 ^ 96 + 2 ^ 32 - 1
/-- The coefficient b; a is -3. -/
def p384B : Nat := 0xb3312fa7e23ee7e4988e056be3f82d19181d9c6efe8141120314088f5013875ac656398d8a2ed19d2a85c8edd3ec2aef
/-- The order of the base point. -/
def p384N : Nat := 0xffffffffffffffffffffffffffffffffffffffffffffffffc7634d81f4372ddf581a0db248b0a77aecec196accc52973
/-- The base point. -/
def p384Gx : Nat := 0xaa87ca22be8b05378eb1c71ef320ad746e1d3b628ba79b9859f741e082542a385502f25dbf55296c3a545e3872760ab7
def p384Gy : Nat := 0x3617de4a96262c6f5d9e98bf9292dc29f8f41dbd289a147ce9da3113b5f0b8c00a60b1ce1d7e819d7a431d7c90ea0e5f

/-- A power modulo `m`: `n` is the number of bits of the exponent. -/
def powMod (m : Nat) : Nat → Nat → Nat → Nat
  | 0, _, _ => 1 % m
  | n + 1, b, e => (if e % 2 = 1 then b else 1) * powMod m n (b * b % m) (e / 2) % m

/-- A point in Jacobian coordinates; Z is 0 at infinity. -/
structure EcPoint where
  x : Nat
  y : Nat
  z : Nat
  deriving DecidableEq, Repr

/-- The difference of two field elements. -/
def p384Sub (a b : Nat) : Nat := (a + p384P - b % p384P) % p384P

/-- A point doubled. -/
def EcPoint.dbl (q : EcPoint) : EcPoint :=
  let d := q.z * q.z % p384P
  let g := q.y * q.y % p384P
  let b := q.x * g % p384P
  let a := 3 * p384Sub q.x d * (q.x + d) % p384P
  let x := p384Sub (a * a) (8 * b)
  ⟨x, p384Sub (a * p384Sub (4 * b) x) (8 * g * g), 2 * q.y * q.z % p384P⟩

/-- The sum of two points. -/
def EcPoint.add (q r : EcPoint) : EcPoint :=
  if q.z = 0 then r
  else if r.z = 0 then q
  else
    let zq := q.z * q.z % p384P
    let zr := r.z * r.z % p384P
    let u := q.x * zr % p384P
    let s := q.y * zr * r.z % p384P
    let h := p384Sub (r.x * zq) u
    let w := p384Sub (r.y * zq * q.z) s
    if h = 0 then (if w = 0 then q.dbl else ⟨0, 1, 0⟩)
    else
      let h2 := h * h % p384P
      let h3 := h2 * h % p384P
      let x := p384Sub (w * w) (h3 + 2 * u * h2)
      ⟨x, p384Sub (w * p384Sub (u * h2) x) (s * h3), h * q.z * r.z % p384P⟩

/-- A multiple of a point, from the bits of the factor, most significant first. -/
def EcPoint.mul (q : EcPoint) (k : Nat) : EcPoint :=
  (natBits 384 k).foldr (fun b a => if b then a.dbl.add q else a.dbl) ⟨0, 1, 0⟩

/-- X and Y are a point on the curve (R260). -/
def onCurve (x y : Nat) : Bool :=
  decide (x < p384P ∧ y < p384P ∧ (y * y) % p384P = p384Sub (x * x * x + p384B) (3 * x))

/-- ECDSA (R259): a public key, the hash, and the signature's r and s. -/
def ecdsaVerify (x y e r s : Nat) : Bool :=
  if r = 0 ∨ p384N ≤ r ∨ s = 0 ∨ p384N ≤ s then false
  else
    let w := powMod p384N 384 s (p384N - 2)
    let q := (EcPoint.mul ⟨p384Gx, p384Gy, 1⟩ (e * w % p384N)).add (EcPoint.mul ⟨x, y, 1⟩ (r * w % p384N))
    let z := powMod p384P 384 q.z (p384P - 2)
    onCurve x y && decide (q.z ≠ 0 ∧ q.x * (z * z) % p384P % p384N = r)

/-! ### AES -/

/-- The substitution box, sixteen bytes a row. -/
def aesBox : List Nat :=
  [0x637c777bf26b6fc53001672bfed7ab76, 0xca82c97dfa5947f0add4a2af9ca472c0, 0xb7fd9326363ff7cc34a5e5f171d83115,
   0x04c723c31896059a071280e2eb27b275, 0x09832c1a1b6e5aa0523bd6b329e32f84, 0x53d100ed20fcb15b6acbbe394a4c58cf,
   0xd0efaafb434d338545f9027f503c9fa8, 0x51a3408f929d38f5bcb6da2110fff3d2, 0xcd0c13ec5f974417c4a77e3d645d1973,
   0x60814fdc222a908846eeb814de5e0bdb, 0xe0323a0a4906245cc2d3ac629195e479, 0xe7c8376d8dd54ea96c56f4ea657aae08,
   0xba78252e1ca6b4c6e8dd741f4bbd8b8a, 0x703eb5664803f60e613557b986c11d9e, 0xe1f8981169d98e949b1e87e9ce5528df,
   0x8ca1890dbfe6426841992d0fb054bb16]

/-- One byte substituted. -/
def aesSub (x : Nat) : Nat := (aesBox.getD (x / 16) 0 >>> (8 * (15 - x % 16))) % 256

/-- A byte times 2 in the field of AES. -/
def aesTwice (x : Nat) : Nat := if x < 128 then 2 * x else (2 * x) ^^^ 0x11B

/-- One column mixed. -/
def aesMix (c : List Nat) : List Nat :=
  let t := c.foldl (fun a b => a ^^^ b) 0
  (List.range 4).map (fun i => c.getD i 0 ^^^ t ^^^ aesTwice (c.getD i 0 ^^^ c.getD ((i + 1) % 4) 0))

/-- The bytes of two lists added. -/
def xorBytes (a b : List Nat) : List Nat := (a.zip b).map (fun p => p.1 ^^^ p.2)

/-- The key schedule, four bytes an entry, newest first, after `n` more entries; `nk` is the key's length in entries. -/
def aesKeys (nk : Nat) : Nat → List (List Nat) → List (List Nat)
  | 0, l => l
  | n + 1, l =>
    let i := l.length
    let p := l.headD []
    let rcon := (List.range (i / nk - 1)).foldl (fun x _ => aesTwice x) 1
    let t := if i % nk = 0 then xorBytes ((p.drop 1 ++ p.take 1).map aesSub) [rcon, 0, 0, 0]
      else if nk = 8 ∧ i % nk = 4 then p.map aesSub else p
    aesKeys nk n (xorBytes (l.getD (nk - 1) []) t :: l)

/-- One block under a key of 16 or 32 bytes. -/
def aesBlock (key b : List Nat) : List Nat :=
  let nk := key.length / 4
  let w := (aesKeys nk (4 * (nk + 7) - nk) ((List.range nk).map (fun i => (key.drop (4 * i)).take 4)).reverse).reverse
  let rk (r : Nat) : List Nat := ((w.drop (4 * r)).take 4).flatten
  let shifted (s : List Nat) : List Nat := (List.range 16).map (fun i => aesSub (s.getD ((i + 4 * (i % 4)) % 16) 0))
  let s := (List.range (nk + 5)).foldl (fun s r =>
    xorBytes ((List.range 4).flatMap (fun c => aesMix (((shifted s).drop (4 * c)).take 4))) (rk (r + 1))) (xorBytes b (rk 0))
  xorBytes (shifted s) (rk (nk + 6))

/-! ### GCM -/

/-- The product of two elements of the field of GHASH. -/
def ghashMul (x y : Nat) : Nat :=
  ((natBits 128 x).reverse.foldl (fun (st : Nat × Nat) b =>
    (if b then st.1 ^^^ st.2 else st.1, if st.2 % 2 = 1 then (st.2 / 2) ^^^ (0xE1 * 2 ^ 120) else st.2 / 2)) (0, y)).1

/-- A byte string filled up to whole blocks with zero. -/
def padBlock (b : List Byte) : List Byte := b ++ List.replicate ((16 - b.length % 16) % 16) 0

/-- GHASH under `h`. -/
def ghash (h : Nat) (b : List Byte) : Nat :=
  (List.range (b.length / 16)).foldl (fun y i => ghashMul (y ^^^ beNat (slice b (16 * i) 16)) h) 0

/-- A block cipher's output as bytes. -/
def aesBytes (key b : List Byte) : List Byte := (aesBlock (key.map BitVec.toNat) (b.map BitVec.toNat)).map (BitVec.ofNat 8)

/-- The counter mode of GCM, from counter 2. -/
def gcmCtr (key iv b : List Byte) : List Byte :=
  (List.range ((b.length + 15) / 16)).flatMap (fun i =>
    let c := slice b (16 * i) 16
    (c.zip (aesBytes key (iv ++ toBe 4 (i + 2)))).map (fun p => p.1 ^^^ p.2))

/-- The tag of GCM over associated data and ciphertext. -/
def gcmTag (key iv aad c : List Byte) : List Byte :=
  let h := beNat (aesBytes key (List.replicate 16 0))
  let g := ghash h (padBlock aad ++ padBlock c ++ toBe 8 (8 * aad.length) ++ toBe 8 (8 * c.length))
  ((toBe 16 g).zip (aesBytes key (iv ++ toBe 4 1))).map (fun p => p.1 ^^^ p.2)

/-! ### IEEE 802.1AE (R396, R397) -/

/-- The key bytes of an association: 16 under GCM-AES-128, 32 under GCM-AES-256. -/
def macsecKey (cipher key : Nat) : List Byte := toLe (if cipher = 0 then 16 else 32) key

/-- The protected frame, under a cipher, an SCI, a key, an association number and a packet number: its SecTAG carries the
SCI, and the data after the addresses is encrypted. -/
def macsecSeal (cipher sci key an pn : Nat) (f : List Byte) : List Byte :=
  let d := f.drop 12
  let tag := toBe 2 0x88E5 ++ toBe 1 (0x2C + an) ++ toBe 1 (if d.length < 48 then d.length else 0) ++ toBe 4 pn ++ toBe 8 sci
  let aad := f.take 12 ++ tag
  let k := macsecKey cipher key
  let iv := toBe 8 sci ++ toBe 4 pn
  let c := gcmCtr k iv d
  aad ++ c ++ gcmTag k iv aad c

/-- The frame a protected frame carries, without its SecTAG, under a cipher, an SCI, a key and an association number;
none where it does not verify. -/
def macsecOpen (cipher sci key an : Nat) (f : List Byte) : Option (List Byte) :=
  let tci := byteAt f 14
  let sl := byteAt f 15
  let hdr := if bit tci 5 = 1 then 28 else 20
  let n := if sl = 0 then f.length - hdr - 16 else sl
  let aad := f.take hdr
  let d := slice f hdr n
  let k := macsecKey cipher key
  let iv := toBe 8 sci ++ slice f 16 4
  if beAt f 12 2 ≠ 0x88E5 ∨ bit tci 7 = 1 ∨ bits tci 1 0 ≠ an ∨ 48 ≤ sl ∨ f.length < hdr + n + 16 then none
  else if bits tci 3 2 = 3 then
    (if gcmTag k iv aad d = slice f (hdr + n) 16 then some (f.take 12 ++ gcmCtr k iv d) else none)
  else if bits tci 3 2 = 0 then
    (if gcmTag k iv (aad ++ d) [] = slice f (hdr + n) 16 then some (f.take 12 ++ d) else none)
  else none

end Sys2Proof.Machine
end

