-- ==== Sys2Proof/Config.lean ====
section
/-! DEFINITION. What an implementation fixes and the spec leaves open: constants and functions without a body. -/

namespace Sys2Proof.Config

/-- The value drawn when the spec leaves a value open: the n-th draw. Nothing constrains it. -/
opaque freeValue : Nat → Nat

/-- Silicon stepping of the ID window (R36). -/
opaque stepping : Byte
/-- The grade letter is X rather than I (R2, R4, R36). -/
opaque gradeX : Bool
/-- Device serial number, 16 bytes (R36). -/
opaque serial : Nat
/-- FW_VERSION of the image the factory wrote to the current start-image slot (R504, R506). -/
opaque factoryVersion : Nat
/-- Length in bytes of that image (R504). -/
opaque factoryLength : Nat

/-- JESD209-5: the bits of a mode register that are writable fields of features R19 supports. -/
opaque mrWritable : Nat → Byte
/-- JESD209-5: the bits of a mode register that control a feature R19 does not support (data copy, Write X, post-package
repair). -/
opaque mrUnsupported : Nat → Byte
/-- JESD209-5: a mode register that each frequency set point has a copy of. -/
opaque mrPerFsp : Nat → Bool
/-- JESD209-5: the bits of a mode register that report a status, and what they report, given the training and calibration
results (R20). -/
opaque mrStatusMask : Nat → Byte
opaque mrStatus : Nat → List Byte → Bool → Byte

/-- Which of a true value's two neighbours a function bounded to 1 ulp returns: the function's number and its
operand's encoding (R97). -/
opaque ulpChoice : Nat → Nat → Bool
/-- Where the true value is a value of the format, the function returns the value below it (R97). -/
opaque ulpBelow : Nat → Nat → Bool

/-- The linear position of an element in its logical output tensor, which the compiler defines and no descriptor holds: a
function of the output conversion descriptor, the values it converts and the element's place among them (R93). -/
opaque elementIndex : List Byte → List (Bool × Nat × Int) → Nat → Nat

/-- The layers a CONV section describes, its own layout not being given (R229, R258): for each its method, 0 direct, 1 block-diagonal,
2 decomposed, 3 frequency, and whether the image marks it as checked by the umpires; none for an entry out of range. -/
opaque convLayers : List Byte → List (Option (Nat × Bool))

/-- Corrected bytes of an NVS page past which the stack's patrol rewrites it (R183). -/
opaque patrolThreshold : Nat

/-- The voltage table (R474, R475): mV for a domain class, a temperature band and an operating point. -/
opaque voltage : Nat → Nat → Nat → Nat

end Sys2Proof.Config
end

