-- ==== Sys2Proof/Machine/Arith.lean ====
section
/-! DEFINITION. Number formats, exact values, rounding and the FP32, FP16 and BF16 operations (R74, R75, R89, R93 to
R97). -/

namespace Sys2Proof.Machine

/-- A value: finite as sign, magnitude `m * 2^e`; infinity; NaN. -/
inductive Val where
  | fin (neg : Bool) (m : Nat) (e : Int)
  | inf (neg : Bool)
  | nan
  deriving DecidableEq, Repr

/-- How a format spends its all-ones exponent. -/
inductive Specials where
  /-- IEEE 754: infinities and NaNs -/
  | ieee
  /-- E4M3: one NaN, no infinity -/
  | e4m3
  /-- no special value -/
  | none
  deriving DecidableEq, Repr

/-- A floating-point format (R74). -/
structure Fmt where
  eb : Nat
  mb : Nat
  bias : Nat
  sp : Specials
  deriving DecidableEq, Repr

/-- MXFP8 E4M3. -/
def fE4M3 : Fmt := ⟨4, 3, 7, .e4m3⟩
/-- MXFP8 E5M2. -/
def fE5M2 : Fmt := ⟨5, 2, 15, .ieee⟩
/-- MXFP6 E3M2. -/
def fE3M2 : Fmt := ⟨3, 2, 3, .none⟩
/-- MXFP6 E2M3. -/
def fE2M3 : Fmt := ⟨2, 3, 1, .none⟩
/-- MXFP4 E2M1. -/
def fE2M1 : Fmt := ⟨2, 1, 1, .none⟩
/-- BF16. -/
def fBF16 : Fmt := ⟨8, 7, 127, .ieee⟩
/-- FP16. -/
def fFP16 : Fmt := ⟨5, 10, 15, .ieee⟩
/-- FP32. -/
def fFP32 : Fmt := ⟨8, 23, 127, .ieee⟩

/-- The encoding, without sign, of the largest finite value. -/
def Fmt.maxEnc (f : Fmt) : Nat :=
  match f.sp with
  | .ieee => (2 ^ f.eb - 1) * 2 ^ f.mb - 1
  | .e4m3 => 2 ^ (f.eb + f.mb) - 2
  | .none => 2 ^ (f.eb + f.mb) - 1

/-- The encoding, without sign, of infinity in an IEEE format. -/
def Fmt.infEnc (f : Fmt) : Nat := (2 ^ f.eb - 1) * 2 ^ f.mb

/-- The canonical quiet NaN (R89, R95). -/
def Fmt.nanEnc (f : Fmt) : Nat := f.infEnc + 2 ^ (f.mb - 1)

/-- The exponent of the last place of subnormals. -/
def Fmt.qmin (f : Fmt) : Int := 1 - (f.bias : Int) - (f.mb : Int)

/-- The value an encoding names (R74); bits above the format's width are ignored. -/
def Fmt.decode (f : Fmt) (x : Nat) : Val :=
  let man := x % 2 ^ f.mb
  let ex := x / 2 ^ f.mb % 2 ^ f.eb
  let neg := x / 2 ^ (f.mb + f.eb) % 2 == 1
  let enc := x % 2 ^ (f.mb + f.eb)
  if f.sp = .ieee ∧ ex = 2 ^ f.eb - 1 then (if man = 0 then .inf neg else .nan)
  else if f.sp = .e4m3 ∧ enc = 2 ^ (f.mb + f.eb) - 1 then .nan
  else if ex = 0 then .fin neg man f.qmin
  else .fin neg (2 ^ f.mb + man) (f.qmin + (ex : Int) - 1)

/-- Rounding: to nearest, ties to even, or stochastic with the 32-bit word r (R93). -/
inductive Rnd where
  | rne
  | sr (r : Nat)
  deriving DecidableEq, Repr

/-- `m / 2^d` rounded to an integer. -/
def roundShift (rnd : Rnd) (m d : Nat) : Nat :=
  let q := m / 2 ^ d
  let rem := m % 2 ^ d
  match rnd with
  | .rne => if 2 * rem > 2 ^ d ∨ (2 * rem = 2 ^ d ∧ q % 2 = 1) then q + 1 else q
  | .sr r => if d = 0 then q else if rem * 2 ^ 32 / 2 ^ d + r ≥ 2 ^ 32 then q + 1 else q

/-- The encoding without sign of `m * 2^e` rounded to a format, with no bound on the exponent above. -/
def Fmt.round (f : Fmt) (rnd : Rnd) (m : Nat) (e : Int) : Nat :=
  if m = 0 then 0
  else
    let top : Int := (ilog2 m : Int) + e - (f.mb : Int)
    let qe := if top < f.qmin then f.qmin else top
    let q := if qe ≤ e then m * 2 ^ (e - qe).toNat else roundShift rnd m (qe - e).toNat
    (qe - f.qmin).toNat * 2 ^ f.mb + q

/-- The sign bit of a format. -/
def Fmt.signBit (f : Fmt) (neg : Bool) : Nat := if neg then 2 ^ (f.mb + f.eb) else 0

/-- A value encoded in an IEEE format: overflow to infinity, NaN canonical. -/
def Fmt.encode (f : Fmt) (rnd : Rnd) : Val → Nat
  | .nan => f.nanEnc
  | .inf neg => f.signBit neg + f.infEnc
  | .fin neg m e =>
    let q := f.round rnd m e
    f.signBit neg + (if q > f.maxEnc then f.infEnc else q)

/-- A finite magnitude encoded in an MX element format, clamped to the largest finite value (R90). -/
def Fmt.encodeClamp (f : Fmt) (rnd : Rnd) (neg : Bool) (m : Nat) (e : Int) : Nat :=
  let q := f.round rnd m e
  f.signBit neg + (if q > f.maxEnc then f.maxEnc else q)

/-! ### Exact arithmetic -/

/-- The integer that sign and magnitude name. -/
def signed (neg : Bool) (m : Nat) : Int := if neg then -(m : Int) else m

/-- An exact sum `a * 2^ea + b * 2^eb` as an integer and an exponent. -/
def alignSum (a : Int) (ea : Int) (b : Int) (eb : Int) : Int × Int :=
  let e := if ea ≤ eb then ea else eb
  (a * 2 ^ (ea - e).toNat + b * 2 ^ (eb - e).toNat, e)

/-- A finite value from an integer and an exponent; zero takes the sign given. -/
def ofInt (i : Int) (e : Int) (zneg : Bool) : Val := if i = 0 then .fin zneg 0 e else .fin (decide (i < 0)) i.natAbs e

/-- Exact sum; an exact zero is negative only when both operands are (round to nearest). -/
def Val.add : Val → Val → Val
  | .nan, _ => .nan
  | _, .nan => .nan
  | .inf a, .inf b => if a = b then .inf a else .nan
  | .inf a, _ => .inf a
  | _, .inf b => .inf b
  | .fin na ma ea, .fin nb mb eb =>
    let (i, e) := alignSum (signed na ma) ea (signed nb mb) eb
    ofInt i e (if ma = 0 ∧ mb = 0 then na && nb else false)

/-- The value with its sign flipped. -/
def Val.neg : Val → Val
  | .nan => .nan
  | .inf a => .inf (!a)
  | .fin n m e => .fin (!n) m e

/-- Exact product. -/
def Val.mul : Val → Val → Val
  | .nan, _ => .nan
  | _, .nan => .nan
  | .inf a, .inf b => .inf (a != b)
  | .inf a, .fin nb mb _ => if mb = 0 then .nan else .inf (a != nb)
  | .fin na ma _, .inf b => if ma = 0 then .nan else .inf (na != b)
  | .fin na ma ea, .fin nb mb eb => .fin (na != nb) (ma * mb) (ea + eb)

/-- Square root rounded down, by fuel from the top bit. -/
def isqrtFuel : Nat → Nat → Nat → Nat
  | 0, _, r => r
  | f + 1, n, r => let t := r + 2 ^ f; isqrtFuel f n (if t * t ≤ n then t else r)

/-- Integer square root rounded down. -/
def isqrt (n : Nat) : Nat := isqrtFuel (ilog2 n / 2 + 1) n 0

/-- Quotient of two finite magnitudes with 64 bits of precision and a sticky last bit, so that one rounding to a
format of at most 24 bits is correct. -/
def quot (ma : Nat) (ea : Int) (mb : Nat) (eb : Int) : Nat × Int :=
  let k := 64 + ilog2 mb
  let q := ma * 2 ^ k / mb
  (2 * q + (if ma * 2 ^ k % mb = 0 then 0 else 1), ea - eb - (k : Int) - 1)

/-- Quotient as a value. -/
def Val.div : Val → Val → Val
  | .nan, _ => .nan
  | _, .nan => .nan
  | .inf _, .inf _ => .nan
  | .inf a, .fin nb _ _ => .inf (a != nb)
  | .fin na _ _, .inf b => .fin (na != b) 0 0
  | .fin na ma ea, .fin nb mb eb =>
    if mb = 0 then (if ma = 0 then .nan else .inf (na != nb))
    else let (m, e) := quot ma ea mb eb; .fin (na != nb) m e

/-- Square root of a magnitude with at least 64 bits of precision and a sticky last bit. -/
def rootMag (m : Nat) (e : Int) : Nat × Int :=
  let k : Nat := 128 + (if (e % 2) = 0 then 0 else 1)
  let n := m * 2 ^ k
  let r := isqrt n
  (2 * r + (if r * r = n then 0 else 1), (e - (k : Int)) / 2 - 1)

/-- Square root as a value. -/
def Val.sqrt : Val → Val
  | .nan => .nan
  | .inf neg => if neg then .nan else .inf false
  | .fin neg m e => if m = 0 then .fin neg 0 0 else if neg then .nan else let (r, x) := rootMag m e; .fin false r x

/-- Order of two values that are not NaN: -1, 0 or 1. -/
def Val.cmp : Val → Val → Int
  | .inf a, .inf b => if a = b then 0 else if a then -1 else 1
  | .inf a, _ => if a then -1 else 1
  | _, .inf b => if b then 1 else -1
  | .fin na ma ea, .fin nb mb eb =>
    let (i, _) := alignSum (signed na ma) ea (-(signed nb mb)) eb
    if i < 0 then -1 else if i = 0 then 0 else 1
  | _, _ => 0

/-- A NaN. -/
def Val.isNan : Val → Bool
  | .nan => true
  | _ => false

/-- A finite value. -/
def Val.isFin : Val → Bool
  | .fin _ _ _ => true
  | _ => false

/-- Less than; false with a NaN. -/
def Val.lt (a b : Val) : Bool := !a.isNan && !b.isNan && decide (a.cmp b < 0)
/-- Equal; false with a NaN. -/
def Val.eq (a b : Val) : Bool := !a.isNan && !b.isNan && decide (a.cmp b = 0)

/-- Maximum, NaN when either operand is NaN (R96); of two zeros the positive one. -/
def Val.max (a b : Val) : Val :=
  if a.isNan || b.isNan then .nan
  else match a, b with
    | .fin na 0 _, .fin nb 0 _ => .fin (na && nb) 0 0
    | _, _ => if a.cmp b < 0 then b else a

/-- Minimum, NaN when either operand is NaN (R96); of two zeros the negative one. -/
def Val.min (a b : Val) : Val :=
  if a.isNan || b.isNan then .nan
  else match a, b with
    | .fin na 0 _, .fin nb 0 _ => .fin (na || nb) 0 0
    | _, _ => if b.cmp a < 0 then b else a

/-! ### Operations on encodings -/

/-- An operation on one format: operands decoded, the exact result rounded once, to nearest even (R95). -/
def fop2 (f : Fmt) (op : Val → Val → Val) (a b : Nat) : Nat := f.encode .rne (op (f.decode a) (f.decode b))

/-- FP32 addition. -/
def fadd (a b : Nat) : Nat := fop2 fFP32 Val.add a b
/-- FP32 subtraction. -/
def fsub (a b : Nat) : Nat := fop2 fFP32 (fun x y => x.add y.neg) a b
/-- FP32 multiplication. -/
def fmul (a b : Nat) : Nat := fop2 fFP32 Val.mul a b
/-- FP32 division. -/
def fdiv (a b : Nat) : Nat := fop2 fFP32 Val.div a b
/-- Fused multiply-add `a * b + c` in a format, rounded once. -/
def fmaF (f : Fmt) (a b c : Nat) : Nat := f.encode .rne (((f.decode a).mul (f.decode b)).add (f.decode c))
/-- FP32 fused multiply-add. -/
def ffma (a b c : Nat) : Nat := fmaF fFP32 a b c
/-- FP32 maximum. -/
def fmax (a b : Nat) : Nat := fop2 fFP32 Val.max a b
/-- FP32 minimum. -/
def fmin (a b : Nat) : Nat := fop2 fFP32 Val.min a b
/-- FP32 square root. -/
def fsqrt (a : Nat) : Nat := fFP32.encode .rne (fFP32.decode a).sqrt
/-- FP32 less than. -/
def flt (a b : Nat) : Bool := (fFP32.decode a).lt (fFP32.decode b)
/-- FP32 equality of values. -/
def feq (a b : Nat) : Bool := (fFP32.decode a).eq (fFP32.decode b)
/-- FP32 sign change. -/
def fneg (a : Nat) : Nat := a ^^^ 0x80000000
/-- FP32 absolute value. -/
def fabs (a : Nat) : Nat := a % 2 ^ 31
/-- An FP32 encoding is a NaN. -/
def fisNan (a : Nat) : Bool := (fFP32.decode a).isNan
/-- An FP32 encoding is finite. -/
def fisFin (a : Nat) : Bool := (fFP32.decode a).isFin
/-- An integer as FP32. -/
def fofInt (i : Int) : Nat := fFP32.encode .rne (ofInt i 0 false)
/-- Integer `i * 2^e` as FP32. -/
def fofScaled (i : Int) (e : Int) : Nat := fFP32.encode .rne (ofInt i e false)
/-- Conversion between formats, to nearest even. -/
def fconv (f g : Fmt) (a : Nat) : Nat := g.encode .rne (f.decode a)

/-! ### Functions the spec bounds to 1 unit in the last place

The spec fixes the result only to within 1 ulp (R97), by one procedure the same in every unit. The value is one of
the format's neighbours of the true value; which one is the opaque choice `Config.ulpChoice`. The true value is
bracketed with 160-bit fixed-point arithmetic. -/

/-- Encodings of a positive real known as `v * 2^e` truncated: the format value at or below it, by the encoding. -/
def Fmt.floorEnc (f : Fmt) (m : Nat) (e : Int) : Nat :=
  if m = 0 then 0
  else
    let top : Int := (ilog2 m : Int) + e - (f.mb : Int)
    let qe := if top < f.qmin then f.qmin else top
    let q := if qe ≤ e then m * 2 ^ (e - qe).toNat else m / 2 ^ (qe - e).toNat
    (qe - f.qmin).toNat * 2 ^ f.mb + q

/-- A format value within 1 ulp of a positive real `m * 2^e`, as the opaque choices for the function and operand have it:
a neighbour of it, or, of a real that the format holds exactly, that value or one beside it; past the largest finite
value the result is infinity. -/
def Fmt.near (f : Fmt) (fn x : Nat) (m : Nat) (e : Int) : Nat :=
  let q := f.floorEnc m e
  let exact := decide ((f.decode q).cmp (.fin false m e) = 0)
  let r := if Config.ulpChoice fn x then q + 1 else if exact && Config.ulpBelow fn x then q - 1 else q
  if r > f.maxEnc then f.infEnc else r

/-- Fixed-point terms of the exponential series for `x = n / 2^160`, summed by fuel. -/
def expSeries : Nat → Nat → Nat → Nat → Nat → Nat
  | 0, _, _, _, acc => acc
  | f + 1, n, k, term, acc =>
    let t := term * n / 2 ^ 160 / k
    if t = 0 then acc else expSeries f n (k + 1) t (acc + t)

/-- ln 2 in units of 2^-200. -/
def ln2Fix : Nat := 0xB17217F7D1CF79ABC9E3B39803F2F6AF40F343267298B62D8A

/-- `exp x` for `x = ±m * 2^e`, `x` below 2^12 in magnitude, as a significand and exponent accurate to about 2^-150. -/
def expFix (neg : Bool) (m : Nat) (e : Int) : Nat × Int :=
  let x : Nat := if e + 200 ≥ 0 then m * 2 ^ (e + 200).toNat else m / 2 ^ (-(e + 200)).toNat
  let k := x / ln2Fix
  let r := x % ln2Fix
  let (k, r) : Int × Nat := if neg then (if r = 0 then (-(k : Int), 0) else (-(k : Int) - 1, ln2Fix - r)) else ((k : Int), r)
  (expSeries 80 (r / 2 ^ 40) 1 (2 ^ 160) (2 ^ 160), k - 160)

/-- Exponential in a format: 1 of zero, +0 of minus infinity, infinity past the range, else within 1 ulp (R97). -/
def Fmt.exp (f : Fmt) (a : Nat) : Nat :=
  match f.decode a with
  | .nan => f.nanEnc
  | .inf neg => if neg then 0 else f.infEnc
  | .fin neg m e =>
    if m = 0 then f.bias * 2 ^ f.mb
    else if (ilog2 m : Int) + e ≥ 12 then (if neg then f.near 0 a 1 (-4096) else f.infEnc)
    else let (v, x) := expFix neg m e; f.near 0 a v x

/-- Reciprocal square root in a format, within 1 ulp (R97); infinity of a zero's sign at zero, NaN below it. -/
def Fmt.rsqrt (f : Fmt) (a : Nat) : Nat :=
  match f.decode a with
  | .nan => f.nanEnc
  | .inf neg => if neg then f.nanEnc else 0
  | .fin neg m e =>
    if m = 0 then f.signBit neg + f.infEnc
    else if neg then f.nanEnc
    else
      let (r, x) := rootMag m e
      let (q, y) := quot 1 0 r x
      f.near 1 a q y

/-! ### Stochastic rounding -/

/-- A value as the key of its element's index: sign, magnitude and exponent, a special value told by its exponent. -/
def Val.key : Val → Bool × Nat × Int
  | .fin n m e => (n, m, e)
  | .inf n => (n, 1, 2 ^ 40)
  | .nan => (false, 0, 2 ^ 40)

/-- The mixer of R93: the 64-bit word x after the last step. -/
def mix64 (seed stream index : Nat) : Nat :=
  let w := 2 ^ 64
  let x := (seed % w) ^^^ (stream * 0x9E3779B97F4A7C15 % w) ^^^ (index % w)
  let x := (x + 0x9E3779B97F4A7C15) % w
  let x := (x ^^^ (x / 2 ^ 30)) * 0xBF58476D1CE9E5B9 % w
  let x := (x ^^^ (x / 2 ^ 27)) * 0x94D049BB133111EB % w
  x ^^^ (x / 2 ^ 31)

/-- The 32-bit word r of R93. -/
def mixR (seed stream index : Nat) : Nat := mix64 seed stream index / 2 ^ 32

end Sys2Proof.Machine
end

