-- ==== Sys2Proof/Machine/Flags.lean ====
section
/-! DEFINITION. The flags a tile raises: the arithmetic status word of R98. -/

namespace Sys2Proof.Machine

/-- One flag of R98 by its bit position. -/
def arithFlag (i : Nat) : BitVec 9 := BitVec.ofNat 9 (2 ^ i)

/-- INEX_LO, with INEXACT (R80, R98). -/
def fInexLo : BitVec 9 := arithFlag 0 ||| arithFlag 1
/-- INEX_HI, with INEXACT (R80, R98). -/
def fInexHi : BitVec 9 := arithFlag 0 ||| arithFlag 2
/-- INEX_FFT, with INEXACT (R98). -/
def fInexFft : BitVec 9 := arithFlag 0 ||| arithFlag 3
/-- NAN_OUT (R89 to R91). -/
def fNanOut : BitVec 9 := arithFlag 4
/-- INF_OUT (R89). -/
def fInfOut : BitVec 9 := arithFlag 5
/-- OUT_SAT (R91). -/
def fOutSat : BitVec 9 := arithFlag 6
/-- SR_UNSEEDED (R94). -/
def fSrUnseeded : BitVec 9 := arithFlag 7
/-- POISON_OUT (R92). -/
def fPoisonOut : BitVec 9 := arithFlag 8

/-- A flag where a condition holds. -/
def flagIf (b : Bool) (f : BitVec 9) : BitVec 9 := if b then f else 0

/-- The OR of flags. -/
def flagsOr (l : List (BitVec 9)) : BitVec 9 := l.foldl (· ||| ·) 0

end Sys2Proof.Machine
end

