-- ==== Sys2Proof/Machine/Types/Core.lean ====
section
/-! DEFINITION. The plain data every block shares: counters, bytes that carry poison, memory, the elapsed count. -/

namespace Sys2Proof.Machine

/-- An event and error counter: COUNT, saturating at 0xFFFF_FFFF, and its sticky SAT bit (R41, R442). -/
structure Ctr where
  count : Word32
  sat : Bool
  deriving DecidableEq, Repr

/-- A counter at its reset value. -/
def Ctr.zero : Ctr := ⟨0, false⟩

/-- One byte as the fabric carries it: its value and the poison bit of its word (R180). -/
structure PByte where
  v : Byte
  p : Bool
  deriving DecidableEq, Repr

/-- What the host windows and the three tiers hold, by device address (R28, R136): the bytes, and for each byte its
storage mark. Both lists are canonical: addresses strictly rising, no entry equal to the unlisted value 0.
In T0, T1 and NVS a mark of 0 is the poison form or memory never written, 1 is data, 2 data with an uncorrectable
stored error, 3 data with a correctable error, 4 data whose error only a first read meets; in host-window SRAM 0 is data, 1 is poison, 2 and 3 the same errors. -/
structure Memory where
  data : List Host.Cell
  tag : List Host.Cell
  deriving DecidableEq, Repr

/-- Memory in which nothing is listed. -/
def Memory.empty : Memory := ⟨[], []⟩

/-- The elapsed count (R442, R466): its value in half nanoseconds, whether it runs, and COARSE. -/
structure TimeSt where
  half : Nat
  running : Bool
  coarse : Bool
  deriving DecidableEq, Repr

end Sys2Proof.Machine
end

