-- ==== Sys2Proof/Machine/Types/Tile.lean ====
section
/-! DEFINITION. Compute tiles: threads, arrays, caches, bow engines, buffer slots and the TILE registers. -/

namespace Sys2Proof.Machine

/-- What a thread waits for; `run` when it is ready (R112). -/
inductive Block where
  | run
  /-- fence.dev: its earlier stores and atomics to be acknowledged (R124) -/
  | fence
  /-- flush: the lines sent for it to be acknowledged (R124) -/
  | flush (lines : List Nat)
  | arrWait (array : Nat)
  | sweepWait
  | xfWait
  | poolWait
  /-- bow.start, performing its fence.dev (R126) -/
  | bowStart (engine stream : Nat)
  | bowWait (engine : Nat)
  /-- buf.wait, with the elapsed count at which it blocked (R155) -/
  | bufWait (slot rd since : Nat)
  /-- crew.barrier: `counted` once its stores are home and its rank's arrival is in the generation (R117) -/
  | barrier (counted : Bool)
  /-- layer.late, with the layer's number and RD (R155) -/
  | layerLate (layer rd : Nat) (counted : Bool)
  | semAcquire (sem rd : Nat)
  /-- sem.release, performing its fence.dev (R125) -/
  | semRelease (sem : Nat)
  deriving DecidableEq, Repr

/-- A hardware thread (R112, R180): registers with their poison bits, condition flag and program counter. -/
structure Thread where
  started : Bool
  exited : Bool
  x : Vector Word64 32
  /-- poison bit of each scalar register -/
  xp : BitVec 32
  /-- vector registers of 64 lanes -/
  v : Vector (Vector Word32 64) 8
  /-- poison bit of each 8-byte word of each vector register -/
  vp : Vector (BitVec 32) 8
  pc : Nat
  flag : Bool
  flagP : Bool
  block : Block
  deriving DecidableEq, Repr

/-- A thread not started. -/
def Thread.reset : Thread :=
  { started := false, exited := false, x := Vector.replicate 32 0, xp := 0
    v := Vector.replicate 8 (Vector.replicate 64 0), vp := Vector.replicate 8 0, pc := 0, flag := false, flagP := false
    block := .run }

/-- A long accumulator (R79 to R82): A, the special bits P N Q, the INEX bits, the term count, and poison. -/
structure Acc where
  a : Int
  p : Bool
  n : Bool
  q : Bool
  lo : Bool
  hi : Bool
  terms : Nat
  poison : Bool
  deriving DecidableEq, Repr

/-- A zeroed accumulator. -/
def Acc.zero : Acc := ⟨0, false, false, false, false, false, 0, false⟩

/-- An array operation under way: direct or block convolution pass, its descriptor bytes, its thread and the program counter
of the instruction. -/
structure ArrOp where
  conv : Bool
  desc : List PByte
  thread : Nat
  pc : Nat
  deriving DecidableEq, Repr

/-- What a checked chain has for its check record (R400, R403, R404): the sums of the accumulators it was loaded with, the
lane's exact sums (rows 0 to 31 then columns 0 to 31, each an integer and a power of two) with the terms and the OR of the INEX
bits of each, and whether an operand was special. -/
structure Lane where
  base : List Int
  sums : List (Int × Int)
  terms : List Nat
  lo : List Bool
  hi : List Bool
  special : Bool
  deriving DecidableEq, Repr

/-- The lane of a chain that has received no term. -/
def Lane.zero : Lane := ⟨List.replicate 64 0, List.replicate 64 (0, 0), List.replicate 64 0, List.replicate 64 false, List.replicate 64 false, false⟩

/-- A MAC array (R106 to R109). -/
structure Arr where
  /-- the accumulators hold a chain a START 1 operation may continue -/
  live : Bool
  /-- E_b of the chain held; none while no operation of the chain has named it (R79) -/
  eb : Option Int
  acc : Vector Acc 1024
  /-- products of each element that wait for E_b, with their poison; empty when none wait -/
  pend : List (List (Val × Bool))
  /-- CHECK of the chain's operations (R403) -/
  check : Bool
  lane : Lane
  reducing : Option ArrOp
  converting : Option ArrOp
  /-- the second set, into which a finished tile moves for conversion, with its E_b and its chain's lane when checked -/
  outAcc : Vector Acc 1024
  outEb : Int
  outLane : Option Lane
  deriving DecidableEq, Repr

/-- An array that has run no operation. -/
def Arr.reset : Arr :=
  { live := false, eb := none, acc := Vector.replicate 1024 Acc.zero, pend := [], check := false, lane := Lane.zero
    reducing := none, converting := none, outAcc := Vector.replicate 1024 Acc.zero, outEb := 0, outLane := none }

/-- A line in the read cache: its bytes (R123). -/
structure CacheLine where
  line : Nat
  bytes : List PByte
  deriving DecidableEq, Repr

/-- Bytes on their way home: a write-combining line, or a store sent and not yet acknowledged, with the threads that
wrote it (R123, R124). -/
structure OutWrite where
  addr : Nat
  bytes : List (Option PByte)
  writers : List Nat
  deriving DecidableEq, Repr

/-- States of a buffer slot (R129). -/
inductive SlotState where
  | empty | filling | full | posted | draining
  deriving DecidableEq, Repr

/-- A buffer slot (R129, R155 to R157). -/
structure Slot where
  state : SlotState
  /-- the access descriptor being filled from or drained to -/
  desc : List PByte
  /-- the fill carries DEADLINE, and the engine step it belongs to -/
  deadline : Bool
  step : Nat
  /-- released while filling: the data is discarded when it completes -/
  discard : Bool
  /-- place of its descriptor among those its tile's engines have executed -/
  order : Nat
  deriving DecidableEq, Repr

/-- A slot at the start of a step. -/
def Slot.reset : Slot := { state := .empty, desc := [], deadline := false, step := 0, discard := false, order := 0 }

/-- What a bow engine is doing (R127, R130). -/
inductive BowState where
  | idle | running | stalledSlot | stalledAhead | atBarrier (counted : Bool)
  deriving DecidableEq, Repr

/-- A bow engine. -/
structure Bow where
  state : BowState
  /-- address of its stream, and of the next access descriptor -/
  base : Nat
  next : Nat
  step : Nat
  /-- the thread that issued bow.start -/
  thread : Nat
  deriving DecidableEq, Repr

/-- A bow engine at rest. -/
def Bow.reset : Bow := { state := .idle, base := 0, next := 0, step := 0, thread := 0 }

/-- A grant (R121, R130). -/
structure Grant where
  base : Nat
  limit : Nat
  valid : Bool
  write : Bool
  deriving DecidableEq, Repr

/-- A pooling operation on the vector unit (R252). -/
structure PoolOp where
  desc : List PByte
  thread : Nat
  deriving DecidableEq, Repr

/-- TILE.STATE.MODE for a tile in service (R130); off, quarantined and retired follow the domain and the unit. -/
inductive TileMode where
  | idle | running | spilling
  deriving DecidableEq, Repr

/-- One compute tile (R103, R130). -/
structure Tile where
  threads : Vector Thread 128
  arrays : Vector Arr 4
  /-- read-cache lines by rising line number, at most 4,096 (R103) -/
  cache : List CacheLine
  /-- write-combining lines, oldest first, at most 64 (R103) -/
  wc : List OutWrite
  /-- stores sent home and not yet acknowledged, in issue order -/
  out : List OutWrite
  bows : Vector Bow 2
  slots : Vector Slot 64
  /-- COMPLETED (R128) -/
  completed : Nat
  grants : Vector Grant 16
  /-- TILE.CREW -/
  ctx : Option Nat
  rank : Nat
  size : Nat
  mode : TileMode
  /-- TILE.RATING.LOCKED in 0.01 steps/ns; TILE.RATING.NOW is a measurement, drawn when it is needed -/
  ratingLocked : Nat
  /-- TILE.STEPS -/
  steps : Nat
  stepsSat : Bool
  /-- TILE.FAULT and FAULT_ADDR, and the elapsed count of the fault -/
  faultCause : Nat
  faultThread : Nat
  faultValid : Bool
  faultAddr : Nat
  faultAt : Nat
  /-- TILE.ARITH_STATUS -/
  arith : BitVec 9
  pool : Option PoolOp
  /-- sweeps and transform runs issued by each thread that have not finished, by thread number, rising -/
  sweepsOut : List (Nat × Nat)
  xfsOut : List (Nat × Nat)
  /-- fetch deadline of each late-able layer that has begun to run, by layer entry (R155) -/
  layerDl : List (Nat × Nat)
  /-- layer entries with a DEADLINE LOAD that was not FULL at its deadline (R155) -/
  layerHit : List Nat
  /-- descriptors the engines have executed -/
  executed : Nat
  /-- addresses of LOADs of late layers whose slots went to FULL before their engine reached them (R156), rising -/
  skipped : List Nat
  /-- hot-copy bytes held: model handle, first T0 offset and length (R161) -/
  hot : List (Nat × Nat × Nat)
  deriving DecidableEq, Repr

/-- A tile at a start. -/
def Tile.reset : Tile :=
  { threads := Vector.replicate 128 Thread.reset, arrays := Vector.replicate 4 Arr.reset, cache := [], wc := [], out := []
    bows := Vector.replicate 2 Bow.reset, slots := Vector.replicate 64 Slot.reset, completed := 0
    grants := Vector.replicate 16 ⟨0, 0, false, false⟩, ctx := none, rank := 0, size := 0, mode := .idle
    ratingLocked := 0, steps := 0, stepsSat := false, faultCause := 0, faultThread := 0
    faultValid := false, faultAddr := 0, faultAt := 0, arith := 0, pool := none, sweepsOut := [], xfsOut := []
    layerDl := [], layerHit := [], executed := 0, skipped := [], hot := [] }

end Sys2Proof.Machine
end

