-- ==== Sys2Proof/Machine/Accum.lean ====
section
/-! DEFINITION. Packed elements, the long accumulator and output conversion (R75 to R92). -/

namespace Sys2Proof.Machine

/-! ### Elements (R74 to R76, R88) -/

/-- Width in bits of an element of a format code. -/
def codeBits (c : Nat) : Nat :=
  match c with
  | 0 => 8 | 1 => 8 | 2 => 6 | 3 => 6 | 4 => 4 | 5 => 8 | 6 => 4 | 7 => 16 | 8 => 16 | 9 => 32 | _ => 256

/-- The floating-point format of a code, when it names one. -/
def codeFmt (c : Nat) : Option Fmt :=
  match c with
  | 0 => some fE4M3 | 1 => some fE5M2 | 2 => some fE3M2 | 3 => some fE2M3 | 4 => some fE2M1
  | 7 => some fBF16 | 8 => some fFP16 | 9 => some fFP32 | _ => none

/-- An MX format code. -/
def isMx (c : Nat) : Bool := decide (c < 5)
/-- INT8 or INT4. -/
def isIntCode (c : Nat) : Bool := c == 5 || c == 6

/-- The group of an array operand's format (R78): 1 MX, 2 integer, 3 BF16, 0 not an array input. -/
def codeGroup (c : Nat) : Nat := if isMx c then 1 else if isIntCode c then 2 else if c = 7 then 3 else 0

/-- The value of an element's encoding. -/
def elemVal (c x : Nat) : Val :=
  match codeFmt c with
  | some f => f.decode x
  | none => ofInt (sext (codeBits c) x) 0 false

/-- Reduction steps for `k` elements, by the wider operand (R78, R109). -/
def stepsOf (fa fb k : Nat) : Nat :=
  if fa = 7 then 4 * k else if codeBits fa = 4 ∧ codeBits fb = 4 then (k + 1) / 2 else k

/-- Bytes that `n` elements of a code occupy. -/
def packedBytes (c n : Nat) : Nat := ceilDiv (codeBits c * n) 8

/-- Element `i` of packed bytes: its encoding, and whether a byte it lies in is poisoned. -/
def elemAt (c : Nat) (l : List PByte) (i : Nat) : Nat × Bool :=
  let w := codeBits c
  let b := w * i / 8
  let n := ceilDiv (w * i % 8 + w) 8
  let s := (l.drop b).take n
  (leNat (s.map PByte.v) / 2 ^ (w * i % 8) % 2 ^ w, s.any PByte.p || decide (s.length < n))

/-- Elements packed into bytes; an element's poison makes every byte it touches poisoned. -/
def packElems (c : Nat) (l : List (Nat × Bool)) : List PByte :=
  let w := codeBits c
  let v := l.foldr (fun e a => e.1 % 2 ^ w + 2 ^ w * a) 0
  let n := packedBytes c l.length
  (toLe n v).zipIdx.map (fun (b, i) =>
    ⟨b, (List.range (8 / w + 2)).any (fun k =>
      let e := 8 * i / w + k
      decide (e * w < 8 * i + 8) && (l.getD e (0, false)).2)⟩)

/-! ### The long accumulator (R79 to R83) -/

/-- The most terms of a chain (R82). -/
def maxTerms : Nat := 2 ^ 23

/-- A product's value: NaN when an element or a scale is. -/
def prodVal (a b : Val) (sa sb : Nat) : Val :=
  if sa = 255 ∨ sb = 255 then .nan
  else match a.mul b with
    | .fin n m e => .fin n m (e + ((sa : Int) - 127) + ((sb : Int) - 127))
    | v => v

/-- The term of a finite product (R80): q, truncated at the window bottom, saturated at the window top. -/
def termOf (eb : Int) (neg : Bool) (m : Nat) (e : Int) : Int × Bool × Bool :=
  let x := e - eb
  let (q, lo) := if x ≥ 0 then (m * 2 ^ x.toNat, false) else (m / 2 ^ (-x).toNat, m % 2 ^ (-x).toNat != 0)
  if q ≥ 2 ^ 104 then (signed neg (2 ^ 104 - 1), false, true) else (signed neg q, lo, false)

/-- One product added to an accumulator (R80 to R82). -/
def Acc.addVal (acc : Acc) (eb : Int) (v : Val) (poison : Bool) : Acc :=
  let acc := { acc with terms := acc.terms + 1, poison := acc.poison || poison }
  match v with
  | .nan => { acc with q := true }
  | .inf neg => if neg then { acc with n := true } else { acc with p := true }
  | .fin neg m e =>
    let (t, lo, hi) := termOf eb neg m e
    { acc with a := acc.a + t, lo := acc.lo || lo, hi := acc.hi || hi }

/-- Two accumulators of one window merged (R83). -/
def Acc.merge (x y : Acc) : Acc :=
  ⟨x.a + y.a, x.p || y.p, x.n || y.n, x.q || y.q, x.lo || y.lo, x.hi || y.hi, x.terms + y.terms, x.poison || y.poison⟩

/-- The value read out of an accumulator (R81), divided by 2^`outExp`; an exact zero is positive (R77). -/
def Acc.value (x : Acc) (eb outExp : Int) : Val :=
  if x.q || (x.p && x.n) then .nan
  else if x.p then .inf false
  else if x.n then .inf true
  else ofInt x.a (eb - outExp) false

/-- An accumulator as an ACC128 record (R83). -/
def Acc.record (x : Acc) (eb : Int) : List Byte :=
  toLe 16 (wrap 128 x.a) ++ toLe 2 (wrap 10 eb) ++ toLe 1 (b2n x.p + 2 * b2n x.n + 4 * b2n x.q) ++
    toLe 1 (b2n x.lo + 2 * b2n x.hi) ++ toLe 4 x.terms ++ toLe 8 0

/-- An ACC128 record read: the accumulator and its WIN_BASE, or none when a reserved byte or a reserved bit is not 0 (R83). A
reserved bit of WIN_BASE, SPECIAL or INEX is treated as a reserved byte is. DEDUCED (log entry 91): R83 gives those bits the
value 0 and states ACCUM_WINDOW for reserved bytes. -/
def Acc.ofRecord (l : List PByte) : Option (Acc × Int) :=
  let b := l.map PByte.v
  let w := leAt b 16 2
  let sp := byteAt b 18
  let ix := byteAt b 19
  if w ≥ 1024 ∨ sp ≥ 8 ∨ ix ≥ 4 ∨ leAt b 24 8 ≠ 0 then none
  else some (⟨sext 128 (leAt b 0 16), bit sp 0 == 1, bit sp 1 == 1, bit sp 2 == 1, bit ix 0 == 1, bit ix 1 == 1, leAt b 20 4,
    l.any PByte.p⟩, sext 10 w)

/-! ### Output conversion (R89 to R92) -/

/-- A magnitude rounded to an integer. -/
def roundMag (rnd : Rnd) (m : Nat) (e : Int) : Nat :=
  if e ≥ 0 then m * 2 ^ e.toNat else roundShift rnd m (-e).toNat

/-- One value to BF16, FP16 or FP32 (R89); INF_OUT whenever what is written is infinite (R98). -/
def convFloat (f : Fmt) (rnd : Rnd) (v : Val) : Nat × BitVec 9 :=
  match v with
  | .nan => (f.nanEnc, fNanOut)
  | .inf _ => (f.encode rnd v, fInfOut)
  | .fin _ m e => (f.encode rnd v, flagIf (decide (f.round rnd m e > f.maxEnc)) fInfOut)

/-- One value to INT8 or INT4 (R91). -/
def convInt (w : Nat) (rnd : Rnd) (v : Val) : Nat × BitVec 9 :=
  let hi : Int := (2 ^ (w - 1) : Nat) - 1
  let lo : Int := -((2 ^ (w - 1) : Nat) : Int)
  match v with
  | .nan => (0, fNanOut)
  | .inf neg => (wrap w (if neg then lo else hi), fOutSat)
  | .fin neg m e =>
    let i := signed neg (roundMag rnd m e)
    if i > hi then (wrap w hi, fOutSat) else if i < lo then (wrap w lo, fOutSat) else (wrap w i, 0)

/-- The exponent e_max of an MX format (R90). -/
def mxEmax (c : Nat) : Int := match c with | 0 => 8 | 1 => 15 | 2 => 4 | _ => 2

/-- floor of log2 of a finite magnitude that is not 0. -/
def flog2 (m : Nat) (e : Int) : Int := (ilog2 m : Int) + e

/-- The scale exponent X of a block (R90 step 2). -/
def mxScale (c : Nat) (vs : List Val) : Int :=
  let ls := vs.filterMap (fun v => match v with | .fin _ m e => if m = 0 then none else some (flog2 m e) | _ => none)
  match ls with
  | [] => -127
  | h :: t =>
    let x := t.foldl max h - mxEmax c
    if x < -127 then -127 else if x > 127 then 127 else x

/-- One MX block (R90): its scale byte, its element encodings and its flags. `rnds` gives each element's rounding. -/
def convMx (c : Nat) (rnds : List Rnd) (vs : List Val) : Nat × List Nat × BitVec 9 :=
  match codeFmt c with
  | none => (0, [], 0)
  | some f =>
    let bad := vs.any (fun v => match v with | .nan => true | .inf _ => c != 1 | .fin _ _ _ => false)
    if bad then (255, vs.map (fun _ => 0), fNanOut)
    else
      let x := mxScale c vs
      ((x + 127).toNat, (vs.zip rnds).map (fun (v, r) =>
        match v with
        | .fin n m e => f.encodeClamp r n m (e - x)
        | .inf n => f.signBit n + f.infEnc
        | .nan => 0), flagIf (vs.any (fun v => match v with | .inf _ => true | _ => false)) fInfOut)

end Sys2Proof.Machine
end

