-- ==== Sys2Proof/Machine/Checks.lean ====
section
/-! DEFINITION. The check bits of T0 and T1: byte mode and line mode, poison form and markers, and the line frames of a channel
(R140, R142, R166 to R171). -/

namespace Sys2Proof.Machine

/-! ### Byte mode (R167 to R169) -/

/-- The check bits c0 to c4 of a data byte, c0 in bit 0 (R167). -/
def checkBits (d : Nat) : Nat :=
  let p (l : List Nat) : Nat := (l.foldl (fun a i => a + bit d i) 0) % 2
  let c := p [0, 1, 3, 4, 6] + 2 * p [0, 2, 3, 5, 6] + 4 * p [1, 2, 3, 7] + 8 * p [4, 5, 6, 7]
  c + 16 * ((popCount 8 d + popCount 4 c) % 2)

/-- The check bits of the poison form, stored with data 0x00 (R169). -/
def poisonCheck : Nat := 0b01111

/-- What the decoder of a stored byte finds (R168). -/
inductive ByteRead where
  | clean (d : Nat)
  | corrected (d : Nat)
  | uncorrectable
  | poison
  deriving DecidableEq, Repr

/-- The data bit at a position of the code; none at the positions of c0 to c3. -/
def dataBitAt (s : Nat) : Option Nat :=
  match s with
  | 3 => some 0 | 5 => some 1 | 6 => some 2 | 7 => some 3 | 9 => some 4 | 10 => some 5 | 11 => some 6 | 12 => some 7
  | _ => none

/-- A stored byte with its check bits decoded (R168). -/
def readByte (d c : Nat) : ByteRead :=
  let s := (checkBits d % 16) ^^^ (c % 16)
  let p := (popCount 8 d + popCount 5 c) % 2
  if p = 0 then (if s = 0 then .clean d else if s = 15 then .poison else .uncorrectable)
  else if s = 0 then .corrected d
  else if s ≤ 12 then .corrected (match dataBitAt s with | some i => d ^^^ 2 ^ i | none => d)
  else .uncorrectable

/-! ### Line mode (R170, R171) -/

/-- A product in GF(2^8) with field polynomial x^8 + x^4 + x^3 + x^2 + 1, over the low `n` bits of the second factor. -/
def gfMulN : Nat → Nat → Nat → Nat
  | 0, _, _ => 0
  | n + 1, a, b => (if b % 2 = 1 then a else 0) ^^^ gfMulN n (if a < 128 then 2 * a else (2 * a) ^^^ 0x11D) (b / 2)

/-- A product in GF(2^8). -/
def gfMul (a b : Nat) : Nat := gfMulN 8 a b

/-- The product of the squares a^2, a^4, … of an element, `n` of them. -/
def gfSquares : Nat → Nat → Nat
  | 0, _ => 1
  | n + 1, a => let q := gfMul a a; gfMul q (gfSquares n q)

/-- The inverse of an element that is not 0: its power 254. -/
def gfInv (a : Nat) : Nat := gfSquares 7 a

/-- alpha to the 0, 1, … `n` - 1, starting from `x`. -/
def gfPowers : Nat → Nat → List Nat
  | 0, _ => []
  | n + 1, x => x :: gfPowers n (gfMul 2 x)

/-- A polynomial, highest coefficient first, times (x + r). -/
def polyTimes (g : List Nat) (r : Nat) : List Nat := ((g ++ [0]).zip (0 :: g)).map (fun (c : Nat × Nat) => c.1 ^^^ gfMul r c.2)

/-- The generator of R170, highest coefficient first. -/
def rsGen : List Nat := (gfPowers 40 1).foldl polyTimes [1]

/-- The 40 check bytes K_0 to K_39 of a line's 64 data bytes (R170). -/
def lineCheck (data : List Nat) : List Nat :=
  let g := rsGen.drop 1
  data.foldl (fun (r : List Nat) (d : Nat) =>
    let f := d ^^^ r.headD 0
    ((r.drop 1 ++ [0]).zip g).map (fun (c : Nat × Nat) => c.1 ^^^ gfMul f c.2)) (List.replicate 40 0)

/-- Marker M_m (R171). -/
def lineMarker (m : Nat) : List Nat := (List.range 5).flatMap (fun i => (toLe 8 (mix64 0x50544D524B525331 m i)).map BitVec.toNat)

/-- Two lists of bytes added in GF(2^8). -/
def xorList (a b : List Nat) : List Nat := (a.zip b).map (fun x => x.1 ^^^ x.2)

/-- A polynomial, highest coefficient first, at a point. -/
def polyAt (l : List Nat) (x : Nat) : Nat := l.foldl (fun a c => gfMul a x ^^^ c) 0

/-- A polynomial, lowest coefficient first, at a point. -/
def polyLow (l : List Nat) (x : Nat) : Nat := polyAt l.reverse x

/-- Two polynomials, lowest coefficient first, added. -/
def polyAdd : List Nat → List Nat → List Nat
  | [], b => b
  | a, [] => a
  | x :: a, y :: b => (x ^^^ y) :: polyAdd a b

/-- The error locator of a list of syndromes, lowest coefficient first (Berlekamp and Massey): the locator, the one before its
last change of length, the discrepancy then, the steps since and the number of errors. -/
structure Locator where
  c : List Nat
  b : List Nat
  d0 : Nat
  gap : Nat
  len : Nat
  deriving DecidableEq, Repr

/-- One syndrome taken in; `past` are those before it, newest first. -/
def Locator.step (x : Locator) (n s : Nat) (past : List Nat) : Locator :=
  let d := ((x.c.drop 1).zip past).foldl (fun a y => a ^^^ gfMul y.1 y.2) s
  if d = 0 then { x with gap := x.gap + 1 }
  else
    let q := gfMul d (gfInv x.d0)
    let c := polyAdd x.c (List.replicate x.gap 0 ++ x.b.map (gfMul q))
    if 2 * x.len ≤ n then { c := c, b := x.c, d0 := d, gap := 1, len := n + 1 - x.len }
    else { x with c := c, gap := x.gap + 1 }

/-- The locator of the syndromes. -/
def locate : List Nat → Nat → List Nat → Locator → Locator
  | [], _, _, x => x
  | s :: t, n, past, x => locate t (n + 1) (s :: past) (x.step n s past)

/-- Every second coefficient, from the second on. -/
def oddCoefs : List Nat → List Nat
  | _ :: b :: t => b :: oddCoefs t
  | _ => []

/-- The value an error adds at a place of the code word, from locator and evaluator, at the inverse of the place. -/
def errorValue (loc eval : List Nat) (x xi : Nat) : Nat :=
  gfMul (gfMul x (polyLow eval xi)) (gfInv (polyLow (oddCoefs loc) (gfMul xi xi)))

/-- The word of 104 bytes with at most 20 bad bytes corrected, and how many were bad; none when it cannot be corrected (R170). -/
def rsCorrect (w : List Nat) : Option (List Nat × Nat) :=
  let syn := (gfPowers 40 1).map (polyAt w)
  let x := locate syn 0 [] ⟨[1], [1], 1, 1, 0⟩
  if 20 < x.len then none
  else
    let eval := ((List.range 40).map (fun i =>
      ((x.c.take (i + 1)).zip ((syn.take (i + 1)).reverse)).foldl (fun a y => a ^^^ gfMul y.1 y.2) 0)).take x.len
    let fixed := (w.zip (gfPowers 104 1).reverse).map (fun b =>
      let xi := gfInv b.2
      if polyLow x.c xi = 0 then b.1 ^^^ errorValue x.c eval b.2 xi else b.1)
    let bad := ((w.zip fixed).filter (fun b => b.1 != b.2)).length
    if bad ≤ 20 ∧ bad = x.len ∧ lineCheck (fixed.take 64) = fixed.drop 64 then some (fixed, bad) else none

/-- What the decoder of a line-mode line finds: the data, with the words that are poisoned and the bytes corrected; none when it is
uncorrectable (R171). -/
def readLine (data check : List Nat) : Option (List Nat × Nat × Nat) :=
  let diff := xorList (lineCheck data) check
  if diff.all (· == 0) then some (data, 0, 0)
  else match (List.range 256).find? (fun m => 0 < m && diff == lineMarker m) with
    | some m => some (data, m, 0)
    | none => (rsCorrect (data ++ check)).map (fun r => (r.1.take 64, 0, r.2))

/-! ### Stored lines with errors (R167 to R171) -/

/-- What a store finds in a stored line: the 64 bytes it holds after correction, one in the poison form poisoned and a word that cannot
be corrected poisoned whole; for each of the eight words the number of bytes corrected; and whether it cannot be corrected. In line
mode the whole line's corrected bytes stand with word 0. -/
structure LineRead where
  bytes : List PByte
  ce : List Nat
  ue : List Bool
  deriving DecidableEq, Repr

/-- A line without an error. -/
def LineRead.sound (l : List PByte) : LineRead := ⟨l, List.replicate 8 0, List.replicate 8 false⟩

/-- A line no word of which can be corrected. -/
def LineRead.lost : LineRead := ⟨List.replicate 64 ⟨0, true⟩, List.replicate 8 0, List.replicate 8 true⟩

/-- Bytes corrected. -/
def LineRead.corrected (r : LineRead) : Nat := r.ce.foldl (· + ·) 0

/-- A word of it cannot be corrected. -/
def LineRead.bad (r : LineRead) : Bool := r.ue.any id

/-- Bytes with every word that holds a poisoned byte poisoned whole (R169). -/
def wholeWords (l : List PByte) : List PByte :=
  l.zipIdx.map (fun b => if ((l.drop (b.2 / 8 * 8)).take 8).any PByte.p then ⟨0, true⟩ else b.1)

/-- The bytes a line delivers. -/
def LineRead.data (r : LineRead) : List PByte := wholeWords r.bytes

/-- The eight bytes of a word in byte mode: a word with a poison form counts no error, one with an uncorrectable byte is poisoned
whole (R168, R169). -/
def readWord (l : List ByteRead) : List PByte × Nat × Bool :=
  let deliver (r : ByteRead) : PByte := match r with
    | .clean d => ⟨BitVec.ofNat 8 d, false⟩
    | .corrected d => ⟨BitVec.ofNat 8 d, false⟩
    | _ => ⟨0, true⟩
  let ce := (l.filter (fun r => match r with | .corrected _ => true | _ => false)).length
  if l.contains .poison then (l.map deliver, 0, false)
  else if l.contains .uncorrectable then (List.replicate 8 ⟨0, true⟩, ce, true)
  else (l.map deliver, ce, false)

/-- A stored line of 104 bytes as byte mode decodes it (R168, R169). -/
def readByteLine (f : List Nat) : LineRead :=
  let c := leNat ((f.drop 64).map (BitVec.ofNat 8))
  let rs := ((f.take 64).zipIdx).map (fun b => readByte b.1 (c / 2 ^ (5 * b.2) % 32))
  let ws := (List.range 8).map (fun w => readWord ((rs.drop (8 * w)).take 8))
  ⟨(ws.map (fun w => w.1)).flatten, ws.map (fun w => w.2.1), ws.map (fun w => w.2.2)⟩

/-- A stored line of 104 bytes as line mode decodes it (R170, R171). -/
def readCodeLine (f : List Nat) : LineRead :=
  match readLine (f.take 64) (f.drop 64) with
  | none => .lost
  | some (d, m, n) =>
    ⟨d.zipIdx.map (fun b => if bit m (b.2 / 8) = 1 then ⟨0, true⟩ else ⟨BitVec.ofNat 8 b.1, false⟩), n :: List.replicate 7 0,
      List.replicate 8 false⟩

/-- An inversion pattern of a line without the bits of some of its bytes, data and check bits of byte mode (R167). -/
def flawWithout (f : List Byte) (drop : Nat → Bool) : List Byte :=
  let c := leNat (f.drop 64)
  ((f.take 64).zipIdx).map (fun b => if drop b.2 then 0 else b.1) ++
    toLe 40 ((List.range 64).foldl (fun a j => if drop j then a else a + c / 2 ^ (5 * j) % 32 * 2 ^ (5 * j)) 0)

/-! ### Line frames (R140, R142, R166, R167) -/

/-- The frame of a line in byte mode, from its bytes and whether each is in the poison form. -/
def byteFrame (l : List PByte) : List Nat :=
  let f := l.foldr (fun b a => a * 32 + (if b.p then poisonCheck else checkBits b.v.toNat)) 0
  l.map (fun b => if b.p then 0 else b.v.toNat) ++ (toLe 40 f).map BitVec.toNat

/-- The frame of a line in line mode, from its bytes, those of a poisoned word all poisoned. -/
def codeFrame (l : List PByte) : List Nat :=
  let data := l.map (fun b => if b.p then 0 else b.v.toNat)
  let m := (List.range 8).foldl (fun a w => a + (if (l.getD (8 * w) ⟨0, false⟩).p then 2 ^ w else 0)) 0
  data ++ (if m = 0 then lineCheck data else xorList (lineCheck data) (lineMarker m))

/-- The bytes a frame in byte mode delivers; none when a byte does not match its check bits, in which case the frame has a link
error. -/
def readByteFrame (f : List Nat) : Option (List PByte) :=
  let c := leNat ((f.drop 64).map (BitVec.ofNat 8))
  let r := ((f.take 64).zipIdx).map (fun b => match readByte b.1 (c / 2 ^ (5 * b.2) % 32) with
    | .clean d => some (PByte.mk (BitVec.ofNat 8 d) false)
    | .poison => some (PByte.mk 0 true)
    | _ => none)
  if r.any Option.isNone then none else some (r.filterMap id)

/-- The bytes a frame in line mode delivers; none when its check bytes match neither its data nor a marker. -/
def readCodeFrame (f : List Nat) : Option (List PByte) :=
  let diff := xorList (lineCheck (f.take 64)) (f.drop 64)
  let deliver (m : Nat) : List PByte := ((f.take 64).zipIdx).map (fun b =>
    if bit m (b.2 / 8) = 1 then ⟨0, true⟩ else ⟨BitVec.ofNat 8 b.1, false⟩)
  if diff.all (· == 0) then some (deliver 0)
  else ((List.range 256).find? (fun m => 0 < m && diff == lineMarker m)).map deliver

/-- The bytes a frame delivers when errors are added to it; none when it has a link error (R142, R166). -/
def frameRead (line : Bool) (l : List PByte) (errs : List Byte) : Option (List PByte) :=
  let e := errs.map BitVec.toNat ++ List.replicate (104 - errs.length) 0
  if line then readCodeFrame (xorList (codeFrame l) e) else readByteFrame (xorList (byteFrame l) e)

end Sys2Proof.Machine
end

