-- ==== Sys2Proof/Machine/Types/Cap.lean ====
section
/-! DEFINITION. The power cap, operating points, telemetry, rating lock and the sag sense. -/

namespace Sys2Proof.Machine

/-- A pending hint (R478): t_h, its watts, the elapsed count of its decode, and whether its interval has begun. -/
structure Hint where
  at_ : Nat
  watts : Nat
  from_ : Nat
  begun : Bool
  deriving DecidableEq, Repr

/-- The CAP block (R473 to R495). -/
structure CapSt where
  limit : Nat
  order : Nat
  boost : Bool
  loadline : Nat
  slew : Nat
  vcore : Nat
  warnMv : Nat
  resetMv : Nat
  sagCap : Nat
  preemptFrom : Nat
  /-- 0 AGREE, 1 MISMATCH, 2 UNRELIABLE, 3 NO_TELEMETRY -/
  telem : Nat
  unreliable : Bool
  /-- E and M in 0.1 W, the measured value none while telemetry is lost, and P_ctl in 0.01 W -/
  estimate : Nat
  measured : Option Nat
  control : Nat
  /-- elapsed counts since which E and M disagree, agree, and readings have been valid -/
  disagree : Option Nat
  agree : Option Nat
  valid : Option Nat
  /-- the elapsed count at which the disagreement that led to MISMATCH began -/
  mismatchFrom : Nat
  /-- elapsed count of the last valid AVSBus reading -/
  readAt : Nat
  /-- notches of 1 percent taken from the links and memory groups, 0 to 90 -/
  linkCut : Nat
  memCut : Nat
  /-- operating points taken from each domain 0 to 76 by throttling, and added by boosting -/
  lowered : Vector Nat 77
  boosted : Vector Nat 77
  /-- pacing of each domain by throttling in 0.01 steps/ns, 0 when not paced -/
  pace : Vector Nat 77
  thermal : Bool
  unreachable : Bool
  /-- temperature band of each compute-die domain -/
  bands : Vector Nat 77
  /-- locked rating of each domain in 0.01 steps/ns, 0 when not locked, and the last one set -/
  locked : Vector Nat 77
  lockRating : Nat
  /-- slips of each domain in the present millisecond -/
  slips : Vector Nat 77
  hints : List Hint
  /-- 0 NORMAL, 1 WARN, 2 CONFIRMING -/
  sag : Nat
  lastUs : Nat
  /-- elapsed count of the first fall below the warning level, and of the start of the confirming time -/
  dipAt : Nat
  confirmAt : Nat
  /-- KV_SPILL_DEFERRED has been raised in this dip -/
  deferred : Bool
  deriving DecidableEq, Repr

/-- The CAP block at a cold start (R480, R485, R495). -/
def CapSt.reset : CapSt :=
  { limit := 420, order := 0, boost := true, loadline := 200, slew := 10, vcore := 750, warnMv := 900, resetMv := 800
    sagCap := 60, preemptFrom := 3, telem := 0, unreliable := false, estimate := 0, measured := some 0, control := 0
    disagree := none, agree := none, valid := none, mismatchFrom := 0, readAt := 0, linkCut := 0, memCut := 0
    lowered := Vector.replicate 77 0, boosted := Vector.replicate 77 0, pace := Vector.replicate 77 0, thermal := false
    unreachable := false, bands := Vector.replicate 77 0, locked := Vector.replicate 77 0, lockRating := 0
    slips := Vector.replicate 77 0, hints := [], sag := 0, lastUs := 0, dipAt := 0, confirmAt := 0, deferred := false }

end Sys2Proof.Machine
end

