-- ==== Sys2Proof/Machine/Types/Fusion.lean ====
section
/-! DEFINITION. The fusion engine: streams, instants, ego-motion, mounts and output. -/

namespace Sys2Proof.Machine

/-- A vector of three integers. -/
structure V3 where
  x : Int
  y : Int
  z : Int
  deriving DecidableEq, Repr

/-- The zero vector. -/
def V3.zero : V3 := ⟨0, 0, 0⟩

/-- A quaternion with 30 fraction bits (R332). -/
structure Quat where
  w : Int
  x : Int
  y : Int
  z : Int
  deriving DecidableEq, Repr

/-- The identity rotation. -/
def Quat.one : Quat := ⟨2 ^ 30, 0, 0, 0⟩

/-- A transform-table entry: rotation and translation in micrometres (R334). -/
structure Xform where
  q : Quat
  t : V3
  deriving DecidableEq, Repr

/-- A detection (R330): class, position in mm in the sensor frame, extents. -/
structure Det where
  cls : Nat
  pos : V3
  size : V3
  deriving DecidableEq, Repr

/-- An observation frame taken from a slot (R330). -/
structure ObsFrame where
  stream : Nat
  counter : Nat
  usable : Bool
  tObs : Int
  arrival : Nat
  dets : List Det
  force : V3
  torque : V3
  deriving DecidableEq, Repr

/-- A detection placed in the odometry frame: its stream, time and index within its frame, whether its frame is reused. -/
structure Placed where
  stream : Nat
  time : Int
  index : Nat
  reused : Bool
  det : Det
  pos : V3
  deriving DecidableEq, Repr

/-- An instant formed and not yet closed (R337). -/
structure Instant where
  n : Nat
  t : Int
  coasted : Bool
  deriving DecidableEq, Repr

/-- A frame paired to an instant that has not closed; `reused` for the previous frame of a stream that slipped (R338). `expected` is the
ARRIVAL that was predicted for the instant's frame: that of the stream's frame before it plus the period then estimated (R339). -/
structure Paired where
  n : Nat
  frame : ObsFrame
  reused : Bool
  expected : Option Nat
  deriving DecidableEq, Repr

/-- A pose of the ego-motion history (R333). -/
structure Pose where
  t : Int
  q : Quat
  pos : V3
  vel : V3
  rate : V3
  deriving DecidableEq, Repr

/-- One stream (R327 to R341, R352). -/
structure Stream where
  configured : Bool
  kind : Nat
  port : Nat
  transform : Nat
  periodUs : Nat
  lead : Bool
  critical : Bool
  ringBase : Nat
  ringLog2 : Nat
  next : Nat
  latencyUs : Nat
  /-- counter and ARRIVAL of the last frames with consecutive counters, newest first, at most 17 -/
  run : List (Nat × Nat)
  offset : Option Int
  drift : Int
  /-- slips of which open instants may still know: the last instant under the OFFSET before the slip, and that OFFSET, newest first -/
  slips : List (Int × Int)
  /-- counter of the last frame, carried on past 2^32 -/
  index : Int
  lastCounter : Option Nat
  lastFrame : Option ObsFrame
  /-- elapsed count, in ns, at which the last frame was delivered or the last sample was used -/
  lastAt : Nat
  present : Bool
  /-- instants left of a frozen-frame lie; due instants left of a counter lie, that of the frame at fault and three more; and the bound
  counters of R336 and R341 -/
  frozenLeft : Nat
  counterLeft : Nat
  atBound : Nat
  offBound : Nat
  boundLie : Bool
  delta : V3
  link : Option (Nat × Nat × Nat)
  /-- T_OBS of the last ego sample used, and its elapsed time of use -/
  lastObs : Option Int
  deriving DecidableEq, Repr

/-- A stream at a start. -/
def Stream.reset : Stream :=
  { configured := false, kind := 0xFF, port := 0xFF, transform := 0, periodUs := 0, lead := false, critical := false
    ringBase := 0, ringLog2 := 0, next := 0, latencyUs := 0, run := [], offset := none, drift := 0, slips := [], index := 0
    lastCounter := none, lastFrame := none, lastAt := 0, present := false, frozenLeft := 0, counterLeft := 0, atBound := 0
    offBound := 0, boundLie := false, delta := V3.zero, link := none, lastObs := none }

/-- One cycle of a chain as the fusion engine keeps it (R335): sample instant in ns, and joint positions. -/
structure ChainCycle where
  t : Nat
  pos : List Nat
  deriving DecidableEq, Repr

/-- A track (R343). -/
structure Track where
  confirmed : Bool
  cls : Nat
  hits : Nat
  misses : Nat
  instants : Nat
  pos : V3
  vel : V3
  size : V3
  streams : Nat
  tUpd : Int
  tHit : Int
  deriving DecidableEq, Repr

/-- The FUSE block and the engine's own state. -/
structure FuseSt where
  enabled : Bool
  closeUs : Nat
  drMaxMs : Nat
  level : Nat
  /-- last instant closed -/
  instant : Nat
  /-- number the next instant takes -/
  nextInstant : Nat
  tLast : Int
  started : Bool
  instants : List Instant
  paired : List Paired
  /-- times of coasted instants closed since the last lead frame formed an instant -/
  closedCoasts : List Int
  /-- the engine is retired while fusion was enabled: the cox writes level-4 records (R436) -/
  degraded : Bool
  alpha : Nat
  beta : Nat
  maxOut : Nat
  gates : Vector Nat 16
  m : Nat
  n : Nat
  k : Nat
  maxAgeMs : Nat
  carryLate : Bool
  streams : Vector Stream 36
  xforms : Vector Xform 256
  outAddr : Nat
  outSlots : Nat
  tail : Nat
  q : Quat
  pos : V3
  vel : V3
  rate : V3
  /-- the last poses integrated, newest first, at most 1,024 -/
  poses : List Pose
  /-- streams that gave the last IMU and odometry samples used -/
  imu : Nat
  odo : Nat
  /-- latest cycles of each chain, newest first, at most 256 -/
  cycles : Vector (List ChainCycle) 4
  /-- elapsed count, in ns, since which the dead-reckoning timer runs -/
  drSince : Option Nat
  /-- levels that the conditions of the last two instants gave, newest first (R347) -/
  falls : List Nat
  /-- times of the odometry samples used, newest first, from four periods before the last instant closed on (R347) -/
  odoSeen : List Int
  lateSince : Nat
  lostSince : Nat
  slippedSince : Nat
  carried : List Placed
  deriving DecidableEq, Repr

/-- The fusion engine at a start (R334, R352). -/
def FuseSt.reset : FuseSt :=
  { enabled := false, closeUs := 5000, drMaxMs := 2000, level := 4, instant := 0, nextInstant := 0, tLast := 0
    started := false, instants := [], paired := [], closedCoasts := [], degraded := false, alpha := 0x8000, beta := 0x2000, maxOut := 1024, gates := Vector.replicate 16 500
    m := 1, n := 1, k := 1, maxAgeMs := 1, carryLate := false, streams := Vector.replicate 36 Stream.reset
    xforms := Vector.replicate 256 ⟨Quat.one, V3.zero⟩, outAddr := 0, outSlots := 0, tail := 0, q := Quat.one
    pos := V3.zero, vel := V3.zero, rate := V3.zero, poses := [], imu := 32, odo := 34, cycles := Vector.replicate 4 [], drSince := none
    falls := [], odoSeen := [], lateSince := 0, lostSince := 0, slippedSince := 0, carried := [] }

end Sys2Proof.Machine
end

