-- ==== Sys2Proof/Machine/Types/Ctx.lean ====
section
/-! DEFINITION. Contexts, their page tables, and the models of the boathouse. -/

namespace Sys2Proof.Machine

/-- States of a KV page (R213, R214). -/
inductive PageState where
  | free | filling | resident | clean | spilling | spilled | fetching
  deriving DecidableEq, Repr

/-- A page-table entry (R213). -/
structure Page where
  state : PageState
  frame : Nat
  slot : Nat
  relPending : Bool
  /-- its NVS copy is durable -/
  durable : Bool
  sumValid : Bool
  holds : Nat
  count : Nat
  kSumScale : Nat
  vSumScale : Nat
  /-- order in which pages filled, for R221; 0 for a page not full -/
  filledAt : Nat
  deriving DecidableEq, Repr

/-- A page never used. -/
def Page.reset : Page :=
  { state := .free, frame := 0, slot := 0, relPending := false, durable := false, sumValid := false, holds := 0, count := 0
    kSumScale := 0, vSumScale := 0, filledAt := 0 }

/-- One list: a layer and KV head of a sequence (R212). -/
structure KvList where
  len : Nat
  first : Nat
  vis : Nat
  visFirst : Nat
  kScale : Nat
  vScale : Nat
  appended : Bool
  /-- pages 0, 1, … as far as the page table reaches -/
  pages : List Page
  /-- first frame of each page-table block and its summaries, in the NEXT chain's order (R213) -/
  blocks : List Nat
  deriving DecidableEq, Repr

/-- The sequence part of a descriptor (R208). -/
structure SeqCtx where
  /-- first pool frame of the list directory -/
  dir : Nat
  layers : Nat
  heads : Nat
  /-- 0 to 3 for 64, 128, 192, 256 -/
  headDim : Nat
  kvFmt : Nat
  emptyRows : Nat
  approx : Nat
  clamped : Nat
  lists : List KvList
  deriving DecidableEq, Repr

/-- The job fields of a job context, and of a sequence context in the cox workspace (R282). -/
structure JobCtx where
  lastPhase : Nat
  placement : Nat
  frames : Nat
  spilled : Option Nat
  stepsEnded : Nat
  lastEnd : Nat
  deriving DecidableEq, Repr

/-- Job fields after ctx.open. -/
def JobCtx.reset : JobCtx :=
  { lastPhase := 255, placement := 255, frames := 0, spilled := none, stepsEnded := 0, lastEnd := 0 }

/-- A spilled-thread context (R283). -/
structure SpillCtx where
  owner : Nat
  crew : Nat
  phase : Nat
  step : Nat
  saveMap : List Nat
  spilledAt : Nat
  pauseNs : Nat
  deriving DecidableEq, Repr

/-- A planner-query context (R325). -/
structure PlanCtx where
  lattice : Nat
  unit : Nat
  state : Nat
  queries : Nat
  lastStatus : Nat
  lastVersion : Nat
  lastExpansions : Nat
  deriving DecidableEq, Repr

/-- A planner-query context after ctx.open. -/
def PlanCtx.reset : PlanCtx := ⟨0, 0xFF, 0, 0, 0, 0, 0⟩

/-- A context that is not free (R208). -/
structure Ctx where
  kind : Nat
  /-- state 2, torn down; otherwise open -/
  torn : Bool
  model : Nat
  seed : Nat
  /-- the seed was drawn by ctx.open (R94) -/
  drawn : Bool
  client : Nat
  /-- FLAGS STEP -/
  step : Bool
  /-- FLAGS NO_SPILL -/
  noSpill : Bool
  seq : Option SeqCtx
  job : JobCtx
  spill : Option SpillCtx
  track : Option Track
  plan : PlanCtx
  deriving DecidableEq, Repr

/-- A phase entry (R261). -/
structure PhaseEntry where
  kind : Nat
  oppoint : Nat
  pred : Nat
  entry : Bool
  orderFixed : Bool
  sequence : Bool
  placements : Nat
  firstPlacement : Nat
  seed : Nat
  inBytes : Nat
  outBytes : Nat
  fetchFirst : Nat
  fetchCount : Nat
  expectedW : Nat
  deriving DecidableEq, Repr

/-- A placement entry (R265). -/
structure Placement where
  crew : Nat
  threads : Nat
  stages : Nat
  hot : Bool
  entry : Nat
  footprint : Nat
  streams : Nat
  grants : Nat
  grantCount : Nat
  hotBytes : Nat
  stepNs : Nat
  deriving DecidableEq, Repr

/-- A fetch entry (R154). -/
structure Fetch where
  firstStep : Nat
  layer : Nat
  kind : Nat
  graceNs : Nat
  target : Nat
  deriving DecidableEq, Repr

/-- A RELOC entry (R266), with the value the image stores in the field. -/
structure Reloc where
  offset : Nat
  kind : Nat
  stored : Nat
  deriving DecidableEq, Repr

/-- A section of an image: type, offset and size (R258). -/
structure ImgSection where
  type : Nat
  offset : Nat
  size : Nat
  deriving DecidableEq, Repr

/-- The shape a SEQUENCE section declares (R209, R258). -/
structure SeqShape where
  layers : Nat
  heads : Nat
  headDim : Nat
  kvFmt : Nat
  /-- K_SCALE and V_SCALE of each list -/
  scales : List (Nat × Nat)
  deriving DecidableEq, Repr

/-- Tiers of a model in the boathouse (R162). -/
inductive ModelState where
  | cold | warm | hot
  deriving DecidableEq, Repr

/-- A run of pool frames or pages in use. -/
structure Ext where
  first : Nat
  count : Nat
  deriving DecidableEq, Repr

/-- A safe.job mark (R402, R408): the pool copies of the golden input and the known output, and the expected signature. -/
structure SafeMark where
  input : Ext
  known : Ext
  sig : Nat
  deriving DecidableEq, Repr

/-- A model in the boathouse (R162, R275). -/
structure Model where
  state : ModelState
  pinned : Bool
  inUse : Nat
  keySlot : Nat
  modelId : Nat
  version : Nat
  len : Nat
  sections : List ImgSection
  phases : List PhaseEntry
  placements : List Placement
  fetches : List Fetch
  relocs : List Reloc
  seq : Option SeqShape
  /-- the bytes of its SEQUENCE section (R274) -/
  seqBytes : List Byte
  /-- SHA-384 digest kept with the home copy -/
  digest : Nat
  /-- home copy: NVS byte offset, in 4 KiB pages -/
  home : Ext
  /-- warm copy: T1 pool frames -/
  warm : Option Ext
  /-- the fallback variants kept in T1, in pool frames (R154) -/
  variants : Option Ext
  /-- tiles that hold its hot copy, in rank order, and the T0 offset of the copy in each -/
  hotTiles : List Nat
  hotAt : List Nat
  lastUse : Nat
  /-- a swap of this model to another waits for it not to be in use; its command -/
  swapTo : Option Nat
  swapUid : Nat
  /-- demotions, promotions and evictions that wait for it not to be in use: the command, none for one the TZ8 itself
  makes, and the tier 0 to 2, or 3 for an eviction -/
  waits : List (Option Nat × Nat)
  safe : Option SafeMark
  deriving DecidableEq, Repr

/-- A model.load whose home copy is being written (R152, R162): its command, the handle it will have and the model. -/
structure Loading where
  uid : Nat
  handle : Nat
  model : Model
  deriving DecidableEq, Repr

/-- A kv.move or a deferred kv command: what it waits for (R226, R216). -/
structure KvWait where
  uid : Nat
  ctx : Nat
  /-- 2 to NVS, 1 to T1, 0 a command deferred until the step ends -/
  tier : Nat
  /-- the pages it moves, and those of them that were CLEAN -/
  pages : List (Nat × Nat)
  clean : List (Nat × Nat)
  /-- pages of its range that were on their way already -/
  others : List (Nat × Nat)
  deriving DecidableEq, Repr

/-- The boathouse and the pools it shares with KV (R160 to R164, R211). -/
structure BoatSt where
  /-- models by handle, rising -/
  models : List (Nat × Model)
  /-- models whose model.load has not ended -/
  loading : List Loading
  /-- handles that became other names of a model (R274) -/
  aliases : List (Nat × Nat)
  nextHandle : Nat
  /-- T1 cox-pool frames in use, by first frame, disjoint (R211) -/
  pool : List Ext
  /-- NVS pool pages holding home copies, by first page, disjoint -/
  nvs : List Ext
  /-- security engine key slots: X, Y, revoked (R260); none when empty -/
  keys : Vector (Option (Nat × Nat × Bool)) 8
  /-- spill slots in use, rising (R213) -/
  slots : List Nat
  /-- stamps handed out to pages as they fill -/
  fillStamp : Nat
  /-- SWEEP.KV_CTL (R228) -/
  lowWater : Nat
  spillEnable : Bool
  waits : List KvWait
  deriving DecidableEq, Repr

/-- The boathouse at manufacture. -/
def BoatSt.reset : BoatSt :=
  { models := [], loading := [], aliases := [], nextHandle := 1, pool := [], nvs := [], keys := Vector.replicate 8 none, slots := []
    fillStamp := 1, lowWater := 4096, spillEnable := true, waits := [] }

end Sys2Proof.Machine
end

