-- ==== Sys2Proof/Machine/Types/Engines.lean ====
section
/-! DEFINITION. The package queues of sweeps and transform runs, and the units that take them. -/

namespace Sys2Proof.Machine

/-- A run a thread has issued: its tile and thread, the program counter of the instruction, the context of its job, the T0
offset of its descriptor and, once a unit has taken it, the descriptor's bytes (R191, R244). -/
structure Run where
  tile : Nat
  thread : Nat
  pc : Nat
  ctx : Nat
  addr : Nat
  desc : List PByte
  /-- it is reissued ahead of every other run of its type (R433) -/
  urgent : Bool
  deriving DecidableEq, Repr

/-- A sweep a pipeline has taken (R192, R224). -/
structure Sweep where
  run : Run
  /-- pages replaced by their pseudo-token -/
  replaced : List Nat
  /-- page the walker waits for, and its deadline -/
  wait_ : Option (Nat × Nat)
  /-- pages whose HOLDS this sweep raised -/
  held : List Nat
  deriving DecidableEq, Repr

/-- Sweep pipelines and their queue, oldest first. -/
structure SweepSt where
  pipes : Vector (Option Sweep) 16
  queue : List Run
  deriving DecidableEq, Repr

/-- Transform engines and their queue, oldest first. -/
structure XfSt where
  engines : Vector (Option Run) 8
  queue : List Run
  deriving DecidableEq, Repr

/-- No sweep. -/
def SweepSt.reset : SweepSt := ⟨Vector.replicate 16 none, []⟩
/-- No transform run. -/
def XfSt.reset : XfSt := ⟨Vector.replicate 8 none, []⟩

end Sys2Proof.Machine
end

