-- ==== Sys2Proof/Machine/Types/Net.lean ====
section
/-! DEFINITION. The sensor and trunk switch: ports, queues, VLANs, filters, templates and secure associations. -/

namespace Sys2Proof.Machine

/-- A credit-based shaper (R388): idle slope in kb/s, 0 for none; credit in units of a tenth of a micro-bit, so that half a
nanosecond at 1 kb/s adds 5; and the elapsed count at which it was last brought up to date. -/
structure Shaper where
  slope : Nat
  credit : Int
  at_ : Nat
  deriving DecidableEq, Repr

/-- A MACsec association (R396): number, cipher, SCI, key and the packet number last used. -/
structure Assoc where
  an : Nat
  cipher : Nat
  sci : Nat
  key : Nat
  pn : Nat
  deriving DecidableEq, Repr

/-- A port (R380 to R399). -/
structure NetPort where
  role : Nat
  slave : Bool
  link : Bool
  pvid : Nat
  /-- transmit associations, the one installed last first -/
  tx : List Assoc
  rx : List Assoc
  /-- frames waiting in each egress queue, without FCS, tagged or untagged as they leave -/
  queues : Vector (List (List Byte)) 8
  shapers : Vector Shaper 8
  /-- the last frame sent on the wire, FCS included -/
  sent : List Byte
  /-- the elapsed count at which the frame being sent, its preamble and its gap end -/
  busyUntil : Nat
  deriving DecidableEq, Repr

/-- A VLAN (R383, R398). -/
structure Vlan where
  vid : Nat
  members : Nat
  untagged : Nat
  deriving DecidableEq, Repr

/-- A learnt address (R383). -/
structure FdbEntry where
  mac : Nat
  vid : Nat
  port : Nat
  seen : Nat
  deriving DecidableEq, Repr

/-- A stream filter and flow meter (R389, R390): tokens in units of a sixteen-millionth of a byte, so that half a
nanosecond at 1 kb/s adds 1. -/
structure Filter where
  mac : Nat
  vid : Nat
  rate : Nat
  burst : Nat
  port : Nat
  tokens : Nat
  at_ : Nat
  deriving DecidableEq, Repr

/-- A template with the sample it is receiving (R391 to R394). -/
structure Template where
  bytes : List Byte
  /-- next slot index -/
  next : Nat
  /-- images or datagrams counted by the intake -/
  count : Nat
  /-- KIND 1: the last sensor counter, extended to 32 bits; KIND 0: the counter of the last image judged (R419) -/
  sensor : Option Nat
  /-- an image is under way: its port, the port timestamp of its first frame, and whether it is dropped -/
  busy : Option (Nat × Nat × Bool)
  /-- its lines received so far, each with its number -/
  lines : List (Nat × List Byte)
  deriving DecidableEq, Repr

/-- A port's frozen-or-repeated-frame detector (R419): the hashes of the last four images judged. -/
structure Detector where
  enabled : Bool
  hashes : List Nat
  deriving DecidableEq, Repr

/-- The switch. -/
structure NetSt where
  ageS : Nat
  learn : Bool
  peakKib : Nat
  ports : Vector NetPort 16
  vlans : List Vlan
  fdb : List FdbEntry
  filters : List (Nat × Filter)
  templates : List (Nat × Template)
  detectors : Vector Detector 12
  deriving DecidableEq, Repr

/-- A port with the given role code and SLAVE at a start. -/
def NetPort.reset (role : Nat) (slave : Bool) : NetPort :=
  { role := role, slave := slave, link := false, pvid := 1, tx := [], rx := [], queues := Vector.replicate 8 []
    shapers := Vector.replicate 8 ⟨0, 0, 0⟩, sent := [], busyUntil := 0 }

/-- The switch at a start (R382, R399, R419). -/
def NetSt.reset : NetSt :=
  { ageS := 300, learn := true, peakKib := 0
    ports := Vector.ofFn (fun i : Fin 16 => if i.val < 12 then NetPort.reset 0 false else NetPort.reset 3 true)
    vlans := [], fdb := [], filters := [], templates := [], detectors := Vector.replicate 12 ⟨true, []⟩ }

end Sys2Proof.Machine
end

