-- ==== Sys2Proof/Machine/Types/Planner.lean ====
section
/-! DEFINITION. The planner units: lattices, the occupancy map, and queries waiting or running. -/

namespace Sys2Proof.Machine

/-- A registered lattice (R309): its handle, table address, primitives and dimensions. -/
structure Lattice where
  handle : Nat
  addr : Nat
  prims : Nat
  dims : Nat
  deriving DecidableEq, Repr

/-- What a query has counted and set, over all its searches (R322). -/
structure PlanCounts where
  queueTrimmed : Bool
  nodesFull : Bool
  costSat : Bool
  depthLimit : Bool
  recheckFailed : Bool
  expansions : Nat
  generated : Nat
  trimmed : Nat
  voxels : Nat
  deriving DecidableEq, Repr

/-- Counts of a query that has begun. -/
def PlanCounts.zero : PlanCounts := ⟨false, false, false, false, false, 0, 0, 0, 0⟩

/-- A node record: g, the parent's state index, the primitive, the depth, the state and its h (R316). -/
structure Node where
  g : Nat
  parent : Option Nat
  prim : Nat
  depth : Nat
  st : List Nat
  h : Nat
  deriving DecidableEq, Repr

/-- A queue entry: f, g and the state index, in which order entries stand (R315). -/
structure QEntry where
  f : Nat
  g : Nat
  idx : Nat
  deriving DecidableEq, Repr

/-- A search under way: the queue in order, the node store by state index, the counts, the lines of the table and of the map that it
has read and not yet charged, the consumptions of map poison, the entries expanded, and whether it met poison in the table. -/
structure Search where
  queue : List QEntry
  nodes : List (Nat × Node)
  counts : PlanCounts
  lines : List Nat
  poisoned : Nat
  expanded : Nat
  tableBad : Bool
  deriving DecidableEq, Repr

/-- A re-check under way (R320): the search that selected, its node, how long it took, and the map version the re-check reads. -/
structure PlanCheck where
  search : Search
  node : Nat
  took : Nat
  version : Nat
  base : Nat
  edge : Nat
  deriving DecidableEq, Repr

/-- A planner query (R308, R314). -/
structure PlanQuery where
  uid : Nat
  ctx : Nat
  client : Nat
  lattice : Nat
  start : List Nat
  goal : List Nat
  weight : Nat
  out : Nat
  /-- unit named, 0xFF for any -/
  unit : Nat
  deadline : Option Nat
  noDegrade : Bool
  /-- a retired unit's query, taken before any other (R433) -/
  urgent : Bool
  /-- map version, base and edge its search reads -/
  version : Nat
  base : Nat
  edge : Nat
  researches : Nat
  counts : PlanCounts
  /-- elapsed counts at which a unit took it and at which the present search began -/
  takenAt : Nat
  searchAt : Nat
  /-- commands of plan.cancel that wait for it -/
  cancels : List Nat
  /-- the re-check of the path its search has selected -/
  check : Option PlanCheck
  deriving DecidableEq, Repr

/-- The PLAN block and the package queue of queries, oldest first. -/
structure PlanSt where
  lattices : List Lattice
  queue : List PlanQuery
  units : Vector (Option PlanQuery) 4
  version : Nat
  edge : Nat
  base : Nat
  /-- a map has been installed since the start -/
  current : Bool
  researchMax : Nat
  deriving DecidableEq, Repr

/-- The planner at a start (R312, R326). -/
def PlanSt.reset : PlanSt :=
  { lattices := [], queue := [], units := Vector.replicate 4 none, version := 0, edge := 0, base := 0, current := false
    researchMax := 3 }

end Sys2Proof.Machine
end

