-- ==== Sys2Proof/Machine/Types/Port.lean ====
section
/-! DEFINITION. The host port, the command queues and the event rings. -/

namespace Sys2Proof.Machine

/-- HOSTPORT.STATE mode of a channel (R40). -/
inductive PortMode where
  | untrained | active | powerDown | asleep
  deriving DecidableEq, Repr

/-- One host-port channel: its interface state, its event-ring doorbells and the last data it returned. -/
structure PortChan where
  /-- R40 C0_MODE / C1_MODE. -/
  mode : PortMode
  /-- the mode in force before power-down or self-refresh, to which an exit returns -/
  awake : PortMode
  /-- the channel's receivers are in their low-power state (R22) -/
  rxLow : Bool
  /-- deep sleep rather than self-refresh (R22) -/
  deep : Bool
  /-- JESD209-5 mode registers as the host programmed them: the copies of FSP0, FSP1 and FSP2, the registers no set point
  has of its own in FSP0's (R19, R20) -/
  modeRegs : Vector (Vector Byte 256) 3
  /-- status of each training kind: command bus, WCK2CK, read DQ, FIFO, duty cycle (R19) -/
  training : Vector Byte 5
  /-- a ZQ calibration result is latched (R19) -/
  zqLatched : Bool
  /-- the beats of the last read burst returned, first beat first (R16, R24) -/
  readData : List Word16
  /-- the value of the last mode-register read returned (R20) -/
  mrrData : Byte
  /-- HOSTDB.EV_HEAD and EV_TAIL, 15 bits each (R34) -/
  evHead : Nat
  evTail : Nat
  /-- HOSTDB.EV_LOST (R34) -/
  evLost : Ctr
  deriving DecidableEq, Repr

/-- A channel in its power-up state (R44). -/
def PortChan.reset : PortChan :=
  { mode := .untrained, awake := .untrained, rxLow := false, deep := false, modeRegs := Vector.replicate 3 (Vector.replicate 256 0)
    training := Vector.replicate 5 0, zqLatched := false, readData := [], mrrData := 0
    evHead := 0, evTail := 0, evLost := Ctr.zero }

/-- The host port as a whole. -/
structure PortSt where
  chans : Vector PortChan 2
  /-- the RESET_N level: true when released (R37) -/
  resetN : Bool
  /-- RESET_N was released before command packets were accepted (R37) -/
  releasedEarly : Bool
  /-- HOSTPORT.CTL (R40) -/
  eventsC0 : Bool
  eventsC1 : Bool
  srHint : Bool
  deriving DecidableEq, Repr

/-- The host port at a start. -/
def PortSt.reset : PortSt :=
  { chans := Vector.replicate 2 PortChan.reset, resetN := false, releasedEarly := false
    eventsC0 := true, eventsC1 := true, srHint := true }

/-- Where a command stands: read and waiting, dispatched, executing, or completed with its final reply. -/
inductive Phase where
  | waiting
  | ready
  | running
  | done (status detail result elapsed : Nat)
  deriving DecidableEq, Repr

/-- A command read from a queue whose final reply is not yet written (R46, R60). -/
structure Cmd where
  /-- a number no other command of this start carries -/
  uid : Nat
  opcode : Nat
  flags : Nat
  seq : Nat
  client : Nat
  /-- CONTEXT [19:0] when CTX_VALID is 1 -/
  ctx : Option Nat
  /-- the elapsed count, in half nanoseconds, at which the deadline passes (R63) -/
  deadline : Option Nat
  /-- the elapsed count of the decode of its doorbell write, in half nanoseconds (R63, R478) -/
  decoded : Nat
  params : List Byte
  phase : Phase
  /-- the command has been dispatched and is in flight until its final reply (R60) -/
  inFlight : Bool
  /-- its deadline passed during execution (R63) -/
  late : Bool
  /-- the supply was below the sag warning level when it was dispatched, or has fallen below it since (R152) -/
  sag : Bool
  /-- dispatched with ACK_REQ, its ACCEPTED reply not yet written (R59) -/
  ackDue : Bool
  deriving DecidableEq, Repr

/-- A head packet as the TZ8 read it: its 64 bytes, and whether the read met an uncorrectable error or poison (R31,
R39, R51). -/
structure Head where
  bytes : List Byte
  bad : Bool
  deriving DecidableEq, Repr

/-- One command queue and its reply ring (R34, R52, R55, R60). -/
structure Queue where
  sqTail : Nat
  sqHead : Nat
  rqHead : Nat
  rqTail : Nat
  expectSeq : Nat
  /-- for each unread slot, oldest first, the elapsed count of the SQ_TAIL write that covers it (R63) -/
  cover : List Nat
  /-- the head packet at SQ_HEAD, once read (R31, R51) -/
  head : Option Head
  /-- commands read and not yet answered, in submission order -/
  cmds : List Cmd
  deriving DecidableEq, Repr

/-- A queue at a start. -/
def Queue.reset : Queue :=
  { sqTail := 0, sqHead := 0, rqHead := 0, rqTail := 0, expectSeq := 0, cover := [], head := none, cmds := [] }

/-- The 128 queues, the queue whose turn is next (R53), the next command number, and the events (R71, R73). -/
structure HostSt where
  queues : Vector Queue 128
  turn : Nat
  nextUid : Nat
  /-- NUMBER the next event takes, modulo 2^32 -/
  number : Nat
  /-- codes disabled by sys.event.mask, strictly rising -/
  masked : List Nat
  deriving DecidableEq, Repr

/-- Queues and events at a start. -/
def HostSt.reset : HostSt :=
  { queues := Vector.replicate 128 Queue.reset, turn := 0, nextUid := 0, number := 0, masked := [] }

end Sys2Proof.Machine
end

