-- ==== Sys2Proof/Machine/Types/Power.lean ====
section
/-! DEFINITION. Power domains and states, clocks and their judge, the start sequence and the cox pairs. -/

namespace Sys2Proof.Machine

/-- What a domain's agent answered to a state-entry request (R452). -/
inductive Answer where
  | none | accept | refuse | delay (until_ : Nat)
  deriving DecidableEq, Repr

/-- A state entry under way (R452, R453). -/
structure Entry where
  uid : Nat
  target : Nat
  wakeWord : Nat
  /-- the stage in progress, ending at abort point 0 to 3 -/
  stage : Nat
  /-- each asked domain and its answer -/
  agents : List (Nat × Answer)
  /-- the wake source that fired since the request -/
  fired : Option Nat
  /-- point 3 has been passed and the final reply given; the elapsed count of that moment -/
  passed : Option Nat
  deriving DecidableEq, Repr

/-- The PWR block and the call port (R448 to R471). -/
structure PwrSt where
  /-- 0 Row, 1 Paddle, 2 Easy, 3 Moored -/
  state : Nat
  hostIdle : Bool
  entry : Option Entry
  lastCause : Nat
  lastPoint : Nat
  wakeEnabled : Nat
  keepSwitch : Bool
  wakeLast : Nat
  timerAt : Nat
  callAddr : Nat
  idleUs : Nat
  tilesGate : Bool
  /-- switched domains 0 to 95 that are powered -/
  on : Vector Bool 96
  /-- domains powering up for work placed on them, and when they were asked (R448) -/
  waking : List (Nat × Nat)
  /-- the elapsed count at which each domain last held work (R448) -/
  lastWork : Vector Nat 96
  /-- a return from Easy in progress: the last completed step of R457, and the time w -/
  easyStep : Nat
  easyAt : Nat
  /-- the wake source that started it -/
  easySource : Nat
  /-- the last 16 call tokens, newest in bit 0, and how many have arrived, up to 16 (R462) -/
  callTokens : Nat
  callCount : Nat
  /-- the elapsed count at which Easy was entered -/
  easyEntered : Nat
  deriving DecidableEq, Repr

/-- The PWR block at a cold start: every field at its reset value, PWR.DOMAINS_LO and PWR.DOMAINS_HI all ones (R471). -/
def PwrSt.reset : PwrSt :=
  { state := 0, hostIdle := false, entry := none, lastCause := 255, lastPoint := 0, wakeEnabled := 0
    keepSwitch := false, wakeLast := 255, timerAt := 0, callAddr := 0x155, idleUs := 200, tilesGate := true
    on := Vector.replicate 96 true, waking := [], lastWork := Vector.replicate 96 0
    easyStep := 6, easyAt := 0, easySource := 0, callTokens := 0, callCount := 0, easyEntered := 0 }

/-- A clock judge setting (R464, R472). -/
structure Judge where
  window : Nat
  k : Nat
  tolPpm : Nat
  deriving DecidableEq, Repr

/-- A judged clock: consecutive passing windows, and whether it is stable (R464). -/
structure Candidate where
  passes : Nat
  stable : Bool
  deriving DecidableEq, Repr

/-- A clock output (R469, R472). -/
structure ClkOut where
  freqKhz : Nat
  depth : Nat
  rateKhz : Nat
  running : Bool
  deriving DecidableEq, Repr

/-- The CLK block (R464 to R472). -/
structure ClkSt where
  /-- CLK.STATUS.SRC: the cox runs on the PLL -/
  src : Bool
  xtalLost : Bool
  judges : Vector Judge 3
  /-- crystal, PLL, recovered clocks of chains 0 to 3 -/
  cands : Vector Candidate 6
  outs : Vector ClkOut 2
  deriving DecidableEq, Repr

/-- The CLK block at a start. -/
def ClkSt.reset : ClkSt :=
  { src := false, xtalLost := false, judges := #v[⟨4096, 8, 50000⟩, ⟨4096, 4, 500⟩, ⟨8192, 4, 500⟩]
    cands := Vector.replicate 6 ⟨0, false⟩, outs := Vector.replicate 2 ⟨0, 0, 0, false⟩ }

/-- Where the start sequence stands (R496, R497). -/
inductive StartStage where
  /-- a supply is not yet judged valid -/
  | supplies
  /-- every always-present supply valid, the power-on-reset filter running -/
  | filter
  /-- the filter released and RAILS_EN risen -/
  | released
  /-- command packets are accepted -/
  | accepting
  deriving DecidableEq, Repr

/-- The start sequence, the supplies and what identifies the start (R496 to R499, R511 to R513). -/
structure StartSt where
  stage : StartStage
  /-- START_CAUSE -/
  cause : Nat
  /-- START_COUNT, kept in NVS -/
  count : Nat
  /-- t = 0 of R497 -/
  t0 : Nat
  /-- each supply rail of R509: judged valid -/
  rails : Vector Bool 11
  /-- RAILS_EN -/
  railsEn : Bool
  /-- the elapsed count at which RAILS_EN last rose -/
  railsAt : Nat
  /-- bring-up milestones of R498 reached, one bit each: 0 domains and die bridge, 1 tiles and T1, 2 NVS and probes, 3
  umpires, 4 pair B -/
  reached : Nat
  /-- the elapsed count at which command packets were last accepted (R510) -/
  acceptedAt : Nat
  deriving DecidableEq, Repr

/-- A firmware image held by the standby pair (R502). -/
structure FwImage where
  version : Nat
  len : Nat
  deriving DecidableEq, Repr

/-- The cox pairs (R501 to R506). -/
structure CoxSt where
  /-- pair B active -/
  active : Bool
  /-- 0 loading, 1 shadowing, 2 staged, 3 failed -/
  standby : Nat
  staged : Option FwImage
  bootFallback : Bool
  rom : Bool
  /-- FW_VERSION running -/
  version : Nat
  /-- start-image slots in NVS: version and length -/
  current : FwImage
  previous : FwImage
  /-- an image to be written to the current slot (R503 step 5) -/
  slotWrite : Option FwImage
  /-- the former active pair is to be reloaded (R503 step 6, R505) -/
  reload : Bool
  deriving DecidableEq, Repr

end Sys2Proof.Machine
end

