-- ==== Sys2Proof/Machine/Types/Safe.lean ====
section
/-! DEFINITION. The safety island: umpires, their self-tests and the verdict ring. -/

namespace Sys2Proof.Machine

/-- An umpire (R400, R415 to R418). -/
structure Umpire where
  failed : Bool
  stale : Bool
  testing : Bool
  segment : Nat
  abandoned : Nat
  tests : Nat
  /-- elapsed count, in half nanoseconds, at the last complete test; 0 when none -/
  last : Nat
  /-- a gap hold is requested for its remaining segments -/
  holdReq : Bool
  deriving DecidableEq, Repr

/-- The SAFE block. -/
structure SafeSt where
  hiAction : Bool
  umpires : Vector Umpire 8
  ringBase : Nat
  ringLog2 : Nat
  tail : Nat
  lost : Nat
  deriving DecidableEq, Repr

/-- The island at a start (R421). -/
def SafeSt.reset : SafeSt :=
  { hiAction := true, umpires := Vector.replicate 8 ⟨false, false, false, 0, 0, 0, 0, false⟩, ringBase := 0, ringLog2 := 0
    tail := 0, lost := 0 }

end Sys2Proof.Machine
end

