-- ==== Sys2Proof/Machine/Types/Sched.lean ====
section
/-! DEFINITION. Clients, jobs and their steps, semaphores and save areas. -/

namespace Sys2Proof.Machine

/-- A 48-bit accounting counter (R304, R442). -/
structure Acct where
  v : Nat
  sat : Bool
  deriving DecidableEq, Repr

/-- An account at 0. -/
def Acct.zero : Acct := ⟨0, false⟩

/-- A registered client: class, weight, virtual time and accounts (R276, R284, R304). -/
structure Client where
  cls : Nat
  weight : Nat
  /-- virtual time V -/
  vt : Rat
  steps : Acct
  waitSum : Acct
  waitMax : Nat
  lostSum : Acct
  preempt : Ctr
  spills : Ctr
  boosts : Ctr
  abandoned : Ctr
  tornDown : Ctr
  hist : Vector Ctr 16
  /-- elapsed counts at which its last 8 steps became ready, newest first, and whether the newest is of a safety-relevant
  model (R416) -/
  readies : List Nat
  readySafe : Bool
  deriving DecidableEq, Repr

/-- Where the current step of a job stands. -/
inductive StepState where
  /-- ready since the time held, waiting for a pick -/
  | ready
  /-- tiles chosen, their domains powering up -/
  | waking
  | running
  /-- the golden pass of a safety-relevant step runs on the crew (R405) -/
  | golden
  /-- both passes ended, waiting for the verdict's checks -/
  | judging
  /-- tile tests after a golden mismatch (R412) -/
  | testing
  /-- spilling: issue stopped, draining -/
  | draining
  /-- spilling: save records being written -/
  | saving
  | spilled
  /-- resuming: records being read back -/
  | resuming
  /-- torn down with the cause held: issue stopped, draining -/
  | tearing (cause : Nat)
  deriving DecidableEq, Repr

/-- A check record of a checked chain of the step, on its way to the comparator (R401, R404). -/
structure Check where
  tile : Nat
  array : Nat
  at_ : Nat
  /-- the array's sums of A, rows 0 to 31 then columns 0 to 31, with E_b, and the OR of the INEX bits of each row and column -/
  sums : List Int
  eb : Int
  lo : List Bool
  hi : List Bool
  /-- the lane's right-hand sides, and the terms of each row and column -/
  lane : List (Int × Int)
  terms : List Nat
  special : Bool
  poison : Bool
  deriving DecidableEq, Repr

/-- An active job.submit (R279, R280). -/
structure Job where
  uid : Nat
  ctx : Nat
  client : Nat
  model : Nat
  phase : Nat
  /-- placement named, or none for 0xFF -/
  named : Option Nat
  oppoint : Nat
  inAddr : Nat
  outAddr : Nat
  total : Nat
  /-- number of the step in hand, and steps ended -/
  step : Nat
  ended : Nat
  noDegrade : Bool
  state : StepState
  readyAt : Nat
  /-- the step in hand has been dispatched before (its wait is counted once) -/
  counted : Bool
  /-- placement index within the phase of the step in hand, or of the last step -/
  placement : Nat
  tiles : List Nat
  dispatchedAt : Nat
  /-- order of dispatch among running steps, for R288 -/
  order : Nat
  stoppedAt : Nat
  pausedHalf : Nat
  /-- save areas of each rank while spilled, in rank order, and the spilled-thread context -/
  areas : List Nat
  spillCtx : Option Nat
  /-- while spilled: the crew's tiles as issue stopped, for what the save records of R292 do not hold -/
  saved : List Tile
  /-- pre-empted at its boundary: the next step waits its turn -/
  boundary : Bool
  /-- R98 flags of every output of every step (R99), and DETAIL [31:16] bits of R280 -/
  flags : BitVec 9
  detailHi : Nat
  degraded : Bool
  approx : Bool
  /-- lists appended to by sweeps of this attempt, and by failed attempts of the step, as (context, list) (R216, R434) -/
  appends : List (Nat × Nat)
  oldAppends : List (Nat × Nat)
  /-- append failure of R217, 0 when none, else the status code -/
  kvStatus : Nat
  /-- ranks arrived in the barrier generation, and in the layer.late barrier -/
  arrived : List Nat
  layerArrived : List Nat
  /-- layers declared late in this step: first engine step and the next layer's -/
  lateLayers : List (Nat × Nat)
  /-- conditions of R434: a backward merge has begun, a semaphore was acquired in this attempt -/
  merged : Bool
  semTaken : Bool
  /-- POISON_CONSUMED already raised in this step for a host-window store (R182) -/
  poisonRaised : Bool
  /-- tiles this step must not use (R411, R434) -/
  avoid : List Nat
  /-- it is picked before any other step of its client (R434) -/
  urgent : Bool
  cancelled : Bool
  /-- safety-relevant step: checks, repechage used, golden signature mismatch, frame number -/
  checks : List Check
  repechage : Bool
  mismatch : Bool
  frame : Nat
  /-- the golden out area's first pool frame and frames, while a safety-relevant step runs (R405) -/
  goldenArea : Option (Nat × Nat)
  /-- the golden pass has begun -/
  inGolden : Bool
  /-- the golden pass has ended, and its R98 flags -/
  goldenFlags : Option (BitVec 9)
  /-- verdict flags of R414 gathered so far, tiles charged, umpires stale at a check, and the attempt's dispatch time -/
  vflags : Nat
  charged : List Nat
  staleMask : Nat
  attemptAt : Nat
  invalids : Nat
  /-- the first tile charged for the step in hand; none, 0xFFFF (R414) -/
  blamed : Nat
  /-- while the step in hand waits for tiles: its turn among the picked steps, and the tiles of victims pre-empted for it (R286) -/
  picked : Option Nat
  owed : List Nat
  deriving DecidableEq, Repr

/-- A step takes no cheaper path: the command carries NO_DEGRADE, or its golden pass runs (R158, R224, R405). -/
def Job.strict (j : Job) : Bool := j.noDegrade || j.inGolden

/-- State of an allocated semaphore (R296). -/
structure Sem where
  client : Nat
  /-- 0 free, 1 taken, 2 broken -/
  st : Nat
  holder : Option Nat
  /-- waiting threads, oldest first: tile and thread -/
  waiters : List (Nat × Nat)
  deriving DecidableEq, Repr

/-- A boost (R297): the semaphore it waits on, the holder's context, the class it counts at, and its start. -/
structure Boost where
  sem : Nat
  ctx : Nat
  cls : Nat
  since : Nat
  deriving DecidableEq, Repr

/-- The scheduler (ch. 11). -/
structure SchedSt where
  clients : List (Nat × Client)
  jobs : List Job
  /-- allocated semaphores by number, rising -/
  sems : List (Nat × Sem)
  /-- boosts in force, oldest first (R297, R298) -/
  boosts : List Boost
  /-- save areas in use, rising (R292) -/
  areas : List Nat
  nextOrder : Nat
  /-- gap holds in force, by the umpire that asked: the elapsed count since which no held step has run, and the gap's length -/
  gaps : List (Nat × Option Nat × Nat)
  /-- last context each tile served (R285) -/
  lastCtx : Vector (Option Nat) 128
  deriving DecidableEq, Repr

/-- A client newly registered, accounts 0. -/
def Client.reset (cls weight : Nat) : Client :=
  { cls := cls, weight := weight, vt := 0, steps := Acct.zero, waitSum := Acct.zero, waitMax := 0, lostSum := Acct.zero
    preempt := Ctr.zero, spills := Ctr.zero, boosts := Ctr.zero, abandoned := Ctr.zero, tornDown := Ctr.zero
    hist := Vector.replicate 16 Ctr.zero, readies := [], readySafe := false }

/-- The scheduler at a start: client 0 registered as background with weight 1 (R57). -/
def SchedSt.reset : SchedSt :=
  { clients := [(0, Client.reset 4 1)], jobs := [], sems := [], boosts := [], areas := [], nextOrder := 0, gaps := []
    lastCtx := Vector.replicate 128 none }

end Sys2Proof.Machine
end

