-- ==== Sys2Proof/Machine/Types/Store.lean ====
section
/-! DEFINITION. The memory tiers' own state: pools, modes, written flags, scrubbing and integrity records. -/

namespace Sys2Proof.Machine

/-- The TIER registers (R165) and the spill area (R149). -/
structure TierSt where
  reserveGib : Nat
  coxBase : Nat
  coxLimit : Nat
  nvsBase : Nat
  nvsLimit : Nat
  spillBase : Nat
  spillPages : Nat
  /-- page writes each stack has taken since manufacture, held in the stack (R148) -/
  wear : Vector Nat 2
  deriving DecidableEq, Repr

/-- The TIER registers at a start. -/
def TierSt.reset : TierSt :=
  { reserveGib := 2, coxBase := 1, coxLimit := 65, nvsBase := 0, nvsLimit := 1024, spillBase := 0, spillPages := 0
    wear := Vector.replicate 2 0 }

/-- Per-channel integrity record, T1 channels 0 to 255 then NVS channels 0 to 31 (R189). -/
structure ChanRec where
  ce : Nat
  ue : Nat
  lineMax : Nat
  /-- lines on the repair list, newest first, at most 16 (R185) -/
  repair : List Nat
  /-- T1: granules of the channel scrubbed in the lap; NVS: pages of the channel patrolled in its stack's pass; strictly rising -/
  scrubbed : List Nat
  deriving DecidableEq, Repr

/-- A channel record at a start. -/
def ChanRec.reset : ChanRec := { ce := 0, ue := 0, lineMax := 0, repair := [], scrubbed := [] }

/-- A mem.mode conversion under way (R174, R175): the mode before, and the lines converted so far. -/
structure Convert where
  uid : Nat
  base : Nat
  len : Nat
  mode : Nat
  prev : Nat
  next : Nat
  deriving DecidableEq, Repr

/-- A memory command that writes NVS (R146, R147, R152): its bytes, the pages of the range started, those of them not yet
durable, oldest first, and whether the sag warning has stopped it. -/
structure NvsWrite where
  uid : Nat
  dst : Nat
  data : List PByte
  started : Nat
  busy : List Nat
  stop : Bool
  deriving DecidableEq, Repr

/-- Check bits, written flags, scrubber and integrity registers. -/
structure StoreSt where
  /-- 16 MiB regions of T1 offset in line mode, strictly rising (R174); every other region is in byte mode -/
  lineRegions : List Nat
  converts : List Convert
  /-- written flags of T1: 4 KiB blocks of channel offset, numbered channel * 2^18 + block, strictly rising (R178) -/
  t1Written : List Nat
  /-- NVS pages written since manufacture, strictly rising (R183) -/
  nvsWritten : List Nat
  /-- memory commands writing NVS (R146, R147) -/
  nvsWrites : List NvsWrite
  /-- poison-mask metadata writes deferred under the sag warning (R183) -/
  nvsDeferred : List Nat
  /-- SCRUB.CTL (R187) -/
  scrubEnable : Bool
  paceS : Nat
  limitMs : Nat
  /-- SCRUB.LAP -/
  lapMs : Nat
  lapCount : Nat
  /-- time of the T1 lap in progress, in half nanoseconds: its start, and time spent in Easy taken out -/
  lapStart : Nat
  /-- the alarm of the lap in progress has been raised -/
  lapAlarmed : Bool
  /-- SCRUB.T0_LAP, the T0 lap's start, and the lines scrubbed in each tile, strictly rising -/
  t0LapMs : Nat
  t0LapStart : Nat
  t0Scrubbed : Vector (List Nat) 128
  /-- tiles powered ever since the T0 lap began, which it covers -/
  t0Members : Vector Bool 128
  /-- INTEG.LINE_MAX -/
  lineMax : Nat
  /-- INTEG.SELFTEST -/
  testChannel : Nat
  testFail : Bool
  testLaps : Nat
  /-- channels tested in the rotation in progress, strictly rising (R176) -/
  tested : List Nat
  /-- channels usable when the rotation began -/
  rotation : List Nat
  /-- INTEG.REBUILD.LINES_LOST -/
  linesLost : Nat
  /-- T1 granules, by T1 offset / 256, held in line mode at their new home until scrubbed, strictly rising (R184) -/
  remapLine : List Nat
  chans : Vector ChanRec 288
  /-- stored errors of T0 and T1: of a line, by device address, the stored bits that are inverted, in the order of its frame: 64
  data bytes, then the 40 bytes of the check field; rising, never all 0 (R167, R168, R170) -/
  flaws : List (Nat × List Byte)
  /-- T1 lines and NVS pages, by device address, whose next read alone cannot be corrected (R179, R183), strictly rising -/
  flaky : List Nat
  /-- bad bytes of NVS pages, by device address, strictly rising (R183) -/
  nvsBad : List Nat
  deriving DecidableEq, Repr

/-- The stores at manufacture. -/
def StoreSt.reset : StoreSt :=
  { lineRegions := [], converts := [], t1Written := [], nvsWritten := [], nvsWrites := [], nvsDeferred := []
    scrubEnable := true, paceS := 8, limitMs := 0, lapMs := 0, lapCount := 0, lapStart := 0, lapAlarmed := false
    t0LapMs := 0, t0LapStart := 0, t0Scrubbed := Vector.replicate 128 [], t0Members := Vector.replicate 128 false
    lineMax := 0, testChannel := 0, testFail := false, testLaps := 0, tested := [], rotation := []
    linesLost := 0, remapLine := [], chans := Vector.replicate 288 ChanRec.reset, flaws := [], flaky := [], nvsBad := [] }

end Sys2Proof.Machine
end

