-- ==== Sys2Proof/Machine/Types/Stroke.lean ====
section
/-! DEFINITION. The stroke engine: joint chains, loops, sections and feed-forward. -/

namespace Sys2Proof.Machine

/-- One section of a loop (R362, R364): b0 b1 b2 b3 a1 a2 a3 with their shifts, and its last three inputs and outputs. -/
structure Section where
  coefs : List Int
  shifts : List Nat
  x1 : Int
  x2 : Int
  x3 : Int
  y1 : Int
  y2 : Int
  y3 : Int
  sat : Bool
  deriving DecidableEq, Repr

/-- Loop states (R370, R379). -/
inductive LoopState where
  | off | run | tuning | hold | frozen | disabled
  deriving DecidableEq, Repr

/-- A command accepted for a loop, which applies at the next sample instant (R371). -/
inductive Staged where
  | profile (v a j : Nat)
  | limit (l t action : Nat)
  | target (p : Nat)
  | enable (on : Bool)
  | tune (uid amplitude hysteresis cycles dest : Nat)
  deriving DecidableEq, Repr

/-- A relay auto-tune in progress (R375). -/
structure Tune where
  uid : Nat
  amplitude : Nat
  hysteresis : Nat
  cycles : Nat
  dest : Nat
  u0 : Int
  /-- relay output, none before its first switch -/
  d : Option Bool
  saved : List Section
  startCycle : Nat
  samples : Nat
  /-- switches to plus amplitude so far -/
  switches : Nat
  /-- sample number of the last such switch, and least and greatest x since -/
  at_ : Nat
  lo : Int
  hi : Int
  /-- samples, and twice the half swings, of the measured periods -/
  sumSamples : Nat
  sumSwing : Nat
  /-- the status with which it has ended: its loop leaves TUNING at the next sample instant (R370, R375) -/
  done : Option Nat
  deriving DecidableEq, Repr

/-- One loop (R361 to R371, R379). -/
structure Loop where
  state : LoopState
  sections : List Section
  forms : Nat
  profiled : Bool
  vMax : Nat
  aMax : Nat
  jMax : Nat
  /-- profile position, velocity and acceleration with 32 fraction bits -/
  p : Int
  v : Int
  a : Int
  target : Nat
  setpoint : Nat
  feedback : Nat
  /-- COMMAND of the last frame sent, and the output computed for the next -/
  command : Int
  u : Int
  outLimit : Nat
  satOut : Bool
  reason : Nat
  limit : Nat
  timerUs : Nat
  action : Nat
  /-- elapsed count of the sample instant that started the following-error timer -/
  timer : Option Nat
  missRun : Nat
  /-- a valid feedback word has come since the enable -/
  begun : Bool
  /-- a valid feedback word has come in the present cycle -/
  got : Bool
  staged : List Staged
  /-- a fault action to take at the next sample instant: action and reason -/
  fault : Option (Nat × Nat)
  tune : Option Tune
  deriving DecidableEq, Repr

/-- A loop at a start. -/
def Loop.reset : Loop :=
  { state := .off, sections := [], forms := 0, profiled := false, vMax := 0, aMax := 0, jMax := 0, p := 0, v := 0, a := 0
    target := 0, setpoint := 0, feedback := 0, command := 0, u := 0, outLimit := 0x7FFFFFFF, satOut := false, reason := 0
    limit := 0, timerUs := 0, action := 2, timer := none, missRun := 0, begun := false, got := false, staged := []
    fault := none, tune := none }

/-- A feed-forward frame (R372). -/
structure FfFrame where
  seq : Nat
  apply_ : Nat
  valid : Nat
  ff : List Int
  deriving DecidableEq, Repr

/-- One joint chain (R353 to R360, R372 to R374, R379). -/
structure Chain where
  joints : Nat
  rate : Nat
  etherType : Nat
  allow : Bool
  ret : Bool
  running : Bool
  /-- 0 recovered, 1 fallback, 2 stopped -/
  clock : Nat
  missLimit : Nat
  ffClient : Nat
  /-- number of the last cycle started, and the elapsed count of its sample instant -/
  cycle : Nat
  cycleT : Nat
  /-- the chain has been configured since the start -/
  configured : Bool
  /-- a cycle has started since the last stroke.chain, and the number of the first (R354) -/
  begun : Bool
  first : Nat
  /-- the frame of the present cycle has returned, and its cutoff has passed -/
  returned : Bool
  cut : Bool
  /-- the cycle of a frame that was still returning at its cutoff (R360) -/
  straddle : Option Nat
  /-- the last frame sent -/
  sent : List Byte
  decay : Nat
  late : Bool
  lateNext : Bool
  seq : Option Nat
  pendingFf : Option FfFrame
  /-- the frame in force: the last cycle it covers -/
  ffUntil : Option Nat
  /-- feed-forward in force for the next cycle's commands -/
  ff : List Int
  /-- the mailbox's 264 bytes -/
  mailbox : List PByte
  deriving DecidableEq, Repr

/-- A chain at a start. -/
def Chain.reset : Chain :=
  { joints := 0, rate := 0, etherType := 0, allow := false, ret := false, running := false, clock := 0, missLimit := 3
    ffClient := 256, cycle := 0, cycleT := 0, configured := false, begun := false, first := 0, returned := false, cut := true, straddle := none
    sent := [], decay := 0xFF00, late := false, lateNext := false, seq := none, pendingFf := none, ffUntil := none
    ff := List.replicate 32 0, mailbox := List.replicate 264 ⟨0, false⟩ }

/-- A frame that crosses the die bridge in class 0: its chain, the client whose thread stored COMMIT, and the mailbox's bytes as they
stood at that store (R10, R373). -/
structure Crossing where
  chain : Nat
  client : Nat
  bytes : List PByte
  deriving DecidableEq, Repr

/-- The stroke engine. The frames that cross the die bridge are in the order sent (R10). -/
structure StrokeSt where
  chains : Vector Chain 4
  loops : Vector Loop 128
  crossing : List Crossing
  deriving DecidableEq, Repr

/-- The stroke engine at a start. -/
def StrokeSt.reset : StrokeSt := ⟨Vector.replicate 4 Chain.reset, Vector.replicate 128 Loop.reset, []⟩

end Sys2Proof.Machine
end

