-- ==== Sys2Proof/Machine/Types/Units.lean ====
section
/-! DEFINITION. Fault units, their buckets and probes, the die bridge and the rebuilds. -/

namespace Sys2Proof.Machine

/-- R440 states of a unit. -/
inductive UnitState where
  | usable | quarantined | retired
  deriving DecidableEq, Repr

/-- One of the 445 units of R428. -/
structure UnitRec where
  state : UnitState
  /-- elapsed counts in half nanoseconds of the last 16 charges, newest first (R429) -/
  charges : List Nat
  /-- last charge or retirement cause (R444) -/
  cause : Nat
  /-- charges since the start (R444) -/
  count : Nat
  /-- elapsed count in ms of the last charge (R444) -/
  lastMs : Nat
  /-- starts in which the unit was retired, kept in NVS (R444) -/
  lifetime : Nat
  /-- the retirement stands in the NVS record (R438) -/
  recorded : Bool
  /-- quarantined or retired under R11 -/
  byBridge : Bool
  /-- the data path's fence (R440) -/
  fenced : Bool
  /-- the elapsed count at which its probe, or its fence request, began -/
  since : Nat
  /-- the data path has confirmed the retirement fence (R435) -/
  confirmed : Bool
  deriving DecidableEq, Repr

/-- A unit at manufacture. -/
def UnitRec.reset : UnitRec :=
  { state := .usable, charges := [], cause := 0, count := 0, lastMs := 0, lifetime := 0, recorded := false
    byBridge := false, fenced := false, since := 0, confirmed := false }

/-- Threshold and window in ms of a unit type's bucket (R430). -/
structure Bucket where
  threshold : Nat
  windowMs : Nat
  deriving DecidableEq, Repr

/-- A rebuild in progress: the retired channel, the granules or pages copied, and the next one (R184, R437). -/
structure Rebuild where
  chan : Nat
  next : Nat
  /-- granules or pages copied ahead of their turn because a demand access named them, strictly rising -/
  ahead : List Nat
  /-- granules or pages not yet copied that a demand access waits for, in the order asked (R184) -/
  front : List Nat
  deriving DecidableEq, Repr

/-- The die bridge (R11). -/
structure BridgeSt where
  /-- carries valid tokens -/
  up : Bool
  /-- the watch is set: domains 77 and 95 came on, and the elapsed count at which it starts from zero, training over -/
  watch : Bool
  watchAt : Nat
  /-- found silent: compute-die units quarantined and retraining under way -/
  down : Bool
  /-- the elapsed count at which the silence was found -/
  since : Nat
  /-- still silent after 1 ms: every compute-die unit retired until the next start -/
  lost : Bool
  deriving DecidableEq, Repr

/-- Units, buckets and rebuilds. -/
structure FaultSt where
  units : Vector UnitRec 445
  buckets : Vector Bucket 6
  bridge : BridgeSt
  /-- domains switched off by a retirement, which stay off (R440), strictly rising -/
  dead : List Nat
  /-- T1 channels to rebuild, the first in progress (R184) -/
  t1Rebuilds : List Rebuild
  /-- NVS channels to rebuild, the first in progress (R437) -/
  nvsRebuilds : List Rebuild
  /-- replays made so far of each line frame still in error, by device address, addresses rising (R432) -/
  replays : List (Nat × Nat)
  /-- TIER.T1_STATE.WITHDRAWN_GIB (R144) -/
  t1Withdrawn : Nat
  /-- FAULT.NVS_STATE.WITHDRAWN_GIB, kept in NVS (R437) -/
  nvsWithdrawn : Nat
  deriving DecidableEq, Repr

/-- The bucket settings of R428. -/
def bucketReset : Vector Bucket 6 :=
  #v[⟨3, 10000⟩, ⟨3, 10000⟩, ⟨3, 10000⟩, ⟨3, 10000⟩, ⟨4, 60000⟩, ⟨4, 60000⟩]

/-- Units at manufacture. -/
def FaultSt.reset : FaultSt :=
  { units := Vector.replicate 445 UnitRec.reset, buckets := bucketReset
    bridge := ⟨false, false, 0, false, 0, false⟩, dead := [], t1Rebuilds := [], nvsRebuilds := [], replays := []
    t1Withdrawn := 0, nvsWithdrawn := 0 }

end Sys2Proof.Machine
end

