-- ==== Sys2Proof/Machine/State.lean ====
section
/-! DEFINITION. The state of the TZ8: every register, memory, queue, engine and pin the spec gives it, as plain data. -/

namespace Sys2Proof.Machine

/-- The whole machine. -/
structure State where
  /-- the elapsed count (R466) -/
  time : TimeSt
  /-- host port (ch. 02) -/
  port : PortSt
  /-- queues, commands and events (ch. 03) -/
  host : HostSt
  /-- host windows, T0, T1 and NVS (R28, R136) -/
  mem : Memory
  /-- event and error counters by counter ID (R443), no entry at its reset value, IDs strictly rising -/
  counters : List (Nat × Ctr)
  /-- units, buckets, die bridge, rebuilds (ch. 17) -/
  fault : FaultSt
  /-- check modes, written flags, scrubber, integrity (ch. 07) -/
  store : StoreSt
  /-- TIER registers (R165) -/
  tier : TierSt
  /-- power domains and states (ch. 18) -/
  pwr : PwrSt
  /-- clocks (ch. 18) -/
  clk : ClkSt
  /-- start sequence (ch. 20) -/
  start : StartSt
  /-- cox pairs and firmware (ch. 20) -/
  cox : CoxSt
  /-- compute tiles (ch. 05) -/
  tiles : Vector Tile 128
  /-- contexts that are not free, by context ID, IDs strictly rising (ch. 08, 11) -/
  ctxs : List (Nat × Ctx)
  /-- models, pools and key slots (ch. 06, 10) -/
  boat : BoatSt
  /-- clients, jobs, semaphores (ch. 11) -/
  sched : SchedSt
  /-- sweep pipelines (ch. 08) -/
  sweep : SweepSt
  /-- transform engines (ch. 09) -/
  xf : XfSt
  /-- planner units, lattices and the map (ch. 12) -/
  plan : PlanSt
  /-- fusion engine (ch. 13) -/
  fuse : FuseSt
  /-- stroke engine (ch. 14) -/
  stroke : StrokeSt
  /-- switch (ch. 15) -/
  net : NetSt
  /-- safety island (ch. 16) -/
  safe : SafeSt
  /-- power cap, rating and sag (ch. 19) -/
  cap : CapSt
  /-- THE MODEL'S OWN, not the spec's: how many free values have been drawn -/
  free : Nat
  /-- commands that are waiting, first in, first out -/
  pending : List Instr
  deriving DecidableEq, Repr

/-- Why the model stops with a fault. No command of the TZ8 stops it: every condition the spec describes is a next
state, so this type has no constructor. -/
inductive Fault where
  deriving DecidableEq, Repr

/-- Why the model refuses. -/
inductive Refusal where
  /-- Raised by `exec` for a row without a meaning, by its mnemonic. Safe: the model stops where the part goes on. -/
  | notModelled (mnemonic : String)
  deriving DecidableEq, Repr

/-- The start sequence at a cold power-up, before any supply is judged valid. -/
def StartSt.reset : StartSt :=
  { stage := .supplies, cause := 0, count := 0, t0 := 0, rails := Vector.replicate 11 false, railsEn := false
    railsAt := 0, reached := 0, acceptedAt := 0 }

/-- The cox pairs at manufacture: pair A active, the standby loading, both slots as the factory wrote them. -/
def CoxSt.reset : CoxSt :=
  { active := false, standby := 0, staged := none, bootFallback := false, rom := false, version := Config.factoryVersion
    current := ⟨Config.factoryVersion, Config.factoryLength⟩, previous := ⟨0, 0⟩, slotWrite := none, reload := false }

/-- The machine right after power is applied: every field at the reset value its register table states, nothing
listed in memory, no supply yet judged valid. -/
def State.reset : State :=
  { time := ⟨0, false, true⟩, port := PortSt.reset, host := HostSt.reset, mem := Memory.empty, counters := []
    fault := FaultSt.reset, store := StoreSt.reset, tier := TierSt.reset, pwr := PwrSt.reset, clk := ClkSt.reset
    start := StartSt.reset, cox := CoxSt.reset, tiles := Vector.replicate 128 Tile.reset, ctxs := [], boat := BoatSt.reset
    sched := SchedSt.reset, sweep := SweepSt.reset, xf := XfSt.reset, plan := PlanSt.reset, fuse := FuseSt.reset
    stroke := StrokeSt.reset, net := NetSt.reset, safe := SafeSt.reset, cap := CapSt.reset, free := 0, pending := [] }

end Sys2Proof.Machine
end

