-- ==== Sys2Proof/Machine/Ops.lean ====
section
/-! DEFINITION. The named operations every block uses: memory cells, time, counters and events. -/

namespace Sys2Proof.Machine

/-! ### Cells: the canonical list form of memory -/

/-- What a list of cells holds at an address; an unlisted address holds 0. -/
def cellGet : List Host.Cell → Nat → Byte
  | [], _ => 0
  | (k, v) :: t, a => if a = k then v else if a < k then 0 else cellGet t a

/-- The list with one address set, in canonical form: writing 0 removes the entry. -/
def cellPut : List Host.Cell → Nat → Byte → List Host.Cell
  | [], a, b => if b = 0 then [] else [(a, b)]
  | (k, v) :: t, a, b =>
    if a = k then (if b = 0 then t else (a, b) :: t)
    else if a < k then (if b = 0 then (k, v) :: t else (a, b) :: (k, v) :: t)
    else (k, v) :: cellPut t a b

/-- The list with the addresses `a` to `a + n - 1` back at 0. -/
def cellClear (l : List Host.Cell) (a n : Nat) : List Host.Cell :=
  l.filter (fun c => !(a ≤ c.1 && c.1 < a + n))

/-- The list with bytes stored from an address up. -/
def cellPuts : List Host.Cell → Nat → List Byte → List Host.Cell
  | l, _, [] => l
  | l, a, b :: t => cellPuts (cellPut l a b) (a + 1) t

/-- The bytes of the `n` addresses from `a`. -/
def cellGets (l : List Host.Cell) : Nat → Nat → List Byte
  | _, 0 => []
  | a, n + 1 => cellGet l a :: cellGets l (a + 1) n

/-- Addresses strictly rise and no entry is 0. -/
def cellsWf : List Host.Cell → Bool
  | [] => true
  | [(_, v)] => v != 0
  | (k, v) :: (k', v') :: t => v != 0 && decide (k < k') && cellsWf ((k', v') :: t)

/-- Memory is in its canonical form. -/
def Memory.wf (m : Memory) : Bool := cellsWf m.data && cellsWf m.tag

/-- Memory with a range back at its unlisted value: in T0 and T1 every byte in the poison form (R177, R178), in
host-window SRAM every byte 0x00 (R29). -/
def Memory.clear (m : Memory) (a n : Nat) : Memory := ⟨cellClear m.data a n, cellClear m.tag a n⟩

/-- The stored byte at an address. -/
def Memory.byte (m : Memory) (a : Nat) : Byte := cellGet m.data a

/-- The storage mark at an address. -/
def Memory.mark (m : Memory) (a : Nat) : Byte := cellGet m.tag a

/-- Memory with a byte and its mark set. -/
def Memory.put (m : Memory) (a : Nat) (b mark : Byte) : Memory := ⟨cellPut m.data a b, cellPut m.tag a mark⟩

/-! ### The address map -/

/-- Base device address of a channel's host-window SRAM (R28). -/
def windowBase (ch : Nat) : Nat := 0x090000000000 + ch * 0x80000000

/-- Base device address of T1 (R136). -/
def t1Base : Nat := 0x004000000000
/-- Base device address of NVS (R136). -/
def nvsBaseAddr : Nat := 0x020000000000
/-- Bytes of T1 (R136). -/
def t1Size : Nat := 0x4000000000
/-- Bytes of NVS (R136). -/
def nvsSize : Nat := 0x20000000000
/-- Bytes of one tile's scratchpad (R136). -/
def t0TileSize : Nat := 0x200000

/-- The device address lies in T0. -/
def isT0 (a : Nat) : Bool := a < 0x10000000
/-- The device address lies in T1. -/
def isT1 (a : Nat) : Bool := t1Base ≤ a && a < t1Base + t1Size
/-- The device address lies in NVS. -/
def isNvs (a : Nat) : Bool := nvsBaseAddr ≤ a && a < nvsBaseAddr + nvsSize
/-- A channel byte address that SRAM backs: data window, command queues, reply rings, event ring (R25, R28). -/
def sramBacked (a : Nat) : Bool :=
  a < 0x04400000 || (0x04800000 ≤ a && a < 0x04A00000) || (0x04C00000 ≤ a && a < 0x04D00000)
/-- The channel and channel byte address that a device address names in the host windows (R28). -/
def hostAddr (a : Nat) : Option (Nat × Nat) :=
  if windowBase 0 ≤ a ∧ a < windowBase 2 then some ((a - windowBase 0) / 0x80000000, (a - windowBase 0) % 0x80000000)
  else none
/-- The device address lies in backed host-window SRAM. -/
def isSram (a : Nat) : Bool :=
  match hostAddr a with
  | some (_, o) => sramBacked o
  | none => false
/-- The range of `n` bytes at `a` lies wholly in one channel's data window (R25, R28). -/
def inWindow (a n : Nat) : Bool :=
  match hostAddr a with
  | some (_, o) => decide (o + n ≤ 0x04000000)
  | none => false

/-- T1 channel of a T1 offset (R139). -/
def t1Chan (o : Nat) : Nat := bits o 15 8
/-- Offset within the channel of a T1 offset (R139). -/
def t1ChanOff (o : Nat) : Nat := o / 2 ^ 16 * 256 + o % 256
/-- The T1 offset of a channel and an offset within it (R139). -/
def t1OfChan (c off : Nat) : Nat := off / 256 * 2 ^ 16 + c * 256 + off % 256
/-- NVS channel of a page number (R146, R428). -/
def nvsChan (p : Nat) : Nat := 16 * (p % 2) + p / 2 % 16

/-! ### Storing with poison -/

/-- How a store keeps poison when part of a word is written (R173, R182). -/
inductive StoreKind where
  /-- T0, and T1 in byte mode: each byte carries its own poison form -/
  | byte
  /-- T1 in line mode, and NVS: a word is poisoned or not as a whole -/
  | line
  /-- host-window SRAM -/
  | sram
  deriving DecidableEq, Repr

/-- Bytes put at an address with their marks; `none` leaves a byte as it is. -/
def Memory.puts : Memory → Nat → List (Option (Byte × Byte)) → Memory
  | m, _, [] => m
  | m, a, none :: t => Memory.puts m (a + 1) t
  | m, a, some (b, k) :: t => Memory.puts (m.put a b k) (a + 1) t

/-- The eight marks of a word. -/
def Memory.wordMarks (m : Memory) (w : Nat) : List Byte := cellGets m.tag w 8

/-- A word stored: `bs` gives for each of its eight bytes the byte written, or `none` where the write does not enable
it. A poisoned byte written makes the poison form. A partial write to a line-kind word that is poisoned, or to an SRAM word that is
poisoned or whose stored error cannot be corrected, leaves the word poisoned (R39, R173). An SRAM word of which the write enables no byte
stays as it is. A partial write to an SRAM word with a single-bit error stores the word corrected and counts nothing: DESIGN
CHOICE (log entry 87), R39 counts errors on reads and does not say whether the write's own read is one. -/
def Memory.putWord (k : StoreKind) (m : Memory) (w : Nat) (bs : List (Option PByte)) : Memory :=
  let full := bs.all Option.isSome
  let dirty := bs.any (fun o => match o with | some b => b.p | none => false)
  let marks := m.wordMarks w
  match k with
  | .byte => m.puts w (bs.map (fun o => o.map (fun b => if b.p then (0, 0) else (b.v, 1))))
  | .line =>
    if dirty || (!full && marks.contains 0) then m.puts w (List.replicate 8 (some (0, 0)))
    else m.puts w (bs.zip (cellGets m.data w 8) |>.map (fun p => some ((p.1.map PByte.v).getD p.2, 1)))
  | .sram =>
    let bad := dirty || (!full && marks.any (fun x => x == 1 || x == 2 || x == 4))
    if bs.all Option.isNone then m
    else m.puts w (bs.zip (cellGets m.data w 8) |>.map (fun p => some ((p.1.map PByte.v).getD p.2, if bad then 1 else 0)))

/-- Bytes stored from an address, word by word; `none` where a byte is not enabled. -/
def Memory.putList (kind : Nat → StoreKind) : Nat → Memory → Nat → List (Option PByte) → Memory
  | 0, m, _, _ => m
  | f + 1, m, a, l =>
    if l.isEmpty then m
    else
      let o := a % 8
      let n := 8 - o
      let chunk := l.take n
      let bs := List.replicate o none ++ chunk ++ List.replicate (8 - o - chunk.length) none
      Memory.putList kind f (m.putWord (kind a) (a - o) bs) (a + n) (l.drop n)

/-! ### Time -/

/-- The elapsed count in nanoseconds (R442). -/
def State.elapsed (s : State) : Nat := s.time.half / 2 % 2 ^ 64

/-- Half nanoseconds in a number of microseconds. -/
def us (n : Nat) : Nat := n * 2000

/-- A span of half nanoseconds has passed since an earlier elapsed count. -/
def State.since (s : State) (t span : Nat) : Bool := decide (t + span ≤ s.time.half)

/-- The free value the model draws where the spec leaves a value open, and the state with the draw counted. -/
def State.draw (s : State) : Nat × State := (Config.freeValue s.free, { s with free := s.free + 1 })

/-- The kind of store that holds a device address; T1 by the mode its line holds: line mode for a granule a rebuild has moved and
the scrubber has not yet read (R184), the new mode for a line that a running conversion has rewritten (R175), else the mode of its
16 MiB region (R166, R174). -/
def State.kindOf (s : State) (a : Nat) : StoreKind :=
  if isT0 a then .byte
  else if isT1 a then
    let line := s.store.remapLine.contains ((a - t1Base) / 256) ||
      match s.store.converts.find? (fun x => decide (x.base ≤ a ∧ a < x.base + 64 * x.next)) with
      | some x => x.mode == 1
      | none => s.store.lineRegions.contains ((a - t1Base) / 2 ^ 24)
    if line then .line else .byte
  else if isNvs a then .line
  else .sram

/-- Numbers added to a strictly rising list. -/
def insertSorted : List Nat → Nat → List Nat
  | [], x => [x]
  | y :: t, x => if x = y then y :: t else if x < y then x :: y :: t else y :: insertSorted t x

/-- The written-flag block of a T1 offset: channel times 2^18 plus its 4 KiB block of channel offset (R178). -/
def t1Block (o : Nat) : Nat := t1Chan o * 2 ^ 18 + t1ChanOff o / 4096

/-- The written flags a store of `n` bytes at a device address sets, and the page writes its stacks take (R148, R178,
R183). -/
def State.markWritten (s : State) (a n : Nat) : State :=
  if n = 0 then s
  else if isT1 a then
    let blocks := (List.range ((a % 256 + n + 255) / 256)).map (fun i => t1Block (a / 256 * 256 - t1Base + 256 * i))
    { s with store := { s.store with t1Written := blocks.foldl insertSorted s.store.t1Written } }
  else if isNvs a then
    let pages := (List.range ((a % 4096 + n + 4095) / 4096)).map (fun i => (a - nvsBaseAddr) / 4096 + i)
    let even := (pages.filter (fun p => p % 2 == 0)).length
    { s with store := { s.store with nvsWritten := pages.foldl insertSorted s.store.nvsWritten }
             tier := { s.tier with wear := vmod (vmod s.tier.wear 0 (· + even)) 1 (· + (pages.length - even)) } }
  else s

/-- The device address lies in T1 or NVS withdrawn from use (R144, R437). -/
def State.isWithdrawn (s : State) (a : Nat) : Bool :=
  (isT1 a && decide (t1Base + t1Size - s.fault.t1Withdrawn * 2 ^ 30 ≤ a)) ||
    (isNvs a && decide (nvsBaseAddr + nvsSize - s.fault.nvsWithdrawn * 2 ^ 30 ≤ a))

/-- Memory with the eight bytes of each word in the poison form. -/
def Memory.poisonWords (m : Memory) (ws : List Nat) : Memory := ws.foldl (fun m w => m.clear w 8) m

/-- Memory with the 64 bytes of a line stored, each in the poison form or not. -/
def Memory.putLine (m : Memory) (l : Nat) (b : List PByte) : Memory :=
  m.puts l (b.map (fun x => some (if x.p then (0, 0) else (x.v, 1))))

/-- The 64 bytes of a line as they were stored. -/
def Memory.line (m : Memory) (l : Nat) : List PByte :=
  (List.range 64).map (fun i => if m.mark (l + i) = 0 then ⟨0, true⟩ else ⟨m.byte (l + i), false⟩)

/-! ### Stored errors (R166 to R171, R183) -/

/-- The stored bits of a line that are inverted; none when it holds no error. -/
def State.flawOf (s : State) (l : Nat) : List Byte := (alookup s.store.flaws l).getD []

/-- The state with the inverted bits of a line set. -/
def State.setFlaw (s : State) (l : Nat) (f : List Byte) : State :=
  { s with store := { s.store with flaws := if f.all (· == 0) then aerase s.store.flaws l else aset s.store.flaws l f } }

/-- What the store of T0 or T1 finds in a line, by the mode the line holds (R166 to R171). -/
def State.lineRead (s : State) (l : Nat) : LineRead :=
  let f := s.flawOf l
  let e := f.map BitVec.toNat
  if s.kindOf l = .line then
    let w := wholeWords (s.mem.line l)
    if f.isEmpty then .sound w else readCodeLine (xorList (codeFrame w) e)
  else if f.isEmpty then .sound (s.mem.line l)
  else readByteLine (xorList (byteFrame (s.mem.line l)) e)

/-- The device address is of a line or page whose next read alone cannot be corrected. -/
def State.flakyAt (s : State) (l : Nat) : Bool := s.store.flaky.contains l

/-- The state with a line or page read a second time (R179, R183). -/
def State.steady (s : State) (l : Nat) : State :=
  if s.flakyAt l then { s with store := { s.store with flaky := s.store.flaky.filter (· != l) } } else s

/-- A line stored again as a read found it, its errors gone. -/
def State.rewrite (s : State) (l : Nat) (b : List PByte) : State :=
  ({ s with mem := s.mem.putLine l b }.setFlaw l []).steady l

/-- The bad bytes of an NVS page. -/
def State.badBytes (s : State) (p : Nat) : List Nat := s.store.nvsBad.filter (fun a => (a - nvsBaseAddr) / 4096 == p)

/-- The state with no bad byte in an NVS page. -/
def State.healPage (s : State) (p : Nat) : State :=
  { s with store := { s.store with nvsBad := s.store.nvsBad.filter (fun a => (a - nvsBaseAddr) / 4096 != p) } }

/-- The words of an NVS page that cannot be corrected: those with a bad byte, of a page with more than 96 (R183). -/
def State.badWords (s : State) (p : Nat) : List Nat :=
  let b := s.badBytes p
  if 96 < b.length then (b.map (· / 8 * 8)).eraseDups else []

/-- The state with the words of an NVS page that cannot be corrected poisoned in its mask. -/
def State.maskPage (s : State) (p : Nat) : State :=
  ({ s with mem := s.mem.poisonWords (s.badWords p) }).healPage p

/-! ### Events -/

/-- CLASS of an event code (R72). -/
def eventClass (code : Nat) : Nat :=
  if code ∈ [0x0101, 0x0106, 0x0109, 0x0301, 0x0302, 0x0805, 0x0A04, 0x0A05, 0x0D01] then 0
  else if code ∈ [0x0103, 0x0104, 0x0201, 0x0202, 0x0401, 0x0402, 0x0803, 0x0C01, 0x0C03, 0x0D02] then 2
  else if code ∈ [0x0107, 0x0702, 0x0801, 0x0901, 0x0902, 0x0903] then 3
  else 1

/-- The event codes of R72. -/
def eventCodes : List Nat :=
  [0x0101, 0x0102, 0x0103, 0x0104, 0x0105, 0x0106, 0x0107, 0x0108, 0x0109, 0x0201, 0x0202, 0x0301, 0x0302, 0x0401,
   0x0402, 0x0501, 0x0701, 0x0702, 0x0801, 0x0802, 0x0803, 0x0804, 0x0805, 0x0901, 0x0902, 0x0903, 0x0A01, 0x0A02,
   0x0A03, 0x0A04, 0x0A05, 0x0B01, 0x0C01, 0x0C02, 0x0C03, 0x0C04, 0x0D01, 0x0D02]

/-- Bytes with their CRC-32C after them (R48). -/
def withCrc (l : List Byte) : List Byte := l ++ toLe 4 (crc32c l)

/-- The 32 bytes of an event record (R70). -/
def eventRecord (code number elapsed source unit detail : Nat) : List Byte :=
  withCrc (toLe 2 code ++ toLe 1 (eventClass code) ++ toLe 1 0 ++ toLe 4 number ++ toLe 8 elapsed ++ toLe 2 source ++
    toLe 2 unit ++ toLe 8 detail)

/-- A port channel's entry; the reset channel outside 0 and 1. -/
def State.chan (s : State) (ch : Nat) : PortChan := vget PortChan.reset s.port.chans ch

/-- The state with a port channel changed. -/
def State.modChan (s : State) (ch : Nat) (f : PortChan → PortChan) : State :=
  { s with port := { s.port with chans := vmod s.port.chans ch f } }

/-- Bytes stored whole in host-window SRAM by the device, with clear poison (R30, R39). -/
def State.putSram (s : State) (a : Nat) (l : List Byte) : State :=
  { s with mem := ⟨cellPuts s.mem.data a l, cellPuts s.mem.tag a (l.map (fun _ => 0))⟩ }

/-- EVENTS_C0 or EVENTS_C1 (R40). -/
def State.eventsOn (s : State) (ch : Nat) : Bool := if ch = 0 then s.port.eventsC0 else s.port.eventsC1

/-- Unread records of a channel's event ring (R35). -/
def PortChan.evUnread (c : PortChan) : Nat := (c.evTail + 32768 - c.evHead) % 32768

/-- EV_LOST after one more record not written: saturating, no COUNTER_SATURATED (R34). -/
def Ctr.bump1 (c : Ctr) : Ctr :=
  if c.count = 0xFFFFFFFF then c else ⟨c.count + 1, decide (c.count + 1 = 0xFFFFFFFF)⟩

/-- A record written to one channel's ring, or counted as lost when the ring holds 32,767 unread records (R35). -/
def State.writeRing (s : State) (ch : Nat) (r : List Byte) : State :=
  let c := s.chan ch
  if c.evUnread = 32767 then s.modChan ch (fun c => { c with evLost := c.evLost.bump1 })
  else
    (s.putSram (windowBase ch + 0x04C00000 + c.evTail * 32) r).modChan ch
      (fun c => { c with evTail := (c.evTail + 1) % 32768 })

/-- An event code is raised at all: not masked (R73), and the part neither in Easy (R455) nor in Moored. -/
def State.eventOpen (s : State) (code : Nat) : Bool := !s.host.masked.contains code && decide (s.pwr.state < 2)

/-- Raise an event (R41, R71): it takes the next NUMBER and is written to each channel's ring whose EVENTS bit is 1. -/
def State.raise (s : State) (code source unit detail : Nat) : State :=
  if s.eventOpen code then
    let r := eventRecord code s.host.number s.elapsed source unit detail
    let s1 := { s with host := { s.host with number := (s.host.number + 1) % 2 ^ 32 } }
    let s2 := if s1.eventsOn 0 then s1.writeRing 0 r else s1
    if s2.eventsOn 1 then s2.writeRing 1 r else s2
  else s

/-- Raise an event that goes to one channel's ring only (EVENTS_LOST, R35). When that channel's EVENTS bit has become 0 the
event takes its NUMBER and no record is written. DESIGN CHOICE (log entry 88): R35 writes the record to that ring, R41 writes none to
a ring whose bit is 0. -/
def State.raiseTo (s : State) (ch code source unit detail : Nat) : State :=
  if s.eventOpen code then
    let r := eventRecord code s.host.number s.elapsed source unit detail
    let s1 := { s with host := { s.host with number := (s.host.number + 1) % 2 ^ 32 } }
    if s1.eventsOn ch then s1.writeRing ch r else s1
  else s

/-! ### Counters -/

/-- Control address space base (R443). -/
def ctrlBase : Nat := 0x080000000000

/-- A counter by its ID. -/
def State.counter (s : State) (id : Nat) : Ctr := (alookup s.counters id).getD Ctr.zero

/-- The counters with one set; an entry at its reset value is not listed. -/
def State.setCounter (s : State) (id : Nat) (c : Ctr) : State :=
  { s with counters := if c = Ctr.zero then aerase s.counters id else aset s.counters id c }

/-- A counter that adds `n`, saturating; when COUNT reaches 0xFFFF_FFFF it sets SAT and raises COUNTER_SATURATED once
(R442). -/
def State.bump (s : State) (id n : Nat) : State :=
  let c := s.counter id
  if c.count.toNat = 0xFFFFFFFF ∨ n = 0 then s
  else if c.count.toNat + n ≥ 0xFFFFFFFF then (s.setCounter id ⟨0xFFFFFFFF, true⟩).raise 0x0C04 90 0 id
  else s.setCounter id ⟨BitVec.ofNat 32 (c.count.toNat + n), c.sat⟩

/-- A counter cleared, as an RC read clears it. -/
def State.clearCounter (s : State) (id : Nat) : State := s.setCounter id Ctr.zero

/-- Counter ID of a register at an offset of control space (R443). -/
def ctrId (off : Nat) : Nat := off / 8

/-- HOSTPORT counter of a channel: 0 LECC_CE, 1 LECC_UE, 2 UNBACKED_WR, 3 RO_WR, 4 SRAM_CE, 5 SRAM_UE, 6 EV_DISCARD
(R41). -/
def portCtr (ch i : Nat) : Nat := ctrId (0x100 + 0x40 * ch + 8 * i)
/-- CMDQ.DISCARD of a package queue (R65). -/
def discardCtr (q : Nat) : Nat := ctrId (0x10000 + 0x10 * q + 8)
/-- INTEG counters by register offset (R188). -/
def integCtr (off : Nat) : Nat := ctrId (0x03000000 + off)
/-- TIER.LATE (R165). -/
def tierLateCtr : Nat := ctrId 0x02000038
/-- FAULT counters by register offset (R445). -/
def faultCtr (off : Nat) : Nat := ctrId (0x0C000000 + off)
/-- PWR counters by register offset (R471). -/
def pwrCtr (off : Nat) : Nat := ctrId (0x0D000000 + off)
/-- CLK.XTAL_LOSSES (R472). -/
def xtalLossCtr : Nat := ctrId 0x0E000040
/-- COX counters by register offset (R506). -/
def coxCtr (off : Nat) : Nat := ctrId (0x10000000 + off)

/-! ### What reads of stored errors count (R188, R189) -/

/-- A channel's integrity record changed: T1 channels 0 to 255, then NVS channels (R189). -/
def State.modChanRec (s : State) (i : Nat) (f : ChanRec → ChanRec) : State :=
  { s with store := { s.store with chans := vmod s.store.chans i f } }

/-- Bytes corrected in a T1 line counted: in INTEG.T1_CE and its channel, and in LINE_MAX for a line in line mode (R170, R188). -/
def State.countT1 (s : State) (l n lm : Nat) : State :=
  if n = 0 then s
  else
    let s0 : State := { s with store := { s.store with lineMax := max s.store.lineMax lm } }
    (s0.modChanRec (t1Chan (l - t1Base)) (fun r => { r with ce := min (r.ce + n) 0xFFFFFFFF, lineMax := max r.lineMax lm })).bump
      (integCtr 0x10) n

/-- A corrected NVS page counted (R188). -/
def State.countNvsCe (s : State) (p : Nat) : State :=
  (s.bump (integCtr 0x20) 1).modChanRec (256 + nvsChan p) (fun r => { r with ce := min (r.ce + 1) 0xFFFFFFFF })

/-- An uncorrectable NVS read counted (R188). -/
def State.countNvsUe (s : State) (p : Nat) : State :=
  (s.modChanRec (256 + nvsChan p) (fun r => { r with ue := min (r.ue + 1) 0xFFFFFFFF })).bump (integCtr 0x28) 1

/-! ### Storing with poison: the data path (R144, R172, R173, R178, R183) -/

/-- A write reaches a line of T0 or T1, `en` naming the bytes it enables. In byte mode each of these is stored with fresh check bits.
In line mode a write of the whole line is; a partial one reads the line, corrects it and re-encodes it, and every word of an
uncorrectable line is poisoned before the enabled bytes come in (R172, R173). DESIGN CHOICE (log entry 98): the merge counts the
bytes it corrects and nothing else. -/
def State.mergeLine (s : State) (l : Nat) (en : Nat → Bool) : State :=
  let f := s.flawOf l
  let s1 := s.steady l
  if f.isEmpty then s1
  else if s.kindOf l ≠ .line then s1.setFlaw l (flawWithout f en)
  else if (List.range 64).all en then s1.setFlaw l []
  else
    let r := s.lineRead l
    (s1.rewrite l r.bytes).countT1 l r.corrected r.corrected

/-- A write reaches an NVS page, `whole` when it covers all of it: one that covers part of a page whose read cannot be corrected
poisons the words that the read delivers poisoned, before its bytes come in (R173, R183). -/
def State.mergePage (s : State) (p : Nat) (whole : Bool) : State :=
  let s1 := s.steady (nvsBaseAddr + 4096 * p)
  if (s.badBytes p).isEmpty then s1
  else if whole then s1.healPage p
  else if (s.badWords p).isEmpty then (s1.healPage p).countNvsCe p
  else (s1.maskPage p).countNvsUe p

/-- The lines or pages a write reaches are made ready for it (R172, R173). -/
def State.premerge (s : State) (a : Nat) (l : List (Option PByte)) : State :=
  if s.store.flaws.isEmpty && s.store.flaky.isEmpty && s.store.nvsBad.isEmpty then s
  else
    let en (x : Nat) : Bool := decide (a ≤ x) && ((l.getD (x - a) none).isSome)
    if isT0 a || isT1 a then
      (List.range ((a % 64 + l.length + 63) / 64)).foldl (fun s i =>
        let line := a / 64 * 64 + 64 * i
        s.mergeLine line (fun j => en (line + j))) s
    else if isNvs a then
      (List.range ((a % 4096 + l.length + 4095) / 4096)).foldl (fun s i =>
        let p := (a - nvsBaseAddr) / 4096 + i
        s.mergePage p ((List.range 4096).all (fun j => en (nvsBaseAddr + 4096 * p + j)))) s
    else s

/-- Bytes stored at a device address by the data path, each with its poison bit; `none` where a byte is not enabled.
A write that reaches withdrawn memory is discarded (R144), and so are bytes aimed at no store. -/
def State.storeMasked (s : State) (a : Nat) (l : List (Option PByte)) : State :=
  if isT0 a || isT1 a || isNvs a || isSram a then
    let keep := (List.range l.length).map (fun i => if s.isWithdrawn (a + i) then none else (l.getD i none))
    let s0 := s.premerge a keep
    let s1 := { s0 with mem := Memory.putList s0.kindOf (l.length + 1) s0.mem a keep }
    if s.isWithdrawn a then s1 else s1.markWritten a l.length
  else s

/-- Bytes stored whole at a device address. -/
def State.storeBytes (s : State) (a : Nat) (l : List PByte) : State := s.storeMasked a (l.map some)

/-- Clean bytes stored at a device address: a table, a reply or a record the device writes. -/
def State.storeClean (s : State) (a : Nat) (l : List Byte) : State := s.storeBytes a (l.map (fun b => ⟨b, false⟩))

/-! ### Pins -/

/-- EVENT_N is driven low (R42, R45): packets are accepted, domain 92 is powered and a ring written under R41 holds an unread record. -/
def State.eventNLow (s : State) : Bool :=
  decide (s.start.stage = .accepting) && vget false s.pwr.on 92 &&
    ((s.eventsOn 0 && (s.chan 0).evUnread != 0) || (s.eventsOn 1 && (s.chan 1).evUnread != 0))

/-- The PLL is judged stable. -/
def State.pllStable (s : State) : Bool := (vget ⟨0, false⟩ s.clk.cands 1).stable

end Sys2Proof.Machine
end

