-- ==== Sys2Proof/Machine/PowerOps.lean ====
section
/-! DEFINITION. Domains, wake sources and starts: the shared operations of the power controller. -/

namespace Sys2Proof.Machine

/-- A switched domain is powered (R6); the always-on domain 96 always is. -/
def State.domOn (s : State) (d : Nat) : Bool := if d = 96 then true else vget false s.pwr.on d

/-- The state with a domain switched; tiles switched off drop out of the T0 lap (R186). -/
def State.setDom (s : State) (d : Nat) (b : Bool) : State :=
  { s with
    pwr := { s.pwr with on := vset s.pwr.on d b }
    store := if b || decide (64 ≤ d) then s.store
      else { s.store with t0Members := vset (vset s.store.t0Members (2 * d) false) (2 * d + 1) false } }

/-- A tile's scratchpad filled with the poison form (R177). -/
def State.poisonFill (s : State) (t : Nat) : State :=
  { s with mem := s.mem.clear (t * t0TileSize) t0TileSize
           store := { s.store with flaws := s.store.flaws.filter (fun f => f.1 / t0TileSize != t) } }

/-- A domain asked to power up for work placed on it (R448); nothing for one that is on, coming up or retired. -/
def State.wakeDomain (s : State) (d : Nat) : State :=
  if s.domOn d || s.fault.dead.contains d || s.pwr.waking.any (fun p => p.1 == d) then s
  else { s with pwr := { s.pwr with waking := s.pwr.waking ++ [(d, s.time.half)] } }

/-- Record that a domain holds, or has just ended, work (R448). -/
def State.touch (s : State) (d : Nat) : State :=
  { s with pwr := { s.pwr with lastWork := vset s.pwr.lastWork d s.time.half } }

/-- The wake latency of a gated domain in half nanoseconds (R448). -/
def wakeLatency (d : Nat) : Nat :=
  if d < 64 then us 6 else if d < 77 then us 4 else if d = 86 ∨ d = 87 then us 15 else us 3

/-- Domains that R446 marks "gated when idle". -/
def gateable (d : Nat) : Bool := d < 77 || d == 86 || d == 87 || d == 93 || d == 94

/-- Gating runs: Paddle, or host idle in Row (R446, R449). -/
def State.gating (s : State) : Bool := s.pwr.state == 1 || (s.pwr.state == 0 && s.pwr.hostIdle)

/-- Gating stops and every gated domain is asked to power up (R449, R450). -/
def State.ungate (s : State) : State :=
  ((List.range 96).filter gateable).foldl (fun s d => s.wakeDomain d) s

/-- A hint added (R478): at most four are kept, and a fifth takes the place of the one whose time comes first. -/
def State.addHint (s : State) (at_ watts from_ : Nat) : State :=
  let l := s.cap.hints
  let first := l.foldl (fun (a : Option Hint) h => match a with | none => some h | some b => if h.at_ < b.at_ then some h else some b) none
  let kept := match first with | some h => if 4 ≤ l.length then l.erase h else l | none => l
  { s with cap := { s.cap with hints := kept ++ [⟨at_, watts, from_, false⟩] } }

/-- What a start keeps (R438, R499), and every other field at its reset value: the machine at the beginning of a start of
the given cause, its supplies to be judged again. -/
def State.freshStart (s : State) (cause : Nat) : State :=
  let r := State.reset
  let cold := decide (cause = 0 ∨ cause = 2)
  let moored := decide (cause = 3)
  { r with
    time := if cold then ⟨0, false, true⟩ else ⟨s.time.half, true, if moored then false else s.time.coarse⟩
    mem := ⟨s.mem.data.filter (fun c => isNvs c.1), s.mem.tag.filter (fun c => isNvs c.1)⟩
    fault := { r.fault with
      units := s.fault.units.mapIdx (fun i u =>
        let z : UnitRec := { UnitRec.reset with lifetime := u.lifetime }
        if !u.recorded then z
        else if 412 ≤ i ∧ i < 444 then
          { z with state := .retired, cause := u.cause, lifetime := min (u.lifetime + 1) 0xFFFF, recorded := true, fenced := true
                   confirmed := true }
        else { z with state := .quarantined, cause := u.cause, recorded := true, fenced := true, since := s.time.half })
      nvsRebuilds := s.fault.nvsRebuilds
      nvsWithdrawn := s.fault.nvsWithdrawn }
    store := { r.store with nvsWritten := s.store.nvsWritten, nvsBad := s.store.nvsBad, flaky := s.store.flaky.filter isNvs }
    tier := { r.tier with wear := s.tier.wear }
    pwr := if moored then
        { r.pwr with wakeLast := s.pwr.wakeLast, timerAt := s.pwr.timerAt, callAddr := s.pwr.callAddr
                     callTokens := s.pwr.callTokens, callCount := s.pwr.callCount }
      else r.pwr
    counters := if moored then s.counters.filter (fun p => p.1 == pwrCtr 0x50 || p.1 == pwrCtr 0x58) else []
    start := { r.start with cause := cause, count := s.start.count, rails := s.start.rails, railsEn := s.start.railsEn }
    cox := { r.cox with current := s.cox.current, previous := s.cox.previous, version := s.cox.version }
    boat := { r.boat with keys := s.boat.keys }
    cap := if cold then r.cap
      else { r.cap with warnMv := s.cap.warnMv, resetMv := s.cap.resetMv, sagCap := s.cap.sagCap
                        preemptFrom := s.cap.preemptFrom }
    free := s.free
    pending := s.pending }

/-- The return from Moored begins: a start with START_CAUSE 3, the always-on wake record set and RAILS_EN high
(R458, R513). -/
def State.mooredReturn (s : State) (src : Nat) : State :=
  let s1 := { s with pwr := { s.pwr with wakeLast := src } }.freshStart 3
  { s1 with start := { s1.start with stage := .supplies, railsEn := true, railsAt := s.time.half, t0 := s.time.half
                                     rails := #v[false, false, true, vget false s.start.rails 3, false, false, false, false, false, false, false] } }

/-- A wake source that an entry's wake word enables is noted by the entry, the first one that fires (R453). -/
def State.noteWake (s : State) (src : Nat) : State :=
  match s.pwr.entry with
  | some e =>
    if bit e.wakeWord src = 1 ∧ e.fired.isNone then { s with pwr := { s.pwr with entry := some { e with fired := some src } } }
    else s
  | none => s

/-- A wake source fires (R450, R453, R454, R456 to R458): for an entry under way, and for the present state. In Row it has no effect
of its own. -/
def State.wake (s : State) (src : Nat) : State :=
  let s := s.noteWake src
  if bit s.pwr.wakeEnabled src = 0 then s
  else if s.pwr.state = 1 then
    ({ s with pwr := { s.pwr with state := 0, wakeLast := src, wakeEnabled := 0 } }.ungate).raise 0x0A04 95 0 src
  else if s.pwr.state = 2 then
    if s.pwr.easyStep = 0 then
      { s with pwr := { s.pwr with easyStep := 1, easyAt := s.time.half, easySource := src, wakeLast := src } }
    else s
  else if s.pwr.state = 3 then s.mooredReturn src
  else s

/-- The milestone bits of R498: 0 domains on and die bridge trained, 1 tile poison fill done and T1 links trained,
2 NVS interfaces on and start probes complete, 3 every umpire tested, 4 cox pair B shadowing. -/
def State.reached (s : State) (m : Nat) : Bool := bit s.start.reached m == 1

end Sys2Proof.Machine
end

