-- ==== Sys2Proof/Machine/HostPort.lean ====
section
/-! DEFINITION. The host port: bursts, doorbells, mode registers, power commands and RESET_N (R16 to R45). -/

namespace Sys2Proof.Machine

/-- A channel answers the host's command bus: packets accepted, its domain powered (also in Easy, R45). -/
def State.portUp (s : State) (ch : Nat) : Bool :=
  decide (ch < 2) && decide (s.start.stage = .accepting) && s.port.resetN && s.domOn 92

/-- A channel serves read and write bursts: it is neither in power-down nor asleep. -/
def State.portServes (s : State) (ch : Nat) : Bool :=
  s.portUp ch && decide ((s.chan ch).mode = .active ∨ (s.chan ch).mode = .untrained)

/-! ### Mode registers (R19, R20, R40) -/

/-- MR16 holds the switches of the frequency set points, which no set point has a copy of. PRESUMED (log entry 6). -/
def mrShared (mr : Nat) : Bool := mr == 16 || !Config.mrPerFsp mr

/-- A mode register in a set point's copy. -/
def PortChan.modeReg (c : PortChan) (fsp mr : Nat) : Byte :=
  vget 0 (vget (Vector.replicate 256 0) c.modeRegs (if mrShared mr then 0 else fsp)) mr

/-- FSP-WR, the set point that mode-register accesses reach: MR16 [1:0]. PRESUMED (log entry 6). -/
def PortChan.fspWr (c : PortChan) : Nat := bits (c.modeReg 0 16).toNat 1 0

/-- FSP-OP, the set point in operation: MR16 [3:2]. PRESUMED (log entry 6). -/
def PortChan.fspOp (c : PortChan) : Nat := bits (c.modeReg 0 16).toNat 3 2

/-- Write link ECC is enabled in the operating set point (R38): MR22 [5:4]. PRESUMED (log entry 6). -/
def PortChan.wecc (c : PortChan) : Bool := bits (c.modeReg c.fspOp 22).toNat 5 4 != 0

/-- Link ECC is enabled, for writes or for reads (R40): MR22 [7:4]. PRESUMED (log entry 6). -/
def PortChan.lecc (c : PortChan) : Bool := bits (c.modeReg c.fspOp 22).toNat 7 4 != 0

/-- The bits of a mode register that take what the host programs: writable fields of supported features, never a bit that
R20 fixes (MR4's rate and update flag, MR5 to MR8). -/
def mrTakes (mr : Nat) : Byte :=
  if mr = 16 ∨ mr = 22 then (if mr = 16 then 0x0F else 0xF0) ||| (Config.mrWritable mr &&& ~~~Config.mrUnsupported mr)
  else if 5 ≤ mr ∧ mr ≤ 8 then 0
  else Config.mrWritable mr &&& ~~~Config.mrUnsupported mr &&& (if mr = 4 then 0x60 else 0xFF)

/-- A mode register written: its bits that take a value, in the copy FSP-WR selects. MR16 keeps a set-point number above 2
out: that field stays (log entry 6). -/
def PortChan.mrw (c : PortChan) (mr v : Nat) : PortChan :=
  let old := c.modeReg c.fspWr mr
  let new := (old &&& ~~~mrTakes mr) ||| (BitVec.ofNat 8 v &&& mrTakes mr)
  let keep : Byte := if mr = 16 then (if new &&& 3 = 3 then 3 else 0) ||| (if new &&& 12 = 12 then 12 else 0) else 0
  let new := (new &&& ~~~keep) ||| (old &&& keep)
  { c with modeRegs := vmod c.modeRegs (if mrShared mr then 0 else c.fspWr) (fun m => vset m mr new) }

/-- What a mode-register read returns (R20): MR5 to MR7 zero, MR8 a x16 channel of 16 Gb, MR4's rate the standard one and
its update flag clear, a field the host programs as it programmed it, a status field the port's state, every other bit 0. MR8's
and MR4's encodings: PRESUMED (log entry 6). -/
def PortChan.mrr (c : PortChan) (mr : Nat) : Byte :=
  if mr = 5 ∨ mr = 6 ∨ mr = 7 then 0
  else if mr = 8 then 0x19
  else
    let status := Config.mrStatusMask mr &&& ~~~Config.mrUnsupported mr &&& ~~~mrTakes mr
    let v := (c.modeReg c.fspWr mr &&& mrTakes mr) ||| (Config.mrStatus mr c.training.toList c.zqLatched &&& status)
    if mr = 4 then (v &&& 0x60) ||| 0x09 else v

/-! ### Bank, row and column; beats and lanes (R23, R24) -/

/-- The channel byte address that a bank, row and column name (R23). -/
def portAddr (bank : BankAddr) (row col : Nat) : Nat :=
  2 * col % 2 ^ 11 + bank.number * 2 ^ 11 + row % 2 ^ 16 * 2 ^ 15

/-- The beats of a burst: beat k carries byte 2k on DQ[7:0] and byte 2k + 1 on DQ[15:8] (R24). -/
def beatsOf : List Byte → List Word16
  | a :: b :: t => (b ++ a) :: beatsOf t
  | _ => []

/-- The bytes a burst's beats carry, in address order (R24). -/
def bytesOf (l : List Word16) : List Byte := l.flatMap (fun w => [w.extractLsb' 0 8, w.extractLsb' 8 8])

/-! ### Doorbell page and ID window -/

/-- The 32-bit register of the doorbell page at an offset; reserved offsets read 0 (R27, R34). -/
def State.doorbell (s : State) (ch off : Nat) : Nat :=
  let c := s.chan ch
  if off < 0x1000 then
    let q := vget Queue.reset s.host.queues (64 * ch + off / 0x40)
    match off % 0x40 with
    | 0 => q.sqTail
    | 4 => q.sqHead
    | 8 => q.rqHead
    | 12 => q.rqTail
    | _ => 0
  else if off = 0x1000 then c.evHead
  else if off = 0x1004 then c.evTail
  else if off = 0x1008 then c.evLost.count.toNat
  else if off = 0x100C then b2n c.evLost.sat
  else 0

/-- The listed fields of the ID window (R36), 64 bytes; the rest of the window reads 0. -/
def State.idWindow (s : State) (ch : Nat) : List Byte :=
  toLe 4 0x00385A54 ++ toLe 2 8 ++ [Config.stepping] ++ toLe 1 (if Config.gradeX then 0x58 else 0x49) ++ toLe 2 256 ++
    toLe 2 2048 ++ toLe 1 ch ++ toLe 1 1 ++ toLe 2 64 ++ toLe 2 1024 ++ toLe 2 1024 ++ toLe 4 32768 ++
    toLe 4 s.cox.version ++ toLe 1 (b2n s.cox.active) ++ toLe 1 s.start.cause ++ toLe 2 s.start.count ++
    toLe 8 s.elapsed ++ toLe 1 (b2n s.time.coarse) ++ toLe 7 0 ++ toLe 16 Config.serial

/-- The four bytes the doorbell page or the ID window returns at a channel address. -/
def State.pageWord (s : State) (ch a : Nat) : List Byte :=
  if a < 0x04D10000 then toLe 4 (s.doorbell ch (a - 0x04D00000))
  else if a < 0x04D10040 then slice (s.idWindow ch) (a - 0x04D10000) 4
  else [0, 0, 0, 0]

/-- The fill pattern (R26). -/
def fill (n : Nat) : List Byte := List.replicate n 0xF1

/-! ### Read bursts -/

/-- The mark of an SRAM word that a single-bit error strikes: clean and correctable (3), poisoned and correctable (4); a
word that held an error already can no longer be corrected. -/
def sramStruck (mark : Byte) : Byte := if mark = 0 then 3 else if mark = 1 then 4 else 2

/-- A stored error struck into host-window SRAM: kind 1, or a pattern of one bit, a single bit; any other an uncorrectable
word (R39). -/
def State.strikeSram (s : State) (u : Upset) : State :=
  if isSram u.addr && (u.kind != 0 || u.flips % 2 ^ 13 != 0) then
    let w := u.addr - u.addr % 8
    let single := u.kind = 1 ∨ (u.kind = 0 ∧ popCount 13 u.flips = 1)
    let k : Byte := if single then sramStruck (s.mem.mark w) else 2
    { s with mem := s.mem.puts w ((cellGets s.mem.data w 8).map (fun b => some (b, k))) }
  else s

/-- One 8-byte word of host-window SRAM read by either side: its bytes, whether it is delivered poisoned or as fill,
and the state with the error counted and reported (R39). -/
def State.readSramWord (s : State) (w : Nat) : State × List Byte × Bool :=
  let ch := match hostAddr w with | some (c, _) => c | none => 0
  let off := match hostAddr w with | some (_, o) => o | none => 0
  let marks := s.mem.wordMarks w
  let bytes := cellGets s.mem.data w 8
  if marks.contains 2 then
    ((s.bump (portCtr ch 5) 1).raise 0x0104 92 ch (ch + off * 2 ^ 32), bytes, true)
  else if marks.contains 4 then (s.bump (portCtr ch 4) 1, bytes, true)
  else if marks.contains 1 then (s, bytes, true)
  else if marks.contains 3 then (s.bump (portCtr ch 4) 1, bytes, false)
  else (s, bytes, false)

/-- The bytes a host read burst returns, word by word from a channel address. -/
def State.readWords (s : State) (ch : Nat) : Nat → Nat → State × List Byte
  | _, 0 => (s, [])
  | a, n + 1 =>
    let (s1, l) :=
      if sramBacked a then
        let (s1, b, bad) := s.readSramWord (windowBase ch + a)
        (s1, if bad then fill 8 else b)
      else if 0x04D00000 ≤ a ∧ a < 0x04D11000 then (s, s.pageWord ch a ++ s.pageWord ch (a + 4))
      else (s, fill 8)
    let (s2, t) := State.readWords s1 ch (a + 8) n
    (s2, l ++ t)

/-- EV_LOST cleared by a read burst that covers it (R34). -/
def State.clearEvLost (s : State) (ch : Nat) : State := s.modChan ch (fun c => { c with evLost := Ctr.zero })

/-- A read burst of `n` words at an aligned channel address: data returned, EV_LOST cleared when covered. -/
def State.burstRead (s : State) (ch a n : Nat) : State :=
  let (s1, l) := s.readWords ch a n
  let s2 := if a ≤ 0x04D01000 ∧ 0x04D01000 < a + 8 * n then s1.clearEvLost ch else s1
  s2.modChan ch (fun c => { c with readData := beatsOf l })

/-- HOST_READ (R16, R23 to R27, R34, R36, R39): the aligned block that holds the bank, row and column is returned. -/
def execHostRead (ch : Nat) (at_ : BurstAddr) (bl32 : Bool) (ups : List Upset) (s : State) :
    Host.Outcome State Fault Refusal :=
  let n := if bl32 then 8 else 4
  let a := portAddr at_.bank at_.row at_.col
  .next (if s.portServes ch then (ups.foldl State.strikeSram s).burstRead ch (a - a % (8 * n)) n else s)

/-- EV_LOST_READ (R34): a burst on the 32-byte block at 0x1000 of the doorbell page. -/
def execEvLostRead (ch : Nat) (s : State) : Host.Outcome State Fault Refusal :=
  .next (if s.portServes ch then s.burstRead ch 0x04D01000 4 else s)

/-! ### Doorbell writes -/

/-- A queue of the package. -/
def State.queue (s : State) (q : Nat) : Queue := vget Queue.reset s.host.queues q

/-- The state with a queue changed. -/
def State.modQueue (s : State) (q : Nat) (f : Queue → Queue) : State :=
  { s with host := { s.host with queues := vmod s.host.queues q f } }

/-- Device address of a slot of a package queue (R25, R28). -/
def slotAddr (q slot : Nat) : Nat := windowBase (q / 64) + 0x04000000 + q % 64 * 0x10000 + slot % 1024 * 0x40

/-- Device address of a slot of a package queue's reply ring. -/
def replyAddr (q slot : Nat) : Nat := windowBase (q / 64) + 0x04800000 + q % 64 * 0x8000 + slot % 1024 * 0x20

/-- Unread slots of a queue (R52). -/
def Queue.unread (q : Queue) : Nat := (q.sqTail + 1024 - q.sqHead) % 1024

/-- Free slots of a queue's reply ring (R62). -/
def Queue.rqFree (q : Queue) : Nat := 1023 - (q.rqTail + 1024 - q.rqHead) % 1024

/-- The packet in a slot as a read finds it: its bytes, and whether a word of it is delivered poisoned (R39). -/
def State.packet (s : State) (q slot : Nat) : Head :=
  ⟨cellGets s.mem.data (slotAddr q slot) 64, (cellGets s.mem.tag (slotAddr q slot) 64).any (fun m => m == 1 || m == 2 || m == 4)⟩

/-- A packet's CRC-32C holds and no word of it is bad (R39, R48). -/
def Head.crcOk (p : Head) : Bool := !p.bad && crc32c (p.bytes.take 60) == leAt p.bytes 60 4

/-- The errors that reading a slot's eight words meets, counted and reported (R39). -/
def State.readSlot (s : State) (q slot : Nat) : State :=
  (List.range 8).foldl (fun s w => (s.readSramWord (slotAddr q slot + 8 * w)).1) s

/-- The head packet is read as soon as SQ_TAIL covers its slot, and held: a host write that comes later has no effect on it
(R31, R51). -/
def State.latchHead (s : State) (q : Nat) : State :=
  let qu := s.queue q
  if qu.unread ≠ 0 ∧ qu.head.isNone then
    (s.readSlot q qu.sqHead).modQueue q (fun u => { u with head := some (s.packet q qu.sqHead) })
  else s

/-- The head packet of a queue. -/
def State.headPacket (s : State) (q : Nat) : Head := (s.queue q).head.getD (s.packet q (s.queue q).sqHead)

/-- Opcode of `sys.queue.sync`. -/
def opQueueSync : Nat := 0x0107

/-- Slots the head at SQ_HEAD occupies when it passes checks 1 to 4 of R54; 1 when it fails any of them (R51). -/
def State.headSlots (s : State) (q : Nat) : Nat :=
  let qu := s.queue q
  let p := s.headPacket q
  let b := p.bytes
  let seqOk := leAt b 4 2 == qu.expectSeq || leAt b 0 2 == opQueueSync
  let n := byteAt b 3
  if p.crcOk && bit (byteAt b 2) 7 == 0 && seqOk && decide (1 ≤ n ∧ n ≤ 16) then n else 1

/-- A queue holds a command the TZ8 can read to its end (R51, R53). -/
def State.readable (s : State) (q : Nat) : Bool :=
  let qu := s.queue q
  decide (qu.unread ≠ 0) && decide (s.headSlots q ≤ qu.unread)

/-- CMDQ.STATE.WAIT_SLOTS: a head waits for SQ_TAIL to cover its continuations (R51, R65). -/
def State.waitSlots (s : State) (q : Nat) : Bool :=
  decide ((s.queue q).unread ≠ 0) && !s.readable q

/-- SQ_TAIL written: slots submitted, or the write ignored and counted when it would shrink the unread count (R52). The
head packet is read as soon as it is covered (R51). A write that leaves an unread complete command fires DOORBELL (R456). -/
def State.sqTailWrite (s : State) (q v : Nat) : State :=
  let qu := s.queue q
  let old := qu.unread
  let new := (v % 1024 + 1024 - qu.sqHead) % 1024
  if new < old then s.bump (discardCtr q) 1
  else
    let s1 := s.modQueue q (fun u =>
      { u with sqTail := v % 1024, cover := u.cover ++ List.replicate (new - old) s.time.half })
    let s1 := s1.latchHead q
    if s1.readable q then s1.wake 3 else s1

/-- RQ_HEAD written: reply slots freed, or the write ignored and counted when it would pass RQ_TAIL (R52). -/
def State.rqHeadWrite (s : State) (q v : Nat) : State :=
  let qu := s.queue q
  if (qu.rqTail + 1024 - v % 1024) % 1024 > (qu.rqTail + 1024 - qu.rqHead) % 1024 then s.bump (discardCtr q) 1
  else s.modQueue q (fun u => { u with rqHead := v % 1024 })

/-- EV_HEAD written: event records freed, or the write ignored and counted when it would pass EV_TAIL (R52). The
write that frees room in a full ring raises EVENTS_LOST to that ring alone, the count not cleared (R35). -/
def State.evHeadWrite (s : State) (ch v : Nat) : State :=
  let c := s.chan ch
  let new := (c.evTail + 32768 - v % 32768) % 32768
  if new > c.evUnread then s.bump (portCtr ch 6) 1
  else
    let s1 := s.modChan ch (fun c => { c with evHead := v % 32768 })
    if c.evUnread = 32767 ∧ new < 32767 then
      s1.raiseTo ch 0x0105 92 ch (c.evLost.count.toNat + b2n c.evLost.sat * 2 ^ 32)
    else s1

/-- SQ_TAIL_WRITE (R52). -/
def execSqTailWrite (q v : Nat) (s : State) : Host.Outcome State Fault Refusal :=
  .next (if s.portServes (q / 64) then s.sqTailWrite q v else s)
/-- RQ_HEAD_WRITE (R52). -/
def execRqHeadWrite (q v : Nat) (s : State) : Host.Outcome State Fault Refusal :=
  .next (if s.portServes (q / 64) then s.rqHeadWrite q v else s)
/-- EV_HEAD_WRITE (R35, R52). -/
def execEvHeadWrite (ch v : Nat) (s : State) : Host.Outcome State Fault Refusal :=
  .next (if s.portServes ch then s.evHeadWrite ch v else s)

/-! ### Write bursts -/

/-- One doorbell register written by a burst with the given byte enables (R27, R34). Each register that a burst enables in
part counts once in RO_WR. DESIGN CHOICE (log entry 86): R34 says "a write" and does not say whether a burst over several
registers is one. -/
def State.doorbellWrite (s : State) (ch off m v : Nat) : State :=
  let known := (off < 0x1000 && off % 0x40 < 16) || (0x1000 ≤ off && off < 0x1010)
  if m = 0 ∨ !known then s
  else if m ≠ 15 then s.bump (portCtr ch 3) 1
  else if off < 0x1000 ∧ off % 0x40 = 0 then s.sqTailWrite (64 * ch + off / 0x40) v
  else if off < 0x1000 ∧ off % 0x40 = 8 then s.rqHeadWrite (64 * ch + off / 0x40) v
  else if off = 0x1000 then s.evHeadWrite ch v
  else s

/-- The doorbell registers a burst covers, in address order. -/
def State.doorbellWrites (s : State) (ch off : Nat) (data : List Byte) (mask : Nat) : State :=
  (List.range (data.length / 4)).foldl
    (fun s i => s.doorbellWrite ch (off + 4 * i) (mask / 2 ^ (4 * i) % 16) (leAt data (4 * i) 4)) s

/-- The mask of a burst at an offset of the ID window enables a byte of a listed field (R27, R36). -/
def idFieldTouched (off n mask : Nat) : Bool :=
  (List.range n).any (fun i => bit mask i == 1 && (decide (off + i < 0x29) || decide (0x30 ≤ off + i ∧ off + i < 0x40)))

/-- A write burst aimed at a channel address: `data` is stored where `mask` enables it (R24 to R27, R34, R39). A burst whose
mask enables no byte writes nothing and is counted nowhere. DESIGN CHOICE (log entry 86): R26 and R27 do not say whether it
is a write. -/
def State.burstWrite (s : State) (ch a : Nat) (data : List Byte) (mask : Nat) : State :=
  let n := data.length
  if a < 0x04400000 then
    s.storeMasked (windowBase ch + a)
      ((List.range n).map (fun i => if bit mask i = 1 then some ⟨data.getD i 0, false⟩ else none))
  else if mask % 2 ^ n = 0 then s
  else if sramBacked a then s.bump (portCtr ch 3) 1
  else if 0x04D00000 ≤ a ∧ a < 0x04D10000 then s.doorbellWrites ch (a - 0x04D00000) data mask
  else if 0x04D10000 ≤ a ∧ a < 0x04D11000 then
    (if idFieldTouched (a - 0x04D10000) n mask then s.bump (portCtr ch 3) 1 else s)
  else s.bump (portCtr ch 2) 1

/-- A write burst with an uncorrectable link error (R38). -/
def State.burstLinkError (s : State) (ch a : Nat) (data : List Byte) (mask : Nat) : State :=
  let s1 := s.bump (portCtr ch 1) 1
  let s2 := if 0x04D00000 ≤ a ∧ a < 0x04D10000 then s1 else s1.burstWrite ch a (fill data.length) mask
  s2.raise 0x0103 92 ch (ch + a * 2 ^ 32)

/-- HOST_WRITE (R23 to R27, R34, R38): 16 or 32 beats written to the aligned block that holds the bank, row and column; mask
bit i enables byte i of the block. `link` is 0 for a clean burst, 1 for a single-bit link error and 2 for an
uncorrectable one; with write link ECC disabled the bytes are stored as received. -/
def execHostWrite (ch : Nat) (at_ : BurstAddr) (beats : List Word16) (mask link : Nat) (s : State) :
    Host.Outcome State Fault Refusal :=
  .next
    (if s.portServes ch ∧ (beats.length = 16 ∨ beats.length = 32) then
      let data := bytesOf beats
      let b := portAddr at_.bank at_.row at_.col
      let a := b - b % data.length
      if link ≠ 0 ∧ (s.chan ch).wecc then
        if link = 1 then (s.bump (portCtr ch 0) 1).burstWrite ch a data mask else s.burstLinkError ch a data mask
      else s.burstWrite ch a data mask
    else s)

/-! ### Mode-register commands, training, refresh -/

/-- MODE_REGISTER_WRITE (R19, R20): writable fields of supported features take the value, every other bit ignores it. -/
def execModeRegisterWrite (ch mr v : Nat) (s : State) : Host.Outcome State Fault Refusal :=
  .next (if s.portUp ch ∧ mr < 256 then s.modChan ch (fun c => c.mrw mr v) else s)

/-- MODE_REGISTER_READ (R20). -/
def execModeRegisterRead (ch mr : Nat) (s : State) : Host.Outcome State Fault Refusal :=
  .next (if s.portUp ch ∧ mr < 256 then s.modChan ch (fun c => { c with mrrData := c.mrr mr }) else s)

/-- LINK_TRAINING (R19): a training of one kind ends with its result. The channel counts as active once command bus
training, WCK2CK levelling, read DQ calibration and FIFO training have each given a result. -/
def execLinkTraining (ch kind result : Nat) (s : State) : Host.Outcome State Fault Refusal :=
  .next (if s.portUp ch ∧ kind < 5 then
    s.modChan ch (fun c =>
      let tr := vset c.training kind (BitVec.ofNat 8 result)
      let ok := (List.range 4).all (fun i => vget 0 tr i != 0)
      { c with training := tr, mode := if c.mode = .untrained ∧ ok then .active else c.mode })
    else s)

/-- ZQ_CALIBRATION (R19). -/
def execZqCalibration (ch : Nat) (s : State) : Host.Outcome State Fault Refusal :=
  .next (if s.portUp ch then s.modChan ch (fun c => { c with zqLatched := true }) else s)

/-- POST_PACKAGE_REPAIR (R19): the command is ignored. -/
def execPostPackageRepair (_ch : Nat) (s : State) : Host.Outcome State Fault Refusal := .next s

/-- REFRESH (R21): accepted, no effect. -/
def execRefresh (_ch _kind : Nat) (s : State) : Host.Outcome State Fault Refusal := .next s

/-! ### Host power commands -/

/-- POWER_DOWN_ENTRY (R22). -/
def execPowerDownEntry (ch : Nat) (s : State) : Host.Outcome State Fault Refusal :=
  .next (if s.portServes ch then
    s.modChan ch (fun c => { c with mode := .powerDown, awake := c.mode, rxLow := true }) else s)

/-- POWER_DOWN_EXIT (R22). -/
def execPowerDownExit (ch : Nat) (s : State) : Host.Outcome State Fault Refusal :=
  .next (if s.portUp ch ∧ (s.chan ch).mode = .powerDown then
    s.modChan ch (fun c => { c with mode := c.awake, rxLow := false }) else s)

/-- Both channels are in self-refresh or deep sleep, and SR_HINT lets that count as host idle (R22). -/
def State.hostSleeps (s : State) : Bool :=
  s.port.srHint && decide ((s.chan 0).mode = .asleep) && decide ((s.chan 1).mode = .asleep)

/-- PWR.STATE.HOST_IDLE follows the channels (R449); when host idle ends, gated domains power up again. -/
def State.syncIdle (s : State) : State :=
  if s.hostSleeps then { s with pwr := { s.pwr with hostIdle := true } }
  else if s.pwr.hostIdle then
    let s1 := { s with pwr := { s.pwr with hostIdle := false } }
    if s1.pwr.state = 0 then s1.ungate else s1
  else s

/-- A channel enters self-refresh (`deep` false) or deep sleep. -/
def State.sleepEntry (s : State) (ch : Nat) (deep low : Bool) : State :=
  (s.modChan ch (fun c => { c with mode := .asleep, awake := if c.mode = .powerDown then c.awake else c.mode
                                   rxLow := low, deep := deep })).syncIdle

/-- A channel leaves self-refresh or deep sleep and fires HOST_ACTIVE (R456). -/
def State.sleepExit (s : State) (ch : Nat) : State :=
  ((s.modChan ch (fun c => { c with mode := c.awake, rxLow := false, deep := false })).syncIdle).wake 4

/-- SELF_REFRESH_ENTRY, with or without power-down (R22, R449). -/
def execSelfRefreshEntry (ch : Nat) (pd : Bool) (s : State) : Host.Outcome State Fault Refusal :=
  .next (if s.portServes ch then s.sleepEntry ch false pd else s)
/-- SELF_REFRESH_EXIT (R22, R449, R456). -/
def execSelfRefreshExit (ch : Nat) (s : State) : Host.Outcome State Fault Refusal :=
  .next (if s.portUp ch ∧ (s.chan ch).mode = .asleep ∧ (s.chan ch).deep = false then s.sleepExit ch else s)
/-- DEEP_SLEEP_ENTRY (R22): the same as self-refresh entry. -/
def execDeepSleepEntry (ch : Nat) (s : State) : Host.Outcome State Fault Refusal :=
  .next (if s.portServes ch then s.sleepEntry ch true true else s)
/-- DEEP_SLEEP_EXIT (R22, R449, R456). -/
def execDeepSleepExit (ch : Nat) (s : State) : Host.Outcome State Fault Refusal :=
  .next (if s.portUp ch ∧ (s.chan ch).mode = .asleep ∧ (s.chan ch).deep = true then s.sleepExit ch else s)

/-! ### RESET_N -/

/-- A channel's interface state at its power-up value, its event doorbells kept (R37). -/
def PortChan.interfaceReset (c : PortChan) : PortChan :=
  { PortChan.reset with evHead := c.evHead, evTail := c.evTail, evLost := c.evLost }

/-- RESET_N_ASSERT (R37). -/
def execResetNAssert (s : State) : Host.Outcome State Fault Refusal :=
  .next ({ s with port := { s.port with chans := s.port.chans.map PortChan.interfaceReset, resetN := false } }.syncIdle)

/-- RESET_N_RELEASE (R37): HOST_RESET is written, or noted to follow DEVICE_START. -/
def execResetNRelease (s : State) : Host.Outcome State Fault Refusal :=
  .next (if s.port.resetN then s
    else
      let s1 := { s with port := { s.port with resetN := true } }
      if s.start.stage = .accepting then s1.raise 0x0102 92 0 0
      else { s1 with port := { s1.port with releasedEarly := true } })

end Sys2Proof.Machine
end

