-- ==== Sys2Proof/Machine/Commands.lean ====
section
/-! DEFINITION. Command packets: reading and checking them, dispatch, replies, deadlines (R46 to R73). -/

namespace Sys2Proof.Machine

/-! ### Status codes (R69) -/

/-- DONE. -/
def stDone : Nat := 0x0000
/-- ACCEPTED. -/
def stAccepted : Nat := 0x0001
/-- DONE_DEGRADED. -/
def stDegraded : Nat := 0x0002
/-- DONE_APPROX. -/
def stApprox : Nat := 0x0003
/-- INVALID. -/
def stInvalid : Nat := 0x0004
/-- BAD_CRC. -/
def stBadCrc : Nat := 0x8001
/-- BAD_OPCODE. -/
def stBadOpcode : Nat := 0x8002
/-- BAD_PARAM. -/
def stBadParam : Nat := 0x8003
/-- NO_RESOURCE. -/
def stNoResource : Nat := 0x8004
/-- DEADLINE_MISSED. -/
def stDeadline : Nat := 0x8005
/-- POISONED. -/
def stPoisoned : Nat := 0x8006
/-- TORN_DOWN. -/
def stTornDown : Nat := 0x8007
/-- QUARANTINED. -/
def stQuarantined : Nat := 0x8008
/-- REFUSED_SAG. -/
def stSag : Nat := 0x8009
/-- NO_PATH. -/
def stNoPath : Nat := 0x800A
/-- TIMEOUT. -/
def stTimeout : Nat := 0x800B
/-- INVALIDATED. -/
def stInvalidated : Nat := 0x800C
/-- SIGNATURE_FAIL. -/
def stSignature : Nat := 0x800E
/-- BAD_SEQ. -/
def stBadSeq : Nat := 0x8010
/-- STALE_SEQ. -/
def stStaleSeq : Nat := 0x8011
/-- NO_CLIENT. -/
def stNoClient : Nat := 0x8012
/-- CONTEXT_CLOSED. -/
def stCtxClosed : Nat := 0x8013
/-- MODEL_ABSENT. -/
def stModelAbsent : Nat := 0x8014
/-- PINNED. -/
def stPinned : Nat := 0x8015
/-- WRONG_STATE. -/
def stWrongState : Nat := 0x8016
/-- KEY_LOCKED. -/
def stKeyLocked : Nat := 0x8017

/-! ### The opcode table (R66) -/

/-- A row of R66: parameter bytes used, CTX_VALID required, serialising. -/
structure OpInfo where
  params : Nat
  ctx : Bool
  serial : Bool
  deriving DecidableEq, Repr

/-- The opcodes of R66; `none` for any other. -/
def opInfo (op : Nat) : Option OpInfo :=
  let r (n : Nat) : Option OpInfo := some ⟨n, false, false⟩
  let s (n : Nat) : Option OpInfo := some ⟨n, false, true⟩
  let c (n : Nat) : Option OpInfo := some ⟨n, true, false⟩
  match op with
  | 0x0101 => r 8 | 0x0102 => r 8 | 0x0103 => r 24 | 0x0104 => r 10 | 0x0105 => r 5 | 0x0106 => r 3 | 0x0107 => s 0
  | 0x0201 => r 20 | 0x0202 => r 20 | 0x0203 => r 24 | 0x0204 => r 24 | 0x0205 => r 17 | 0x0206 => r 5 | 0x0207 => s 16
  | 0x0301 => r 17 | 0x0302 => r 4 | 0x0303 => r 5 | 0x0304 => r 8 | 0x0305 => r 5 | 0x0306 => r 12
  | 0x0401 => c 28 | 0x0402 => c 0 | 0x0403 => r 3 | 0x0404 => r 11 | 0x0405 => r 2 | 0x0406 => r 6
  | 0x0501 => r 5 | 0x0502 => c 0 | 0x0503 => c 14 | 0x0504 => c 8 | 0x0505 => c 9 | 0x0506 => c 8 | 0x0507 => c 8
  | 0x0601 => r 11 | 0x0602 => r 14 | 0x0603 => c 39 | 0x0604 => c 0
  | 0x0701 => r 9 | 0x0702 => r 29 | 0x0703 => r 7 | 0x0704 => r 8 | 0x0705 => r 12 | 0x0706 => s 1
  | 0x0801 => r 6 | 0x0802 => r 143 | 0x0803 => r 13 | 0x0804 => r 10 | 0x0805 => r 5 | 0x0806 => r 2 | 0x0807 => r 18
  | 0x0808 => r 3
  | 0x0901 => r 20 | 0x0902 => r 2 | 0x0903 => r 8
  | 0x0A01 => r 3 | 0x0A02 => r 6 | 0x0A03 => r 6 | 0x0A04 => s 5 | 0x0A05 => r 14 | 0x0A06 => s 1 | 0x0A07 => r 7
  | 0x0B01 => r 4 | 0x0B02 => r 6 | 0x0B03 => r 6 | 0x0B04 => r 19 | 0x0B05 => r 9 | 0x0B06 => r 42
  | 0x0C01 => r 8 | 0x0C02 => r 3 | 0x0C03 => r 3 | 0x0C04 => r 6
  | 0x0D01 => r 12 | 0x0D02 => s 0 | 0x0D03 => s 9 | 0x0D04 => r 16
  | _ => none

/-- The command's opcode is serialising. -/
def Cmd.serial (c : Cmd) : Bool := match opInfo c.opcode with | some i => i.serial | none => false
/-- ACK_REQ (R47). -/
def Cmd.ackReq (c : Cmd) : Bool := bit c.flags 0 == 1
/-- EVENT_ON_DONE (R47). -/
def Cmd.eventOnDone (c : Cmd) : Bool := bit c.flags 1 == 1
/-- FENCE (R47). -/
def Cmd.fence (c : Cmd) : Bool := bit c.flags 2 == 1
/-- NO_DEGRADE (R47). -/
def Cmd.noDegrade (c : Cmd) : Bool := bit c.flags 3 == 1
/-- A little-endian parameter of `n` bytes at parameter byte `off`. -/
def Cmd.p (c : Cmd) (off n : Nat) : Nat := leAt c.params off n

/-! ### Regions that commands may name (R137, R138, R150) -/

/-- The T1 host region holds every byte of a range of T1 offsets: outside the system region, the cox pool and the
reserve (R137). -/
def State.t1HostOff (s : State) (o n : Nat) : Bool :=
  let hi := t1Size - s.tier.reserveGib * 2 ^ 30
  let sysEnd := 0x20000000
  let pb := s.tier.coxBase * 2 ^ 30
  let pl := s.tier.coxLimit * 2 ^ 30
  (decide (sysEnd ≤ o) && decide (o + n ≤ pb)) || (decide (pl ≤ o) && decide (o + n ≤ hi))

/-- A range lies wholly in the T1 host region. -/
def State.inT1Host (s : State) (a n : Nat) : Bool := isT1 a && s.t1HostOff (a - t1Base) n

/-- A range lies wholly in the NVS host region: NVS outside the pool (R138). -/
def State.inNvsHost (s : State) (a n : Nat) : Bool :=
  isNvs a &&
    (let o := a - nvsBaseAddr
     decide (o + n ≤ s.tier.nvsBase * 2 ^ 30) || (decide (s.tier.nvsLimit * 2 ^ 30 ≤ o) && decide (o + n ≤ nvsSize)))

/-- A range lies wholly in a data window or in the T1 host region: where a `dest` may lie (R68). -/
def State.destOk (s : State) (a n : Nat) : Bool := inWindow a n || s.inT1Host a n

/-- A range lies wholly in a data window or in the T1 or NVS host region. -/
def State.imageOk (s : State) (a n : Nat) : Bool := s.destOk a n || s.inNvsHost a n

/-- A range names withdrawn T1 or NVS (R145, R437). -/
def State.namesWithdrawn (s : State) (a n : Nat) : Bool := s.isWithdrawn a || (decide (0 < n) && s.isWithdrawn (a + n - 1))

/-! ### Replies (R58 to R62) -/

/-- The 32 bytes of a reply. -/
def replyBytes (seq op status detail result elapsed : Nat) : List Byte :=
  withCrc (toLe 2 seq ++ toLe 2 op ++ toLe 2 status ++ toLe 2 0 ++ toLe 4 detail ++ toLe 8 result ++ toLe 8 elapsed)

/-- A reply written to the next slot of a queue's ring. -/
def State.writeReply (s : State) (q : Nat) (r : List Byte) : State :=
  (s.putSram (replyAddr q (s.queue q).rqTail) r).modQueue q (fun u => { u with rqTail := (u.rqTail + 1) % 1024 })

/-- Commands of a queue in flight (R60). -/
def Queue.inFlight (q : Queue) : Nat := (q.cmds.filter Cmd.inFlight).length

/-- Reply slots reserved for the commands in flight: one each for the final reply, one more for each with ACK_REQ (R62). -/
def Queue.reserved (q : Queue) : Nat := q.inFlight + (q.cmds.filter (fun c => c.inFlight && bit c.flags 0 == 1)).length

/-- RESULT stands only in DONE, DONE_DEGRADED, DONE_APPROX and INVALID replies (R58). -/
def resultOf (status result : Nat) : Nat := if status ≤ 4 then result else 0

/-- The first command of a queue that owes its ACCEPTED reply, every earlier one being dispatched (R59, R60). -/
def Queue.ackNext (q : Queue) : Option Nat :=
  match q.cmds.findIdx? (fun c => c.ackDue || c.phase == .waiting) with
  | some k => match q.cmds[k]? with | some c => if c.ackDue then some k else none | none => none
  | none => none

/-- The ACCEPTED replies that are due, in dispatch order, as far as the ring has room, by fuel (R59, R62). -/
def State.releaseAcks (q : Nat) : Nat → State → State
  | 0, s => s
  | f + 1, s =>
    match (s.queue q).ackNext.bind (fun k => ((s.queue q).cmds[k]?).map (fun c => (k, c))) with
    | none => s
    | some (k, c) =>
      if (s.queue q).rqFree = 0 then s
      else
        State.releaseAcks q f ((s.writeReply q (replyBytes c.seq c.opcode stAccepted 0 0 s.elapsed)).modQueue q
          (fun u => { u with cmds := lmod u.cmds k (fun c => { c with ackDue := false }) }))

/-- The final reply of the oldest command, when it is complete, its ACCEPTED reply is written and the ring has room; then
of the next, in submission order, by fuel (R59, R60). -/
def State.releaseReplies (q : Nat) : Nat → State → State
  | 0, s => s
  | f + 1, s =>
    match (s.queue q).cmds with
    | [] => s
    | c :: rest =>
      match c.phase with
      | .done st de re el =>
        if (s.queue q).rqFree = 0 || c.ackDue then s
        else
          let s1 := s.writeReply q (replyBytes c.seq c.opcode st de (resultOf st re) el)
          let s2 := s1.modQueue q (fun u => { u with cmds := rest })
          let s3 := if c.eventOnDone then s2.raise 0x0106 90 q (c.seq + st * 2 ^ 16 + c.opcode * 2 ^ 32) else s2
          State.releaseReplies q f s3
      | _ => s

/-! ### Changing a command -/

/-- Command `k` of a queue's list. -/
def State.cmd (s : State) (q k : Nat) : Option Cmd := (s.queue q).cmds[k]?

/-- The state with command `k` of a queue changed. -/
def State.modCmd (s : State) (q k : Nat) (f : Cmd → Cmd) : State :=
  s.modQueue q (fun u => { u with cmds := lmod u.cmds k f })

/-- Where a command number stands: its queue and place. -/
def State.findUid (s : State) (uid : Nat) : Option (Nat × Nat) :=
  (List.range 128).findSome? (fun q => ((s.queue q).cmds.findIdx? (fun c => c.uid == uid)).map (fun k => (q, k)))

/-- Command `k` completes: its status, DETAIL and RESULT, and the completion time (R60). -/
def State.finish (s : State) (q k status detail result : Nat) : State :=
  s.modCmd q k (fun c => { c with phase := .done status (detail % 2 ^ 32) (result % 2 ^ 64) s.elapsed })

/-- The command with a number completes. A deadline that passed during its execution turns the reply into
DEADLINE_MISSED when NO_DEGRADE is set or the opcode has no cheaper path (R63): `cheap` says that it has one. -/
def State.finishUid (s : State) (uid : Nat) (cheap : Bool) (status detail result : Nat) : State :=
  match s.findUid uid with
  | none => s
  | some (q, k) =>
    match s.cmd q k with
    | none => s
    | some c =>
      let late := c.late || (match c.deadline with | some d => decide (d ≤ s.time.half) | none => false)
      let missed := late && (c.noDegrade || !cheap) && decide (status < 5)
      if missed then s.finish q k stDeadline 0 0 else s.finish q k status detail result

/-- How executing an opcode leaves its command: completed with a reply, or going on. -/
inductive Res where
  | reply (status detail result : Nat)
  | going
  deriving DecidableEq, Repr

/-- DONE with a RESULT. -/
def Res.done (result : Nat) : Res := .reply stDone 0 result
/-- A failure with DETAIL 0. -/
def Res.fail (status : Nat) : Res := .reply status 0 0
/-- BAD_PARAM at a parameter's offset (R49). -/
def Res.bad (off : Nat) : Res := .reply stBadParam (0x100 + off) 0

/-! ### Contexts and clients as the checks see them -/

/-- A context that is not free. -/
def State.ctx (s : State) (id : Nat) : Option Ctx := alookup s.ctxs id

/-- The state with a context changed. -/
def State.modCtx (s : State) (id : Nat) (f : Ctx → Ctx) : State :=
  { s with ctxs := s.ctxs.map (fun p => if p.1 = id then (p.1, f p.2) else p) }

/-- A registered client. -/
def State.client (s : State) (id : Nat) : Option Client := alookup s.sched.clients id

/-- The state with a client changed. -/
def State.modClient (s : State) (id : Nat) (f : Client → Client) : State :=
  { s with sched := { s.sched with clients := s.sched.clients.map (fun p => if p.1 = id then (p.1, f p.2) else p) } }

/-! ### Reading a command (R53, R54) -/

/-- The packet offset of the first header byte that check 7 of R54 refuses, if any (R46, R47, R49). -/
def headerFault (info : OpInfo) (flags client ctxWord : Nat) : Option Nat :=
  let valid := bit ctxWord 31
  let bad := bits ctxWord 30 20 * 2 ^ 20 + (if valid = 0 then bits ctxWord 19 0 else 0)
  if bits flags 6 4 ≠ 0 then some 2
  else if client > 255 then some 7
  else if bits bad 7 0 ≠ 0 then some 8
  else if bits bad 15 8 ≠ 0 then some 9
  else if bits bad 23 16 ≠ 0 then some 10
  else if bits bad 31 24 ≠ 0 ∨ (valid == 1) ≠ info.ctx then some 11
  else none

/-- The first parameter byte past those an opcode uses that is not 0 (R49). -/
def unusedParam (used : Nat) (params : List Byte) : Option Nat :=
  ((params.drop used).findIdx? (fun b => b != 0)).map (fun i => used + i)

/-- The INDEX position of the first continuation packet that fails (R51). -/
def State.badContinuation (s : State) (q head op seq n : Nat) : Option Nat :=
  ((List.range (n - 1)).map (· + 1)).find? (fun i =>
    let p := s.packet q (head + i)
    let b := p.bytes
    !(p.crcOk && leAt b 0 2 == op && byteAt b 2 == 0x80 && byteAt b 3 == i && leAt b 4 2 == seq))

/-- The parameter bytes of a command of `n` slots (R50). -/
def State.paramBytes (s : State) (q head n : Nat) : List Byte :=
  slice (s.headPacket q).bytes 16 44 ++
    ((List.range (n - 1)).map (fun i => slice (s.packet q (head + 1 + i)).bytes 6 54)).flatten

/-- Slots taken from a queue: SQ_HEAD advanced past them, the next head packet still to be read. -/
def State.consume (s : State) (q n : Nat) : State :=
  s.modQueue q (fun u => { u with sqHead := (u.sqHead + n) % 1024, cover := u.cover.drop n, head := none })

/-- EXPECT_SEQ set. -/
def State.setExpect (s : State) (q v : Nat) : State := s.modQueue q (fun u => { u with expectSeq := v % 65536 })

/-- A command entered in the queue's list with the next command number. -/
def State.enter (s : State) (q : Nat) (c : Cmd) : State :=
  let s1 := { s with host := { s.host with nextUid := s.host.nextUid + 1 } }
  s1.modQueue q (fun u => { u with cmds := u.cmds ++ [{ c with uid := s.host.nextUid }] })

/-- A rejected command: its reply takes its place in submission order (R54, R59). -/
def State.reject (s : State) (q : Nat) (c : Cmd) (status detail : Nat) : State :=
  s.enter q { c with phase := .done status detail 0 s.elapsed }

/-- The command the head packet of a queue spells (R46, R47, R50). -/
def State.headCmd (s : State) (q : Nat) : Cmd :=
  let h := (s.queue q).sqHead
  let b := (s.headPacket q).bytes
  let ctxWord := leAt b 8 4
  let dl := leAt b 12 4
  let t := ((s.queue q).cover.getD (s.headSlots q - 1) s.time.half)
  { uid := 0, opcode := leAt b 0 2, flags := byteAt b 2, seq := leAt b 4 2, client := leAt b 6 2
    ctx := if bit ctxWord 31 = 1 then some (bits ctxWord 19 0) else none
    deadline := if dl = 0 then none else some (t + us dl), decoded := t
    params := s.paramBytes q h (s.headSlots q), phase := .waiting, inFlight := false, late := false, sag := false, ackDue := false }

/-- Reading the head packet of a queue and applying the checks of R54 in order. `check` is check 10, the checks of an
opcode's own parameters that depend on their values alone, as (status, DETAIL). -/
def State.readCommand (check : State → Cmd → Option (Nat × Nat)) (s : State) (q : Nat) : State :=
  let h := (s.queue q).sqHead
  let ex := (s.queue q).expectSeq
  let c := s.headCmd q
  let op := c.opcode
  let flags := c.flags
  let seq := c.seq
  let n := byteAt (s.headPacket q).bytes 3
  let ctxWord := leAt (s.headPacket q).bytes 8 4
  let valid := decide (bit ctxWord 31 = 1)
  if (s.headPacket q).crcOk = false then
    ((s.consume q 1).setExpect q (ex + 1)).reject q { c with opcode := 0xFFFF, seq := ex, flags := 0, ctx := none } stBadCrc h
  else if bit flags 7 = 1 then (s.consume q 1).bump (discardCtr q) 1
  else if op ≠ opQueueSync ∧ seq ≠ ex then
    (s.consume q 1).reject q c (if (seq + 65536 - ex) % 65536 < 32768 then stBadSeq else stStaleSeq) ex
  else
    let s := if op = opQueueSync then s.setExpect q seq else s
    let ex' := seq + 1
    if n = 0 ∨ 16 < n then ((s.consume q 1).setExpect q ex').reject q c stBadParam 3
    else
      let s1 := (s.consume q n).setExpect q ex'
      match s.badContinuation q h op seq n with
      | some i => s1.reject q c stBadCrc i
      | none =>
        match opInfo op with
        | none => s1.reject q c stBadOpcode 0
        | some info =>
          match headerFault info flags c.client ctxWord with
          | some o => s1.reject q c stBadParam o
          | none =>
            match unusedParam info.params c.params with
            | some o => s1.reject q c stBadParam (0x100 + o)
            | none =>
              if op ≠ 0x0403 ∧ (s.client c.client).isNone then s1.reject q c stNoClient 0
              else if valid ∧ (s.ctx (bits ctxWord 19 0)).isNone then s1.reject q c stCtxClosed 0
              else
                match check s c with
                | some (st, de) => s1.reject q c st de
                | none =>
                  if op = opQueueSync then s1.enter q { c with params := toLe 4 ex } else s1.enter q c

/-- The next queue in round-robin that has a complete unread command (R53). -/
def State.nextQueue (s : State) : Option Nat :=
  ((List.range 128).map (fun i => (s.host.turn + i) % 128)).find? (fun q => s.readable q)

/-- The TZ8 reads no further command: before acceptance, in Easy or Moored, and from a state-entry request on (R452). -/
def State.readingStopped (s : State) : Bool :=
  decide (s.start.stage ≠ .accepting) || decide (s.pwr.state ≥ 2) || s.pwr.entry.isSome

/-! ### Dispatch (R61, R62, R498) -/

/-- The earlier commands of a queue's list hold command `c` back under R61. -/
def heldBack (before : List Cmd) (inFlight : Nat) (c : Cmd) : Bool :=
  decide (64 ≤ inFlight) || (c.fence && !before.isEmpty) || (c.serial && !before.isEmpty) || before.any Cmd.serial ||
    (c.ctx.isSome && before.any (fun b => b.ctx == c.ctx))

/-- Reply-ring room for one more command: the free slots exceed the reserved ones by at least 2 (R62). -/
def Queue.rqRoom (q : Queue) : Bool := decide (q.reserved + 2 ≤ q.rqFree)

/-- The first command of a queue that waits for dispatch, and those before it. -/
def Queue.firstWaiting (q : Queue) : Option (List Cmd × Cmd) :=
  match q.cmds.findIdx? (fun c => c.phase == .waiting) with
  | none => none
  | some i => (q.cmds[i]?).map (fun c => (q.cmds.take i, c))

/-- CMDQ.STATE.RQ_FULL: dispatch waits for reply-ring room (R62). -/
def Queue.rqFull (q : Queue) : Bool :=
  match q.firstWaiting with
  | none => false
  | some (b, c) => !heldBack b q.inFlight c && !q.rqRoom

end Sys2Proof.Machine
end

