-- ==== Sys2Proof/Machine/Run.lean ====
section
/-! DEFINITION. Executing a command: what holds and refuses it, deadlines, dispatch and completion (R11, R60 to R63, R498). -/

namespace Sys2Proof.Machine

/-! ### What a command names and needs -/

/-- The device ranges a command's parameters name, as (address, length); the length is 1 where the command's own meaning judges the
whole range. -/
def Cmd.ranges (c : Cmd) : List (Nat × Nat) :=
  let one (o : Nat) : List (Nat × Nat) := [(c.p o 8, 1)]
  match c.opcode with
  | 0x0104 => [(c.p 2 8, if c.p 0 2 = 0x19 then 1120 else 4608)]
  | 0x0201 => [(c.p 0 8, c.p 16 4), (c.p 8 8, c.p 16 4)]
  | 0x0202 => [(c.p 0 8, c.p 16 4), (c.p 8 8, c.p 16 4)]
  | 0x0203 => [(c.p 0 8, c.p 16 8), (c.p 8 8, c.p 16 8)]
  | 0x0204 => [(c.p 0 8, c.p 8 8)]
  | 0x0205 => [(c.p 0 8, c.p 8 8)]
  | 0x0207 => if c.p 8 8 = 0 then [] else [(c.p 0 8, c.p 8 8)]
  | 0x0301 => [(c.p 0 8, c.p 8 8)]
  | 0x0306 => [(c.p 4 8, 64)]
  | 0x0401 => [(c.p 8 8, 1), (c.p 16 8, 1)]
  | 0x0404 => one 2
  | 0x0503 => one 0
  | 0x0507 => one 0
  | 0x0601 => [(c.p 0 8, 64 + 32 * c.p 8 2)]
  | 0x0602 => [(c.p 0 8, (c.p 8 2 * c.p 8 2 * c.p 8 2 + 7) / 8)]
  | 0x0603 => one 30
  | 0x0705 => [(c.p 0 8, 64 + 64 * c.p 8 4)]
  | 0x0807 => [(c.p 10 8, 96)]
  | 0x0901 => [(c.p 4 8, 1), (c.p 12 8, 1)]
  | 0x0903 => [(c.p 0 8, 128)]
  | 0x0B05 => [(c.p 1 8, 128)]
  | 0x0C01 => [(c.p 0 8, 7184)]
  | 0x0D01 => [(c.p 0 8, c.p 8 4)]
  | 0x0D03 => [(c.p 1 8, 97)]
  | 0x0D04 => [(c.p 0 8, c.p 8 8)]
  | _ => []

/-- A range lies, even in part, in T1 (1) or NVS (2); ranges that cross regions are refused elsewhere. -/
def Cmd.namesT1 (c : Cmd) : Bool := c.ranges.any (fun r => isT1 r.1)
/-- A command names an NVS range. -/
def Cmd.namesNvs (c : Cmd) : Bool := c.ranges.any (fun r => isNvs r.1)

/-- A control address names a register of a compute-die block: TILE, INTEG, SCRUB, SWEEP, IMG, PLAN, FUSE or TIER
(R165, R188, R187, R228, R256, R326, R352, R130). -/
def computeReg (a : Nat) : Bool :=
  decide (ctrlBase + 0x01000000 ≤ a ∧ a < ctrlBase + 0x06000000) || decide (ctrlBase + 0x07000000 ≤ a ∧ a < ctrlBase + 0x09000000)

/-- A command needs a compute-die unit, or reads or writes T1 or NVS, or names a range there (R11). `job.cancel` and
`fault.probe` are judged by their own meanings. -/
def Cmd.needsCompute (c : Cmd) : Bool :=
  let fam := c.opcode / 256
  if c.namesT1 || c.namesNvs then true
  else match fam with
    | 1 => c.opcode = 0x0104 ∧ c.p 0 2 = 7
    | 2 => true
    | 3 => c.opcode ≠ 0x0306
    | 4 => c.opcode = 0x0401
    | 5 => true
    | 6 => true
    | 7 => true
    | 9 => c.opcode = 0x0901
    | _ => false

/-- The elapsed count has passed a command's deadline, or DEADLINE_PASSED found so (R63). -/
def State.isLate (s : State) (c : Cmd) : Bool :=
  c.late || (match c.deadline with | some d => decide (d ≤ s.time.half) | none => false)

/-- The command with a number is late. -/
def State.lateUid (s : State) (uid : Nat) : Bool :=
  match (s.findUid uid).bind (fun x => s.cmd x.1 x.2) with | some c => s.isLate c | none => false

/-- The supply is below the sag warning level, or that is not yet confirmed over (R491). -/
def State.sagging (s : State) : Bool := s.cap.sag != 0

/-! ### Held from dispatch (R498) -/

/-- The model a `job.submit` names is safety-relevant (R402). -/
def State.safetyModel (s : State) (h : Nat) : Bool :=
  match alookup s.boat.models ((alookup s.boat.aliases h).getD h) with
  | some m => m.safe.isSome
  | none => false

/-- Commands that wait for the NVS interfaces and the start probes (R498). -/
def Cmd.needsNvs (c : Cmd) : Bool :=
  c.namesNvs || [0x0207, 0x0301, 0x0304, 0x0305, 0x0505, 0x0506, 0x0C01, 0x0C02, 0x0C03].contains c.opcode

/-- Commands that read or write a register of a compute-die block (R498). -/
def Cmd.readsComputeReg (c : Cmd) : Bool :=
  match c.opcode with
  | 0x0102 => computeReg (c.p 0 8)
  | 0x0103 => computeReg (c.p 0 8)
  | 0x0105 => computeReg (ctrlBase + 8 * c.p 0 4)
  | _ => false

/-- The milestones of R498 that release a command have been reached. -/
def State.released (s : State) (c : Cmd) : Bool :=
  let fam := c.opcode / 256
  (if c.opcode = 0x0401 ∧ s.safetyModel (c.p 0 4) then s.reached 3 else true) &&
  (if c.needsNvs then s.reached 2 else true) &&
  (if c.needsCompute || c.readsComputeReg then s.reached 1 else true) &&
  (if fam = 8 ∨ fam = 9 ∨ fam = 0xB ∨ c.opcode = 0x0D03 ∨ c.opcode = 0x0D04 then s.reached 0 else true)

/-! ### Refusals that come before a command's own (R11, R145, R208, R437, R506) -/

/-- A command whose context was torn down still answers for these (R208, R227, R281). -/
def tornAllowed (op : Nat) : Bool := op == 0x0502 || op == 0x0507 || op == 0x0402

/-- The ROM firmware refuses every family but 0x01 and 0x0D (R504). -/
def State.romRefuses (s : State) (c : Cmd) : Bool := s.cox.rom && c.opcode / 256 != 1 && c.opcode / 256 != 0xD

/-- Output ranges that hold undefined contents after DEADLINE_MISSED during execution (R63). -/
def State.outputs (s : State) (c : Cmd) : List (Nat × Nat) :=
  match c.opcode with
  | 0x0104 => [(c.p 2 8, if c.p 0 2 = 0x19 then 1120 else 4608)]
  | 0x0201 => [(c.p 8 8, c.p 16 4)]
  | 0x0202 => [(c.p 8 8, c.p 16 4)]
  | 0x0203 => [(c.p 8 8, c.p 16 8)]
  | 0x0204 => [(c.p 0 8, c.p 8 8)]
  | 0x0306 => [(c.p 4 8, 64)]
  | 0x0404 => [(c.p 2 8, 208 * (if c.p 0 2 = 0xFFFF then s.sched.clients.length else 1))]
  | 0x0507 =>
    let lists := match c.ctx.bind s.ctx with
      | some x => (match x.seq with | some q => q.lists.length | none => 0)
      | none => 0
    [(c.p 0 8, 64 + 16 * lists)]
  | 0x0903 => [(c.p 0 8, 128)]
  | 0x0C01 => [(c.p 0 8, 7184)]
  | _ => []

/-- The status with which a command is refused before its own chapter's rules apply, if it is. A context closed or torn down
is answered before the die bridge and before withdrawn memory. DESIGN CHOICE (log entry 89): no rule orders them. -/
def State.gate (s : State) (c : Cmd) : Option Nat :=
  let ctxBad : Option Nat := match c.ctx with
    | none => none
    | some id => match s.ctx id with
      | none => some stCtxClosed
      | some x => if x.torn && !tornAllowed c.opcode then some stTornDown else none
  match ctxBad with
  | some st => some st
  | none =>
    if s.romRefuses c then some stWrongState
    else if c.needsCompute && s.fault.bridge.lost then some stNoResource
    else if c.needsCompute && s.fault.bridge.down then some stQuarantined
    else if (c.ranges ++ s.outputs c).any (fun r => s.namesWithdrawn r.1 r.2) then some stNoResource
    else none

/-! ### Missed deadlines -/

/-- Free bytes stored over a range: its contents are undefined. -/
def State.scramble (s : State) (a n : Nat) : State :=
  let bytes := (List.range n).map (fun i => BitVec.ofNat 8 (Config.freeValue (s.free + i)))
  { s.storeClean a bytes with free := s.free + n }

/-- The output ranges of a command made undefined. -/
def State.scrambleOut (s : State) (c : Cmd) : State := (s.outputs c).foldl (fun s r => s.scramble r.1 r.2) s

/-! ### Running -/

/-- What an opcode's own parameter checks answer: the status and DETAIL of a refusal, or none (check 10 of R54). -/
abbrev Check10 := Option (Nat × Nat)

/-- BAD_PARAM at a parameter's offset. -/
def badAt (off : Nat) : Check10 := some (stBadParam, 0x100 + off)

/-- The first refusal of a list of conditions, each with the parameter offset it blames. -/
def firstBad : List (Bool × Nat) → Check10
  | [] => none
  | (b, o) :: t => if b then badAt o else firstBad t

/-- Run command `k` of a queue, dispatched and of the given opcode, with its checks and its body. The body answers the
state and how the command is left. A deadline that passed turns a completion into DEADLINE_MISSED, nothing else
changed, unless the body has a cheaper path of its own, which `cheap` says (R63). A late command that its own check, gate or body
refuses replies that refusal. DESIGN CHOICE (log entry 18): R63 does not say which of the two wins. -/
def State.runCmd (op : Nat) (cheap : Bool) (check : State → Cmd → Check10) (body : State → Cmd → State × Res) (q k : Nat)
    (s : State) : State :=
  match s.cmd q k with
  | none => s
  | some c =>
    if c.phase = .ready ∧ c.opcode = op then
      match (if s.romRefuses c then none else check s c) with
      | some (st, de) => s.finish q k st de 0
      | none =>
        match s.gate c with
        | some st => s.finish q k st 0 0
        | none =>
          match body s c with
          | (s', .reply st de re) =>
            if s.isLate c && !cheap && decide (st < 5) then (s.scrambleOut c).finish q k stDeadline 0 0
            else s'.finishUid c.uid true st de re
          | (s', .going) => s'.modCmd q k (fun c => { c with phase := .running })
    else s

/-- The meaning of an opcode's row. -/
def State.opcodeRow (op : Nat) (cheap : Bool) (check : State → Cmd → Check10) (body : State → Cmd → State × Res)
    (q k : Nat) (s : State) : Host.Outcome State Fault Refusal := .next (s.runCmd op cheap check body q k)

/-! ### Dispatch, completion and deadlines -/

/-- The first waiting command of a queue may be dispatched (R61, R62, R498). -/
def State.dispatchable (s : State) (q : Nat) : Option Nat :=
  match (s.queue q).firstWaiting with
  | none => none
  | some (b, c) =>
    if !heldBack b (s.queue q).inFlight c && (s.queue q).rqRoom && s.released c then some b.length else none

/-- COMMAND_DISPATCH (R59 to R62): the command is in flight; with ACK_REQ its ACCEPTED reply is written. A deadline that
has already passed completes it unexecuted, dispatched all the same (R63). -/
def execCommandDispatch (q : Nat) (s : State) : Host.Outcome State Fault Refusal :=
  .next (match s.dispatchable q with
    | none => s
    | some k =>
      match s.cmd q k with
      | none => s
      | some c =>
        let s1 := s.modCmd q k (fun c => { c with phase := .ready, inFlight := true, sag := s.sagging, ackDue := c.ackReq })
        (if s.isLate c then s1.finish q k stDeadline 0 0 else s1).releaseAcks q 1024)

/-- COMMAND_COMPLETE (R59, R60): every ACCEPTED reply still due and every final reply that is next in submission order is
written, as far as the ring has room. -/
def execCommandComplete (q : Nat) (s : State) : Host.Outcome State Fault Refusal :=
  .next ((s.releaseAcks q 1024).releaseReplies q 1024)

end Sys2Proof.Machine
end

