-- ==== Sys2Proof/Machine/Kv.lean ====
section
/-! DEFINITION. Pools of frames, context descriptors, page tables and pages (R208 to R225). -/

namespace Sys2Proof.Machine

/-! ### Reading without effect -/

/-- The byte a store delivers: of T0 and T1 as the line's decoder finds it (R168 to R171), of NVS by the page's mask and its bad
bytes (R183), of host-window SRAM by the word's poison bit and errors (R39). A poisoned word reads as 0 in all its bytes. -/
def State.storedByte (s : State) (a : Nat) : PByte :=
  let w := a / 8 * 8
  let l := a / 64 * 64
  let k := s.mem.wordMarks w
  if isSram a then if k.any (fun x => x == 1 || x == 2 || x == 4) then ⟨0, true⟩ else ⟨s.mem.byte a, false⟩
  else if (isT0 a || isT1 a) && !(s.flawOf l).isEmpty then (s.lineRead l).data.getD (a % 64) ⟨0, true⟩
  else if k.contains 0 || (isNvs a && !s.store.nvsBad.isEmpty && (s.badWords ((a - nvsBaseAddr) / 4096)).contains w) then ⟨0, true⟩
  else ⟨s.mem.byte a, false⟩

/-- The byte delivered at a device address with its poison; withdrawn memory delivers poison (R144, R437). -/
def State.readPByte (s : State) (a : Nat) : PByte := if s.isWithdrawn (a / 8 * 8) then ⟨0, true⟩ else s.storedByte a

/-- `n` bytes at a device address with their poison, read with no effect on the state. -/
def State.peek (s : State) (a n : Nat) : List PByte := (List.range n).map (fun i => s.readPByte (a + i))

/-- A word in a range is poisoned. -/
def State.anyPoison (s : State) (a n : Nat) : Bool := (s.peek a n).any PByte.p

/-- The values of bytes. -/
def vals (l : List PByte) : List Byte := l.map PByte.v

/-- T1 device address of a pool frame (R211). -/
def frameAddr (f : Nat) : Nat := t1Base + f * 16384

/-! ### The pool (R137, R211) -/

/-- The first pool frame and the frame after the last, withdrawn T1 left out. -/
def State.poolLo (s : State) : Nat := s.tier.coxBase * 65536
/-- The frame after the pool's last. -/
def State.poolHi (s : State) : Nat := min (s.tier.coxLimit * 65536) ((256 - s.fault.t1Withdrawn) * 65536)

/-- An extent added to a list sorted by first. -/
def insertExt : List Ext → Ext → List Ext
  | [], e => [e]
  | h :: t, e => if e.first < h.first then e :: h :: t else h :: insertExt t e

/-- The gaps between sorted extents from a position up to a bound. -/
def gaps : List Ext → Nat → Nat → List Ext
  | [], lo, hi => if lo < hi then [⟨lo, hi - lo⟩] else []
  | e :: t, lo, hi =>
    if lo < e.first ∧ lo < hi then ⟨lo, min e.first hi - lo⟩ :: gaps t (max lo (e.first + e.count)) hi
    else gaps t (max lo (e.first + e.count)) hi

/-- The k-th place, modulo their number, at which `n` units fit in gaps; each place is a multiple of 1 unit. -/
def pickPlace (g : List Ext) (n k : Nat) : Option Nat :=
  let fits := g.filter (fun e => decide (n ≤ e.count))
  let total := fits.foldl (fun a e => a + (e.count - n + 1)) 0
  if total = 0 then none
  else
    let r := fits.foldl (fun (acc : Nat × Option Nat) e =>
      match acc.2 with
      | some _ => acc
      | none => let c := e.count - n + 1; if acc.1 < c then (0, some (e.first + acc.1)) else (acc.1 - c, none)) (k % total, none)
    r.2

/-- `n` consecutive free pool frames entered as taken; which of the places that fit is left open by the spec. -/
def State.enterFrames (s : State) (n : Nat) : Option (Nat × State) :=
  let (k, s1) := s.draw
  match pickPlace (gaps s.boat.pool s.poolLo s.poolHi) n k with
  | none => none
  | some f => some (f, { s1 with boat := { s1.boat with pool := insertExt s1.boat.pool ⟨f, n⟩ } })

/-- The extent that begins at a frame given back. -/
def State.freeFrames (s : State) (f : Nat) : State :=
  { s with boat := { s.boat with pool := s.boat.pool.filter (fun e => e.first != f) } }

/-- Free pool frames. -/
def State.freeFrameCount (s : State) : Nat := (gaps s.boat.pool s.poolLo s.poolHi).foldl (fun a e => a + e.count) 0

/-- A free spill slot taken; which one is left open by the spec (R214). -/
def State.allocSlot (s : State) : Option (Nat × State) :=
  let (k, s1) := s.draw
  match pickPlace (gaps (s.boat.slots.map (fun x => ⟨x, 1⟩)) 0 s.tier.spillPages) 1 k with
  | none => none
  | some x => some (x, { s1 with boat := { s1.boat with slots := insertSorted s1.boat.slots x } })

/-- A spill slot given back. -/
def State.freeSlot (s : State) (x : Nat) : State :=
  { s with boat := { s.boat with slots := s.boat.slots.filter (· != x) } }

/-- NVS device address of a spill slot (R213). -/
def State.slotNvs (s : State) (x : Nat) : Nat := nvsBaseAddr + (s.tier.spillBase + x) * 16384

/-! ### Descriptors, directories and page tables as bytes (R208, R212, R213, R282, R283, R325, R343) -/

/-- d of a HEAD_DIM code. -/
def headD (c : Nat) : Nat := 64 * (c + 1)
/-- Tokens per page. -/
def tppOf (hd : Nat) : Nat := 8192 / headD hd

/-- STATE of a page-table entry. -/
def PageState.code : PageState → Nat
  | .free => 0 | .filling => 1 | .resident => 2 | .clean => 3 | .spilling => 4 | .spilled => 5 | .fetching => 6

/-- The page holds a T1 frame. -/
def PageState.hasFrame : PageState → Bool
  | .filling => true | .resident => true | .clean => true | .spilling => true | .fetching => true | _ => false
/-- The page can be read from its frame. -/
def PageState.readable : PageState → Bool
  | .filling => true | .resident => true | .clean => true | .spilling => true | _ => false
/-- The page holds a spill slot. -/
def PageState.hasSlot : PageState → Bool
  | .clean => true | .spilling => true | .spilled => true | .fetching => true | _ => false

/-- A page-table entry. -/
def Page.bytes (p : Page) : List Byte :=
  toLe 4 p.frame ++ toLe 4 p.slot ++ toLe 1 p.state.code ++ toLe 1 (b2n p.relPending + 2 * b2n p.sumValid) ++
    toLe 2 p.holds ++ toLe 1 p.count ++ toLe 1 p.kSumScale ++ toLe 1 p.vSumScale ++ toLe 1 0

/-- A directory entry. -/
def KvList.bytes (l : KvList) : List Byte :=
  toLe 8 (match l.blocks with | [] => 0 | b :: _ => frameAddr b) ++ toLe 4 l.len ++ toLe 4 l.first ++ toLe 4 l.vis ++
    toLe 4 l.visFirst ++ toLe 1 l.kScale ++ toLe 1 l.vScale ++ toLe 1 (b2n l.appended) ++ toLe 5 0

/-- Page-table block `b` of a list: NEXT, SUM_ADDR and its entries. -/
def KvList.blockBytes (l : KvList) (b : Nat) : List Byte :=
  let f := l.blocks.getD b 0
  toLe 8 (match l.blocks[b + 1]? with | some n => frameAddr n | none => 0) ++ toLe 8 (frameAddr (f + 1)) ++
    ((List.range 255).map (fun i => (l.pages.getD (255 * b + i) Page.reset).bytes)).flatten

/-- T1 address of the summary of page `i` of a list. -/
def KvList.sumAddr (l : KvList) (i : Nat) : Nat := frameAddr (l.blocks.getD (i / 255) 0 + 1) + 128 * (i % 255)

/-- Pages of a sequence that satisfy a test, counted. -/
def SeqCtx.countPages (q : SeqCtx) (f : PageState → Bool) : Nat :=
  q.lists.foldl (fun a l => a + (l.pages.filter (fun p => f p.state)).length) 0

/-- Bytes 64 to 127 of a descriptor. -/
def Ctx.tail (c : Ctx) : List Byte :=
  if c.kind = 0 then
    match c.seq with
    | none => toLe 64 0
    | some q =>
      toLe 8 (frameAddr q.dir) ++ toLe 2 q.layers ++ toLe 1 q.heads ++ toLe 1 q.headDim ++ toLe 1 q.kvFmt ++
        toLe 1 (tppOf q.headDim) ++ toLe 2 0 ++ toLe 4 (q.countPages PageState.hasFrame) ++
        toLe 4 (q.countPages PageState.hasSlot) ++ toLe 4 q.emptyRows ++ toLe 4 q.approx ++ toLe 4 q.clamped ++ toLe 28 0
  else if c.kind = 1 then
    match c.track with
    | none => toLe 64 0
    | some t =>
      let v (x : V3) := toLe 4 (wrap 32 x.x) ++ toLe 4 (wrap 32 x.y) ++ toLe 4 (wrap 32 x.z)
      toLe 1 (if t.confirmed then 2 else 1) ++ toLe 1 t.cls ++ toLe 2 t.hits ++ toLe 1 t.misses ++ toLe 1 t.instants ++
        toLe 2 0 ++ v t.pos ++ v t.vel ++ v t.size ++ toLe 4 t.streams ++ toLe 8 (wrap 64 t.tUpd) ++ toLe 8 (wrap 64 t.tHit)
  else if c.kind = 2 then
    toLe 1 c.job.lastPhase ++ toLe 1 c.job.placement ++ toLe 2 0 ++ toLe 4 c.job.frames ++
      toLe 4 (match c.job.spilled with | some x => x + 2 ^ 31 | none => 0) ++ toLe 4 c.job.stepsEnded ++
      toLe 8 c.job.lastEnd ++ toLe 40 0
  else if c.kind = 3 then
    match c.spill with
    | none => toLe 64 0
    | some x =>
      toLe 4 x.owner ++ toLe 1 x.crew ++ toLe 1 x.phase ++ toLe 2 x.step ++
        toLe 16 (x.saveMap.foldl (fun a b => a + 2 ^ b) 0) ++ toLe 8 x.spilledAt ++ toLe 4 x.pauseNs ++ toLe 28 0
  else
    toLe 2 c.plan.lattice ++ toLe 1 c.plan.unit ++ toLe 1 c.plan.state ++ toLe 4 c.plan.queries ++
      toLe 2 c.plan.lastStatus ++ toLe 2 0 ++ toLe 4 c.plan.lastVersion ++ toLe 4 c.plan.lastExpansions ++ toLe 44 0

/-- The 128 bytes of a descriptor (R208). -/
def Ctx.bytes (id : Nat) (c : Ctx) : List Byte :=
  toLe 4 (id + c.kind * 2 ^ 20 + (if c.torn then 2 else 1) * 2 ^ 24) ++ toLe 4 c.model ++ toLe 8 c.seed ++ toLe 2 c.client ++
    toLe 2 (b2n c.step + 2 * b2n c.noSpill) ++ toLe 44 0 ++ c.tail

/-- The descriptor of context `id` in T1 written again, with its directory and page tables. -/
def State.syncCtx (s : State) (id : Nat) : State :=
  match s.ctx id with
  | none => s.storeClean (t1Base + id * 128) (toLe 4 id ++ toLe 124 0)
  | some c =>
    let s1 := s.storeClean (t1Base + id * 128) (c.bytes id)
    match c.seq with
    | none => s1
    | some q =>
      let s2 := s1.storeClean (frameAddr q.dir) ((q.lists.map KvList.bytes).flatten)
      q.lists.foldl (fun s l =>
        (List.range l.blocks.length).foldl (fun s b => s.storeClean (frameAddr (l.blocks.getD b 0)) (l.blockBytes b)) s) s2

/-- A context changed, and its tables in T1 with it. -/
def State.updCtx (s : State) (id : Nat) (f : Ctx → Ctx) : State := (s.modCtx id f).syncCtx id

/-- A context entered. -/
def State.putCtx (s : State) (id : Nat) (c : Ctx) : State := { s with ctxs := aset s.ctxs id c }.syncCtx id

/-- A context freed. -/
def State.dropCtx (s : State) (id : Nat) : State := { s with ctxs := aerase s.ctxs id }.syncCtx id

/-- The lowest free context ID (R209). -/
def State.freeCtxId (s : State) : Option Nat :=
  let r := s.ctxs.foldl (fun n p => if p.1 = n then n + 1 else n) 0
  if r < 2 ^ 20 then some r else none

/-- A word of a context's descriptor, directory or page tables is poisoned (R181, R213). -/
def State.tablesBad (s : State) (id : Nat) : Bool :=
  match s.ctx id with
  | none => false
  | some c =>
    s.anyPoison (t1Base + id * 128) 128 ||
    match c.seq with
    | none => false
    | some q => !c.torn && (s.anyPoison (frameAddr q.dir) (32 * q.lists.length) ||
        q.lists.any (fun l => l.blocks.any (fun b => s.anyPoison (frameAddr b) 4096)))

/-! ### Pages -/

/-- List `n` of a context, when it is a sequence. -/
def State.kvList (s : State) (id n : Nat) : Option KvList := (s.ctx id).bind (fun c => c.seq.bind (fun q => q.lists[n]?))

/-- A context's sequence changed. -/
def State.modSeq (s : State) (id : Nat) (f : SeqCtx → SeqCtx) : State := s.modCtx id (fun c => { c with seq := c.seq.map f })

/-- A list changed. -/
def State.modList (s : State) (id n : Nat) (f : KvList → KvList) : State :=
  s.modSeq id (fun q => { q with lists := lmod q.lists n f })

/-- A page changed. -/
def State.modPage (s : State) (id n i : Nat) (f : Page → Page) : State :=
  s.modList id n (fun l => { l with pages := lmod l.pages i f })

/-- A page, `Page.reset` outside the table. -/
def State.page (s : State) (id n i : Nat) : Page :=
  match s.kvList id n with
  | none => Page.reset
  | some l => l.pages.getD i Page.reset

/-- The entry of a page, and the counts of its context's descriptor, written again in T1. An entry or a descriptor in which a
poisoned word stands is left as it is, for its next use to tear the context down (R213). -/
def State.syncPage (s : State) (id n i : Nat) : State :=
  match s.ctx id, s.kvList id n with
  | some c, some l =>
    let e := frameAddr (l.blocks.getD (i / 255) 0) + 16 + 16 * (i % 255)
    let d := t1Base + id * 128
    if s.anyPoison e 16 || s.anyPoison d 128 then s
    else (s.storeClean e (l.pages.getD i Page.reset).bytes).storeClean d (c.bytes id)
  | _, _ => s

/-- A page changed, whether or not a command or step names its context, and its tables in T1 with it (R208, R213). -/
def State.setPage (s : State) (id n i : Nat) (f : Page → Page) : State := (s.modPage id n i f).syncPage id n i

/-- Every page of every sequence, as (context, list, page number, page). -/
def State.allPages (s : State) : List (Nat × Nat × Nat × Page) :=
  s.ctxs.flatMap (fun (id, c) =>
    match c.seq with
    | none => []
    | some q => q.lists.zipIdx.flatMap (fun (l, n) => l.pages.zipIdx.map (fun (p, i) => (id, n, i, p))))

/-- Bytes copied from one device range to another with their poison. -/
def State.copyBytes (s : State) (src dst n : Nat) : State := s.storeBytes dst (s.peek src n)

/-- A page's frame and slot given back, and the page FREE (R214). -/
def State.freePage (s : State) (id n i : Nat) : State :=
  let p := s.page id n i
  let s := if p.state.hasFrame then s.freeFrames p.frame else s
  let s := if p.state.hasSlot then s.freeSlot p.slot else s
  s.modPage id n i (fun _ => Page.reset)

/-- A page released (R214): freed at once when nothing holds it and no step of its context runs, else pending. -/
def State.releasePage (s : State) (id n i : Nat) : State :=
  let p := s.page id n i
  let step := match s.ctx id with | some c => c.step && !c.torn | none => false
  if p.state = .free then s
  else if p.holds = 0 ∧ step = false then s.freePage id n i
  else s.modPage id n i (fun p => { p with relPending := true })

/-- Pages whose release was pending and that nothing holds any more are freed. -/
def State.freePending (s : State) (id : Nat) : State :=
  (s.allPages.filter (fun x => x.1 == id && x.2.2.2.relPending && x.2.2.2.holds == 0)).foldl
    (fun s x => s.freePage id x.2.1 x.2.2.1) s

/-- A page that may be chosen to spill (R220). -/
def State.spillable (s : State) (id : Nat) (p : Page) : Bool :=
  match s.ctx id with
  | none => false
  | some c => match c.seq with
    | none => false
    | some q => decide (q.headDim < 2) && !c.noSpill && p.holds == 0 && (p.state == .resident || p.state == .clean)

/-- The candidate of least fill order among pages in a state (R221). -/
def State.oldest (s : State) (st : PageState) : Option (Nat × Nat × Nat × Page) :=
  (s.allPages.filter (fun x => x.2.2.2.state == st && s.spillable x.1 x.2.2.2)).foldl
    (fun (a : Option (Nat × Nat × Nat × Page)) x =>
      match a with
      | none => some x
      | some y => if x.2.2.2.filledAt < y.2.2.2.filledAt then some x else a) none

/-- SWEEP counter by register offset (R228). -/
def sweepCtr (off : Nat) : Nat := ctrId (0x04000000 + off)

/-- A RESIDENT page begins to spill: a slot is taken and its frame's bytes are written to NVS (R214). -/
def State.startSpill (s : State) (id n i : Nat) : Option State :=
  match s.allocSlot with
  | none => none
  | some (x, s1) =>
    let p := s1.page id n i
    let s2 := s1.copyBytes (frameAddr p.frame) (s1.slotNvs x) 16384
    some ((s2.setPage id n i (fun p => { p with state := .spilling, slot := x, durable := false })).bump (sweepCtr 0xB8) 1)

/-- A SPILLING page whose NVS copy is durable and that nothing holds is SPILLED, its frame free (R214). -/
def State.endSpill (s : State) (id n i : Nat) : State :=
  let p := s.page id n i
  if p.state = .spilling ∧ p.durable ∧ p.holds = 0 then
    (s.freeFrames p.frame).setPage id n i (fun p => { p with state := .spilled, frame := 0 })
  else s

/-- A page whose NVS copy is at hand leaves T1 (R214). -/
def State.leaveT1 (s : State) (id n i : Nat) : State :=
  (s.modPage id n i (fun p => { p with state := .spilling, durable := true })).endSpill id n i

/-- Background spilling (R221, R222): while free frames are below LOW_WATER, RESIDENT pages that filled earliest begin
to spill, as many as are short; under the sag warning KV_SPILL_DEFERRED is raised once for the dip instead. -/
def State.spillBackground (s : State) : State :=
  let free := s.freeFrameCount
  let flying := (s.allPages.filter (fun x => x.2.2.2.state == .spilling)).length
  let short := s.boat.lowWater - (free + flying)
  if short = 0 ∨ s.boat.spillEnable = false ∨ s.tier.spillPages = 0 then s
  else
    let waiting := (s.allPages.filter (fun x => x.2.2.2.state == .resident && s.spillable x.1 x.2.2.2)).length
    if s.sagging then
      if waiting = 0 ∨ s.cap.deferred then s
      else { s with cap := { s.cap with deferred := true } }.raise 0x0501 90 0 waiting
    else
      (List.range (min short waiting)).foldl (fun s _ =>
        match s.oldest .resident with
        | none => s
        | some (id, n, i, _) => (s.startSpill id n i).getD s) s

/-- `n` consecutive free pool frames taken; free frames that fall below LOW_WATER by it start background spilling (R221). -/
def State.allocFrames (s : State) (n : Nat) : Option (Nat × State) :=
  match s.enterFrames n with
  | none => none
  | some (f, s1) => some (f, s1.spillBackground)

/-- A frame freed for an append or a fetch: of the CLEAN page that filled earliest, else of the RESIDENT page that filled
earliest, spilled and waited for (R221, R222). Answers the status code when none can be had. -/
def State.freeOne (s : State) : Except Nat State :=
  match s.oldest .clean with
  | some (id, n, i, _) => .ok (s.leaveT1 id n i)
  | none =>
    match s.oldest .resident with
    | none => .error (if s.sagging then stSag else stNoResource)
    | some (id, n, i, _) =>
      if s.sagging then .error stSag
      else if s.boat.spillEnable = false then .error stNoResource
      else match s.startSpill id n i with
        | none => .error stNoResource
        | some s1 => .ok (s1.leaveT1 id n i)

/-- `n` consecutive frames for an append or a fetch, pages of T1 being freed one by one until they fit, by fuel (R221). -/
def State.takeFrames (n : Nat) : Nat → State → Except Nat (Nat × State)
  | 0, s => match s.allocFrames n with | some r => .ok r | none => .error (if s.sagging then stSag else stNoResource)
  | f + 1, s =>
    match s.allocFrames n with
    | some r => .ok r
    | none => match s.freeOne with
      | .error e => .error e
      | .ok s1 => State.takeFrames n f s1

/-- A frame for an append or a fetch (R221). -/
def State.takeFrame (s : State) : Except Nat (Nat × State) := State.takeFrames 1 1 s

/-- A SPILLED page's fetch begins when a frame can be had (R214). -/
def State.startFetch (s : State) (id n i : Nat) : Except Nat State :=
  match s.takeFrame with
  | .error e => .error e
  | .ok (f, s1) => .ok ((s1.setPage id n i (fun p => { p with state := .fetching, frame := f })).bump (sweepCtr 0xC0) 1)

/-- A fetch completes: the slot's bytes are in the frame and the page is CLEAN (R214). -/
def State.endFetch (s : State) (id n i : Nat) : State :=
  let p := s.page id n i
  if p.state = .fetching then
    (s.copyBytes (s.slotNvs p.slot) (frameAddr p.frame) 16384).setPage id n i (fun p => { p with state := .clean })
  else s

/-! ### Conversion into the cache (R218) and summaries (R219) -/

/-- The KV element format. -/
def kvFmtOf (c : Nat) : Fmt := if c = 0 then fE4M3 else fE5M2

/-- One element under a static scale (R218): its encoding, and whether it was clamped. -/
def kvElem (fmt : Nat) (scale : Nat) (v : Val) : Nat × Bool :=
  let f := kvFmtOf fmt
  match v with
  | .nan => (if fmt = 0 then 0x7F else 0x7D, false)
  | .inf neg => if fmt = 0 then (f.signBit neg + f.maxEnc, true) else (f.signBit neg + f.infEnc, false)
  | .fin neg m e =>
    let q := f.round .rne m (e - ((scale : Int) - 127))
    (f.signBit neg + min q f.maxEnc, decide (q > f.maxEnc))

/-- A row of elements converted: its bytes with poison, and how many were clamped. -/
def kvRow (fmt scale : Nat) (row : List (Val × Bool)) : List PByte × Nat :=
  let r := row.map (fun (v, p) => (kvElem fmt scale v, p))
  (r.map (fun (e, p) => ⟨BitVec.ofNat 8 e.1, p⟩), (r.filter (fun (e, p) => e.2 && !p)).length)

/-- The FP32 sum of column `e` of decoded rows in ascending position. -/
def colSum (f : Fmt) (scale : Nat) (rows : List (List PByte)) (e : Nat) : Nat × Bool :=
  rows.foldl (fun (a : Nat × Bool) r =>
    let b := r.getD e ⟨0, true⟩
    let v := match f.decode b.v.toNat with | .fin n m x => Val.fin n m (x + ((scale : Int) - 127)) | w => w
    (fadd a.1 (fFP32.encode .rne v), a.2 || b.p)) (0, false)

/-- A summary vector encoded by R90 over the whole vector: packed bytes and the scale byte. -/
def sumVec (code : Nat) (vs : List (Nat × Bool)) : List PByte × Nat :=
  let r := convMx code (vs.map (fun _ => Rnd.rne)) (vs.map (fun x => fFP32.decode x.1))
  (packElems code (r.2.1.zip (vs.map Prod.snd)), r.1)

/-- The summary of a full page of a list of head dimension 64 or 128 (R219): its 128 bytes and two scale bytes. -/
def State.summary (s : State) (q : SeqCtx) (l : KvList) (p : Page) : List PByte × Nat × Nat :=
  let d := headD q.headDim
  let f := kvFmtOf q.kvFmt
  let rows (o : Nat) := (List.range p.count).map (fun j => s.peek (frameAddr p.frame + o + d * j) d)
  let ks := rows 0
  let vs := rows 8192
  let n := fofInt p.count
  let mean := (List.range d).map (fun e => let x := colSum f l.kScale ks e; (fdiv x.1 n, x.2))
  let sum := (List.range d).map (fun e => colSum f l.vScale vs e)
  let code := if d = 64 then 0 else 4
  let k := sumVec code mean
  let v := sumVec code sum
  (k.1 ++ v.1, k.2, v.2)

/-- A page whose COUNT has reached TPP (R214): summary written, SUM_VALID set, RESIDENT. -/
def State.fillPage (s : State) (id n i : Nat) : State :=
  match s.ctx id, s.kvList id n with
  | some c, some l =>
    match c.seq with
    | none => s
    | some q =>
      let p := s.page id n i
      let stamp := s.boat.fillStamp
      let s1 := { s with boat := { s.boat with fillStamp := stamp + 1 } }
      if q.headDim < 2 then
        let (b, ks, vs) := s1.summary q l p
        (s1.storeBytes (l.sumAddr i) b).modPage id n i
          (fun p => { p with state := .resident, sumValid := true, kSumScale := ks, vSumScale := vs, filledAt := stamp })
      else s1.modPage id n i (fun p => { p with state := .resident, filledAt := stamp })
  | _, _ => s

/-- One more page-table block for a list: three pool frames, the block and its summaries (R213); pages of T1 are freed for it as
for a page of an append (R221). -/
def State.growTable (s : State) (id n : Nat) : Except Nat State :=
  match State.takeFrames 3 s.allPages.length s with
  | .error e => .error e
  | .ok (f, s1) =>
    .ok (s1.modList id n (fun l => { l with blocks := l.blocks ++ [f], pages := l.pages ++ List.replicate 255 Page.reset }))

/-- An append that reaches a page whose release waits for the step's end begins it anew: the snapshot holds no position of it, so
nothing reads it any more. DESIGN CHOICE (log entry 100): the spec does not say what such an append does. -/
def State.renewPage (s : State) (id n i : Nat) : State :=
  let p := s.page id n i
  if p.relPending && p.holds == 0 then s.freePage id n i else s

/-- One token appended to a list: a K row and a V row already converted (R211, R214, R216). -/
def State.appendToken (s : State) (id n : Nat) (k v : List PByte) : Except Nat State :=
  match s.ctx id with
  | none => .error stCtxClosed
  | some c => match c.seq with
    | none => .error stCtxClosed
    | some q =>
      match s.kvList id n with
      | none => .error stCtxClosed
      | some l =>
        let tpp := tppOf q.headDim
        let d := headD q.headDim
        let i := l.len / tpp
        let j := l.len % tpp
        let grown := if l.pages.length ≤ i then s.growTable id n else .ok s
        match grown with
        | .error e => .error e
        | .ok s0 =>
          let s := s0.renewPage id n i
          let p := s.page id n i
          let framed : Except Nat State :=
            if p.state = .free then
              match s.takeFrame with
              | .error e => .error e
              | .ok (f, s1) => .ok (s1.modPage id n i (fun _ => { Page.reset with state := .filling, frame := f }))
            else .ok s
          match framed with
          | .error e => .error e
          | .ok s =>
            let a := frameAddr (s.page id n i).frame
            let s := (s.storeBytes (a + d * j) k).storeBytes (a + 8192 + d * j) v
            let s := (s.modPage id n i (fun p => { p with count := j + 1 })).modList id n (fun l => { l with len := l.len + 1 })
            .ok (if j + 1 = tpp then s.fillPage id n i else s)

/-- CLAMPED counted in the context and in SWEEP.CLAMPED (R218). -/
def State.countClamped (s : State) (id k : Nat) : State :=
  (s.modSeq id (fun q => { q with clamped := min (q.clamped + k) 0xFFFFFFFF })).bump (sweepCtr 0xB0) k

/-- Tokens appended one after another; none of them when one cannot be (R217, R226). -/
def State.appendTokens (s : State) (id n : Nat) : List (List (Val × Bool) × List (Val × Bool)) → Except Nat State
  | [] => .ok s
  | (k, v) :: t =>
    match s.ctx id, s.kvList id n with
    | some c, some l =>
      let fmt := match c.seq with | some q => q.kvFmt | none => 0
      let (kb, nk) := kvRow fmt l.kScale k
      let (vb, nv) := kvRow fmt l.vScale v
      match s.appendToken id n kb vb with
      | .error e => .error e
      | .ok s1 => (s1.countClamped id (nk + nv)).appendTokens id n t
    | _, _ => .error stCtxClosed

end Sys2Proof.Machine
end

