-- ==== Sys2Proof/Machine/Units.lean ====
section
/-! DEFINITION. The unit table as other blocks see it, tiles and clients, and their accounts (R304, R428, R440). -/

namespace Sys2Proof.Machine

/-! ### Units (R428) -/

/-- Units of each type. -/
def unitCount (ty : Nat) : Nat :=
  match ty with
  | 0 => 128 | 1 => 16 | 2 => 8 | 3 => 4 | 4 => 256 | 5 => 32 | 6 => 1 | _ => 0

/-- Place of a type's unit 0 among the 445 entries of R444. -/
def unitBase (ty : Nat) : Nat :=
  match ty with
  | 0 => 0 | 1 => 128 | 2 => 144 | 3 => 152 | 4 => 156 | 5 => 412 | 6 => 444 | _ => 445

/-- The power domain a unit lies in (R428). -/
def unitDomain (ty n : Nat) : Nat :=
  match ty with
  | 0 => n / 2 | 1 => 64 + n / 4 | 2 => 68 + n / 2 | 3 => 72 + n | 4 => 78 + n % 8 | 5 => 86 + n / 16 | _ => 76

/-- A unit's record. -/
def State.unit (s : State) (ty n : Nat) : UnitRec :=
  if n < unitCount ty then vget UnitRec.reset s.fault.units (unitBase ty + n) else UnitRec.reset

/-- The state with a unit's record changed. -/
def State.modUnit (s : State) (ty n : Nat) (f : UnitRec → UnitRec) : State :=
  if n < unitCount ty then { s with fault := { s.fault with units := vmod s.fault.units (unitBase ty + n) f } } else s

/-- The cox's table has the unit retired. -/
def State.retired (s : State) (ty n : Nat) : Bool := (s.unit ty n).state == .retired
/-- The unit is quarantined. -/
def State.quarantined (s : State) (ty n : Nat) : Bool := (s.unit ty n).state == .quarantined
/-- Both paths have the unit usable (R440). -/
def State.usable (s : State) (ty n : Nat) : Bool := (s.unit ty n).state == .usable && !(s.unit ty n).fenced
/-- Units of a type that are not retired. -/
def State.notRetired (s : State) (ty : Nat) : Nat := ((List.range (unitCount ty)).filter (fun n => !s.retired ty n)).length

/-! ### Tiles -/

/-- A tile; the reset tile outside 0 to 127. -/
def State.tile (s : State) (t : Nat) : Tile := vget Tile.reset s.tiles t
/-- The state with a tile changed. -/
def State.modTile (s : State) (t : Nat) (f : Tile → Tile) : State := { s with tiles := vmod s.tiles t f }
/-- A thread of a tile. -/
def Tile.thread (t : Tile) (th : Nat) : Thread := vget Thread.reset t.threads th
/-- A tile with a thread changed. -/
def Tile.modThread (t : Tile) (th : Nat) (f : Thread → Thread) : Tile := { t with threads := vmod t.threads th f }
/-- The state with a thread changed. -/
def State.modThread (s : State) (t th : Nat) (f : Thread → Thread) : State := s.modTile t (fun x => x.modThread th f)

/-- The rating of a tile over the last microsecond in 0.01 steps/ns: a measurement the spec bounds below by 110 while
the tile is powered; under rating lock it does not pass the locked value (R130, R487). -/
def State.rating (s : State) (t : Nat) : Nat × State :=
  if s.domOn (t / 2) then
    let (k, s1) := s.draw
    let r := 110 + k % (65536 - 110)
    let l := (s.tile t).ratingLocked
    (if l ≠ 0 ∧ l < r then l else r, s1)
  else (0, s)

/-- A scalar register written with its poison bit; x0 always reads 0 (R112). -/
def Thread.setX (t : Thread) (r : Nat) (v : Nat) (p : Bool) : Thread :=
  if r = 0 then t
  else { t with x := vset t.x r (BitVec.ofNat 64 v), xp := if p then t.xp ||| 1#32 <<< r else t.xp &&& ~~~(1#32 <<< r) }

/-- A scalar register read. -/
def Thread.getX (t : Thread) (r : Nat) : Nat := if r = 0 then 0 else (vget 0 t.x r).toNat
/-- The poison bit of a scalar register. -/
def Thread.poisonX (t : Thread) (r : Nat) : Bool := if r = 0 then false else t.xp.getLsbD r

/-- The program counter moves past the instruction. -/
def Thread.next (t : Thread) : Thread := { t with pc := t.pc + 8 }

/-- A blocked thread's instruction completes. -/
def Thread.wake (t : Thread) : Thread := { t with block := .run, pc := t.pc + 8 }

/-- A blocked thread's instruction completes with a value for its RD. -/
def Thread.wakeWith (t : Thread) (rd v : Nat) : Thread := (t.setX rd v false).wake

/-! ### Clients and their accounts (R304) -/

/-- An accounting counter with `n` added: 48 bits, its saturated bit sticky (R442). -/
def Acct.add (a : Acct) (n : Nat) : Acct :=
  if a.v + n ≥ 2 ^ 48 - 1 then ⟨2 ^ 48 - 1, a.sat || decide (n ≠ 0)⟩ else ⟨a.v + n, a.sat⟩

/-- The histogram bin of a wait of `w` ns (R304). -/
def waitBin (w : Nat) : Nat := if w < 1000 then 0 else if w ≥ 16384000 then 15 else ilog2 (w / 1000) + 1

/-- SCHED counter by register offset (R306). -/
def schedCtr (off : Nat) : Nat := ctrId (0x06000000 + off)

/-! ### Jobs -/

/-- The job of a command number. -/
def State.job (s : State) (uid : Nat) : Option Job := s.sched.jobs.find? (fun j => j.uid == uid)

/-- The active job of a context: the first submitted (R279). -/
def State.jobOf (s : State) (ctx : Nat) : Option Job := s.sched.jobs.find? (fun j => j.ctx == ctx)

/-- The state with a job changed. -/
def State.modJob (s : State) (uid : Nat) (f : Job → Job) : State :=
  { s with sched := { s.sched with jobs := s.sched.jobs.map (fun j => if j.uid = uid then f j else j) } }

/-- The job a tile's crew serves. -/
def State.tileJob (s : State) (t : Nat) : Option Job := (s.tile t).ctx.bind s.jobOf

/-- Work of a job's crew is issued: its real or golden pass runs. -/
def Job.issues (j : Job) : Bool := j.state == .running || j.state == .golden

/-- A step of the job holds a crew. -/
def Job.crewed (j : Job) : Bool :=
  match j.state with
  | .ready => false
  | .spilled => false
  | _ => true

/-- A tile of a job's crew still issues: its step runs; or a thread fault of the crew falls at this elapsed count and the tile has none
of its own, the teardown not having stopped issue yet (R133, R134). DESIGN CHOICE (log entry 97): how long issue goes on
after a fault is open, here to the end of the elapsed count. -/
def State.crewIssues (s : State) (j : Job) (t : Nat) : Bool :=
  j.issues || (match j.state with
    | .tearing c => decide (c < 0x100) && !(s.tile t).faultValid &&
        j.tiles.any (fun u => (s.tile u).faultValid && (s.tile u).faultAt == s.time.half)
    | _ => false)

/-- A thread may issue: it is started, not exited, waits for nothing, its crew's step runs and no fence holds its tile. Which of the
threads that may issue does so next is the outside's to say (log entry 96). -/
def State.canIssue (s : State) (t th : Nat) : Bool :=
  let x := (s.tile t).thread th
  x.started && !x.exited && x.block == .run && s.usable 0 t &&
    (match s.tileJob t with | some j => s.crewIssues j t | none => false)

/-- A model by handle, aliases followed (R274). -/
def State.modelId (s : State) (h : Nat) : Nat := (alookup s.boat.aliases h).getD h
/-- A model of the boathouse. -/
def State.model (s : State) (h : Nat) : Option Model := alookup s.boat.models (s.modelId h)
/-- The state with a model changed. -/
def State.modModel (s : State) (h : Nat) (f : Model → Model) : State :=
  let h := s.modelId h
  { s with boat := { s.boat with models := s.boat.models.map (fun p => if p.1 = h then (p.1, f p.2) else p) } }

/-- A job's phase entry. -/
def State.phaseOf (s : State) (j : Job) : Option PhaseEntry := (s.model j.model).bind (fun m => m.phases[j.phase]?)

/-- A job's placement entry, by its index within the phase. -/
def State.placementOf (s : State) (j : Job) (i : Nat) : Option Placement :=
  (s.model j.model).bind (fun m => (m.phases[j.phase]?).bind (fun p => m.placements[p.firstPlacement + i]?))

/-- The class a context's steps count at (R276, R297). -/
def State.classOf (s : State) (j : Job) : Nat :=
  let base := match s.client j.client with | some c => c.cls | none => 4
  (s.sched.boosts.filter (fun b => b.ctx == j.ctx)).foldl (fun a b => min a b.cls) base

/-- R98 flags raised by a tile: into TILE.ARITH_STATUS, and into the job's reply or the golden pass's flags (R98, R99,
R405). -/
def State.raiseFlags (s : State) (t : Nat) (f : BitVec 9) : State :=
  let s1 := s.modTile t (fun x => { x with arith := x.arith ||| f })
  match s1.tileJob t with
  | none => s1
  | some j => s1.modJob j.uid (fun j =>
      if j.inGolden then { j with goldenFlags := some ((j.goldenFlags.getD 0) ||| f) } else { j with flags := j.flags ||| f })

end Sys2Proof.Machine
end

