-- ==== Sys2Proof/Machine/Sched.lean ====
section
/-! DEFINITION. Semaphores, the choice of steps, pre-emption and dispatch (R113 to R117, R284 to R299). -/

namespace Sys2Proof.Machine

/-! ### Semaphores (R296 to R299) -/

/-- A semaphore that is allocated. -/
def State.sem (s : State) (i : Nat) : Option Sem := alookup s.sched.sems i
/-- The state with a semaphore changed. -/
def State.modSem (s : State) (i : Nat) (f : Sem → Sem) : State :=
  { s with sched := { s.sched with sems := s.sched.sems.map (fun p => if p.1 = i then (p.1, f p.2) else p) } }

/-- The class a waiting thread counts at. -/
def State.waiterClass (s : State) (w : Nat × Nat) : Nat :=
  match s.tileJob w.1 with | some j => s.classOf j | none => 5

/-- The waiter a release goes to: of the highest class, then the one that has waited longest. -/
def State.bestWaiter (s : State) (l : List (Nat × Nat)) : Option (Nat × Nat) :=
  l.foldl (fun (a : Option (Nat × Nat)) w =>
    match a with
    | none => some w
    | some b => if s.waiterClass w < s.waiterClass b then some w else a) none

/-- A semaphore taken by a thread's context; its sem.acquire returns a status. -/
def State.grantSem (s : State) (i : Nat) (w : Nat × Nat) (status : Nat) : State :=
  let rd := match ((s.tile w.1).thread w.2).block with | .semAcquire _ rd => rd | _ => 0
  let s1 := s.modThread w.1 w.2 (fun t => t.wakeWith rd status)
  match s1.tileJob w.1 with
  | none => s1
  | some j =>
    (s1.modJob j.uid (fun j => { j with semTaken := true })).modSem i
      (fun x => { x with st := 1, holder := some j.ctx, waiters := x.waiters.filter (· != w) })

/-- The boosts of a semaphore end. -/
def State.endBoosts (s : State) (i : Nat) : State :=
  { s with sched := { s.sched with boosts := s.sched.boosts.filter (fun b => b.sem != i) } }

/-- `sem.release` at the semaphore (R296): free, its holder cleared, then handed to a waiter. -/
def State.releaseSem (s : State) (i : Nat) : State :=
  match s.sem i with
  | none => s
  | some x =>
    if x.st = 0 then s
    else
      let s1 := (s.modSem i (fun x => { x with st := 0, holder := none })).endBoosts i
      match s1.bestWaiter x.waiters with
      | none => s1
      | some w => s1.grantSem i w stDone

/-- A semaphore is force-released (R298, R299): broken, counted, raised, and acquired with BROKEN by its best waiter. -/
def State.breakSem (s : State) (i : Nat) : State :=
  match s.sem i with
  | none => s
  | some x =>
    let s1 := (s.modSem i (fun x => { x with st := 2, holder := none })).endBoosts i
    let s2 := (s1.bump (schedCtr 0x18) 1).raise 0x0402 90 0 i
    match s2.bestWaiter x.waiters with
    | none => s2
    | some w => s2.grantSem i w 0x800D

/-- Every semaphore a context holds becomes broken (R299). -/
def State.breakSems (s : State) (ctx : Nat) : State :=
  (s.sched.sems.filter (fun p => p.2.holder == some ctx)).foldl (fun s p => s.breakSem p.1) s

/-- Threads of a set of tiles wait for no semaphore any more. -/
def State.dropWaiters (s : State) (tiles : List Nat) : State :=
  { s with sched := { s.sched with sems := s.sched.sems.map (fun p =>
      (p.1, { p.2 with waiters := p.2.waiters.filter (fun w => !tiles.contains w.1) })) } }

/-- The holder of a semaphore is boosted to a class when that of its client is lower, and passes the boost on to the holders of the
semaphores it waits on itself, by fuel (R297). A boost at another semaphore is no bar: each ends with its own semaphore. -/
def State.boost : Nat → State → Nat → Nat → State
  | 0, s, _, _ => s
  | f + 1, s, i, cls =>
    match (s.sem i).bind Sem.holder with
    | none => s
    | some h =>
      let base := match s.ctx h with | some c => (match s.client c.client with | some k => k.cls | none => 4) | none => 4
      if base ≤ cls ∨ s.sched.boosts.any (fun b => b.sem == i && b.ctx == h && decide (b.cls ≤ cls)) then s
      else
        let s1 : State := { s with sched := { s.sched with boosts := s.sched.boosts ++ [Boost.mk i h cls s.time.half] } }
        let cl := match s.jobOf h with | some j => j.client | none => (match s.ctx h with | some c => c.client | none => 0)
        let s2 := s1.modClient cl (fun c => { c with boosts := c.boosts.bump1 })
        let s3 := match s2.jobOf h with
          | some j => s2.modJob j.uid (fun j => { j with detailHi := j.detailHi ||| 8 })
          | none => s2
        let on : List (Nat × Sem) := s3.sched.sems.filter (fun p => p.2.waiters.any (fun w => (s3.tile w.1).ctx == some h))
        on.foldl (fun s p => s.boost f p.1 cls) s3

/-! ### Steps that may be picked (R284 to R286) -/

/-- A self-test gap hold is in force (R302). -/
def State.gapHold (s : State) : Bool := !s.sched.gaps.isEmpty

/-- The step's model is safety-relevant. -/
def State.jobSafe (s : State) (j : Job) : Bool := match s.model j.model with | some m => m.safe.isSome | none => false

/-- A step not yet begun is held back while its model waits to move between tiers (R160), or a swap names it (R274). -/
def State.modelHeld (s : State) (j : Job) : Bool :=
  let h := s.modelId j.model
  !j.counted && ((match s.model h with | some m => !m.waits.isEmpty | none => false) || s.boat.models.any (fun p => match p.2.swapTo with | some n => p.1 == h || n == h | none => false))

/-- Dispatch is stopped: in a state entry past its first point, in Easy or Moored, and until step 5 of a return (R453,
R457). -/
def State.dispatchStopped (s : State) : Bool :=
  decide (s.pwr.state ≥ 2) || decide (s.pwr.easyStep < 5) || (match s.pwr.entry with | some e => decide (1 ≤ e.stage) | none => false)

/-- A gap hold holds a step back (R302). -/
def State.gapHeld (s : State) (j : Job) : Bool := s.gapHold && s.jobSafe j && decide (1 ≤ s.classOf j)

/-- A job is the one its context serves now: a job submitted behind it has no ready step yet (R279). -/
def State.active (s : State) (j : Job) : Bool := match s.jobOf j.ctx with | some a => a.uid == j.uid | none => false

/-- The step of a job is ready or waits to resume, and nothing holds it (R279, R284, R302, R274, R457, R492, R498). -/
def State.pickable (s : State) (j : Job) : Bool :=
  (j.state == .ready || j.state == .spilled) && s.active j &&
    !s.gapHeld j && !s.modelHeld j &&
    !(s.sagging && decide (s.cap.preemptFrom ≤ s.classOf j)) && !(s.jobSafe j && (!s.reached 3 || decide (s.pwr.easyStep < 6)))

/-- Virtual time of a job's client. -/
def State.vtOf (s : State) (j : Job) : Rat := match s.client j.client with | some c => c.vt | none => 0

/-- Rank of a ready step within its client (R284, R411, R434). -/
def Job.rankIn (j : Job) : Nat := if j.urgent then 0 else if j.state = .spilled then 1 else 2

/-- Whether a step that has been picked and waits for tiles keeps its turn before another, when that is settled (R286). -/
def Job.turnBefore (a b : Job) : Option Bool :=
  match a.picked, b.picked with
  | some x, some y => some (decide (x < y))
  | some _, none => some true
  | none, some _ => some false
  | none, none => none

/-- The order in which steps are picked (R284); within a class a step picked already and waiting for tiles comes first (R286). -/
def State.before (s : State) (a b : Job) : Bool :=
  let ca := s.classOf a
  let cb := s.classOf b
  if ca ≠ cb then ca < cb
  else match a.turnBefore b with
  | some x => x
  | none =>
  if s.vtOf a ≠ s.vtOf b then s.vtOf a < s.vtOf b
  else if a.client ≠ b.client then a.client < b.client
  else if a.rankIn ≠ b.rankIn then a.rankIn < b.rankIn
  else a.readyAt < b.readyAt

/-- The step to place next, those already tried left out. -/
def State.pick (s : State) (tried : List Nat) : Option Job :=
  (s.sched.jobs.filter (fun j => s.pickable j && !tried.contains j.uid)).foldl
    (fun (a : Option Job) j => match a with | none => some j | some b => if s.before j b then some j else a) none

/-! ### Tiles for a placement (R268, R285, R416, R418) -/

/-- The lowest byte of any hot copy a tile holds. -/
def Tile.hotLow (t : Tile) : Nat := t.hot.foldl (fun a h => min a h.2.1) t0TileSize

/-- The hot placement of a HOT model takes the tiles that hold its copy (R160). -/
def State.hotFits (s : State) (j : Job) (p : Placement) (t : Nat) : Bool :=
  match s.model j.model with | some m => !(p.hot && m.state == .hot) || m.hotTiles.contains t | none => true

/-- The umpire of a tile has FAILED (R418). -/
def State.umpireFailed (s : State) (t : Nat) : Bool := (vget ⟨false, false, false, 0, 0, 0, 0, false⟩ s.safe.umpires (t / 16)).failed

/-- Tiles that a crew may count on: those not retired, and for a safety-relevant model only under umpires that have not failed
(R268, R418). -/
def State.tilesFor (s : State) (safe : Bool) : Nat :=
  ((List.range 128).filter (fun t => !s.retired 0 t && !(safe && s.umpireFailed t))).length

/-- A tile is available to a step's placement, apart from whether it is in a crew. -/
def State.tileFits (s : State) (j : Job) (p : Placement) (t : Nat) : Bool :=
  let u := vget ⟨false, false, false, 0, 0, 0, 0, false⟩ s.safe.umpires (t / 16)
  s.usable 0 t && decide (p.footprint ≤ (s.tile t).hotLow) && s.hotFits j p t && !j.avoid.contains t && !s.fault.dead.contains (t / 2) &&
    !(s.jobSafe j && (u.failed || (u.testing && decide (1 ≤ s.classOf j))))

/-- A tile is idle (R285). -/
def State.tileIdle (s : State) (t : Nat) : Bool := (s.tile t).ctx.isNone && (s.tile t).mode == .idle

/-- Tiles of victims pre-empted for other waiting steps of the same or a higher class, which go to those steps first (R286). -/
def State.owedOthers (s : State) (j : Job) : List Nat :=
  (s.sched.jobs.filter (fun k => k.uid != j.uid && s.pickable k && decide (s.classOf k ≤ s.classOf j))).flatMap Job.owed

/-- Tiles available to a placement, those set aside and those owed to others left out, in the order of preference of R285 and R448: tiles that
hold the model's hot copy, tiles whose last step served the context, powered tiles, then lower numbers. -/
def State.availTiles (s : State) (j : Job) (p : Placement) (aside : List Nat) : List Nat :=
  let owed := s.owedOthers j
  let l := (List.range 128).filter (fun t => s.tileIdle t && s.tileFits j p t && !aside.contains t && !owed.contains t)
  let hot := match s.model j.model with | some m => m.hotTiles | none => []
  let key (t : Nat) : Nat :=
    4 * b2n (!hot.contains t) + 2 * b2n (vget none s.sched.lastCtx t != some j.ctx) + b2n (!s.domOn (t / 2))
  (List.range 8).flatMap (fun k => l.filter (fun t => key t == k))

/-- The placements a step may use, by index within its phase (R268, R285, R294). -/
def State.placementsOf (s : State) (j : Job) : List (Nat × Placement) :=
  match s.phaseOf j with
  | none => []
  | some ph =>
    let all := (List.range ph.placements).filterMap (fun i => (s.placementOf j i).map (fun p => (i, p)))
    let own := if j.state = .spilled then all.filter (fun x => x.1 == j.placement)
      else match j.named with | some n => all.filter (fun x => x.1 == n) | none => all
    own.filter (fun x => decide (x.2.crew ≤ s.notRetired 0))

/-- The placement and tiles that a step takes now (R285): of the placements that can be given enough available tiles,
the one whose tiles hold most hot copies, the first listed on a tie. -/
def State.choose (s : State) (j : Job) (aside : List Nat) : Option (Nat × Placement × List Nat) :=
  let hot := match s.model j.model with | some m => m.hotTiles | none => []
  (s.placementsOf j).foldl (fun (a : Option (Nat × Placement × List Nat)) x =>
    let l := s.availTiles j x.2 aside
    if l.length < x.2.crew then a
    else
      let got := l.take x.2.crew
      let n (g : List Nat) := (g.filter (fun t => hot.contains t)).length
      match a with
      | none => some (x.1, x.2, got)
      | some (_, _, g) => if n g < n got then some (x.1, x.2, got) else a) none

/-- The placement a step waits for when none can be given its tiles: the usable one of smallest CREW (R285). -/
def State.waitsFor (s : State) (j : Job) : Option (Nat × Placement) :=
  (s.placementsOf j).foldl (fun (a : Option (Nat × Placement)) x =>
    match a with | none => some x | some y => if x.2.crew < y.2.crew then some x else a) none

/-! ### Forming and dissolving crews (R115, R287, R133) -/

/-- Items of a list in an order the spec leaves open. -/
def State.permute : Nat → State → List Nat → List Nat × State
  | 0, s, l => (l, s)
  | f + 1, s, l =>
    match l with
    | [] => ([], s)
    | _ =>
      let (k, s1) := s.draw
      let x := l.getD (k % l.length) 0
      let (r, s2) := State.permute f s1 (l.erase x)
      (x :: r, s2)

/-- The tiles of a crew in rank order: those of the hot copies in theirs, since a hot stream names its rank's copy; else an order the spec
leaves open (R115). -/
def State.rankOrder (s : State) (m : Model) (p : Placement) (got : List Nat) : List Nat × State :=
  if p.hot && m.state == .hot then (m.hotTiles.filter (fun t => got.contains t), s) else s.permute got.length got

/-- The last device address of the region that holds an address: a data window, a part of the T1 host region, or a part
of the NVS host region (R263). -/
def State.regionEnd (s : State) (a : Nat) : Nat :=
  if isT1 a then
    let o := a - t1Base
    if o < s.tier.coxBase * 2 ^ 30 then t1Base + s.tier.coxBase * 2 ^ 30 - 1
    else t1Base + t1Size - s.tier.reserveGib * 2 ^ 30 - 1
  else if isNvs a then
    if a - nvsBaseAddr < s.tier.nvsBase * 2 ^ 30 then nvsBaseAddr + s.tier.nvsBase * 2 ^ 30 - 1 else nvsBaseAddr + nvsSize - 1
  else match hostAddr a with
    | some (ch, _) => windowBase ch + 0x04000000 - 1
    | none => a

/-- Where the image's bytes of a model lie: its warm copy, else its home copy (R160). -/
def Model.copyBase (m : Model) : Nat :=
  match m.warm with | some w => frameAddr w.first | none => nvsBaseAddr + m.home.first * 4096

/-- The NVS address of the home copy. -/
def Model.homeBase (m : Model) : Nat := nvsBaseAddr + m.home.first * 4096

/-- A section of a model's image. -/
def Model.section? (m : Model) (type : Nat) : Option ImgSection := m.sections.find? (fun x => x.type == type)

/-- The base that a relocated field of a KIND takes: the copy of the weights, the variants or the code (R266). -/
def Model.relocBase (m : Model) (kind : Nat) : Nat :=
  let at_ (type : Nat) : Nat := m.copyBase + (match m.section? type with | some x => x.offset | none => 0)
  match kind, m.variants with
  | 0, _ => at_ 0x0008
  | 1, some v => frameAddr v.first
  | 1, none => at_ 0x0009
  | _, _ => at_ 0x0003

/-- The model's hot placement: its phase and entry (R265). -/
def Model.hotPlacement (m : Model) : Option Placement := m.placements.find? (fun p => p.hot)

/-- The rank of the hot placement whose stream entries hold an image offset (R265). -/
def Model.hotRank (m : Model) (off : Nat) : Option Nat :=
  match m.hotPlacement, m.section? 0x0004 with
  | some p, some x =>
    let i := (off - x.offset) / 32
    if x.offset ≤ off ∧ off < x.offset + x.size ∧ p.streams ≤ i ∧ i < p.streams + 2 * p.crew then some ((i - p.streams) / 2) else none
  | _, _ => none

/-- The base of the copy that a relocated field takes (R160, R266): for the weights a stream of a HOT model's hot placement names, the
rank's hot copy through the crew alias. DESIGN CHOICE (log entry 99). -/
def Model.fieldBase (m : Model) (r : Reloc) : Nat :=
  match r.kind, m.state, m.hotRank r.offset with
  | 0, .hot, some k => 0x10000000 + k * t0TileSize + m.hotAt.getD k 0
  | k, _, _ => m.relocBase k

/-- A relocated field's value, bit 63 cleared, and whether bit 63 was set (R266). -/
def Model.relocated (m : Model) (r : Reloc) : Nat × Bool := (r.stored % 2 ^ 63 + m.fieldBase r, decide (2 ^ 63 ≤ r.stored))

/-- The grant table of a placement with an in and an out range (R121, R266). -/
def Model.grantsFor (m : Model) (p : Placement) (inLo inHi outLo outHi : Nat) : Vector Grant 16 :=
  Vector.ofFn (fun i : Fin 16 =>
    if i.val = 14 then ⟨inLo, inHi, true, false⟩
    else if i.val = 15 then ⟨outLo, outHi, true, true⟩
    else if i.val < p.grantCount then
      match m.relocs[p.grants + 2 * i.val]?, m.relocs[p.grants + 2 * i.val + 1]? with
      | some b, some l =>
        let (lim, w) := m.relocated l
        ⟨(m.relocated b).1 % 2 ^ 48, lim % 2 ^ 48, true, w⟩
      | _, _ => ⟨0, 0, false, false⟩
    else ⟨0, 0, false, false⟩)

/-- A thread as it starts (R113). -/
def Thread.start (th rank size inAddr outAddr step entry : Nat) : Thread :=
  let t : Thread := { Thread.reset with started := true, pc := entry }
  (((((t.setX 1 th false).setX 2 rank false).setX 3 size false).setX 4 inAddr false).setX 5 outAddr false).setX 6 step false

/-- A tile as it joins a crew or begins a pass: threads started, slots, engines, arrays and COMPLETED fresh (R108, R113,
R128, R129). -/
def Tile.begin (t : Tile) (ctx rank : Nat) (p : Placement) (grants : Vector Grant 16) (inAddr outAddr step entry : Nat) :
    Tile :=
  { t with
    threads := Vector.ofFn (fun i : Fin 128 =>
      if i.val < p.threads then Thread.start i.val rank p.crew inAddr outAddr step entry else Thread.reset)
    arrays := Vector.replicate 4 Arr.reset, bows := Vector.replicate 2 Bow.reset, slots := Vector.replicate 64 Slot.reset
    completed := 0, grants := grants, ctx := some ctx, rank := rank, size := p.crew, mode := .running
    pool := none, sweepsOut := [], xfsOut := [], layerDl := [], layerHit := [], executed := 0, skipped := [], wc := [], out := [] }

/-- A tile out of every crew: nothing of the step is left on it but its scratchpad, its cache and its registers. -/
def Tile.leave (t : Tile) : Tile :=
  { t with
    threads := Vector.replicate 128 Thread.reset, arrays := Vector.replicate 4 Arr.reset
    bows := Vector.replicate 2 Bow.reset, slots := Vector.replicate 64 Slot.reset, completed := 0
    grants := Vector.replicate 16 ⟨0, 0, false, false⟩, ctx := none, rank := 0, size := 0, mode := .idle
    pool := none, sweepsOut := [], xfsOut := [], layerDl := [], layerHit := [], executed := 0, skipped := [], wc := [], out := [] }

/-- Walks of a sweep lower the HOLDS of the pages they hold. -/
def State.dropHolds (s : State) (w : Sweep) : State :=
  let d := vals w.run.desc
  let id := leAt d 8 4
  match s.ctx id with
  | none => s
  | some c => match c.seq with
    | none => s
    | some q =>
      let n := leAt d 12 2 * q.heads + byteAt d 14
      let s1 := w.held.foldl (fun s i => (s.modPage id n i (fun p => { p with holds := p.holds - 1 })).endSpill id n i) s
      if c.torn || !c.step then s1.freePending id else s1

/-- The runs issued by a set of tiles are withdrawn from the units and the queues. -/
def State.dropRuns (s : State) (tiles : List Nat) : State :=
  let mine (r : Run) : Bool := tiles.contains r.tile
  let s1 := s.sweep.pipes.toList.foldl (fun s o =>
    match o with | some w => if mine w.run then s.dropHolds w else s | none => s) s
  { s1 with
    sweep := ⟨s1.sweep.pipes.map (fun o => match o with | some w => if mine w.run then none else some w | none => none),
      s1.sweep.queue.filter (fun r => !mine r)⟩
    xf := ⟨s1.xf.engines.map (fun o => match o with | some r => if mine r then none else some r | none => none),
      s1.xf.queue.filter (fun r => !mine r)⟩ }

/-- A crew dissolves: its tiles are idle. -/
def State.dissolve (s : State) (tiles : List Nat) (ctx : Nat) : State :=
  tiles.foldl (fun s t =>
    let s1 := (s.modTile t Tile.leave).touch (t / 2)
    { s1 with sched := { s1.sched with lastCtx := vset s1.sched.lastCtx t (some ctx) } }) ((s.dropRuns tiles).dropWaiters tiles)

/-- The lists of a context as a step begins (R215). -/
def State.snapshot (s : State) (ctx : Nat) : State :=
  s.updCtx ctx (fun c => { c with step := true, seq := c.seq.map (fun q =>
    { q with lists := q.lists.map (fun l => { l with vis := l.len, visFirst := l.first, appended := false }) }) })

/-- x4, x5, and the last addresses of grants 14 and 15, for the pass a job's step is in (R263, R405). -/
def State.passRanges (s : State) (j : Job) : Nat × Nat × Nat × Nat :=
  if j.inGolden then
    match s.model j.model, s.phaseOf j, j.goldenArea with
    | some m, some ph, some (f, _) =>
      match m.safe with
      | some k => (frameAddr k.input.first, frameAddr k.input.first + ph.inBytes - 1, frameAddr f, frameAddr f + ph.outBytes - 1)
      | none => (j.inAddr, s.regionEnd j.inAddr, j.outAddr, s.regionEnd j.outAddr)
    | _, _, _ => (j.inAddr, s.regionEnd j.inAddr, j.outAddr, s.regionEnd j.outAddr)
  else (j.inAddr, s.regionEnd j.inAddr, j.outAddr, s.regionEnd j.outAddr)

/-- The tiles of a crew begin a pass, in rank order (R113, R115, R121, R405). -/
def State.beginPass (s : State) (j : Job) (m : Model) (p : Placement) (tiles : List Nat) : State :=
  let (i, iHi, o, oHi) := s.passRanges j
  let entry := (match m.section? 0x0003 with | some x => m.copyBase + x.offset | none => 0) + p.entry
  let g := m.grantsFor p i iHi o oHi
  tiles.zipIdx.foldl (fun s (t, r) => s.modTile t (fun x => x.begin j.ctx r p g i o j.step entry)) s

/-- A segment of an umpire's self-test in progress is abandoned (R416). -/
def State.abandonSegment (s : State) (u : Nat) : State :=
  { s with safe := { s.safe with umpires := vmod s.safe.umpires u (fun x =>
      if x.testing then { x with testing := false, abandoned := min (x.abandoned + 1) 65535 } else x) } }

/-- The operating point a step runs at: the parameter, or OPPOINT of its phase under 0xFF (R263). -/
def State.opOf (s : State) (j : Job) : Nat :=
  if j.oppoint = 0xFF then (match s.phaseOf j with | some p => p.oppoint | none => 0) else j.oppoint

/-- First dispatch of a step: its wait counted in its client's accounts (R304). -/
def State.countWait (s : State) (j : Job) : State :=
  let w := (s.time.half - j.readyAt) / 2
  s.modClient j.client (fun c =>
    { c with waitSum := c.waitSum.add w, waitMax := max c.waitMax (min w (2 ^ 48 - 1))
             hist := vmod c.hist (waitBin w) Ctr.bump1 })

/-- Virtual time after a dispatch (R284). -/
def State.chargeTime (s : State) (j : Job) (p : Placement) : State :=
  s.modClient j.client (fun c => { c with vt := c.vt + (p.stepNs : Rat) / (c.weight : Rat) })

/-- Pool frames for the golden out area of a safety-relevant step (R405); none for another step. -/
def State.goldenRoom (s : State) (j : Job) (m : Model) : Option (Option (Nat × Nat) × State) :=
  if m.safe.isSome then
    let n := ceilDiv (match s.phaseOf j with | some p => p.outBytes | none => 0) 16384
    (s.allocFrames (max n 1)).map (fun r => (some (r.1, max n 1), r.2))
  else some (none, s)

/-- A step placed waits no more; it runs under priority inheritance when a boost of its context is in force (R280, R286, R297). -/
def State.placed (s : State) (j : Job) : Job :=
  { j with picked := none, owed := []
           detailHi := if s.sched.boosts.any (fun b => b.ctx == j.ctx) then j.detailHi ||| 8 else j.detailHi }

/-- A step of a job is dispatched on tiles under a placement (R215, R284, R287, R416, R448, R478). It stays ready while the
pool has no room for its golden out area. -/
def State.dispatch (s : State) (j : Job) (pi : Nat) (p : Placement) (got : List Nat) : State :=
  match s.model j.model with
  | none => s
  | some m =>
  match s.goldenRoom j m with
  | none => s
  | some (area, s) =>
    let safe := m.safe.isSome
    let (tiles, s) := s.rankOrder m p got
    let s := if safe && decide (s.classOf j = 0) then (tiles.map (· / 16)).foldl State.abandonSegment s else s
    let s := tiles.foldl (fun s t => s.wakeDomain (t / 2)) s
    let asleep := tiles.any (fun t => !s.domOn (t / 2))
    let order := s.sched.nextOrder
    let s := { s with sched := { s.sched with nextOrder := order + 1 } }
    let s := s.chargeTime j p
    let s := match s.phaseOf j with | some h => if h.expectedW = 0 then s else s.addHint s.time.half h.expectedW s.time.half | none => s
    let s := if j.counted then s else
      let s0 := s.modModel j.model (fun m => { m with inUse := m.inUse + 1 })
      let s1 := (s0.countWait j).updCtx j.ctx (fun c => { c with job := { c.job with frames := (c.job.frames + 1) % 2 ^ 32 } })
      (s1.snapshot j.ctx)
    let frame := match s.ctx j.ctx with | some c => (c.job.frames + 2 ^ 32 - 1) % 2 ^ 32 | none => 0
    let s := s.updCtx j.ctx (fun c => { c with job := { c.job with placement := pi } })
    let s := s.modJob j.uid (fun j => s.placed
      { j with state := if asleep then .waking else .running, counted := true, placement := pi, tiles := tiles
               dispatchedAt := s.time.half, order := order, pausedHalf := 0, urgent := false, arrived := []
               layerArrived := [], lateLayers := [], merged := false, semTaken := false
               poisonRaised := j.counted && j.poisonRaised
               checks := [], mismatch := false, goldenFlags := none, inGolden := false
               goldenArea := area
               appends := if j.counted then j.appends else [], oldAppends := if j.counted then j.oldAppends else []
               frame := if j.counted then j.frame else frame, attemptAt := s.time.half
               blamed := if j.repechage then j.blamed else 0xFFFF
               vflags := if j.repechage then j.vflags else 0, staleMask := if j.repechage then j.staleMask else 0
               charged := [], boundary := false
               detailHi := j.detailHi % 256 + pi * 256 })
    let s := tiles.foldl (fun s t => s.modTile t (fun x => { x with faultValid := false })) s
    match s.job j.uid with
    | none => s
    | some j => s.beginPass j m p tiles

/-! ### Spilling (R289 to R292) -/

/-- Live arrays of a tile. -/
def Tile.liveArrays (t : Tile) : Nat := (t.arrays.toList.filter (fun a => a.live)).length

/-- Bytes of a tile's save record (R292). -/
def Tile.recordBytes (t : Tile) (p : Placement) : Nat :=
  ceilDiv p.footprint 64 * 64 + 32768 * t.liveArrays + 2312 * p.threads + 256

/-- A placement's steps may be spilled (R290). -/
def Placement.spillable (p : Placement) : Bool :=
  decide (ceilDiv p.footprint 64 * 64 + 131072 + p.threads * 2312 + 256 ≤ 2097152)

/-- Bytes of a slot's transfer in flight. -/
def Slot.inFlight (x : Slot) : Nat :=
  if x.state = .filling ∨ x.state = .draining then leAt (vals x.desc) 2 2 * leAt (vals x.desc) 4 4 else 0

/-- The bytes of a run's descriptor: as its unit read them, or as they stand while it waits (R191, R244). -/
def State.runDesc (s : State) (r : Run) : List PByte :=
  if r.desc.isEmpty then s.peek (r.tile * t0TileSize + r.addr) 128 else r.desc

/-- The time bound of a sweep, without the wait for pages, in ns (R206). -/
def State.sweepBound (s : State) (r : Run) (rating : Nat) : Rat :=
  let d := vals (s.runDesc r)
  let id := leAt d 8 4
  let n := match s.ctx id with
    | none => 0
    | some c => match c.seq with
      | none => 0
      | some q => match q.lists[leAt d 12 2 * q.heads + byteAt d 14]? with
        | none => 0
        | some l => l.vis - l.visFirst + leAt d 48 2
  let dim := headD (byteAt d 3)
  let steps := if byteAt d 0 % 2 = 1 then ceilDiv n 32 * 3 * dim + dim else ceilDiv n 32 * dim
  2000 + (steps : Rat) * 100 / (rating : Rat)

/-- The time bound of a transform run in ns (R250). -/
def State.xfBound (s : State) (r : Run) (rating : Nat) : Rat :=
  let d := vals (s.runDesc r)
  let n := 2 ^ byteAt d 1
  let f := n * n * byteAt d 1 / 16
  let cin := leAt d 4 2
  let cout := byteAt d 6
  let half := n * (n / 2 + 1)
  if byteAt d 0 = 0 then 1000 + (f : Rat) * 100 / (rating : Rat)
  else 1000 + (((cin + cout) * f + cin * cout * half / 16 : Nat) : Rat) * 100 / (rating : Rat) +
    ((n * n * cin * codeBits (byteAt d 3) / 8 + cin * cout * 8 * half : Nat) : Rat) / 36

/-- Array steps that an array operation takes at most from its start to its last output (R109). -/
def ArrOp.stepBound (o : ArrOp) : Nat :=
  let d := vals o.desc
  stepsOf (byteAt d 2) (byteAt d 3) (if o.conv then leAt d 6 2 * byteAt d 32 * byteAt d 33 else leAt d 4 4) + 32

/-- Array steps that remain at most until an array is at rest: of the operation it reduces, else of the conversion under way. -/
def Arr.stepBound (a : Arr) : Nat :=
  match a.reducing with
  | some o => o.stepBound
  | none => if a.converting.isSome then 32 else 0

/-- The drain time D that R291 gives for a crew, in ns: the fills and drains of the tile that has most in flight, at 36 bytes a ns; the
longest remaining array operation, of which nothing says how far it has come, so a free value up to its whole length; the bounds
of the runs. -/
def State.drainTime (s : State) (tiles : List Nat) (rating : Nat) : Rat × State :=
  let bytes : Nat := tiles.foldl (fun a t => max a ((s.tile t).slots.toList.foldl (fun a x => a + x.inFlight) 0)) 0
  let steps := tiles.foldl (fun a t => (s.tile t).arrays.toList.foldl (fun a x => max a x.stepBound) a) 0
  let (k, s1) : Nat × State := if steps = 0 then (0, s) else s.draw
  let mine (r : Run) : Bool := tiles.contains r.tile
  let sw := (s.sweep.pipes.toList.filterMap (fun o => o.map Sweep.run) ++ s.sweep.queue).filter mine
  let xf := (s.xf.engines.toList.filterMap id ++ s.xf.queue).filter mine
  let runs := sw.foldl (fun a r => a + s.sweepBound r rating) (0 : Rat) + xf.foldl (fun a r => a + s1.xfBound r rating) (0 : Rat)
  ((bytes : Rat) / 36 + ((k % (steps + 1) : Nat) : Rat) * 100 / (rating : Rat) + runs, s1)

/-- Tiles that are spilling now. -/
def State.spillingTiles (s : State) : Nat :=
  s.sched.jobs.foldl (fun a j => if j.state = .draining ∨ j.state = .saving then a + j.tiles.length else a) 0

/-- Save areas for a crew: tile t's own area when it is free, else the lowest free (R292); none when they are short. -/
def State.pickAreas (s : State) (tiles : List Nat) : Option (List Nat) :=
  if 128 < s.sched.areas.length + tiles.length then none
  else
    let r := tiles.foldl (fun (acc : List Nat × List Nat) t =>
      let a := if acc.1.contains t then (lowestFree acc.1 0 128).getD 0 else t
      (acc.1 ++ [a], acc.2 ++ [a])) (s.sched.areas, [])
    some r.2

/-- A victim is spilled: issue stops on its crew, its save areas and its spilled-thread context are taken (R283, R291). -/
def State.beginSpill (s : State) (j : Job) (areas : List Nat) (id : Nat) : State :=
  let s1 := s.modJob j.uid (fun j =>
    { j with state := .draining, stoppedAt := s.time.half, areas := areas, spillCtx := some id, detailHi := j.detailHi ||| 4 })
  let s2 := { s1 with sched := { s1.sched with areas := areas.foldl insertSorted s1.sched.areas } }
  let s3 := s2.putCtx id
    { kind := 3, torn := false, model := j.model, seed := 0, drawn := false, client := j.client, step := false, noSpill := false
      seq := none, job := JobCtx.reset
      spill := some { owner := j.ctx, crew := j.tiles.length, phase := j.phase, step := j.step, saveMap := areas
                      spilledAt := s.elapsed, pauseNs := min (j.pausedHalf / 2) 0xFFFFFFFF }
      track := none, plan := PlanCtx.reset }
  let s4 := s3.updCtx j.ctx (fun c => { c with job := { c.job with spilled := some id } })
  let s5 := j.tiles.foldl (fun s t => s.modTile t (fun x => { x with mode := .spilling })) s4
  (s5.modClient j.client (fun c => { c with preempt := c.preempt.bump1, spills := c.spills.bump1 })).bump (schedCtr 0x08) 1

/-- A victim is pre-empted at its step boundary. -/
def State.markBoundary (s : State) (j : Job) : State :=
  ((s.modJob j.uid (fun j => { j with boundary := true, detailHi := j.detailHi ||| 2 })).modClient j.client
    (fun c => { c with preempt := c.preempt.bump1 })).bump (schedCtr 0x10) 1

/-- One victim is pre-empted, by spill or at its boundary (R289 to R292). -/
def State.preemptOne (s : State) (j : Job) : State :=
  match s.placementOf j j.placement with
  | none => s.markBoundary j
  | some p =>
    let (ratings, s1) := j.tiles.foldl (fun (acc : List Nat × State) t =>
      let (r, s') := acc.2.rating t; (acc.1 ++ [r], s')) ([], s)
    let rho := ratings.foldl min (ratings.headD 110)
    let rho := if rho = 0 then 110 else rho
    let total : Rat := (p.stepNs : Rat) * 240 / (rho : Rat)
    let run : Rat := (((s1.time.half - j.dispatchedAt) - j.pausedHalf : Nat) : Rat) / 2
    let (d, s2) := s1.drainTime j.tiles rho
    let n := s2.spillingTiles + j.tiles.length
    let wr : Rat := min 40 (2520 / (n : Rat))
    let b := j.tiles.foldl (fun a t => max a ((s2.tile t).recordBytes p)) 0
    let ts : Rat := 2000 + d + (b : Rat) / wr
    let short := decide (run ≤ total) && decide (total - run < ts)
    if short || !p.spillable then s2.markBoundary j
    else match s2.pickAreas j.tiles, s2.freeCtxId with
      | some areas, some id => s2.beginSpill j areas id
      | _, _ => s2.markBoundary j

/-- A running step that may be a victim of a class: of strictly lower class, not of class 0 (R288). -/
def State.victim (s : State) (cls : Nat) (j : Job) : Bool :=
  (j.state == .running || j.state == .golden || j.state == .waking) && !j.boundary && decide (cls < s.classOf j)

/-- Tiles that pre-emptions and teardowns already decided will free, those owed to other waiting steps left out. -/
def State.leavingTiles (s : State) (j : Job) : List Nat :=
  let owed := s.owedOthers j
  (s.sched.jobs.flatMap (fun j =>
    match j.state with
    | .draining => j.tiles
    | .saving => j.tiles
    | .tearing _ => j.tiles
    | _ => if j.boundary then j.tiles else [])).filter (fun t => !owed.contains t)

/-- The victim to take first: of the lowest class, the most recently dispatched within it (R288). -/
def State.firstVictim (s : State) (l : List Job) : Option Job :=
  l.foldl (fun (a : Option Job) v =>
    match a with
    | none => some v
    | some b =>
      if s.classOf b < s.classOf v ∨ (s.classOf b = s.classOf v ∧ b.order < v.order) then some v else a) none

/-- Victims are taken lowest class first, the most recently dispatched first within a class, one whole crew at a time,
until `need` more tiles of those the placement fits are freed (R288). -/
def State.takeVictims (s : State) (j : Job) (p : Placement) (cls : Nat) : Nat → Nat → List Nat → Option (List Nat)
  | 0, _, _ => none
  | f + 1, need, taken =>
    if need = 0 then some taken
    else
      match s.firstVictim (s.sched.jobs.filter (fun v => s.victim cls v && !taken.contains v.uid)) with
      | none => none
      | some v =>
        let k := (v.tiles.filter (fun t => s.tileFits j p t)).length
        s.takeVictims j p cls f (need - k) (taken ++ [v.uid])

/-- Pre-emption for a waiting step (R288): nothing unless the tiles suffice. The tiles of its victims are owed to it (R286). -/
def State.preemptFor (s : State) (j : Job) (aside : List Nat) : State :=
  match s.waitsFor j with
  | none => s
  | some (_, p) =>
    let have_ := (s.availTiles j p aside).length + ((s.leavingTiles j).filter (fun t => s.tileFits j p t)).length
    if p.crew ≤ have_ then s
    else match s.takeVictims j p (s.classOf j) 129 (p.crew - have_) [] with
      | none => s
      | some l =>
        let owed := l.flatMap (fun u => match s.job u with | some v => v.tiles | none => [])
        (l.foldl (fun s u => match s.job u with | some v => s.preemptOne v | none => s) s).modJob j.uid
          (fun j => { j with owed := j.owed ++ owed })

/-- A step picked and without its tiles waits in its turn (R286). -/
def State.await (s : State) (j : Job) : State :=
  if j.picked.isSome then s
  else
    let n := s.sched.nextOrder
    { s with sched := { s.sched with nextOrder := n + 1 } }.modJob j.uid (fun j => { j with picked := some n })

/-! ### Resumption (R294) -/

/-- Time lost by a spill added to the client's account (R304). -/
def State.countLost (s : State) (j : Job) : State :=
  s.modClient j.client (fun c => { c with lostSum := c.lostSum.add ((s.time.half - j.stoppedAt) / 2) })

/-- A spilled step is dispatched again: the crew is formed on its tiles and the save records are read back. -/
def State.resume (s : State) (j : Job) (p : Placement) (got : List Nat) : State :=
  match s.model j.model with
  | none => s
  | some m =>
    let (tiles, s) := s.rankOrder m p got
    let s := if m.safe.isSome && decide (s.classOf j = 0) then (tiles.map (· / 16)).foldl State.abandonSegment s else s
    let s := tiles.foldl (fun s t => s.wakeDomain (t / 2)) s
    let s := s.chargeTime j p
    let order := s.sched.nextOrder
    let s := { s with sched := { s.sched with nextOrder := order + 1 } }
    let (i, iHi, o, oHi) := s.passRanges j
    let g := m.grantsFor p i iHi o oHi
    let s := tiles.zipIdx.foldl (fun s (t, r) => s.modTile t (fun x =>
      { x.leave with ctx := some j.ctx, rank := r, size := p.crew, mode := .spilling, grants := g, faultValid := false })) s
    s.modJob j.uid (fun j => s.placed { j with state := .resuming, tiles := tiles, order := order, boundary := false })

/-! ### The scheduler (R284 to R288) -/

/-- A poisoned word stands in the context descriptor or the tables of a step's context, or in the descriptor of its spilled record
(R181, R213). -/
def State.stepPoisoned (s : State) (j : Job) : Bool :=
  s.tablesBad j.ctx || match j.spillCtx with | some c => s.tablesBad c | none => false

/-- Steps are picked and placed, by fuel. A step that must wait sets its tiles aside (R286) and may pre-empt. The context of one whose
tables bear poison is torn down (R181): the step holds no crew, and TEARDOWN_COMPLETE ends it. -/
def State.scheduleFuel : Nat → State → List Nat → List Nat → State
  | 0, s, _, _ => s
  | f + 1, s, tried, aside =>
    match s.pick tried with
    | none => s
    | some j =>
      if s.stepPoisoned j then
        State.scheduleFuel f ((s.bump (integCtr 0x38) 1).modJob j.uid (fun j => { j with state := .tearing 0x0111 })) tried aside
      else match s.choose j aside with
      | some (pi, p, got) =>
        let s1 := if j.state = .spilled then s.resume j p got else s.dispatch j pi p got
        State.scheduleFuel f s1 (tried ++ [j.uid]) aside
      | none =>
        let s1 := (s.await j).preemptFor j aside
        let mine := match s1.waitsFor j with | some (_, p) => (s1.availTiles j p aside).take p.crew | none => []
        State.scheduleFuel f s1 (tried ++ [j.uid]) (aside ++ mine)

/-- A gap hold is marked in the steps it holds (R302). -/
def State.markHeld (s : State) : State :=
  if s.gapHold then
    { s with sched := { s.sched with jobs := s.sched.jobs.map (fun j =>
        if (j.state == .ready || j.state == .spilled) && s.active j && s.gapHeld j then { j with detailHi := j.detailHi ||| 16 } else j) } }
  else s

/-- A step of a safety-relevant model in classes 1 to 4 runs (R302). -/
def State.safeRuns (s : State) : Bool :=
  s.sched.jobs.any (fun j => !(j.state == .ready || j.state == .spilled) && s.jobSafe j && decide (1 ≤ s.classOf j))

/-- Each gap hold knows since when no such step has run (R302). -/
def State.markGaps (s : State) : State :=
  let run := s.safeRuns
  { s with sched := { s.sched with gaps := s.sched.gaps.map (fun g => if run then (g.1, none, g.2.2) else (g.1, some (g.2.1.getD s.time.half), g.2.2)) } }

/-- The cox places every step that can be placed now (R284 to R288). -/
def State.schedule (s : State) : State :=
  let s := s.markHeld.markGaps
  if s.dispatchStopped then s else State.scheduleFuel (s.sched.jobs.length + 1) s [] []

/-- A job's next step becomes ready (R279), its client's virtual time brought up (R284), its readiness noted (R416). -/
def State.makeReady (s : State) (uid : Nat) : State :=
  match s.job uid with
  | none => s
  | some j =>
    let ready (k : Job) : Bool := (k.state == .ready || k.state == .spilled) && s.active k
    let idle := !s.sched.jobs.any (fun k => k.uid != uid && k.client == j.client && ready k)
    let cls := match s.client j.client with | some c => c.cls | none => 4
    let others := s.sched.jobs.filter (fun k => k.client != j.client && ready k &&
      (match s.client k.client with | some c => c.cls == cls | none => false))
    let low := others.foldl (fun (a : Option Rat) k =>
      match a with | none => some (s.vtOf k) | some v => some (min v (s.vtOf k))) none
    let s1 := if idle then
        match low with
        | some v => s.modClient j.client (fun c => { c with vt := max c.vt v })
        | none => s
      else s
    let s2 := s1.modClient j.client (fun c => { c with readies := (s.time.half :: c.readies).take 8, readySafe := s.jobSafe j })
    s2.modJob uid (fun j => { j with state := .ready, readyAt := s.time.half, counted := false, avoid := [], repechage := false, picked := none, owed := [] })

/-- Jobs of a list in the order in which victims are taken, by fuel (R288). -/
def State.victimOrder (s : State) : Nat → List Job → List Job
  | 0, _ => []
  | f + 1, l =>
    match s.firstVictim l with
    | none => []
    | some v => v :: s.victimOrder f (l.filter (fun k => k.uid != v.uid))

/-- Pre-emption of every running step of a class and above, as the sag chain asks, in the order of R288 (R303, R492). -/
def State.preemptClasses (s : State) (from_ : Nat) : State :=
  (s.victimOrder 128 (s.sched.jobs.filter (fun j => s.victim 0 j && decide (from_ ≤ s.classOf j)))).foldl
    (fun s v => match s.job v.uid with | some v => s.preemptOne v | none => s) s

end Sys2Proof.Machine
end

