-- ==== Sys2Proof/Machine/Boat.lean ====
section
/-! DEFINITION. The boathouse: copies of models in the tiers, room, relocation and eviction (R160 to R164, R266, R273). -/

namespace Sys2Proof.Machine

/-- MODEL_EVICTED for a tier that a model leaves: 0 hot, 1 warm, 2 cold. -/
def State.evictedEvent (s : State) (h tier : Nat) : State := s.raise 0x0302 90 0 (h % 2 ^ 32 + tier * 2 ^ 32)

/-! ### The NVS pool (R138) -/

/-- Free runs of 4 KiB pages of the NVS pool: outside home copies, the spill area and withdrawn NVS. -/
def State.nvsGaps (s : State) : List Ext :=
  let hi := min (s.tier.nvsLimit * 2 ^ 18) ((2048 - s.fault.nvsWithdrawn) * 2 ^ 18)
  let used := if s.tier.spillPages = 0 then s.boat.nvs
    else insertExt s.boat.nvs ⟨s.tier.spillBase * 4, s.tier.spillPages * 4⟩
  gaps used (s.tier.nvsBase * 2 ^ 18) hi

/-- `n` consecutive free pages of the NVS pool taken; which place that fits is left open. -/
def State.allocNvs (s : State) (n : Nat) : Option (Nat × State) :=
  let (k, s1) := s.draw
  match pickPlace s1.nvsGaps n k with
  | none => none
  | some p => some (p, { s1 with boat := { s1.boat with nvs := insertExt s1.boat.nvs ⟨p, n⟩ } })

/-- A home copy's pages given back. -/
def State.freeNvs (s : State) (p : Nat) : State :=
  { s with boat := { s.boat with nvs := s.boat.nvs.filter (fun e => e.first != p) } }

/-! ### Leaving tiers (R162) -/

/-- The relocated fields of a model that lie in its streams (R266). -/
def Model.streamRelocs (m : Model) : List Reloc :=
  match m.section? 0x0004 with
  | none => []
  | some x => m.relocs.filter (fun r => decide (x.offset ≤ r.offset ∧ r.offset + 8 ≤ x.offset + x.size))

/-- The relocated stream fields of a model written into the copy its jobs run from (R160, R266). -/
def State.relocate (s : State) (m : Model) : State :=
  m.streamRelocs.foldl (fun s r => s.storeClean (m.copyBase + r.offset) (toLe 8 (m.relocated r).1)) s

/-- The streams of a model relocated as its tier now asks. -/
def State.relocateNow (s : State) (h : Nat) : State := match s.model h with | some m => s.relocate m | none => s

/-- A model's hot copies given up, its streams pointing at the warm copy again (R160). -/
def State.dropHot (s : State) (h : Nat) : State :=
  match s.model h with
  | none => s
  | some m =>
    if m.state = .hot then
      let s1 := m.hotTiles.foldl (fun s t =>
        s.modTile t (fun x => { x with hot := x.hot.filter (fun e => e.1 != s.modelId h) })) s
      (s1.modModel h (fun m => { m with state := .warm, hotTiles := [], hotAt := [] })).relocateNow h
    else s

/-- A model's hot copies freed, the event raised. -/
def State.leaveHot (s : State) (h : Nat) : State :=
  match s.model h with
  | none => s
  | some m => if m.state = .hot then (s.dropHot h).evictedEvent (s.modelId h) 0 else s

/-- A model's warm copy freed; its hot copies go first. -/
def State.leaveWarm (s : State) (h : Nat) : State :=
  let s := s.leaveHot h
  match s.model h with
  | none => s
  | some m =>
    match m.warm with
    | some w => ((s.freeFrames w.first).modModel h (fun m => { m with state := .cold, warm := none })).evictedEvent (s.modelId h) 1
    | none => s

/-- The pool copies of a safe.job mark freed, and the mark removed (R402). -/
def State.unmark (s : State) (h : Nat) : State :=
  match (s.model h).bind Model.safe with
  | none => s
  | some k => ((s.freeFrames k.input.first).freeFrames k.known.first).modModel h (fun m => { m with safe := none })

/-- Every copy of a model freed: it is ABSENT. -/
def State.evictNow (s : State) (h : Nat) : State :=
  let id := s.modelId h
  let s := (s.leaveWarm h).unmark h
  match s.model h with
  | none => s
  | some m =>
    let s1 := (match m.variants with | some v => s.freeFrames v.first | none => s).freeNvs m.home.first
    let s2 := s1.evictedEvent id 2
    { s2 with boat := { s2.boat with models := aerase s2.boat.models id, aliases := s2.boat.aliases.filter (fun p => p.2 != id) } }

/-- The unpinned model of a tier, not in use, that was used least recently (R163). -/
def State.leastRecent (s : State) (st : ModelState) (besides : Nat) : Option Nat :=
  ((s.boat.models.filter (fun p => p.2.state == st && !p.2.pinned && p.2.inUse == 0 && p.1 != besides)).foldl
    (fun (a : Option (Nat × Model)) p =>
      match a with | none => some p | some b => if p.2.lastUse < b.2.lastUse then some p else a) none).map Prod.fst

/-! ### Entering tiers (R160 to R164, R266, R273) -/

/-- `n` pool frames, warm models evicted to COLD for room, by fuel (R163): what was evicted stays evicted when the room is
short after all. -/
def State.roomT1 (besides n : Nat) : Nat → State → State × Option Nat
  | 0, s => match s.allocFrames n with | some (f, s1) => (s1, some f) | none => (s, none)
  | f + 1, s =>
    match s.allocFrames n with
    | some (x, s1) => (s1, some x)
    | none =>
      match s.leastRecent .warm besides with
      | none => (s, none)
      | some h => State.roomT1 besides n f (s.leaveWarm h)

/-- `n` pages of the NVS pool, cold models evicted for room, by fuel (R163). -/
def State.roomNvs (n : Nat) : Nat → State → State × Option Nat
  | 0, s => match s.allocNvs n with | some (p, s1) => (s1, some p) | none => (s, none)
  | f + 1, s =>
    match s.allocNvs n with
    | some (p, s1) => (s1, some p)
    | none =>
      match s.leastRecent .cold 0 with
      | none => (s, none)
      | some h => State.roomNvs n f (s.evictNow h)

/-- Bytes laid over a list from a place. -/
def splice (b : List Byte) (o : Nat) (l : List Byte) : List Byte := b.take o ++ l ++ b.drop (o + l.length)

/-- The image with its stream fields as the home copy has them when the model runs from it (R160, R266). -/
def Model.homeImage (m : Model) (b : List Byte) : List Byte :=
  let cold := { m with state := .cold, warm := none }
  m.streamRelocs.foldl (fun b r => splice b r.offset (toLe 8 (cold.relocated r).1)) b

/-- The home copy reads unpoisoned and the digest of the image it holds, the stream fields at the values the image stores, is the
one kept with it (R273). DESIGN CHOICE (log entry 99). -/
def State.homeSound (s : State) (m : Model) : Bool :=
  let b := s.peek m.homeBase m.len
  let image := m.streamRelocs.foldl (fun b r => splice b r.offset (toLe 8 r.stored)) (vals b)
  !b.any PByte.p && decide (sha384 image = m.digest)

/-- A COLD model's warm copy made of the bytes of its image, with room made for it: whether there was room (R160, R163). -/
def State.placeWarm (s : State) (h : Nat) (b : List PByte) : State × Bool :=
  let n := ceilDiv b.length 16384
  match State.roomT1 (s.modelId h) n s.boat.models.length s with
  | (s1, none) => (s1, false)
  | (s1, some f) =>
    (((s1.storeBytes (frameAddr f) b).modModel h (fun m => { m with state := .warm, warm := some ⟨f, n⟩ })).relocateNow h, true)

/-- A COLD model promoted to WARM: the status, DONE when it is there (R162, R163, R273). -/
def State.enterWarm (s : State) (h : Nat) : State × Nat :=
  match s.model h with
  | none => (s, stModelAbsent)
  | some m =>
    if m.warm.isSome then (s, stDone)
    else if s.homeSound m = false then ((s.evictNow h).raise 0x0D02 90 0 (m.len % 2 ^ 32), stSignature)
    else let (s1, ok) := s.placeWarm h (s.peek m.homeBase m.len); (s1, if ok then stDone else stNoResource)

/-- Tiles that can take a hot copy of `n` bytes: usable, the copy fits below the hot bytes they hold and at or above
0x10_0000, and no running step's footprint reaches it. -/
def State.hotRoom (s : State) (n : Nat) : List Nat :=
  (List.range 128).filter (fun t =>
    let low := (s.tile t).hotLow
    let foot := match s.tileJob t with
      | some j => (match s.placementOf j j.placement with | some p => p.footprint | none => 0)
      | none => 0
    s.usable 0 t && decide (n ≤ low) && decide (0x100000 ≤ low - n) && decide (foot ≤ low - n))

/-- Tiles for a model's hot copies, hot models evicted to WARM for room, by fuel (R161, R163). -/
def State.roomT0 (besides crew n : Nat) : Nat → State → State × Option (List Nat)
  | 0, s => (s, none)
  | f + 1, s =>
    let l := s.hotRoom n
    if crew ≤ l.length then
      let (p, s1) := s.permute l.length l
      (s1, some (p.take crew))
    else
      match s.leastRecent .hot besides with
      | none => (s, none)
      | some h => State.roomT0 besides crew n f (s.leaveHot h)

/-- A gated tile pair powered for a hot copy, its scratchpads filled with the poison form (R177, R448). -/
def State.powerPair (s : State) (t : Nat) : State :=
  if s.domOn (t / 2) then s
  else (((s.setDom (t / 2) true).poisonFill (t / 2 * 2)).poisonFill (t / 2 * 2 + 1)).touch (t / 2)

/-- A WARM model promoted to HOT: a copy on each tile chosen. Which weights each tile holds is left open. -/
def State.enterHot (s : State) (h : Nat) : State × Nat :=
  match s.model h with
  | none => (s, stModelAbsent)
  | some m =>
    if m.state = .hot then (s, stDone)
    else match m.hotPlacement with
      | none => (s, stBadParam)
      | some p =>
        match State.roomT0 (s.modelId h) p.crew p.hotBytes (s.boat.models.length + 1) s with
        | (s1, none) => (s1, stNoResource)
        | (s1, some tiles) =>
          let at_ := tiles.map (fun t => (s1.tile t).hotLow - p.hotBytes)
          let s2 := (tiles.zip at_).foldl (fun s (t, off) =>
            let s := s.powerPair t
            (s.modTile t (fun x => { x with hot := x.hot ++ [(s.modelId h, off, p.hotBytes)] })).scramble
              (t * t0TileSize + off) p.hotBytes) s1
          ((s2.modModel h (fun m => { m with state := .hot, hotTiles := tiles, hotAt := at_ })).relocateNow h, stDone)

/-- Tier code of a model's state. -/
def ModelState.tier : ModelState → Nat
  | .hot => 0 | .warm => 1 | .cold => 2

/-- A warm copy just made given up again: the promotion of which it was a part failed. -/
def State.dropWarm (s : State) (h : Nat) : State :=
  match (s.model h).bind Model.warm with
  | some w => (s.freeFrames w.first).modModel h (fun m => { m with state := .cold, warm := none })
  | none => s

/-- A model not in use moved to a tier, or evicted for 3: the status (R162). A model left where it was when room is
short. -/
def State.tierNow (s : State) (h target : Nat) : State × Nat :=
  match s.model h with
  | none => (s, stModelAbsent)
  | some m =>
    if target = 3 then (s.evictNow h, stDone)
    else if m.state.tier ≤ target then
      (if target = 0 then s else if target = 1 then s.leaveHot h else s.leaveWarm h, stDone)
    else if target = 1 then s.enterWarm h
    else
      let (s1, st) := s.enterWarm h
      if st ≠ stDone then (s1, st)
      else
        let (s2, st2) := s1.enterHot h
        if st2 = stDone then (s2, stDone) else ((if m.state = .cold then s2.dropWarm h else s2), st2)

/-- A pinned model refuses a colder tier and eviction when a command asks (R162). -/
def Model.pinRefuses (m : Model) (target : Nat) : Bool := m.pinned && decide (m.state.tier < target)

/-- What waits for a model not to be in use is done, in order, by fuel (R162); a command whose deadline has passed by then does
nothing (R63). -/
def State.modelIdle (h : Nat) : Nat → State → State
  | 0, s => s
  | f + 1, s =>
    match s.model h with
    | none => s
    | some m =>
      if m.inUse ≠ 0 || m.swapTo.isSome || s.boat.models.any (fun p => p.2.swapTo == some (s.modelId h)) then s
      else match m.waits with
        | [] => s
        | (uid, target) :: rest =>
          let s1 := s.modModel h (fun m => { m with waits := rest })
          let late := match uid with | some u => s.lateUid u | none => false
          let r : State × Nat :=
            if late then (s1, stDeadline)
            else if uid.isSome && m.pinRefuses target then (s1, stPinned)
            else s1.tierNow h target
          let s2 := match uid with
            | some u => r.1.finishUid u false r.2 0 (if r.2 = stDone ∧ target < 3 then target else 0)
            | none => r.1
          match s2.model h with
          | some _ => State.modelIdle h f s2
          | none => rest.foldl (fun s w => match w.1 with | some u => s.finishUid u false stModelAbsent 0 0 | none => s) s2

/-- The TZ8 itself asks a model down to a tier, as soon as it is not in use (R145, R436, R437). -/
def State.forceTier (s : State) (h target : Nat) : State :=
  let s1 := s.modModel h (fun m => { m with waits := (none, target) :: m.waits })
  s1.modelIdle h 8

/-- A step of a model ends (R162). -/
def State.endUse (s : State) (h : Nat) : State :=
  let s1 := s.modModel h (fun m => { m with inUse := m.inUse - 1, lastUse := s.elapsed })
  s1.modelIdle h 64

end Sys2Proof.Machine
end

