-- ==== Sys2Proof/Machine/Geom.lean ====
section
/-! DEFINITION. Geometry shared by convolution and pooling, and rows of elements with their block scales (R195, R232 to
R234). -/

namespace Sys2Proof.Machine

/-- Output size of an axis (R232). -/
def outSize (i k s d lo hi : Nat) : Nat :=
  let n : Int := (i : Int) + lo + hi - d * ((k : Int) - 1) - 1
  if n < 0 then 0 else n.toNat / s + 1

/-- The pixel an input coordinate reads under a padding mode; none in zero-mode padding (R233). -/
def mapCoord (mode i : Nat) (y : Int) : Option Nat :=
  if 0 ≤ y ∧ y < i then some y.toNat
  else match mode with
    | 0 => none
    | 1 => some (if y < 0 then 0 else i - 1)
    | 2 =>
      if i = 1 then some 0
      else
        let m := (y % (2 * ((i : Int) - 1))).toNat
        some (if m ≤ i - 1 then m else 2 * (i - 1) - m)
    | _ => some (y % (i : Int)).toNat

/-- The pixel that tap (y, x) reads; none when it lies in zero-mode padding. -/
def mapPixel (mode h w : Nat) (y x : Int) : Option (Nat × Nat) :=
  match mapCoord mode h y, mapCoord mode w x with
  | some a, some b => some (a, b)
  | _, _ => none

/-- A value under a block scale (R75). -/
def scaleVal (sc : Nat) (v : Val) : Val :=
  if sc = 255 then .nan
  else match v with
    | .fin n m e => .fin n m (e + ((sc : Int) - 127))
    | w => w

/-- Elements `i0` to `i0 + n - 1` of packed bytes under block scales, each with whether it is poisoned. Formats without
block scales ignore the scales. -/
def scaledElems (code : Nat) (bytes scales : List PByte) (i0 n : Nat) : List (Val × Bool) :=
  (List.range n).map (fun k =>
    let i := i0 + k
    let (x, p) := elemAt code bytes i
    if isMx code || isIntCode code then
      let sc := scales.getD (i / 32) ⟨0, true⟩
      (scaleVal sc.v.toNat (elemVal code x), p || sc.p)
    else (elemVal code x, p))

/-- Values converted along rows to a code other than ACC128, to nearest even: packed bytes, scale bytes and flags. A poisoned
value poisons its element; in an MX format its whole block and the block's scale (R89 to R92). -/
def convRow (code : Nat) (rnds : List Rnd) (vs : List (Val × Bool)) : List PByte × List PByte × BitVec 9 :=
  if isMx code then
    let blocks := (List.range (vs.length / 32)).map (fun b =>
      let l := (vs.drop (32 * b)).take 32
      let r := (rnds.drop (32 * b)).take 32
      if l.any Prod.snd then (l.map (fun _ => (0, true)), (⟨0, true⟩ : PByte), fPoisonOut)
      else
        let (sc, es, f) := convMx code r (l.map Prod.fst)
        (es.map (fun e => (e, false)), ⟨BitVec.ofNat 8 sc, false⟩, f))
    (packElems code (blocks.map (fun b => b.1)).flatten, blocks.map (fun b => b.2.1), flagsOr (blocks.map (fun b => b.2.2)))
  else
    let es : List (Nat × Bool × BitVec 9) := (vs.zip rnds).map (fun (v, r) =>
      if v.2 then (0, true, fPoisonOut)
      else match codeFmt code with
        | some f => let (e, fl) := convFloat f r v.1; (e, false, fl)
        | none => let (e, fl) := convInt (codeBits code) r v.1; (e, false, fl))
    (packElems code (es.map (fun e => (e.1, e.2.1))), if isIntCode code then [⟨0x7F, false⟩] else [], flagsOr (es.map (fun e => e.2.2)))

/-- Rounding to nearest even for `n` elements. -/
def rnes (n : Nat) : List Rnd := List.replicate n .rne

end Sys2Proof.Machine
end

