-- ==== Sys2Proof/Machine/UnitDesc.lean ====
section
/-! DEFINITION. The descriptors of sweeps and transform runs and the checks that precede them (R193, R194, R245, R247,
R248, R251), and the checks of addresses and conversion descriptors that other units share (R87, R119, R121). -/

namespace Sys2Proof.Machine

/-! ### Shared checks -/

/-- A failed check: the thread fault's cause, and the data address it carries; none when none applies. -/
abbrev Fail := Option (Nat × Option Nat)

/-- The first failure of a list of checks. -/
def firstFail : List Fail → Fail
  | [] => none
  | some f :: _ => some f
  | none :: t => firstFail t

/-- A failure of a cause without a data address, where a condition holds. -/
def failIf (b : Bool) (cause : Nat) : Fail := if b then some (cause, none) else none

/-- A range lies within a grant of the tile, a write grant for a store (R121). -/
def Tile.granted (t : Tile) (a n : Nat) (write : Bool) : Bool :=
  t.grants.toList.any (fun g => g.valid && (!write || g.write) && decide (g.base ≤ a ∧ a + n ≤ g.limit + 1))

/-- A range of T0 offsets lies in the scratchpad (R132). -/
def t0Fail (t o n : Nat) : Fail := if o + n ≤ t0TileSize then none else some (0x0004, some (t * t0TileSize + o))

/-- A range a unit reads or writes for a tile lies in the tile's own T0 or in a granted T1 range (R119, R121). -/
def State.unitFail (s : State) (t a n : Nat) (write : Bool) : Fail :=
  if n = 0 then none
  else if t * t0TileSize ≤ a ∧ a + n ≤ (t + 1) * t0TileSize then none
  else if t1Base ≤ a ∧ a + n ≤ t1Base + t1Size then
    if (s.tile t).granted a n write then none else some (0x0005, some a)
  else some (0x0004, some a)

/-- A range in a granted T1 range. -/
def State.t1Fail (s : State) (t a n : Nat) (write : Bool) : Fail :=
  if n = 0 then none
  else if t1Base ≤ a ∧ a + n ≤ t1Base + t1Size then
    if (s.tile t).granted a n write then none else some (0x0005, some a)
  else some (0x0004, some a)

/-- An output conversion descriptor is refused (R87): a reserved code or field, or stochastic ACC128. -/
def convBad (c : List Byte) : Bool :=
  let f := byteAt c 2
  decide (leAt c 0 2 ≥ 1024 ∨ f > 0xA ∨ byteAt c 3 ≥ 4 ∨ leAt c 6 2 ≠ 0 ∨ leAt c 12 4 ≠ 0) ||
    (f == 0xA && byteAt c 3 % 2 == 1)

/-- All bytes are 0. -/
def allZero (l : List Byte) : Bool := l.all (· == 0)

/-! ### Sweep descriptors (R194) -/

/-- OP: the sweep is backward. -/
def swBack (d : List Byte) : Bool := byteAt d 0 % 2 == 1
/-- The list of a sweep within its context. -/
def swList (d : List Byte) (q : SeqCtx) : Nat := leAt d 12 2 * q.heads + byteAt d 14
/-- Rows of the block. -/
def swRows (d : List Byte) : Nat := byteAt d 4 * byteAt d 5
/-- An E_b field. -/
def ebAt (d : List Byte) (o : Nat) : Int := sext 10 (leAt d o 2)

/-- T0 range of `r` rows of a format with its scales at `o` (R195). -/
def rowsLen (fmt d r : Nat) : Nat := if isMx fmt then 32 * packedBytes fmt d + r * (d / 32) else r * packedBytes fmt d

/-- DESCRIPTOR failures of a sweep descriptor that need no context (R193, R194). -/
def swDescBad (d : List Byte) : Bool :=
  let back := swBack d
  decide (byteAt d 0 ≥ 2 ∨ byteAt d 1 ≥ 8 ∨ byteAt d 2 ≥ 16 ∨ byteAt d 15 ≠ 0 ∨ leAt d 68 4 ≠ 0 ∨ leAt d 117 11 ≠ 0 ∨
    leAt d 8 4 ≥ 2 ^ 20 ∨ byteAt d 3 > 3 ∨ byteAt d 4 < 1 ∨ 32 < byteAt d 4 ∨ byteAt d 5 < 1 ∨ 32 < byteAt d 5 ∨
    32 < swRows d ∨ 1024 < leAt d 48 2 ∨ 10000000 < leAt d 52 4) ||
  [28, 30, 50, 86, 88, 90].any (fun o => decide (leAt d o 2 ≥ 1024)) ||
  (if bit (byteAt d 1) 1 = 1 then decide (leAt d 20 4 < 1 ∨ 2 ^ 31 < leAt d 20 4) else decide (leAt d 20 4 ≠ 0)) ||
  !fisFin (leAt d 24 4) || decide (leAt d 24 4 % 2 ^ 31 = 0) ||
  (if back then decide (4 ≤ byteAt d 2) else decide (leAt d 50 2 ≠ 0 ∨ leAt d 80 37 ≠ 0))

/-- ARITH_FORMAT failures of a sweep descriptor. -/
def swFormatBad (d : List Byte) : Bool :=
  let rope := byteAt d 2 % 2 == 1
  let out := byteAt d 7
  (if rope then byteAt d 6 != 7 else decide (4 < byteAt d 6)) ||
  (if swBack d then decide (out < 7 ∨ 0xA < out ∨ 4 < byteAt d 84 ∨ 1 < byteAt d 85) ||
      !(isMx (byteAt d 116) || (decide (7 ≤ byteAt d 116) && decide (byteAt d 116 ≤ 9)))
    else !(isMx out || (decide (7 ≤ out) && decide (out ≤ 9))))

/-- Device ranges of a block bitmap that rows and items can name: first byte and length of each bitmap row. -/
def swBitmapRanges (d : List Byte) (first last : Nat) : List (Nat × Nat) :=
  let q0 := leAt d 16 4 / 32
  let q1 := (leAt d 16 4 + byteAt d 4 - 1) / 32
  (List.range (q1 + 1 - q0)).map (fun i => (leAt d 56 8 + (q0 + i) * leAt d 64 4 + first / 256, last / 256 + 1 - first / 256))

/-- The check of a sweep's descriptor by the pipeline that takes it (R181, R193): the failure, if any. -/
def State.sweepFail (s : State) (r : Run) : Fail :=
  let pd := s.runDesc r
  let d := vals pd
  let base := r.tile * t0TileSize
  let rope := byteAt d 2 % 2 == 1
  let back := swBack d
  let id := leAt d 8 4
  let dim := headD (byteAt d 3)
  match pd.findIdx? PByte.p with
  | some i => some (0x0007, some (base + r.addr + i / 8 * 8))
  | none =>
    let mine := match s.jobOf r.ctx with | some j => j.client | none => (match s.ctx r.ctx with | some c => c.client | none => 0)
    let seq : Option SeqCtx := match s.ctx id with
      | some c => if c.kind = 0 ∧ !c.torn ∧ c.client = mine then c.seq else none
      | none => none
    let lst : Option (SeqCtx × KvList) := seq.bind (fun q =>
      if leAt d 12 2 < q.layers ∧ byteAt d 14 < q.heads then (q.lists[swList d q]?).map (fun l => (q, l)) else none)
    let shapeBad := match seq with | some q => decide (q.headDim ≠ byteAt d 3) | none => false
    let items := match lst with | some (_, l) => (l.visFirst, l.vis + leAt d 48 2) | none => (0, 0)
    let far := rope && decide (2 ^ 24 < max (leAt d 16 4 + byteAt d 4) items.2)
    let rows := swRows d
    let t0 (o n : Nat) : Fail := t0Fail r.tile o n
    firstFail [failIf (swDescBad d || shapeBad || far) 0x0009, failIf (swFormatBad d) 0x0001, failIf lst.isNone 0x0005,
      t0 (leAt d 32 4) (rowsLen (byteAt d 6) dim rows), t0 (leAt d 36 4) (rowsLen (byteAt d 7) dim rows),
      if back || bit (byteAt d 2) 3 == 1 then t0 (leAt d 40 4) (8 * rows) else none,
      if leAt d 48 2 ≠ 0 then t0 (leAt d 44 4) (4 * dim * leAt d 48 2) else none,
      if back then t0 (leAt d 80 4) (rowsLen (byteAt d 84) dim rows) else none,
      if back then t0 (leAt d 92 4) (rowsLen (byteAt d 116) dim rows) else none,
      if bit (byteAt d 1) 2 == 1 && decide (items.1 < items.2) then
        firstFail ((swBitmapRanges d items.1 (items.2 - 1)).map (fun x => s.unitFail r.tile x.1 x.2 false))
      else none,
      if rope then s.t1Fail r.tile (leAt d 72 8) (2 * dim) false else none,
      firstFail ([96, 104].map (fun o =>
        let lo := max items.1 (leAt d 112 4)
        if back && leAt d o 8 != 0 && decide (lo < items.2) then
          s.t1Fail r.tile (leAt d o 8 + (lo - leAt d 112 4) * dim * 32) ((items.2 - lo) * dim * 32) true
        else none))]

/-! ### Transform descriptors (R245) -/

/-- Rows and columns a CONVOLVE block reads: the first coordinate of each axis. -/
def xfOrigin (d : List Byte) : Int × Int :=
  let n := 2 ^ byteAt d 1
  let vy := n - byteAt d 14 * (byteAt d 12 - 1)
  let vx := n - byteAt d 15 * (byteAt d 13 - 1)
  ((leAt d 24 2 * vy : Nat) - (leAt d 16 2 : Nat), (leAt d 26 2 * vx : Nat) - (leAt d 20 2 : Nat))

/-- Output rows and columns of the layer (R232, stride 1). -/
def xfOut (d : List Byte) : Nat × Nat :=
  (outSize (leAt d 8 2) (byteAt d 12) 1 (byteAt d 14) (leAt d 16 2) (leAt d 18 2),
   outSize (leAt d 10 2) (byteAt d 13) 1 (byteAt d 15) (leAt d 20 2) (leAt d 22 2))

/-- The output positions a block writes. -/
def xfPositions (d : List Byte) : List (Nat × Nat) :=
  let n := 2 ^ byteAt d 1
  let vy := n - byteAt d 14 * (byteAt d 12 - 1)
  let vx := n - byteAt d 15 * (byteAt d 13 - 1)
  let (oh, ow) := xfOut d
  ((List.range vy).map (fun i => leAt d 24 2 * vy + i)).filter (· < oh) |>.flatMap (fun y =>
    (((List.range vx).map (fun i => leAt d 26 2 * vx + i)).filter (· < ow)).map (fun x => (y, x)))

/-- The pixels of the image a block reads, or the taps of the filter that SPECTRUM reads. -/
def xfPixels (d : List Byte) : List (Nat × Nat) :=
  if byteAt d 0 = 0 then (List.range (byteAt d 12)).flatMap (fun y => (List.range (byteAt d 13)).map (fun x => (y, x)))
  else
    let n := 2 ^ byteAt d 1
    let (y0, x0) := xfOrigin d
    ((List.range n).flatMap (fun (i : Nat) => (List.range n).filterMap (fun (j : Nat) =>
      mapPixel (byteAt d 2) (leAt d 8 2) (leAt d 10 2) (y0 + (i : Int)) (x0 + (j : Int))))).eraseDups

/-- Bytes of one spectrum. -/
def specBytes (n : Nat) : Nat := 8 * n * (n / 2 + 1)

/-- First byte and length of the packed channels C0 to C0 + CIN - 1 within a pixel (R76). -/
def chanRange (code c0 n : Nat) : Nat × Nat :=
  let w := codeBits code
  (w * c0 / 8, (w * (c0 + n) + 7) / 8 - w * c0 / 8)

/-- Bytes of an output pixel of `c` channels: its packed elements and, where the distance between pixels leaves room behind
them, the scale bytes of its blocks (PRESUMED: the spec names no place for them). -/
def pixBytes (code c dist : Nat) : Nat :=
  let n := packedBytes code c
  let k := if isMx code || isIntCode code then (c + 31) / 32 else 0
  if n + k ≤ dist then n + k else n

/-- DESCRIPTOR failures of a transform descriptor (R247, R251). -/
def xfDescBad (d : List Byte) : Bool :=
  let op := byteAt d 0
  let n := 2 ^ byteAt d 1
  let ey := byteAt d 14 * (byteAt d 12 - 1) + 1
  let ex := byteAt d 15 * (byteAt d 13 - 1) + 1
  decide (2 ≤ op ∨ byteAt d 1 < 4 ∨ 8 < byteAt d 1 ∨ 3 < byteAt d 2 ∨ leAt d 4 2 < 1 ∨ 4096 < leAt d 4 2 ∨ byteAt d 6 < 1 ∨
    32 < byteAt d 6 ∨ byteAt d 7 ≠ 0 ∨ byteAt d 12 < 1 ∨ 31 < byteAt d 12 ∨ byteAt d 13 < 1 ∨ 31 < byteAt d 13 ∨
    byteAt d 14 < 1 ∨ byteAt d 15 < 1 ∨ 31 < ey ∨ 31 < ex ∨ n < ey ∨ n < ex ∨ leAt d 28 4 ≠ 0 ∨ leAt d 58 2 ≠ 0 ∨
    leAt d 90 6 ≠ 0 ∨ leAt d 112 16 ≠ 0) ||
  (if op = 0 then decide (leAt d 4 2 ≠ 1 ∨ byteAt d 6 ≠ 1 ∨ leAt d 96 16 ≠ 0)
    else decide (leAt d 8 2 = 0 ∨ leAt d 10 2 = 0 ∨ 2097152 < byteAt d 6 * specBytes n ∨ leAt d 96 2 ≠ 0))

/-- ARITH_FORMAT failures of a transform descriptor: MX outputs need 32 channels (R247), and ACC128 is no output of an FP32
engine. -/
def xfFormatBad (d : List Byte) : Bool :=
  decide (9 < byteAt d 3) ||
  (byteAt d 0 == 1 && (convBad (slice d 96 16) || byteAt d 98 == 0xA || (isMx (byteAt d 98) && byteAt d 6 != 32)))

/-- The check of a transform run's descriptor by the engine that takes it (R251). -/
def State.xfFail (s : State) (r : Run) : Fail :=
  let pd := s.runDesc r
  let d := vals pd
  let t := r.tile
  match pd.findIdx? PByte.p with
  | some i => some (0x0007, some (t * t0TileSize + r.addr + i / 8 * 8))
  | none =>
    let n := 2 ^ byteAt d 1
    let code := byteAt d 3
    let c := chanRange code (leAt d 88 2) (leAt d 4 2)
    firstFail [failIf (xfDescBad d) 0x0009, failIf (xfFormatBad d) 0x0001,
      if xfDescBad d then none else
      firstFail ((xfPixels d).map (fun (y, x) =>
        firstFail [s.unitFail t (leAt d 32 8 + y * leAt d 44 4 + x * leAt d 40 4 + c.1) c.2 false,
          if isMx code || isIntCode code then
            s.unitFail t (leAt d 48 8 + y * leAt d 60 4 + x * leAt d 56 2 + leAt d 88 2 / 32)
              ((leAt d 88 2 + leAt d 4 2 + 31) / 32 - leAt d 88 2 / 32) false
          else none])),
      if byteAt d 0 = 0 then s.unitFail t (leAt d 64 8) (specBytes n) true
      else s.unitFail t (leAt d 64 8) (byteAt d 6 * leAt d 4 2 * specBytes n) false,
      if byteAt d 0 = 0 ∨ xfDescBad d then none
      else firstFail ((xfPositions d).map (fun (y, x) =>
        s.unitFail t (leAt d 72 8 + y * leAt d 84 4 + x * leAt d 80 4) (pixBytes (byteAt d 98) (byteAt d 6) (leAt d 80 4)) true))]

end Sys2Proof.Machine
end

