-- ==== Sys2Proof/Machine/Recover.lean ====
section
/-! DEFINITION. Teardown, thread faults, re-runs and reissues, charges, quarantine and retirement (R133, R134, R300, R429
to R440). -/

namespace Sys2Proof.Machine

/-! ### Giving back what a step holds -/

/-- Save areas of a spilled or spilling step freed, and its spilled-thread context closed (R283). -/
def State.freeAreas (s : State) (j : Job) : State :=
  let s1 := { s with sched := { s.sched with areas := s.sched.areas.filter (fun a => !j.areas.contains a) } }
  let s2 := match j.spillCtx with | some id => s1.dropCtx id | none => s1
  let s3 := s2.updCtx j.ctx (fun c => { c with job := { c.job with spilled := none } })
  s3.modJob j.uid (fun j => { j with areas := [], spillCtx := none, saved := [] })

/-- The golden out area of a job's step freed (R405). -/
def State.freeGolden (s : State) (j : Job) : State :=
  match j.goldenArea with
  | none => s
  | some (f, _) => (s.freeFrames f).modJob j.uid (fun j => { j with goldenArea := none })

/-- A job leaves the scheduler; the next job of its context becomes ready in its turn (R279). -/
def State.removeJob (s : State) (j : Job) : State :=
  let s1 := { s with sched := { s.sched with jobs := s.sched.jobs.filter (fun k => k.uid != j.uid) } }
  match s1.jobOf j.ctx with
  | some k => if k.state = .ready ∧ k.counted = false then s1.makeReady k.uid else s1
  | none => s1

/-- The step a job has in hand is given up: its crew dissolved, its areas freed, its model no longer in use. -/
def State.dropStep (s : State) (j : Job) : State :=
  let s1 := if j.crewed then s.dissolve j.tiles j.ctx else s
  let s2 := if j.areas.isEmpty then s1 else (s1.countLost j).freeAreas j
  let s3 := s2.freeGolden j
  if j.counted then s3.endUse j.model else s3

/-- The out range of a step holds undefined contents (R133, R281). -/
def State.undefineOut (s : State) (j : Job) : State :=
  match s.phaseOf j with
  | some p => if j.counted then s.scramble j.outAddr p.outBytes else s
  | none => s

/-- Every running command that names a context completes with a status (R300). -/
def State.finishCtxCmds (s : State) (ctx status detail : Nat) : State :=
  (s.host.queues.toList.flatMap (fun q => q.cmds.filter (fun c => c.ctx == some ctx && c.phase == .running))).foldl
    (fun s c => s.finishUid c.uid true status detail 0) s

/-! ### Teardown (R300) -/

/-- Pages of a torn-down context released: freed where HOLDS is 0, else as it falls to 0 (R210). -/
def State.releaseAll (s : State) (ctx : Nat) : State :=
  (s.allPages.filter (fun x => x.1 == ctx && x.2.2.2.state != .free)).foldl
    (fun s x => s.releasePage ctx x.2.1 x.2.2.1) s

/-- A teardown takes effect (R300): the step is dropped, jobs removed, semaphores broken, pages released, the commands
answered TORN_DOWN with the cause, and CONTEXT_TORN_DOWN raised. -/
def State.tearNow (s : State) (ctx cause : Nat) : State :=
  match s.ctx ctx with
  | none => s
  | some c =>
    if c.torn then s
    else
      let jobs := s.sched.jobs.filter (fun j => j.ctx == ctx)
      let s1 := jobs.foldl (fun s j => (s.undefineOut j).dropStep j) s
      let s2 := { s1 with sched := { s1.sched with jobs := s1.sched.jobs.filter (fun j => j.ctx != ctx)
                                                   boosts := s1.sched.boosts.filter (fun b => b.ctx != ctx) }
                          boat := { s1.boat with waits := s1.boat.waits.filter (fun w => w.ctx != ctx) }
                          plan := { s1.plan with
                            queue := s1.plan.queue.filter (fun (q : PlanQuery) => q.ctx != ctx)
                            units := s1.plan.units.map (fun (o : Option PlanQuery) => match o with
                              | some q => if q.ctx = ctx then none else some q | none => none) } }
      let s3 := s2.breakSems ctx
      let s4 := (s3.modCtx ctx (fun c => { c with torn := true, step := false })).releaseAll ctx
      let s5 := (s4.syncCtx ctx).finishCtxCmds ctx stTornDown cause
      let s6 := (s5.modClient c.client (fun k => { k with tornDown := k.tornDown.bump1 })).bump (schedCtr 0x28) 1
      s6.raise 0x0401 90 c.client (ctx + cause * 2 ^ 32)

/-- The cause a teardown carries: of thread faults on the crew, the earliest by elapsed count, of the lowest tile when two
share it (R134). -/
def State.tearCause (s : State) (j : Job) (cause : Nat) : Nat :=
  if cause ≥ 0x100 then cause
  else
    match j.tiles.filter (fun t => (s.tile t).faultValid) with
    | [] => cause
    | h :: l =>
      let best := l.foldl (fun a t =>
        if (s.tile t).faultAt < (s.tile a).faultAt ∨ ((s.tile t).faultAt = (s.tile a).faultAt ∧ t < a) then t else a) h
      (s.tile best).faultCause

/-- A context is torn down (R300): at once when no step of it holds a crew; else its crew stops issuing and drains, and
TEARDOWN_COMPLETE ends it. -/
def State.teardown (s : State) (ctx cause : Nat) : State :=
  match s.jobOf ctx with
  | some j =>
    if j.crewed then
      match j.state with
      | .tearing _ => s
      | _ => s.modJob j.uid (fun j => { j with state := .tearing cause })
    else (s.tearNow ctx cause).schedule
  | none => (s.tearNow ctx cause).schedule

/-- A context whose tables hold a poisoned word (R181, R213): the consumption counted, the context torn down. -/
def State.poisonTable (s : State) (ctx : Nat) : State := (s.bump (integCtr 0x38) 1).teardown ctx 0x0111

/-- A thread fault (R132 to R134): recorded in the tile when it is the first since the crew was formed, and the job's
context torn down. -/
def State.threadFault (s : State) (t th cause addr : Nat) : State :=
  let s1 := s.modTile t (fun x =>
    if x.faultValid then x
    else { x with faultCause := cause, faultThread := th, faultValid := true, faultAddr := addr % 2 ^ 48, faultAt := s.time.half })
  match (s.tile t).ctx with
  | some c => s1.teardown c cause
  | none => s1

/-- A thread's instruction faults; the address is the program counter when no data address applies (R130). -/
def State.faultPc (s : State) (t th cause : Nat) : State := s.threadFault t th cause ((s.tile t).thread th).pc

/-- A poisoned value is used as an address, a condition, a target or a descriptor field (R181). -/
def State.poisonUse (s : State) (t th addr : Nat) : State := (s.bump (integCtr 0x38) 1).threadFault t th 0x0007 addr

/-- TEARDOWN_COMPLETE (R133): the torn-down crew is idle; its job.submit replies TORN_DOWN and CONTEXT_TORN_DOWN is
raised. -/
def execTeardownComplete (ctx : Nat) (s : State) : Host.Outcome State Fault Refusal :=
  .next (match s.jobOf ctx with
    | none => s
    | some j =>
      match j.state with
      | .tearing cause => (s.tearNow ctx (s.tearCause j cause)).schedule
      | _ => s)

/-! ### Re-runs (R434) -/

/-- The in and out ranges of a job's phase overlap. -/
def State.rangesOverlap (s : State) (j : Job) : Bool :=
  match s.phaseOf j with
  | some p => decide (j.inAddr < j.outAddr + p.outBytes ∧ j.outAddr < j.inAddr + p.inBytes)
  | none => false

/-- A placement takes a write grant from RELOC. -/
def State.writesGrants (s : State) (j : Job) : Bool :=
  match s.model j.model, s.placementOf j j.placement with
  | some m, some p => (List.range p.grantCount).any (fun i =>
      match m.relocs[p.grants + 2 * i + 1]? with | some r => (m.relocated r).2 | none => false)
  | _, _ => false

/-- The crew of a step is given up and the step is ready again, picked before its client's others, on other tiles. -/
def State.restart (s : State) (j : Job) (avoid : List Nat) : State :=
  let s1 := (s.dissolve j.tiles j.ctx).freeGolden j
  let s2 := if j.areas.isEmpty then s1 else (s1.countLost j).freeAreas j
  let old := j.oldAppends ++ j.appends
  s2.modJob j.uid (fun j =>
    { j with state := .ready, urgent := true, avoid := avoid, oldAppends := old, appends := [] })

/-- A step that lost a tile is re-run from its start, or its context is torn down with UNIT_LOST (R434). -/
def State.rerun (s : State) (j : Job) (t : Nat) : State :=
  if s.rangesOverlap j || s.writesGrants j || j.merged || j.semTaken then s.teardown j.ctx 0x0130
  else ((s.restart j (t :: j.avoid)).bump (faultCtr 0x98) 1).schedule

/-- A running step of the crew a tile belongs to loses that tile. -/
def State.loseTile (s : State) (t : Nat) : State :=
  match s.tileJob t with
  | none => s
  | some j =>
    match j.state with
    | .tearing _ => s
    | .saving => s
    | _ => s.rerun j t

/-! ### Runs and queries (R192, R244, R308, R433) -/

/-- The class a run counts at. -/
def State.runClass (s : State) (r : Run) : Nat := match s.jobOf r.ctx with | some j => s.classOf j | none => 5

/-- The run a free unit takes: one reissued first, else the oldest of the highest class (R192, R433). -/
def State.nextRun (s : State) (l : List Run) : Option Nat :=
  match l.findIdx? (fun r => r.urgent) with
  | some i => some i
  | none =>
    (l.zipIdx.foldl (fun (a : Option (Run × Nat)) x =>
      match a with
      | none => some x
      | some b => if s.runClass x.1 < s.runClass b.1 then some x else a) none).map Prod.snd

/-- A run leaves its unit or its queue with a thread fault of the issuing thread (R133, R193, R251). -/
def State.runFault (s : State) (r : Run) (f : Nat × Option Nat) : State :=
  let s1 := if f.1 = 0x0007 then s.bump (integCtr 0x38) 1 else s
  s1.threadFault r.tile r.thread f.1 (f.2.getD r.pc)

/-- A count of outstanding runs of a thread lowered by one; the list keeps no 0. -/
def lowerCount (l : List (Nat × Nat)) (th : Nat) : List (Nat × Nat) :=
  l.filterMap (fun p => if p.1 = th then (if p.2 ≤ 1 then none else some (p.1, p.2 - 1)) else some p)

/-- Free transform engines take waiting runs and check their descriptors, by fuel (R244, R251). -/
def State.xfAssign : Nat → State → State
  | 0, s => s
  | f + 1, s =>
    match (List.range 8).find? (fun e => s.usable 2 e && (vget none s.xf.engines e).isNone), s.nextRun s.xf.queue with
    | some e, some i =>
      match s.xf.queue[i]? with
      | none => s
      | some r =>
        let s1 : State := { s with xf := { s.xf with queue := s.xf.queue.eraseIdx i } }
        match s.xfFail r with
        | some x => State.xfAssign f (s1.runFault r x)
        | none =>
          let s2 := s1.wakeDomain (68 + e / 2)
          State.xfAssign f { s2 with xf := { s2.xf with engines := vset s2.xf.engines e (some { r with desc := s.runDesc r, urgent := false }) } }
    | _, _ => s

/-! ### The page walker (R214, R224) -/

/-- Pages a list's snapshot covers (R196, R215). -/
def KvList.snapPages (l : KvList) (tpp : Nat) : List Nat :=
  if l.vis ≤ l.visFirst then [] else (List.range ((l.vis - 1) / tpp + 1 - l.visFirst / tpp)).map (· + l.visFirst / tpp)

/-- SPILLED pages of a snapshot up to 64 past the page the walker is on are fetched, in ascending order. -/
def State.prefetch (s : State) (id n : Nat) (pages : List Nat) (at_ : Nat) : State :=
  (pages.filter (fun i => decide (i ≤ at_ + 64))).foldl (fun s i =>
    if (s.page id n i).state = .spilled then (match s.startFetch id n i with | .ok s1 => s1 | .error _ => s) else s) s

/-- The walker of a pipeline goes on over pages it can read, raising their HOLDS, up to the first page it must wait for;
that page's deadline starts when the walker first needs it, by fuel. -/
def State.walkFrom (s : State) (p id n grace : Nat) (pages : List Nat) : Nat → State
  | 0 => s
  | f + 1 =>
    match vget none s.sweep.pipes p with
    | none => s
    | some w =>
      match pages.find? (fun i => !w.held.contains i && !w.replaced.contains i) with
      | none => { s with sweep := { s.sweep with pipes := vset s.sweep.pipes p (some { w with wait_ := none }) } }
      | some i =>
        let st := (s.page id n i).state
        if st.readable || st == .free then
          let s1 := s.modPage id n i (fun x => { x with holds := x.holds + 1 })
          State.walkFrom { s1 with sweep := { s1.sweep with pipes := vset s1.sweep.pipes p (some { w with held := w.held ++ [i] }) } }
            p id n grace pages f
        else
          let s1 := s.prefetch id n pages i
          let dl := match w.wait_ with | some (j, t) => if j = i then t else s.time.half + 2 * grace | none => s.time.half + 2 * grace
          { s1 with sweep := { s1.sweep with pipes := vset s1.sweep.pipes p (some { w with wait_ := some (i, dl) }) } }

/-- The context and the list a pipeline's sweep walks, with its descriptor. -/
def State.sweepList (s : State) (w : Sweep) : Option (Nat × Nat × SeqCtx × KvList × List Byte) :=
  let d := vals w.run.desc
  let id := leAt d 8 4
  match s.ctx id with
  | none => none
  | some c => c.seq.bind (fun q => (q.lists[swList d q]?).map (fun l => (id, swList d q, q, l, d)))

/-- The walker of a pipeline goes on. -/
def State.walk (s : State) (p : Nat) : State :=
  match vget none s.sweep.pipes p with
  | none => s
  | some w =>
    match s.sweepList w with
    | none => s
    | some (id, n, q, l, d) =>
      let pages := l.snapPages (tppOf q.headDim)
      s.walkFrom p id n (leAt d 52 4) pages (pages.length + 1)

/-- Every pipeline's walker goes on. -/
def State.walkAll (s : State) : State := (List.range 16).foldl State.walk s

/-- Free sweep pipelines take waiting sweeps, check their descriptors and begin their walks, by fuel (R192, R193, R213,
R224). -/
def State.sweepAssign : Nat → State → State
  | 0, s => s
  | f + 1, s =>
    match (List.range 16).find? (fun e => s.usable 1 e && (vget none s.sweep.pipes e).isNone), s.nextRun s.sweep.queue with
    | some e, some i =>
      match s.sweep.queue[i]? with
      | none => s
      | some r =>
        let s1 : State := { s with sweep := { s.sweep with queue := s.sweep.queue.eraseIdx i } }
        let id := leAt (vals (s.runDesc r)) 8 4
        match s.sweepFail r with
        | some x => State.sweepAssign f (s1.runFault r x)
        | none =>
          if s.tablesBad id then
            let s2 := s1.poisonTable id
            State.sweepAssign f (if id = r.ctx then s2 else s2.runFault r (0x0005, none))
          else
            let s2 := s1.wakeDomain (64 + e / 4)
            let w := Sweep.mk { r with desc := s.runDesc r, urgent := false } [] none []
            State.sweepAssign f (State.walk { s2 with sweep := { s2.sweep with pipes := vset s2.sweep.pipes e (some w) } } e)
    | _, _ => s

/-- Waiting sweeps and transform runs are given to the units that are free. -/
def State.runsPlace (s : State) : State := (s.sweepAssign (s.sweep.queue.length + 1)).xfAssign (s.xf.queue.length + 1)

/-- A planner context changed. -/
def State.modPlanCtx (s : State) (ctx : Nat) (f : PlanCtx → PlanCtx) : State :=
  s.updCtx ctx (fun c => { c with plan := f c.plan })

/-- Commands of plan.cancel that waited for a query complete (R319). -/
def State.endCancels (s : State) (q : PlanQuery) : State := q.cancels.foldl (fun s u => s.finishUid u false stDone 0 0) s

/-- A query that never searched replies a status (R308). -/
def State.dropQuery (s : State) (q : PlanQuery) (status : Nat) : State :=
  let s1 := s.modPlanCtx q.ctx (fun p => { p with state := 0, queries := min (p.queries + 1) 0xFFFFFFFF, lastStatus := status })
  (s1.finishUid q.uid true status 0 0).endCancels q

/-- The class of a query's client. -/
def State.queryClass (s : State) (q : PlanQuery) : Nat := match s.client q.client with | some c => c.cls | none => 4

/-- The waiting query that unit `u` may take: one reissued first, else the oldest of the highest class (R308, R433). -/
def State.nextQuery (s : State) (u : Nat) : Option Nat :=
  let l := s.plan.queue.zipIdx.filter (fun x => x.1.unit == 0xFF || x.1.unit == u)
  match l.find? (fun x => x.1.urgent) with
  | some x => some x.2
  | none =>
    (l.foldl (fun (a : Option (PlanQuery × Nat)) x =>
      match a with
      | none => some x
      | some b => if s.queryClass x.1 < s.queryClass b.1 then some x else a) none).map Prod.snd

/-- Free planner units take waiting queries, each under the map now current unless it is reissued, by fuel (R308, R312,
R324). -/
def State.planAssign : Nat → State → State
  | 0, s => s
  | f + 1, s =>
    match (List.range 4).findSome? (fun u =>
      if s.usable 3 u && (vget none s.plan.units u).isNone then (s.nextQuery u).map (fun i => (u, i)) else none) with
    | none => s
    | some (u, i) =>
      match s.plan.queue[i]? with
      | none => s
      | some q =>
        let q1 := if q.urgent then { q with urgent := false, searchAt := s.time.half }
          else { q with version := s.plan.version, base := s.plan.base, edge := s.plan.edge, takenAt := s.time.half
                        searchAt := s.time.half }
        let s1 := (s.wakeDomain (72 + u)).modPlanCtx q.ctx (fun p => { p with state := 2, unit := u })
        State.planAssign f { s1 with plan := { s1.plan with units := vset s1.plan.units u (some q1)
                                                            queue := s1.plan.queue.eraseIdx i } }

/-- Queries that wait for a unit that can never come reply NO_RESOURCE (R308). -/
def State.planPrune (s : State) : State :=
  let none_ := s.notRetired 3 == 0
  let lost (q : PlanQuery) : Bool := none_ || (q.unit != 0xFF && s.retired 3 q.unit)
  let dead := s.plan.queue.filter lost
  let s1 := { s with plan := { s.plan with queue := s.plan.queue.filter (fun q => !lost q) } }
  dead.foldl (fun s q => s.dropQuery q stNoResource) s1

/-- Queries are given to the units that are free. -/
def State.planPlace (s : State) : State := s.planPrune.planAssign (s.plan.queue.length + 1)

/-- Queued sweeps and transform runs of a type with no unit left tear their contexts down with UNIT_LOST (R439). -/
def State.pruneRuns (s : State) (ty : Nat) : State :=
  if s.notRetired ty = 0 then
    ((if ty = 1 then s.sweep.queue else s.xf.queue).map (fun r => r.ctx)).foldl (fun s c => s.teardown c 0x0130) s
  else s

/-- A unit's run or query is reissued from the start, ahead of every other (R433). -/
def State.reissue (s : State) (ty n : Nat) : State :=
  match ty with
  | 1 =>
    match vget none s.sweep.pipes n with
    | none => s
    | some w =>
      let s1 := s.dropHolds w
      ({ s1 with sweep := ⟨vset s1.sweep.pipes n none, { w.run with urgent := true } :: s1.sweep.queue⟩ }).bump (faultCtr 0x90) 1
  | 2 =>
    match vget none s.xf.engines n with
    | none => s
    | some r => ({ s with xf := ⟨vset s.xf.engines n none, { r with urgent := true } :: s.xf.queue⟩ }).bump (faultCtr 0x90) 1
  | 3 =>
    match vget none s.plan.units n with
    | none => s
    | some q =>
      let q1 := { q with urgent := true, counts := PlanCounts.zero, researches := 0, unit := 0xFF, check := none }
      (({ s with plan := { s.plan with units := vset s.plan.units n none, queue := q1 :: s.plan.queue } }).modPlanCtx q.ctx
        (fun p => { p with state := 1 })).bump (faultCtr 0x90) 1
  | _ => s

/-! ### Fusion stops (R351) -/

/-- Fusion stops: the instant in progress writes no record, and every track is deleted. -/
def State.fuseStop (s : State) : State :=
  if s.fuse.enabled then
    let ids := (s.ctxs.filter (fun p => p.2.kind == 1)).map Prod.fst
    let s1 := ids.foldl (fun s id => s.dropCtx id) s
    { s1 with fuse := { s1.fuse with enabled := false, instants := [], paired := [], carried := [] } }
  else s

/-! ### Quarantine, charges and retirement (R429 to R440) -/

/-- DETAIL of UNIT_QUARANTINED and the low part of UNIT_RETIRED's. -/
def unitDetail (ty cause : Nat) : Nat := ty + cause * 256

/-- A usable unit is fenced and quarantined, its probe started (R440). -/
def State.quarantine (s : State) (ty n cause : Nat) : State :=
  if (s.unit ty n).state = .usable then
    ((s.modUnit ty n (fun u => { u with state := .quarantined, fenced := true, since := s.time.half })).bump
      (faultCtr 0xA0) 1).raise 0x0C01 (unitDomain ty n) n (unitDetail ty cause)
  else s

/-- T1 withdrawn beyond the reserve by one more retirement, if it is: the lowest and highest T1 device address of that
GiB (R145). -/
def State.beyondReserve (s : State) : Option (Nat × Nat) :=
  let k := s.fault.t1Withdrawn + 1
  if s.tier.reserveGib < k ∧ k ≤ 256 then some (t1Base + (256 - k) * 2 ^ 30, t1Base + (257 - k) * 2 ^ 30 - 1) else none

/-- Bytes of a frame copied whether or not it is withdrawn. -/
def State.copyFrame (s : State) (src dst : Nat) : State :=
  s.storeBytes (frameAddr dst) ((List.range 16384).map (fun i => s.storedByte (frameAddr src + i)))

/-- A new frame outside the GiB about to be withdrawn, pages being freed for it as for an append. -/
def State.frameBelow (s : State) : Except Nat (Nat × State) :=
  match ({ s with fault := { s.fault with t1Withdrawn := s.fault.t1Withdrawn + 1 } }).takeFrame with
  | .ok (f, s1) => .ok (f, { s1 with fault := { s1.fault with t1Withdrawn := s.fault.t1Withdrawn } })
  | .error e => .error e

/-- The page whose frame lies in a GiB about to be withdrawn is handled by its state (R223): a CLEAN page is freed and a RESIDENT
one spilled where R220 and R221 let it be chosen, a FILLING one copied into a new frame; a FETCHING one gets a new frame to
arrive in. DESIGN CHOICE (log entry 100) for FETCHING and SPILLING, of which R223 does not speak. None when it cannot be done. -/
def State.movePage (s : State) (id n i : Nat) : Option State :=
  let p := s.page id n i
  match p.state with
  | .clean => if s.spillable id p then some (s.leaveT1 id n i) else none
  | .resident =>
    if s.spillable id p && s.boat.spillEnable && !s.sagging then s.startSpill id n i else none
  | .filling =>
    match s.frameBelow with
    | .ok (f, s1) => some (((s1.copyFrame p.frame f).freeFrames p.frame).setPage id n i (fun p => { p with frame := f }))
    | .error _ => none
  | .fetching =>
    match s.frameBelow with
    | .ok (f, s1) => some ((s1.freeFrames p.frame).setPage id n i (fun p => { p with frame := f }))
    | .error _ => some ((s.freeFrames p.frame).setPage id n i (fun p => { p with state := .spilled, frame := 0 }))
  | .spilling => if p.holds = 0 then some s else none
  | _ => some s

/-- Pages whose frames lie in a GiB about to be withdrawn are moved (R223); answers the contexts that cannot keep theirs. -/
def State.movePages (s : State) (lo hi : Nat) : State × List Nat :=
  let inside (p : Page) : Bool := p.state.hasFrame && decide (lo ≤ frameAddr p.frame) && decide (frameAddr p.frame ≤ hi)
  (s.allPages.filter (fun x => inside x.2.2.2)).foldl (fun acc x =>
    if inside (acc.1.page x.1 x.2.1 x.2.2.1) then
      match acc.1.movePage x.1 x.2.1 x.2.2.1 with
      | some s1 => (s1, acc.2)
      | none => (acc.1, x.1 :: acc.2)
    else acc) (s, [])

/-- A tile holds a grant that overlaps a range. -/
def Tile.grantedOver (x : Tile) (lo hi : Nat) : Bool :=
  x.grants.toList.any (fun g => g.valid && decide (g.base ≤ hi) && decide (lo ≤ g.limit))

/-- Contexts with a grant that overlaps a range: of a crew, or of a spilled step. -/
def State.grantedOver (s : State) (lo hi : Nat) : List Nat :=
  ((List.range 128).filterMap (fun t => if (s.tile t).grantedOver lo hi then (s.tile t).ctx else none) ++
    (s.sched.jobs.filter (fun j => j.saved.any (fun x => x.grantedOver lo hi))).map Job.ctx).eraseDups

/-- One more T1 GiB is withdrawn (R144, R145, R184). -/
def State.withdrawT1 (s : State) (c : Nat) : State :=
  let add (s : State) : State :=
    { s with fault := { s.fault with t1Withdrawn := s.fault.t1Withdrawn + 1
                                     t1Rebuilds := s.fault.t1Rebuilds ++ [Rebuild.mk c 0 [] []] } }.spillBackground
  match s.beyondReserve with
  | none => add s
  | some (lo, hi) =>
    let users := s.grantedOver lo hi
    let (s1, bad) := s.movePages lo hi
    let s2 := add s1
    let warm := (s2.boat.models.filter (fun p =>
      match p.2.warm with
      | some w => decide (lo < frameAddr (w.first + w.count) ∧ frameAddr w.first ≤ hi)
      | none => false)).map Prod.fst
    let s3 := warm.foldl (fun s h => s.forceTier h 2) s2
    (users ++ bad).eraseDups.foldl (fun s id => s.teardown id 0x0110) s3

/-- 64 GiB more of NVS are withdrawn and the channel is rebuilt (R437). -/
def State.withdrawNvs (s : State) (c : Nat) : State :=
  let s1 : State := { s with fault := { s.fault with nvsWithdrawn := s.fault.nvsWithdrawn + 64,
                                                     nvsRebuilds := s.fault.nvsRebuilds ++ [Rebuild.mk c 0 [] []] } }
  let top := (2048 - s1.fault.nvsWithdrawn) * 2 ^ 18
  let hit := (s1.boat.models.filter (fun (p : Nat × Model) => decide (top < p.2.home.first + p.2.home.count))).map Prod.fst
  hit.foldl (fun s h => s.forceTier h 3) s1

/-- What a retirement does to the work and the capacity of its type (R436). -/
def State.retireEffect (s : State) (ty n : Nat) : State :=
  match ty with
  | 0 =>
    let s1 := s.loseTile n
    ((s1.boat.models.filter (fun p => p.2.hotTiles.contains n)).map Prod.fst).foldl (fun s h => s.forceTier h 1) s1
  | 1 => (s.reissue 1 n).runsPlace.pruneRuns 1
  | 2 => (s.reissue 2 n).runsPlace.pruneRuns 2
  | 3 => (s.reissue 3 n).planPlace
  | 4 => s.withdrawT1 n
  | 5 => s.withdrawNvs n
  | _ => { s with fuse := { s.fuse with degraded := s.fuse.enabled || s.fuse.degraded } }.fuseStop

/-- A unit is retired (R435): fenced, marked, UNIT_RETIRED raised with the units of its type that remain, its work
recovered. A retirement under R11 (cause 9) is not recorded and recovers nothing. -/
def State.retire (s : State) (ty n cause : Nat) : State :=
  if unitCount ty ≤ n ∨ s.retired ty n then s
  else
    let s1 := s.modUnit ty n (fun u =>
      { u with state := .retired, fenced := true, cause := cause, since := s.time.half, confirmed := false
               recorded := u.recorded || cause != 9, byBridge := decide (cause = 9)
               lifetime := if cause = 9 then u.lifetime else min (u.lifetime + 1) 0xFFFF })
    let s2 := (s1.bump (faultCtr 0xB0) 1).raise 0x0C03 (unitDomain ty n) n (unitDetail ty cause + s1.notRetired ty * 65536)
    if cause = 9 then s2 else (s2.retireEffect ty n).schedule

/-- Charges of a unit within its window of time `t` (R429). -/
def State.level (s : State) (ty n : Nat) : Nat :=
  let b := vget ⟨1, 1⟩ s.fault.buckets ty
  ((s.unit ty n).charges.filter (fun c => decide (s.time.half < c + b.windowMs * 2000000))).length

/-- A charge enters a unit's bucket and retires the unit when its threshold is reached (R429). -/
def State.charge (s : State) (ty n cause : Nat) : State :=
  if unitCount ty ≤ n ∨ s.retired ty n ∨ 6 ≤ ty then s
  else
    let s1 := s.modUnit ty n (fun u =>
      { u with charges := (s.time.half :: u.charges).take 16, cause := cause, count := min (u.count + 1) 0xFFFFFFFF
               lastMs := s.time.half / 2000000 % 2 ^ 32 })
    if (vget ⟨1, 1⟩ s1.fault.buckets ty).threshold ≤ s1.level ty n then s1.retire ty n cause else s1

/-- A quarantine ends by a passed probe: the fence opens and work goes on (R440). -/
def State.restore (s : State) (ty n : Nat) : State :=
  if (s.unit ty n).state = .quarantined then
    let s1 := ((s.modUnit ty n (fun u => { u with state := .usable, fenced := false, byBridge := false, recorded := false })).bump
      (faultCtr 0xA8) 1).raise 0x0C02 (unitDomain ty n) n ty
    match ty with
    | 0 => s1.schedule
    | 1 => s1.runsPlace
    | 2 => s1.runsPlace
    | 3 => s1.planPlace
    | _ => s1
  else s

end Sys2Proof.Machine
end

