-- ==== Sys2Proof/Machine/Home.lean ====
section
/-! DEFINITION. Thread stores as they are performed at home: memory, host windows and the feed-forward mailboxes (R123,
R182, R372). -/

namespace Sys2Proof.Machine

/-- The chain and the offset in its mailbox that a device address names (R372). -/
def mailboxAt (a : Nat) : Option (Nat × Nat) :=
  let b := 0x090100000000
  if b ≤ a ∧ a < b + 0x800 ∧ (a - b) % 0x200 < 264 then some ((a - b) / 0x200, (a - b) % 0x200) else none

/-- A list with bytes written from an offset; `none` leaves a byte. -/
def overlay : List PByte → Nat → List (Option PByte) → List PByte
  | [], _, _ => []
  | x :: l, 0, o :: b => o.getD x :: overlay l 0 b
  | x :: l, 0, [] => x :: l
  | x :: l, n + 1, b => x :: overlay l n b

/-- The words, by device address, that poisoned bytes stored from an address enter. -/
def poisonedWords (a : Nat) (b : List (Option PByte)) : List Nat :=
  ((b.zipIdx.filter (fun x => match x.1 with | some y => y.p | none => false)).map (fun x => (a + x.2) / 8 * 8)).eraseDups

/-- Poison enters a host window through a thread's store, in `n` words, the first at `a` (R182): POISON_OUT, and
POISON_CONSUMED once in the batch step. -/
def State.poisonWindow (s : State) (t a n : Nat) : State :=
  let s1 := (s.raiseFlags t fPoisonOut).bump (integCtr 0x38) n
  match s1.tileJob t with
  | none => s1.raise 0x0202 (t / 2) t a
  | some j =>
    if j.poisonRaised then s1
    else (s1.modJob j.uid (fun j => { j with poisonRaised := true })).raise 0x0202 (t / 2) t a

/-- A store of a tile performed at its home. A store to COMMIT sends the mailbox's bytes as they stand over the die bridge (R373). -/
def State.homeStore (s : State) (t a : Nat) (b : List (Option PByte)) : State :=
  match mailboxAt a with
  | some (c, o) =>
    let client := match s.tileJob t with | some j => j.client | none => 0
    let m := overlay (vget Chain.reset s.stroke.chains c).mailbox o b
    let commit := o == 256 && b.length == 8
    { s with stroke := { s.stroke with
        chains := vmod s.stroke.chains c (fun x => { x with mailbox := m })
        crossing := if commit then s.stroke.crossing ++ [⟨c, client, m⟩] else s.stroke.crossing } }
  | none =>
    let s1 := s.storeMasked a b
    if isSram a then
      match poisonedWords a b with
      | w :: l => s1.poisonWindow t w (l.length + 1)
      | [] => s1
    else s1

/-- Everything a tile has sent, then everything its write-combining buffer holds, performed at home in order. -/
def State.settleStores (s : State) (t : Nat) : State :=
  let x := s.tile t
  let s1 := (x.out ++ x.wc).foldl (fun s w => s.homeStore t w.addr w.bytes) s
  s1.modTile t (fun x => { x with out := [], wc := [] })

end Sys2Proof.Machine
end

