-- ==== Sys2Proof/Machine/Access.lean ====
section
/-! DEFINITION. Reads that meet stored errors: what is counted, charged and written back (R166 to R185, R431, R432). -/

namespace Sys2Proof.Machine

/-! ### Stored errors struck into memory -/

/-- The stored bits that an upset inverts in a line, in the order of its frame. In byte mode the check bits of a byte are its own; in
line mode check byte K_j goes with data byte j, for j below 40. An error that cannot be corrected inverts two bits of the byte in byte
mode, and a bit of 21 bytes in line mode. -/
def upsetFlaw (u : Upset) (line : Bool) : List Byte :=
  let j := u.addr % 64
  let data (f : Nat → Nat) : List Byte := (List.range 64).map (fun i => BitVec.ofNat 8 (f i))
  if u.kind = 0 then
    data (fun i => if i = j then u.flips % 256 else 0) ++
      (if line then (List.range 40).map (fun i => BitVec.ofNat 8 (if i = j then u.flips / 256 % 256 else 0))
       else toLe 40 (u.flips / 256 % 32 * 2 ^ (5 * j)))
  else
    let n := if u.kind = 1 then 1 else if line then 21 else 1
    let v := if u.kind = 1 then 1 else if line then 1 else 3
    data (fun i => if (i + 64 - j) % 64 < n then v else 0) ++ toLe 40 0

/-- Two patterns together. -/
def joinFlaws (a b : List Byte) : List Byte := if a.isEmpty then b else (a.zip b).map (fun x => x.1 ^^^ x.2)

/-- Numbers added to a strictly rising list. -/
def insertAll (l : List Nat) (x : List Nat) : List Nat := x.foldl insertSorted l

/-- A stored error struck into T0, T1, NVS or host-window SRAM just before an access: the outside supplies it. A T1 block or an
NVS page never written holds nothing to strike. In NVS any pattern makes its byte a bad byte of its page, and 97 of them make the
page uncorrectable (R183). -/
def State.strike (s : State) (u : Upset) : State :=
  let l := u.addr / 64 * 64
  if isSram u.addr then s.strikeSram u
  else if isT0 u.addr || (isT1 u.addr && s.store.t1Written.contains (t1Block (u.addr - t1Base))) then
    if u.kind = 2 && isT1 u.addr then { s with store := { s.store with flaky := insertSorted s.store.flaky l } }
    else s.setFlaw l (joinFlaws (s.flawOf l) (upsetFlaw u (s.kindOf l == .line)))
  else if isNvs u.addr && s.store.nvsWritten.contains ((u.addr - nvsBaseAddr) / 4096) then
    let p := u.addr / 4096 * 4096
    if u.kind = 2 then { s with store := { s.store with flaky := insertSorted s.store.flaky p } }
    else if u.kind = 0 && u.flips % 2 ^ 16 == 0 then s
    else
      let n := if u.kind = 0 ∨ u.kind = 1 then 1 else 97
      { s with store := { s.store with
          nvsBad := insertAll s.store.nvsBad ((List.range n).map (fun i => p + (u.addr % 4096 + i) % 4096)) } }
  else s

/-! ### Requests that are held (R184, R432, R437, R440) -/

/-- A number a demand access waits for, of the rebuild that copies its channel and has not copied it. -/
def Rebuild.ask (r : Rebuild) (c g : Nat) : Rebuild :=
  if r.chan = c ∧ r.next ≤ g ∧ r.ahead.contains g = false ∧ r.front.contains g = false then { r with front := r.front ++ [g] } else r

/-- A T1 channel's granule has its data at hand: it is not awaiting its copy of a rebuild. -/
def State.granuleCopied (s : State) (c off : Nat) : Bool :=
  s.fault.t1Rebuilds.all (fun r => r.chan != c || decide (off / 256 < r.next) || r.ahead.contains (off / 256))

/-- A page of NVS has its data at hand. -/
def State.pageCopied (s : State) (p : Nat) : Bool :=
  s.fault.nvsRebuilds.all (fun r => r.chan != nvsChan p || decide (p / 32 < r.next) || r.ahead.contains (p / 32))

/-- A request for a range is held: a channel it names is fenced in quarantine, or a granule or page of it awaits its copy. -/
def State.heldRange (s : State) (a n : Nat) : Bool :=
  if n = 0 ∨ s.isWithdrawn a then false
  else if isT1 a then
    (List.range ((a % 256 + n + 255) / 256)).any (fun i =>
      let o := a / 256 * 256 - t1Base + 256 * i
      s.quarantined 4 (t1Chan o) || (s.retired 4 (t1Chan o) && !s.granuleCopied (t1Chan o) (t1ChanOff o)))
  else if isNvs a then
    (List.range ((a % 4096 + n + 4095) / 4096)).any (fun i =>
      let p := (a - nvsBaseAddr) / 4096 + i
      s.quarantined 5 (nvsChan p) || (s.retired 5 (nvsChan p) && !s.pageCopied p))
  else false

/-- A demand access that finds a range held moves the granules and pages it waits for to the front of their copy (R184, R437). -/
def State.hold (s : State) (l : List (Nat × Nat)) : State :=
  l.foldl (fun s x =>
    if x.2 = 0 ∨ s.isWithdrawn x.1 then s
    else if isT1 x.1 then
      (List.range ((x.1 % 256 + x.2 + 255) / 256)).foldl (fun s i =>
        let o := x.1 / 256 * 256 - t1Base + 256 * i
        { s with fault := { s.fault with t1Rebuilds := s.fault.t1Rebuilds.map (fun r => r.ask (t1Chan o) (t1ChanOff o / 256)) } }) s
    else if isNvs x.1 then
      (List.range ((x.1 % 4096 + x.2 + 4095) / 4096)).foldl (fun s i =>
        let p := (x.1 - nvsBaseAddr) / 4096 + i
        { s with fault := { s.fault with nvsRebuilds := s.fault.nvsRebuilds.map (fun r => r.ask (nvsChan p) (p / 32)) } }) s
    else s) s

/-! ### What a demand read does besides delivering its bytes -/

/-- The bytes of a word. -/
def inWord (k j : Nat) : Bool := j / 8 == k

/-- A word of T0 read (R168, R169, R431). -/
def State.noteT0 (s : State) (w : Nat) : State :=
  let l := w / 64 * 64
  let f := s.flawOf l
  if f.isEmpty then s
  else
    let k := w % 64 / 8
    let r := s.lineRead l
    let s1 := s.bump (integCtr 0x00) (r.ce.getD k 0)
    if r.ue.getD k false then
      ((({ s1 with mem := s1.mem.clear w 8 }.setFlaw l (flawWithout f (inWord k))).bump (integCtr 0x08) 1)).charge 0 (w / t0TileSize) 3
    else s1

/-- A line of T1 that a read has found uncorrectable: the poison form or the marker is written back to the affected words, and it is
counted and charged (R179, R431). -/
def State.loseLine (s : State) (l : Nat) (r : LineRead) : State :=
  let c := t1Chan (l - t1Base)
  let gone (j : Nat) : Bool := r.ue.getD (j / 8) false
  let s1 : State := { s with mem := s.mem.poisonWords (((List.range 8).filter (fun k => r.ue.getD k false)).map (fun k => l + 8 * k)) }
  (((s1.setFlaw l (flawWithout (s.flawOf l) gone)).modChanRec c (fun x => { x with ue := min (x.ue + 1) 0xFFFFFFFF })).bump
    (integCtr 0x18) 1).charge 4 c 3

/-- A line of T1 read (R168, R170, R178, R179, R185, R188, R189, R431): a demand read that counts a corrected error puts the line
on its channel's repair list. A first read alone that failed counts one corrected error. DESIGN CHOICE (log entry 98). -/
def State.noteT1 (demand : Bool) (s : State) (l : Nat) : State :=
  let o := l - t1Base
  let c := t1Chan o
  if s.isWithdrawn l then s
  else if !s.store.t1Written.contains (t1Block o) then s.bump (integCtr 0x30) 1
  else if (s.flawOf l).isEmpty && !s.flakyAt l then s
  else
    let r := s.lineRead l
    let n := r.corrected + b2n (s.flakyAt l && !r.bad)
    let s1 := (s.steady l).countT1 l n (if s.kindOf l = .line then r.corrected else 0)
    let s2 := if demand && decide (0 < n) then
        s1.modChanRec c (fun x => { x with repair := ((o / 64) :: x.repair.filter (· != o / 64)).take 16 }) else s1
    if r.bad then s2.loseLine l r else s2

/-- A poison-mask metadata write of an NVS page: a page write, deferred while the supply is low (R183). -/
def State.maskWrite (s : State) (p : Nat) : State :=
  if s.sagging then { s with store := { s.store with nvsDeferred := insertSorted s.store.nvsDeferred p } }
  else { s with tier := { s.tier with wear := vmod s.tier.wear (p % 2) (· + 1) } }

/-- Bytes of an NVS page read (R183, R188, R431): the page's code corrects up to 96 bad bytes; the words with a bad byte of a page
with more are poisoned in its mask. -/
def State.noteNvs (s : State) (a n : Nat) : State :=
  let p := (a - nvsBaseAddr) / 4096
  let page := nvsBaseAddr + 4096 * p
  if s.isWithdrawn a then s
  else if !s.store.nvsWritten.contains p then s.bump (integCtr 0x30) ((a % 64 + n + 63) / 64)
  else if (s.badBytes p).isEmpty && !s.flakyAt page then s
  else if (s.badWords p).isEmpty then (s.steady page).countNvsCe p
  else ((((s.steady page).maskPage p).maskWrite p).countNvsUe p).charge 5 (nvsChan p) 3

/-- A demand read of a range: every stored error it meets is counted, charged and written back as its store has it. The
bytes delivered are those of `peek`. -/
def State.noteRead (s : State) (a n : Nat) : State :=
  if n = 0 then s
  else if isT0 a then (List.range ((a % 8 + n + 7) / 8)).foldl (fun s i => s.noteT0 (a / 8 * 8 + 8 * i)) s
  else if isT1 a then (List.range ((a % 64 + n + 63) / 64)).foldl (fun s i => s.noteT1 true (a / 64 * 64 + 64 * i)) s
  else if isNvs a then
    (List.range ((a % 4096 + n + 4095) / 4096)).foldl (fun s i =>
      let lo := if i = 0 then a else a / 4096 * 4096 + 4096 * i
      let hi := min (a + n) (a / 4096 * 4096 + 4096 * (i + 1))
      s.noteNvs lo (hi - lo)) s
  else if isSram a then
    (List.range ((a % 8 + n + 7) / 8)).foldl (fun s i => (s.readSramWord (a / 8 * 8 + 8 * i)).1) s
  else s

/-- Several ranges read. -/
def State.noteReads (s : State) (l : List (Nat × Nat)) : State := l.foldl (fun s r => s.noteRead r.1 r.2) s

/-- Upsets struck, then a range read: the state after, and the bytes delivered. -/
def State.readWith (s : State) (ups : List Upset) (a n : Nat) : State × List PByte :=
  let s1 := ups.foldl State.strike s
  (s1.noteRead a n, s1.peek a n)

end Sys2Proof.Machine
end

