-- ==== Sys2Proof/Machine/Operands.lean ====
section
/-! DEFINITION. Operand forms of a tile's instructions: registers with their poison, immediates, sizes and addresses (R112, R116,
R119 to R121, R267). -/

namespace Sys2Proof.Machine

/-! ### Registers and immediates -/

/-- A value with its poison bit. -/
abbrev PVal := Nat × Bool

/-- A scalar operand. -/
def Thread.operand (t : Thread) (r : Nat) : PVal := (t.getX r, t.poisonX r)

/-- A scalar result: a poisoned one holds 0 (R169). -/
def Thread.put (t : Thread) (r : Nat) (v : PVal) : Thread := t.setX r (if v.2 then 0 else v.1 % 2 ^ 64) v.2

/-- IMM sign-extended to 64 bits. -/
def imm64 (imm : Nat) : Nat := wrap 64 (sext 32 imm)

/-- RA + IMM. -/
def Thread.effAddr (t : Thread) (ra imm : Nat) : PVal := ((t.getX ra + imm64 imm) % 2 ^ 64, t.poisonX ra)

/-- Bytes of a load or store from MOD [1:0]. -/
def sizeOf2 (mod : Nat) : Nat := 2 ^ (mod % 4)

/-- A vector register named by bits [2:0] of a register field: its lanes and its words' poison bits. -/
def Thread.vreg (t : Thread) (r : Nat) : Vector Word32 64 × BitVec 32 :=
  (vget (Vector.replicate 64 0) t.v (r % 8), vget 0 t.vp (r % 8))

/-- A vector register written. -/
def Thread.putV (t : Thread) (r : Nat) (v : Vector Word32 64) (p : BitVec 32) : Thread :=
  { t with v := vset t.v (r % 8) (Vector.ofFn (fun i : Fin 64 => if p.getLsbD (i.val / 2) then 0 else v[i])), vp := vset t.vp (r % 8) p }

/-! ### Addresses -/

/-- Base of a tile's block in control space (R130). -/
def tileBlock (t : Nat) : Nat := 0x080001000000 + t * 0x1000

/-- The tile that holds a rank of a tile's crew (R116). -/
def State.rankTile (s : State) (t k : Nat) : Option Nat :=
  if k < (s.tile t).size then (s.tileJob t).bind (fun j => j.tiles[k]?) else none

/-- Tile of a crew alias address, and the T0 address it reaches (R116). -/
def State.unalias (s : State) (t a : Nat) : Option Nat :=
  (s.rankTile t ((a - 0x10000000) / t0TileSize)).map (fun u => u * t0TileSize + (a - 0x10000000) % t0TileSize)

/-- A feed-forward mailbox's bytes, and nothing else of its 0x200 (R372). -/
def inMailbox (a n : Nat) : Bool :=
  decide (0x090100000000 ≤ a ∧ a < 0x090100000800 ∧ (a - 0x090100000000) % 0x200 + n ≤ 264)

/-- A range of T0 and crew-alias addresses cut at the end of the scratchpad it begins in. An access has at most 2 MiB, so that
two parts are enough. -/
def scratchCut (a n : Nat) : List (Nat × Nat) :=
  let m := min n (t0TileSize - a % t0TileSize)
  (a, m) :: (if m < n then [(a + m, n - m)] else [])

/-- The T0 addresses that a range below 0x2000_0000 reaches, each part through its own rank (R116, R119); none when a rank of it
is not below the crew size. -/
def State.scratch (s : State) (t a n : Nat) : Option (List (Nat × Nat)) :=
  (scratchCut a n).mapM (fun p => if p.1 < 0x10000000 then some p else (s.unalias t p.1).map (fun b => (b, p.2)))

/-- The parts that an access of `n` bytes by a thread reaches, or the cause of its fault (R119, R121, R130). A write to control space
outside the thread's own block has cause ADDRESS. DESIGN CHOICE (log entry 93): R119 gives ADDRESS for any other address,
R132 gives PERMISSION for a forbidden control-space write. -/
def State.pieces (s : State) (t a n : Nat) (write : Bool) : Except Nat (List (Nat × Nat)) :=
  if a + n ≤ 0x20000000 then
    match s.scratch t a n with
    | some l => .ok l
    | none => .error 0x0004
  else if t1Base ≤ a ∧ a + n ≤ t1Base + t1Size then
    if (s.tile t).granted a n write then .ok [(a, n)] else .error 0x0005
  else if tileBlock t ≤ a ∧ a + n ≤ tileBlock t + 0x1000 then
    if write ∧ ¬(tileBlock t + 0x40 ≤ a ∧ a + n ≤ tileBlock t + 0x48) then .error 0x0005 else .ok [(a, n)]
  else if windowBase 0 ≤ a ∧ a + n ≤ windowBase 2 then
    if (s.tile t).granted a n write then .ok [(a, n)] else .error 0x0005
  else if inMailbox a n then .ok [(a, n)]
  else .error 0x0004

/-- The address an access of `n` bytes by a thread reaches: its first part's, the only part of a scalar one. -/
def State.reach (s : State) (t a n : Nat) (write : Bool) : Except Nat Nat :=
  match s.pieces t a n write with
  | .error c => .error c
  | .ok l => .ok (l.headD (a, n)).1

/-- The parts that an access of `n` bytes by a bow engine reaches (R119, R121). -/
def State.bowPieces (s : State) (t a n : Nat) (write : Bool) : Except Nat (List (Nat × Nat)) :=
  if a + n ≤ 0x20000000 then
    match s.scratch t a n with
    | some l => .ok l
    | none => .error 0x0004
  else if (t1Base ≤ a ∧ a + n ≤ t1Base + t1Size) ∨ (nvsBaseAddr ≤ a ∧ a + n ≤ nvsBaseAddr + nvsSize) ∨
      (windowBase 0 ≤ a ∧ a + n ≤ windowBase 2) then
    if (s.tile t).granted a n write then .ok [(a, n)] else .error 0x0005
  else if inMailbox a n then .ok [(a, n)]
  else .error 0x0004

end Sys2Proof.Machine
end

