-- ==== Sys2Proof/Machine/Tiles.lean ====
section
/-! DEFINITION. A tile's memory path: its registers, read cache, write-combining buffer and the stores on their way home (R119 to
R124, R130, R180). -/

namespace Sys2Proof.Machine

/-! ### TILE registers (R130) -/

/-- TILE.STATE.MODE. -/
def State.tileMode (s : State) (t : Nat) : Nat :=
  if s.retired 0 t then 5 else if s.quarantined 0 t then 4 else if !s.domOn (t / 2) then 0
  else match (s.tile t).mode with | .idle => 1 | .running => 2 | .spilling => 3

/-- TILE.BOW.STATE; an engine that waits in a BARRIER shows 1. DESIGN CHOICE (log entry 94): none of R130's codes names it. -/
def BowState.code : BowState → Nat
  | .idle => 0 | .running => 1 | .stalledSlot => 2 | .stalledAhead => 3 | .atBarrier _ => 1

/-- A register of a tile's block by its offset; none where the block has no register. TILE.RATING.NOW is a measurement. INEXACT reads
as the OR of the three bits it sums up, so that a 0 written to it alone while one of them is set leaves it reading 1. DESIGN CHOICE
(log entry 90): R98 calls it both that OR and an RWS field of its own. -/
def State.tileReg (s : State) (t off : Nat) : Option (Nat × State) :=
  let x := s.tile t
  let b (e : Nat) : Nat := let w := vget Bow.reset x.bows e; w.state.code + w.step % 2 ^ 32 * 2 ^ 32
  match off with
  | 0x000 => some (t, s)
  | 0x008 => some ((x.ctx.getD 0) + b2n x.ctx.isSome * 2 ^ 20 + x.rank * 2 ^ 21 + x.size * 2 ^ 28, s)
  | 0x010 => some (s.tileMode t + (x.threads.toList.filter (fun h => h.started && !h.exited)).length * 8, s)
  | 0x018 => let (r, s1) := s.rating t; some (r % 65536 + x.ratingLocked * 65536, s1)
  | 0x020 => some (x.steps + b2n x.stepsSat * 2 ^ 63, s)
  | 0x028 => some (x.faultCause + x.faultThread * 2 ^ 16 + b2n x.faultValid * 2 ^ 23, s)
  | 0x030 => some (x.faultAddr, s)
  | 0x040 => some (x.arith.toNat ||| b2n (x.arith &&& 0xE#9 != 0), s)
  | 0x080 => some (b 0, s)
  | 0x088 => some (b 1, s)
  | 0x090 => some (x.completed % 2 ^ 32, s)
  | 0x0F8 => some (s.elapsed, s)
  | _ =>
    if 0x100 ≤ off ∧ off < 0x200 ∧ off % 8 = 0 then
      let g := vget ⟨0, 0, false, false⟩ x.grants ((off - 0x100) / 16)
      some (if off % 16 = 0 then g.base + b2n g.valid * 2 ^ 48 + b2n g.write * 2 ^ 49 else g.limit, s)
    else none

/-- TILE.ARITH_STATUS written under a mask: a written 0 clears a bit, a written 1 leaves it (R98). -/
def Tile.clearArith (x : Tile) (v mask : Nat) : Tile := { x with arith := x.arith &&& ~~~(BitVec.ofNat 9 (mask ^^^ (mask &&& v))) }

/-! ### Stores on their way home (R122 to R124) -/

/-- Two ranges share a byte. -/
def overlaps (a n b m : Nat) : Bool := decide (a < b + m ∧ b < a + n)

/-- A store of a tile is at a range. -/
def OutWrite.hits (w : OutWrite) (a n : Nat) : Bool := overlaps w.addr w.bytes.length a n

/-- The stores of a list, oldest first, that an access to a range comes after, and those it does not: a store that overlaps the
range, and any older store that overlaps one of them (R122). -/
def mustSettle (l : List OutWrite) (a n : Nat) : List OutWrite × List OutWrite :=
  l.foldr (fun w acc =>
    if w.hits a n || acc.1.any (fun y => y.hits w.addr w.bytes.length) then (w :: acc.1, acc.2) else (acc.1, w :: acc.2)) ([], [])

/-- Every store of the tile that an access to a range comes after is performed at home, in order, ahead of it (R122, R123). -/
def State.settle (s : State) (t a n : Nat) : State :=
  let x := s.tile t
  let (hitWc, wc) := mustSettle x.wc a n
  let (hit, out) := mustSettle x.out a n
  let (hitOut, out) := hitWc.foldl (fun acc w => let (h, r) := mustSettle acc.2 w.addr w.bytes.length; (acc.1 ++ h, r)) (hit, out)
  if hitOut.isEmpty && hitWc.isEmpty then s
  else
    let ordered := (x.out.filter (fun w => hitOut.contains w)) ++ hitWc
    (ordered.foldl (fun s w => s.homeStore t w.addr w.bytes) s).modTile t (fun x => { x with out := out, wc := wc })

/-- Write-combining lines of a tile that satisfy a test are sent home, after what was sent before. -/
def State.sendLines (s : State) (t : Nat) (p : OutWrite → Bool) : State :=
  s.modTile t (fun x => { x with out := x.out ++ x.wc.filter p, wc := x.wc.filter (fun w => !p w) })

/-- Bytes laid over others; `none` leaves a byte. -/
def layOver (l : List PByte) (b : List (Option PByte)) : List PByte :=
  l.zipIdx.map (fun x => ((b.getD x.2 none)).getD x.1)

/-- Bytes laid over a list of optional bytes. -/
def layMasked (l b : List (Option PByte)) : List (Option PByte) :=
  l.zipIdx.map (fun x => match b.getD x.2 none with | some v => some v | none => x.1)

/-- A store of bytes at a line address of T1: the tile's cached copy and its write-combining buffer. When all 64 lines of the
buffer are in use one of them, which the spec does not name, is sent home. -/
def State.bufferStore (s : State) (t th line : Nat) (b : List (Option PByte)) : State :=
  let x := s.tile t
  let s0 := s.modTile t (fun x => { x with cache := x.cache.map (fun c => if c.line = line / 64 then { c with bytes := layOver c.bytes b } else c) })
  if x.wc.any (fun w => w.addr == line) then
    s0.modTile t (fun x => { x with wc := x.wc.map (fun w =>
      if w.addr = line then { w with bytes := layMasked w.bytes b, writers := insertSorted w.writers th } else w) })
  else
    let s1 := if 64 ≤ x.wc.length then
        let (k, s1) := s0.draw
        match x.wc[k % x.wc.length]? with
        | some w => s1.sendLines t (fun y => y.addr == w.addr)
        | none => s1
      else s0
    s1.modTile t (fun x => { x with wc := x.wc ++ [⟨line, layMasked (List.replicate 64 none) b, [th]⟩] })

/-- Bytes a thread stores at an address it may reach: its own T0 at once, T1 through the buffer, elsewhere uncached. -/
def State.threadStore (s : State) (t th a : Nat) (b : List PByte) : State :=
  if isT0 a ∧ a / t0TileSize = t then s.storeBytes a b
  else if isT1 a then
    (List.range ((a % 64 + b.length + 63) / 64)).foldl (fun s i =>
      let line := a / 64 * 64 + 64 * i
      let o := a - line
      let part := if i = 0 then List.replicate o none ++ ((b.take (64 - o)).map some)
        else ((b.drop (line - a)).take 64).map some
      s.bufferStore t th line part) s
  else s.modTile t (fun x => { x with out := x.out ++ [⟨a, b.map some, [th]⟩] })

/-! ### Loads (R122, R123, R180) -/

/-- A line put into a tile's read cache; when 4,096 lines are there one of them, which the spec does not name, gives way. -/
def State.cacheLine (s : State) (t line : Nat) (b : List PByte) : State :=
  let x := s.tile t
  let (keep, s1) := if 4096 ≤ x.cache.length then (let (k, s1) := s.draw; (x.cache.eraseIdx (k % x.cache.length), s1)) else (x.cache, s)
  let lo := keep.filter (fun c => c.line < line)
  let hi := keep.filter (fun c => line < c.line)
  s1.modTile t (fun x => { x with cache := lo ++ [⟨line, b⟩] ++ hi })

/-- A line of T1 as a cached load of a tile finds it: from the cache, or read from home into it, with the tile's own buffered
bytes. -/
def State.lineFor (s : State) (t line : Nat) : State × List PByte :=
  let x := s.tile t
  match x.cache.find? (fun c => c.line == line / 64) with
  | some c => (s, c.bytes)
  | none =>
    let own := (x.out ++ x.wc).filter (fun w => w.addr == line)
    let b := own.foldl (fun b w => layOver b w.bytes) (s.peek line 64)
    ((s.noteRead line 64).cacheLine t (line / 64) b, b)

/-- A load must wait: a line it reads from home is held (R432). -/
def State.loadHeld (s : State) (t a n : Nat) (nc : Bool) : Bool :=
  isT1 a && (List.range ((a % 64 + n + 63) / 64)).any (fun i =>
    let line := a / 64 * 64 + 64 * i
    (nc || !(s.tile t).cache.any (fun c => c.line == line / 64)) && s.heldRange line 64)

/-- The whole words that hold `n` bytes at an address a thread may reach, as its load finds them. -/
def State.threadLoad (s : State) (t a n : Nat) (nc : Bool) : State × List PByte :=
  let lo := a / 8 * 8
  let len := (a + n + 7) / 8 * 8 - lo
  if isT1 a ∧ nc = false then
    let (s1, b) := (List.range ((lo % 64 + len + 63) / 64)).foldl (fun (acc : State × List PByte) i =>
      let (s2, l) := acc.1.lineFor t (lo / 64 * 64 + 64 * i)
      (s2, acc.2 ++ l)) (s, [])
    (s1, (b.drop (lo % 64)).take len)
  else
    let s1 := s.settle t lo len
    match mailboxAt a with
    | some (c, o) => (s1, ((vget Chain.reset s1.stroke.chains c).mailbox.drop (o / 8 * 8)).take len)
    | none => (s1.noteRead lo len, s1.peek lo len)

/-- The value of `n` bytes at offset `o` of whole words, poisoned when any of the words is. -/
def wordsVal (b : List PByte) (o n : Nat) : PVal :=
  let p := b.any PByte.p
  (if p then 0 else leAt (vals b) o n, p)

/-! ### What an acknowledgement lets go on (R117, R124 to R126) -/

/-- Stores of a thread are still on their way home. -/
def Tile.unacked (x : Tile) (th : Nat) : Bool := x.out.any (fun w => w.writers.contains th)

/-- The stores a thread has made are all sent home: the first part of its fence.dev. -/
def State.sendOwn (s : State) (t th : Nat) : State := s.sendLines t (fun w => w.writers.contains th)

/-- A bow engine starts a stream (R126, R128). A second stream of one batch step goes on from the step the engine had reached.
DESIGN CHOICE (log entry 92): R128 says only that the engine's step starts at 0. -/
def Tile.startBow (x : Tile) (e th a : Nat) : Tile :=
  { x with bows := vmod x.bows e (fun b => { b with state := .running, base := a, next := a, thread := th }) }

/-- Threads whose fence, flush, bow.start or sem.release waited for stores that are now at home go on. -/
def State.wakeStores (s : State) (t : Nat) : State :=
  (List.range 128).foldl (fun s th =>
    let x := s.tile t
    let h := x.thread th
    match h.block with
    | .fence => if x.unacked th then s else s.modThread t th Thread.wake
    | .flush ls =>
      if x.out.any (fun w => ls.contains (w.addr / 64)) then s else s.modThread t th Thread.wake
    | .bowStart e a =>
      if x.unacked th then s else s.modTile t (fun x => (x.startBow e th a).modThread th Thread.wake)
    | .semRelease i => if x.unacked th then s else (s.modThread t th Thread.wake).releaseSem i
    | _ => s) s

end Sys2Proof.Machine
end

