-- ==== Sys2Proof/Machine/Barrier.lean ====
section
/-! DEFINITION. Crew barriers, layers and their fetch deadlines (R117, R154 to R158). -/

namespace Sys2Proof.Machine

/-! ### Layers of a phase (R154) -/

/-- The fetch entries of a job's phase, with their index in the image. -/
def State.fetchesOf (s : State) (j : Job) : List (Nat × Fetch) :=
  match s.model j.model, s.phaseOf j with
  | some m, some p => (List.range p.fetchCount).filterMap (fun i => (m.fetches[p.fetchFirst + i]?).map (fun f => (p.fetchFirst + i, f)))
  | _, _ => []

/-- The fetch entry whose layer an engine step belongs to. -/
def State.layerOf (s : State) (j : Job) (step : Nat) : Option (Nat × Fetch) :=
  ((s.fetchesOf j).filter (fun x => decide (x.2.firstStep ≤ step))).getLast?

/-- The fetch entry of a layer number. -/
def State.layerNo (s : State) (j : Job) (l : Nat) : Option (Nat × Fetch) := (s.fetchesOf j).find? (fun x => x.2.layer == l)

/-- A layer has fetch deadlines: KIND is not 0 and the step may take a cheaper path (R158, R405). -/
def Job.hasDeadline (j : Job) (f : Fetch) : Bool := f.kind != 0 && !j.strict

/-! ### LOADs not yet reached (R155) -/

/-- KIND of an access descriptor (R127). -/
def adKind (d : List Byte) : Nat := byteAt d 0

/-- A LOAD of a stream: its slot, DEADLINE, engine step, and the address of its descriptor. -/
structure Upcoming where
  slot : Nat
  deadline : Bool
  step : Nat
  addr : Nat

/-- LOADs of a stream not yet executed, from an address up to END, by fuel. -/
def State.upcomingFrom (s : State) (t e : Nat) : Nat → Nat → Nat → List Upcoming
  | 0, _, _ => []
  | f + 1, a, step =>
    match s.bowPieces t a 32 false with
    | .error _ => []
    | .ok l =>
      let pd := l.flatMap (fun p => s.peek p.1 p.2)
      let d := vals pd
      if pd.any PByte.p then []
      else match adKind d with
        | 0 => ⟨32 * e + byteAt d 28 % 32, byteAt d 1 % 2 == 1, step, a⟩ :: State.upcomingFrom s t e f (a + 32) step
        | 1 => State.upcomingFrom s t e f (a + 32) step
        | 2 => State.upcomingFrom s t e f (a + 32) (step + 1)
        | 3 => State.upcomingFrom s t e f (a + 32) step
        | _ => []

/-- LOADs an engine of a tile has yet to execute, those whose slots R156 has already moved left out. -/
def State.upcoming (s : State) (t e : Nat) : List Upcoming :=
  let b := vget Bow.reset (s.tile t).bows e
  if b.state == .idle then []
  else (s.upcomingFrom t e 65536 b.next b.step).filter (fun u => !(s.tile t).skipped.contains u.addr)

/-- The DEADLINE LOAD of a slot: the one filling it, or the next its engine will give it; its engine step. -/
def State.deadlineLoad (s : State) (t i : Nat) : Option Nat :=
  let x := vget Slot.reset (s.tile t).slots i
  match x.state with
  | .filling => if x.deadline then some x.step else none
  | .empty =>
    match (s.upcoming t (i / 32)).find? (fun l => l.slot == i) with
    | some u => if u.deadline then some u.step else none
    | none => none
  | _ => none

/-- The layer entry of a slot's DEADLINE LOAD when the layer has deadlines. -/
def State.slotLayer (s : State) (t i : Nat) : Option (Nat × Fetch) :=
  match s.tileJob t, s.deadlineLoad t i with
  | some j, some st => (s.layerOf j st).bind (fun l => if j.hasDeadline l.2 then some l else none)
  | _, _ => none

/-- A rank's fetch deadline for a layer runs from a moment, unless it runs from an earlier one (R155). -/
def State.startLayer (s : State) (t : Nat) (l : Nat × Fetch) (at_ : Nat) : State :=
  let d := at_ + 2 * l.2.graceNs
  s.modTile t (fun x => { x with layerDl := aset x.layerDl l.1 (min d ((alookup x.layerDl l.1).getD d)) })

/-- The fetch deadlines of the layers whose DEADLINE LOADs a tile's threads wait for in `buf.wait` run from the moment each blocked
(R155): the LOAD of a slot may become known only when its engine starts a stream. -/
def State.startWaited (s : State) (t : Nat) : State :=
  (s.tile t).threads.toList.foldl (fun s h => match h.block with
    | .bufWait i _ at_ => (match s.slotLayer t i with | some l => s.startLayer t l at_ | none => s)
    | _ => s) s

/-- A layer's deadline on a tile has passed. -/
def State.layerPast (s : State) (t l : Nat) : Bool :=
  match alookup (s.tile t).layerDl l with | some d => decide (d ≤ s.time.half) | none => false

/-- The slot's DEADLINE LOAD is past its deadline. -/
def State.slotPast (s : State) (t i : Nat) : Bool :=
  match s.slotLayer t i with
  | some l => s.layerPast t l.1
  | none => false

/-- DEADLINE LOADs of a layer on a tile that are not FULL: EMPTY or FILLING. -/
def State.layerPending (s : State) (t : Nat) (j : Job) (l : Nat) : Bool :=
  let inLayer (st : Nat) : Bool := match s.layerOf j st with | some x => x.1 == l | none => false
  (s.tile t).slots.toList.any (fun x => x.state == .filling && x.deadline && inLayer x.step) ||
    [0, 1].any (fun e => (s.upcoming t e).any (fun u => u.deadline && inLayer u.step))

/-! ### Arrivals (R117) -/

/-- Who may arrive: a thread or a bow engine of a tile. -/
inductive Arriver where
  | thread (th : Nat)
  | bow (e : Nat)
  deriving DecidableEq, Repr

/-- An engine's stores are all at home: none of its slots drains. -/
def Tile.bowDrained (x : Tile) (e : Nat) : Bool :=
  (List.range 32).all (fun i => (vget Slot.reset x.slots (32 * e + i)).state != .draining)

/-- Threads and engines of a tile that have reached `crew.barrier` and whose stores are at home, not yet counted. -/
def Tile.atBarrier (x : Tile) : List Arriver :=
  ((List.range 128).filter (fun th => (x.thread th).block == .barrier false && !x.unacked th)).map Arriver.thread ++
    ((List.range 2).filter (fun e => (vget Bow.reset x.bows e).state == .atBarrier false && x.bowDrained e)).map Arriver.bow

/-- Threads of a tile that have reached `layer.late` for a layer and whose stores are at home, not yet counted. -/
def Tile.atLayer (x : Tile) : List Arriver :=
  ((List.range 128).filter (fun th => (match (x.thread th).block with | .layerLate _ _ false => true | _ => false) && !x.unacked th)).map
    Arriver.thread

/-- An arrival is counted. -/
def Tile.count (x : Tile) (a : Arriver) : Tile :=
  match a with
  | .thread th => x.modThread th (fun h => { h with block := match h.block with
      | .barrier _ => .barrier true
      | .layerLate l rd _ => .layerLate l rd true
      | b => b })
  | .bow e => { x with bows := vmod x.bows e (fun b => { b with state := .atBarrier true }) }

/-- One arrival of a rank that has not arrived in the generation; of several that wait, which goes first is not given. -/
def State.arrive (s : State) (t : Nat) (l : List Arriver) : State :=
  match l with
  | [] => s
  | [a] => s.modTile t (fun x => x.count a)
  | _ => let (k, s1) := s.draw
    match l[k % l.length]? with | some a => s1.modTile t (fun x => x.count a) | none => s1

/-- Every rank that can arrives at the crew barrier. -/
def State.barrierArrivals (s : State) (j : Job) : State :=
  j.tiles.zipIdx.foldl (fun s (t, r) =>
    match s.job j.uid with
    | some k =>
      let l := (s.tile t).atBarrier
      if k.arrived.contains r || l.isEmpty then s
      else (s.arrive t l).modJob j.uid (fun j => { j with arrived := insertSorted j.arrived r })
    | none => s) s

/-- The crew barrier's generations complete as far as they can, by fuel (R117). -/
def State.barrierRun (uid : Nat) : Nat → State → State
  | 0, s => s
  | f + 1, s =>
    match s.job uid with
    | none => s
    | some j =>
      let s1 := s.barrierArrivals j
      match s1.job uid with
      | none => s1
      | some k =>
        if !j.tiles.isEmpty && decide (j.tiles.length ≤ k.arrived.length) then
          let s2 := k.tiles.foldl (fun s t => s.modTile t (fun x =>
            { x with threads := x.threads.map (fun h => if h.block == .barrier true then h.wake else h)
                     bows := x.bows.map (fun b => if b.state == .atBarrier true then { b with state := .running } else b) })) s1
          State.barrierRun uid f (s2.modJob uid (fun j => { j with arrived := [] }))
        else s1

/-! ### layer.late (R155, R156, R158) -/

/-- The layer number the counted threads of a tile wait for. -/
def Tile.layerWaited (x : Tile) : Option Nat :=
  x.threads.toList.findSome? (fun h => match h.block with | .layerLate l _ true => some l | _ => none)

/-- Every rank that can arrives at the layer; its arrival starts its deadline. -/
def State.layerArrivals (s : State) (j : Job) : State :=
  j.tiles.zipIdx.foldl (fun s (t, r) =>
    match s.job j.uid with
    | some k =>
      let l := (s.tile t).atLayer
      if k.layerArrived.contains r || l.isEmpty then s
      else
        let s1 := (s.arrive t l).modJob j.uid (fun j => { j with layerArrived := insertSorted j.layerArrived r })
        match (s1.tile t).layerWaited.bind (s1.layerNo k) with
        | some x => if k.hasDeadline x.2 then s1.startLayer t x s.time.half else s1
        | none => s1
    | none => s) s

/-- The layer's barrier completes with a result for every counted thread. -/
def State.layerDone (s : State) (j : Job) (late : Nat) : State :=
  let s1 := j.tiles.foldl (fun s t => s.modTile t (fun x =>
    { x with threads := x.threads.map (fun h => match h.block with | .layerLate _ rd true => h.wakeWith rd late | _ => h) })) s
  s1.modJob j.uid (fun j => { j with layerArrived := [] })

/-- Threads blocked on a slot go on with a result. -/
def State.wakeBuf (s : State) (t i v : Nat) : State :=
  s.modTile t (fun x => { x with threads := x.threads.map (fun h => match h.block with
    | .bufWait k rd _ => if k = i then h.wakeWith rd v else h
    | _ => h) })

/-- A slot's LOAD was not FULL at its deadline. -/
def State.hitLayer (s : State) (t i : Nat) : State :=
  match s.slotLayer t i with
  | some l => if s.layerPast t l.1 then s.modTile t (fun x => { x with layerHit := insertSorted x.layerHit l.1 }) else s
  | none => s

/-- The DEADLINE LOADs of a late layer not yet started: their slots, where EMPTY, go straight to FULL, and the threads
that wait there return with RD 1, their deadline being past (R156, R157). -/
def State.skipLoads (s : State) (t lo hi : Nat) : State :=
  (s.upcoming t 0 ++ s.upcoming t 1).foldl (fun s u =>
    if u.deadline && decide (lo ≤ u.step ∧ u.step < hi) && (vget Slot.reset (s.tile t).slots u.slot).state == .empty then
      ((s.hitLayer t u.slot).modTile t (fun x =>
        { x with slots := vmod x.slots u.slot (fun y => { y with state := .full, deadline := true, step := u.step })
                 skipped := insertSorted x.skipped u.addr })).wakeBuf t u.slot 1
    else s) s

/-- `layer.late` completes as far as it can, by fuel: when every rank has arrived and every DEADLINE LOAD of the layer is FULL or
past its deadline. -/
def State.layerRun (uid : Nat) : Nat → State → State
  | 0, s => s
  | f + 1, s =>
    match s.job uid with
    | none => s
    | some j =>
      let s1 := s.layerArrivals j
      match s1.job uid with
      | none => s1
      | some k =>
        if j.tiles.isEmpty || decide (k.layerArrived.length < j.tiles.length) then s1
        else
          match (k.tiles.findSome? (fun t => (s1.tile t).layerWaited)).bind (s1.layerNo k) with
          | none => State.layerRun uid f (s1.layerDone k 0)
          | some (i, e) =>
            let past (t : Nat) : Bool := k.hasDeadline e && s1.layerPast t i
            if k.tiles.any (fun t => s1.layerPending t k i && !past t) then s1
            else
              let late := k.hasDeadline e && k.tiles.any (fun t => (s1.tile t).layerHit.contains i || (s1.layerPending t k i && past t))
              if late then
                let next := ((s1.fetchesOf k).filter (fun x => decide (e.firstStep < x.2.firstStep))).head?
                let hi := match next with | some x => x.2.firstStep | none => 2 ^ 32
                let s2 := ((s1.layerDone k 1).bump tierLateCtr 1).modJob uid (fun j =>
                  { j with lateLayers := j.lateLayers ++ [(e.firstStep, hi)], degraded := true })
                State.layerRun uid f (k.tiles.foldl (fun s t => s.skipLoads t e.firstStep hi) s2)
              else State.layerRun uid f (s1.layerDone k 0)

/-- Everything that may complete on a tile's crew completes: stores acknowledged, barriers, layers. -/
def State.crewProgress (s : State) (t : Nat) : State :=
  let s1 := (s.wakeStores t).startWaited t
  match s1.tileJob t with
  | none => s1
  | some j => State.layerRun j.uid 129 (State.barrierRun j.uid 129 s1)

end Sys2Proof.Machine
end

