-- ==== Sys2Proof/Machine/Alu.lean ====
section
/-! DEFINITION. Scalar arithmetic, comparison and branches of a thread (R112, R180, R181, R267). -/

namespace Sys2Proof.Machine

/-- The result of a scalar operation on 64-bit operands; none for a MOD the instruction set does not list. The spec states no
result for a shift by 64 or more: `free` stands for it. -/
def aluVal (mod a b free : Nat) : Option Nat :=
  let m := 2 ^ 64
  match mod with
  | 0 => some ((a + b) % m)
  | 1 => some ((a + (m - b % m)) % m)
  | 2 => some (a &&& b)
  | 3 => some (a ||| b)
  | 4 => some (a ^^^ b)
  | 5 => some (if b < 64 then a * 2 ^ b % m else free % m)
  | 6 => some (if b < 64 then a / 2 ^ b else free % m)
  | 7 => some (if b < 64 then wrap 64 (sext 64 a / ((2 ^ b : Nat) : Int)) else free % m)
  | 8 => some (a * b % m)
  | 9 => some (if sext 64 b < sext 64 a then b else a)
  | 10 => some (if sext 64 a < sext 64 b then b else a)
  | _ => none

/-- A shift by 64 or more: its result is a free value. -/
def aluOpen (mod b : Nat) : Bool := decide (5 ≤ mod ∧ mod ≤ 7 ∧ 64 ≤ b)

/-- A scalar operation carried out by a thread (R180, R267). -/
def State.runAlu (s : State) (t th mod rd : Nat) (a b : PVal) : State :=
  let (k, s1) := if aluOpen mod b.1 then s.draw else (0, s)
  match aluVal mod a.1 b.1 k with
  | none => s.faultPc t th 0x0008
  | some v => s1.modThread t th (fun x => (x.put rd (v, a.2 || b.2)).next)

/-- ALU_REG (R267): RD = RA op RB. -/
def execAluReg (t th mod rd ra rb : Nat) (s : State) : Host.Outcome State Fault Refusal :=
  .next (if s.canIssue t th then
    let x := (s.tile t).thread th
    s.runAlu t th mod rd (x.operand ra) (x.operand rb)
  else s)

/-- ALU_IMM (R267): RD = RA op IMM, with IMM sign-extended. -/
def execAluImm (t th mod rd ra imm : Nat) (s : State) : Host.Outcome State Fault Refusal :=
  .next (if s.canIssue t th then
    let x := (s.tile t).thread th
    s.runAlu t th mod rd (x.operand ra) (imm64 imm, false)
  else s)

/-- A condition on 64-bit operands; none for a MOD not listed. -/
def condVal (mod a b : Nat) : Option Bool :=
  match mod with
  | 0 => some (a == b)
  | 1 => some (a != b)
  | 2 => some (decide (sext 64 a < sext 64 b))
  | 3 => some (decide (a < b))
  | 4 => some (decide (sext 64 b ≤ sext 64 a))
  | 5 => some (decide (b ≤ a))
  | _ => none

/-- COMPARE (R180, R267): the condition flag, poisoned by a poisoned operand. -/
def execCompare (t th mod ra rb : Nat) (s : State) : Host.Outcome State Fault Refusal :=
  .next (if s.canIssue t th then
    let x := (s.tile t).thread th
    let a := x.operand ra
    let b := x.operand rb
    match condVal mod a.1 b.1 with
    | none => s.faultPc t th 0x0008
    | some v => s.modThread t th (fun x => { x.next with flag := v && !(a.2 || b.2), flagP := a.2 || b.2 })
  else s)

/-- The address a branch goes to: PC + 8 * IMM. -/
def branchTarget (pc imm : Nat) : Nat := wrap 64 ((pc : Int) + 8 * sext 32 imm)

/-- BRANCH (R181, R267): always, if the flag is set, or if it is clear; a poisoned flag as the condition faults. -/
def execBranch (t th mod imm : Nat) (s : State) : Host.Outcome State Fault Refusal :=
  .next (if s.canIssue t th then
    let x := (s.tile t).thread th
    if 3 ≤ mod then s.faultPc t th 0x0008
    else if mod ≠ 0 ∧ x.flagP then s.poisonUse t th x.pc
    else
      let taken := mod == 0 || (mod == 1 && x.flag) || (mod == 2 && !x.flag)
      s.modThread t th (fun x => if taken then { x with pc := branchTarget x.pc imm } else x.next)
  else s)

end Sys2Proof.Machine
end

