-- ==== Sys2Proof/Machine/Safety16.lean ====
section
/-! DEFINITION. Rings, check records, verdicts and the end of a step (R114, R215, R279, R280, R402 to R414). -/

namespace Sys2Proof.Machine

/-- SAFE counter by register offset (R421). -/
def safeCtr (off : Nat) : Nat := ctrId (0x0B000000 + off)

/-! ### Record rings (R349, R414) -/

/-- Free slots of a ring of `n` slots: its HEAD is the host's, at base + 8. -/
def State.ringFree (s : State) (base n tail : Nat) : Nat :=
  let head := leNat (vals (s.peek (base + 8) 4)) % n
  (head + 2 * n - tail - 1) % n

/-- TAIL written at a ring's base. -/
def State.putTail (s : State) (base tail : Nat) : State := s.storeClean base (toLe 4 tail)

/-- A record of whole slots of `w` bytes written from `tail` on, then TAIL moved past it; the new TAIL. -/
def State.putRecord (s : State) (base n w tail : Nat) (r : List Byte) : State × Nat :=
  let k := r.length / w
  let s1 := (List.range k).foldl (fun s i => s.storeClean (base + 64 + w * ((tail + i) % n)) (slice r (w * i) w)) s
  let t := (tail + k) % n
  (s1.putTail base t, t)

/-- The 32 bytes of a verdict record (R414). -/
def verdictRecord (s : State) (j : Job) (verdict lost : Nat) : List Byte :=
  toLe 4 j.ctx ++ toLe 2 j.client ++ toLe 1 verdict ++ toLe 1 j.vflags ++ toLe 4 j.frame ++ toLe 2 j.step ++
    toLe 1 j.staleMask ++ toLe 1 (min lost 255) ++ toLe 2 j.blamed ++ toLe 2 0 ++ toLe 8 s.elapsed ++ toLe 4 0

/-- A verdict record written to the ring that SAFE.VERDICT names, or counted as lost (R414). -/
def State.putVerdict (s : State) (j : Job) (verdict : Nat) : State :=
  if s.safe.ringLog2 = 0 then s
  else
    let n := 2 ^ s.safe.ringLog2
    if s.ringFree s.safe.ringBase n s.safe.tail = 0 then
      ({ s with safe := { s.safe with lost := s.safe.lost + 1 } }).bump (safeCtr 0x138) 1
    else
      let (s1, t) := s.putRecord s.safe.ringBase n 32 s.safe.tail (verdictRecord s j verdict s.safe.lost)
      { s1 with safe := { s1.safe with tail := t, lost := 0 } }

/-! ### The end of a job and of a step (R114, R159, R217, R279, R280) -/

/-- The job's phase is a re-shard, whose reply is never approximate or degraded (R270). -/
def State.reshard (s : State) (j : Job) : Bool := match s.phaseOf j with | some p => p.kind == 1 | none => false

/-- The final reply of a job.submit that its steps have ended (R99, R159, R217, R270, R280). -/
def State.finishJob (s : State) (j : Job) (invalid : Bool) : State :=
  let detail := j.flags.toNat + 65536 * j.detailHi
  let s1 := s.removeJob j
  if invalid then s1.finishUid j.uid true stInvalid detail j.ended
  else if j.kvStatus ≠ 0 then s1.finishUid j.uid true j.kvStatus (65536 * j.detailHi) j.ended
  else s1.finishUid j.uid true (if s.reshard j then stDone else if j.degraded then stDegraded else if j.approx then stApprox else stDone) detail j.ended

/-- Appends and trims that waited for a step of a context to end are theirs to run again: the commands are dispatched
anew (R216). -/
def State.wakeKv (s : State) (ctx : Nat) : State :=
  let w := s.boat.waits.filter (fun w => w.ctx == ctx && w.tier == 0)
  let s1 := { s with boat := { s.boat with waits := s.boat.waits.filter (fun w => !(w.ctx == ctx && w.tier == 0)) } }
  w.foldl (fun s x => match s.findUid x.uid with
    | some (q, k) => s.modCmd q k (fun c => { c with phase := .ready })
    | none => s) s1

/-- Slots left FULL or POSTED on a crew (R135). -/
def State.abandonedSlots (s : State) (tiles : List Nat) : Nat :=
  tiles.foldl (fun a t => a + ((s.tile t).slots.toList.filter (fun x => x.state == .full || x.state == .posted)).length) 0

/-- Slots abandoned at a stream's END counted in the client's account and marked in the reply (R135, R280, R304). -/
def State.countAbandoned (s : State) (j : Job) : State :=
  let n := s.abandonedSlots j.tiles
  if n = 0 then s
  else
    (s.modClient j.client (fun c => { c with abandoned := (List.range n).foldl (fun x _ => x.bump1) c.abandoned })).modJob j.uid
      (fun j => { j with detailHi := j.detailHi ||| 32 })

/-- A context is out of its step (R215, R281): its STEP flag cleared, the page releases and the commands that waited for it done. -/
def State.leaveStep (s : State) (ctx : Nat) : State :=
  (((s.updCtx ctx (fun c => { c with step := false })).freePending ctx).syncCtx ctx).wakeKv ctx

/-- A step ends (R114, R215, R262, R279, R282, R304): its crew dissolves, its context's pages are freed, the job's next
step becomes ready or the command replies. An INVALID step ends its command (R413). -/
def State.endStep (s : State) (j : Job) (invalid : Bool) : State :=
  let s1 := s.dissolve j.tiles j.ctx
  let good := !invalid && j.kvStatus == 0
  let s2 := s1.updCtx j.ctx (fun c =>
    { c with job := { c.job with lastPhase := if good then j.phase else c.job.lastPhase
                                 stepsEnded := min (c.job.stepsEnded + 1) 0xFFFFFFFF, lastEnd := s.elapsed } })
  let s3 := s2.leaveStep j.ctx
  let s4 := s3.modClient j.client (fun c => { c with steps := c.steps.add 1 })
  let s5 := (s4.freeGolden j).modJob j.uid (fun j => { j with ended := j.ended + 1, invalids := j.invalids + b2n invalid })
  let s6 := s5.endUse j.model
  match s6.job j.uid with
  | none => s6.schedule
  | some j =>
    if invalid || j.cancelled || decide (j.total ≤ j.ended) then (s6.finishJob j invalid).schedule
    else ((s6.modJob j.uid (fun j => { j with step := j.step + 1, tiles := [] })).makeReady j.uid).schedule

/-! ### Verdicts (R410 to R414) -/

/-- Umpires of a set of tiles that are stale, as a mask. -/
def State.staleOf (s : State) (tiles : List Nat) : Nat :=
  (List.range 8).foldl (fun a u =>
    if tiles.any (fun t => t / 16 == u) && (vget ⟨false, false, false, 0, 0, 0, 0, false⟩ s.safe.umpires u).stale then a + 2 ^ u
    else a) 0

/-- A check of a job's step was judged with the umpires of some tiles: bits of its verdict (R414, R417). -/
def State.judged (s : State) (uid : Nat) (tiles : List Nat) (flags : Nat) : State :=
  let m := s.staleOf tiles
  s.modJob uid (fun j =>
    { j with vflags := j.vflags ||| flags ||| (if m = 0 then 0 else 1), staleMask := j.staleMask ||| m })

/-- The out range of an INVALID step poisoned (R413). -/
def State.poisonOut (s : State) (j : Job) : State :=
  match s.phaseOf j with
  | some p => s.storeBytes j.outAddr (List.replicate p.outBytes ⟨0, true⟩)
  | none => s

/-- A step's verdict is given: its record, and for INVALID the poisoned out range and the end of the command (R413). -/
def State.giveVerdict (s : State) (j : Job) (verdict : Nat) : State :=
  let s1 := s.putVerdict j verdict
  if verdict = 2 then ((s1.poisonOut j).bump (safeCtr 0x110) 1).endStep j true else s1.endStep j false

/-- Charged tiles raise CHECKER_DISAGREE and enter their buckets (R412); the step keeps the first one charged (R414). -/
def State.chargeTiles (s : State) (j : Job) : State :=
  let s1 := s.modJob j.uid (fun k => { k with blamed := if k.blamed = 0xFFFF then j.charged.headD 0xFFFF else k.blamed })
  j.charged.foldl (fun s t => (s.raise 0x0902 89 t (j.client + j.frame * 65536)).charge 0 t 1) s1

/-- A repechage is allowed (R411), the failed attempt's crew counted as available. -/
def State.repechageAllowed (s : State) (j : Job) : Bool :=
  let late := match (s.findUid j.uid).bind (fun x => s.cmd x.1 x.2) with
    | some c => (match c.deadline with
      | some d => decide (d < s.time.half + (s.time.half - j.attemptAt))
      | none => false)
    | none => false
  let after := s.dissolve j.tiles j.ctx
  !j.repechage && !s.rangesOverlap j && !late && (after.choose { j with state := .ready, avoid := j.avoid ++ j.charged } []).isSome

/-- The tiles a repechage keeps off: those charged; after an unlocated mismatch the whole crew, when other tiles can be
had (R411, R412). -/
def State.repechageAvoid (s : State) (j : Job) : List Nat :=
  let base := j.avoid ++ j.charged
  let wide := base ++ j.tiles
  if bit j.vflags 6 = 1 ∧ (s.choose { j with state := .ready, avoid := wide } []).isSome then wide else base

/-- The verdict of a step whose checks are all judged (R410). -/
def State.verdict (s : State) (j : Job) : State :=
  let unchecked := bit j.vflags 2 == 1 && s.safe.hiAction
  let bad := bit j.vflags 3 == 1 || bit j.vflags 4 == 1
  if unchecked then s.giveVerdict { j with charged := [] } 2
  else if !bad then s.giveVerdict j (if j.repechage then 1 else 0)
  else
    let s1 := s.chargeTiles j
    match s1.job j.uid with
    | none => s1
    | some k =>
      -- a tile that the charge retired has already sent the step to be re-run or torn down
      if k.state ≠ .judging then s1
      else if s1.repechageAllowed k then
        ((s1.restart k (s1.repechageAvoid k)).modJob k.uid (fun j => { j with repechage := true })).bump (safeCtr 0x108) 1
          |>.schedule
      else
        let f := if k.repechage then k.vflags else k.vflags ||| 32
        (s1.modJob k.uid (fun j => { j with vflags := f })).giveVerdict { k with vflags := f } 2

/-- The verdict is given once both passes have ended, the golden output is compared and every record is judged. -/
def State.tryVerdict (s : State) (uid : Nat) : State :=
  match s.job uid with
  | none => s
  | some j => if j.state = .judging ∧ j.goldenArea = none ∧ j.checks = [] then s.verdict j else s

/-! ### Judging a record (R404, R412) -/

/-- A CRC-64 signature over 64 sums of 17 bytes (R404). -/
def sumSig (l : List Int) : Nat := crc64 ((l.map (fun x => toLe 17 (wrap 136 x))).flatten)

/-- The lane's right-hand side in units of 2^E_b, and whether it is a whole number of them. -/
def laneUnits (eb : Int) (x : Int × Int) : Int × Bool :=
  let d := x.2 - eb
  if d ≥ 0 then (x.1 * 2 ^ d.toNat, true) else (x.1 / 2 ^ (-d).toNat, decide (x.1 % 2 ^ (-d).toNat = 0))

/-- How a record is judged: 0 exact, 1 bounded, 2 uncheckable. -/
def Check.kind (c : Check) : Nat := if c.hi.any id || c.special then 2 else if c.lo.any id then 1 else 0

/-- The record passes its check (R404). -/
def Check.passes (c : Check) : Bool :=
  if c.poison then false
  else match c.kind with
    | 0 =>
      let u := c.lane.map (laneUnits c.eb)
      u.all Prod.snd && decide (sumSig c.sums = sumSig (u.map Prod.fst))
    | 1 => ((c.sums.zip c.lane).zip c.terms).all (fun (x : (Int × Int × Int) × Nat) =>
        let (d, e) := alignSum x.1.2.1 x.1.2.2 (-x.1.1) c.eb
        let (r, _) := alignSum (x.2 : Int) c.eb (-(d.natAbs : Int)) e
        decide (0 < r))
    | _ => true

/-- A disagreement of a chain: counted, and charged to its tile unless a sum was poisoned (R404, R412). -/
def State.disagree (s : State) (uid t : Nat) (charged : Bool) : State :=
  (s.modJob uid (fun j =>
    { j with vflags := j.vflags ||| 16
             charged := if charged && !j.charged.contains t then j.charged ++ [t] else j.charged })).bump (safeCtr 0x100) 1

/-- A check record is judged and taken from the step's list. -/
def State.judge (s : State) (j : Job) (i : Nat) (c : Check) : State :=
  let s1 := (s.modJob j.uid (fun j => { j with checks := j.checks.eraseIdx i })).judged j.uid [c.tile]
    (match c.kind with | 0 => 0 | 1 => 2 | _ => 4)
  let s2 := match c.kind with | 0 => s1 | 1 => s1.bump (safeCtr 0x118) 1 | _ => s1.bump (safeCtr 0x120) 1
  let s3 := if c.poison then s2.bump (integCtr 0x38) 1 else s2
  let s4 := if c.passes then s3 else s3.disagree j.uid c.tile (!c.poison)
  s4.tryVerdict j.uid

/-- The oldest record of a job that a tile's array sent, with its place among the job's. -/
def Job.checkOf (j : Job) (t a : Nat) : Option (Job × Nat × Check) :=
  (j.checks.findIdx? (fun c => c.tile == t && c.array == a)).bind (fun i => (j.checks[i]?).map (fun c => (j, i, c)))

/-- The oldest record of a tile's array, with the job it belongs to: a step spilled since still has its records on the way. -/
def State.checkOf (s : State) (t a : Nat) : Option (Job × Nat × Check) :=
  (s.sched.jobs.filterMap (fun j => j.checkOf t a)).foldl
    (fun (b : Option (Job × Nat × Check)) x => match b with
      | some y => if x.2.2.at_ < y.2.2.at_ then some x else some y
      | none => some x) none

/-- CHECK_RECORD (R404): the record reaches the comparator over the die bridge and is judged. -/
def execCheckRecord (t a : Nat) (s : State) : Host.Outcome State Fault Refusal :=
  .next (match s.checkOf t a with
    | none => s
    | some (j, i, c) => if s.fault.bridge.down || s.fault.bridge.lost then s else s.judge j i c)

/-- CHECK_RECORD_TIMEOUT (R404): 2 µs have passed since the chain's end with no record, a disagreement. -/
def execCheckRecordTimeout (t a : Nat) (s : State) : Host.Outcome State Fault Refusal :=
  .next (match s.checkOf t a with
    | none => s
    | some (j, i, c) =>
      if s.since c.at_ (us 2) && !s.fault.bridge.down && !s.fault.bridge.lost then
        (((s.modJob j.uid (fun j => { j with checks := j.checks.eraseIdx i })).judged j.uid [t] 0).disagree j.uid t true).tryVerdict
          j.uid
      else s)

/-- The golden signature of a step's golden pass (R406, R408). -/
def State.goldenSig (s : State) (j : Job) : Nat :=
  match j.goldenArea, s.phaseOf j with
  | some (f, _), some p =>
    let b := (s.peek (frameAddr f) p.outBytes).map (fun x => if x.p then 0 else x.v)
    crc64 (b ++ toLe 2 ((j.goldenFlags.getD 0).toNat))
  | _, _ => 0

/-- No word of a step's golden output is poisoned: one that is makes the signature differ (R406, R409). -/
def State.goldenClean (s : State) (j : Job) : Bool :=
  match j.goldenArea, s.phaseOf j with
  | some (f, _), some p => (s.peek (frameAddr f) p.outBytes).all (fun x => !x.p)
  | _, _ => true

/-- The golden output of a step is the expected one (R408, R409). -/
def State.goldenSame (s : State) (j : Job) (k : SafeMark) : Bool := decide (s.goldenSig j = k.sig) && s.goldenClean j

/-- GOLDEN_COMPARE (R408, R409, R412): the signature is compared with the expected one. A mismatch is a disagreement; the
tile tests of the crew follow it. -/
def execGoldenCompare (ctx : Nat) (s : State) : Host.Outcome State Fault Refusal :=
  .next (match s.jobOf ctx with
    | none => s
    | some j =>
      if j.state = .judging ∧ j.goldenArea.isSome ∧ !(s.fault.bridge.down || s.fault.bridge.lost) then
        match (s.model j.model).bind Model.safe with
        | none => s
        | some k =>
          let same := s.goldenSame j k
          let s1 := (s.freeGolden j).judged j.uid j.tiles (if same then 0 else 8)
          if same then s1.tryVerdict j.uid
          else (s1.modJob j.uid (fun j => { j with mismatch := true, state := .testing })).bump (safeCtr 0x100) 1
      else s)

/-- TILE_TEST_DONE (R412): each tile of the crew that failed is charged; none leaves the mismatch unlocated. -/
def execTileTestDone (ctx : Nat) (fails : List Byte) (s : State) : Host.Outcome State Fault Refusal :=
  .next (match s.jobOf ctx with
    | none => s
    | some j =>
      if j.state = .testing then
        let bad := (fails.map BitVec.toNat).filter (fun t => j.tiles.contains t)
        let s1 := s.modJob j.uid (fun j =>
          { j with state := .judging, charged := (j.charged ++ bad).eraseDups
                   vflags := if bad.isEmpty then j.vflags ||| 64 else j.vflags })
        let s2 := if bad.isEmpty then (s1.bump (safeCtr 0x128) 1).raise 0x0902 89 0xFFFF (j.client + j.frame * 65536) else s1
        s2.tryVerdict j.uid
      else s)

/-! ### STEP_END (R114, R405) -/

/-- A tile's part of its step has ended: every thread exited, both engines at rest with their stores drained, no run, array
or pool operation outstanding, and its stores at home (R114, R191, R244, R425). An engine on which no `bow.start` was issued in the
step counts as having reached END. DESIGN CHOICE (log entry 95): R114 does not say what ends such an engine's part. -/
def Tile.partEnded (t : Tile) : Bool :=
  t.threads.toList.all (fun x => !x.started || x.exited) && t.bows.toList.all (fun b => b.state == .idle) &&
    t.slots.toList.all (fun x => x.state != .draining && x.state != .filling) && t.sweepsOut.isEmpty && t.xfsOut.isEmpty &&
    t.arrays.toList.all (fun a => a.reducing.isNone && a.converting.isNone) && t.pool.isNone && t.wc.isEmpty && t.out.isEmpty

/-- STEP_END (R114, R405): when every tile of the crew has ended its part, a safety-relevant step goes on to its golden
pass, or from it to its verdict; another step ends. -/
def execStepEnd (ctx : Nat) (s : State) : Host.Outcome State Fault Refusal :=
  .next (match s.jobOf ctx with
    | none => s
    | some j =>
      if j.issues && j.tiles.all (fun t => (s.tile t).partEnded) then
        match s.model j.model, s.placementOf j j.placement with
        | some m, some p =>
          if m.safe.isSome || j.inGolden then
            if j.inGolden then
              (((s.countAbandoned j).modJob j.uid (fun j => { j with state := .judging }))).tryVerdict j.uid
            else
              let s1 := (s.countAbandoned j).modJob j.uid (fun j =>
                { j with state := .golden, inGolden := true, goldenFlags := some 0, arrived := [], layerArrived := [] })
              match s1.job j.uid with
              | some k => s1.beginPass k m p k.tiles
              | none => s1
          else (s.countAbandoned j).endStep j false
        | _, _ => (s.countAbandoned j).endStep j false
      else s)

end Sys2Proof.Machine
end

