-- ==== Sys2Proof/Machine/Jobs.lean ====
section
/-! DEFINITION. Jobs, clients and semaphores as commands, and the spilling and resumption of steps (R262, R263, R276 to
R298, R305). -/

namespace Sys2Proof.Machine

/-! ### job.submit (R262, R263, R268, R270, R279, R282) -/

/-- A range a step may be given starts in a data window or in the T1 or NVS host region. -/
def State.rangeOk (s : State) (a : Nat) : Bool := s.imageOk a 1

/-- The checks of job.submit's own values. -/
def chkJobSubmit (s : State) (c : Cmd) : Check10 :=
  firstBad [(decide (c.p 7 1 ≠ 0xFF ∧ 15 < c.p 7 1), 7), (!s.rangeOk (c.p 8 8), 8), (!s.rangeOk (c.p 16 8), 16),
    (decide (c.p 24 4 = 0), 24)]

/-- A range from an address to the end of its region holds `n` bytes (R263). -/
def State.holds (s : State) (a n : Nat) : Bool := decide (a + n ≤ s.regionEnd a + 1)

/-- What job.submit refuses by the model, the context and the phase. -/
def State.jobRefusal (s : State) (c : Cmd) (x : Ctx) (m : Model) : Option Res :=
  let bi := c.p 4 2
  let pl := c.p 6 1
  let i := c.p 8 8
  let o := c.p 16 8
  if (x.kind ≠ 0 ∧ x.kind ≠ 2) ∨ s.modelId x.model ≠ s.modelId (c.p 0 4) then some (.reply stBadParam 8 0)
  else match m.phases[bi]? with
    | none => some (.bad 4)
    | some ph =>
      if pl ≠ 0xFF ∧ ph.placements ≤ pl then some (.bad 6)
      else if !s.holds i ph.inBytes then some (.bad 8)
      else if !s.holds o ph.outBytes then some (.bad 16)
      else if ph.sequence ∧ x.kind ≠ 0 then some (.reply stBadParam 8 0)
      else if ph.kind = 1 ∧ c.p 24 4 ≠ 1 then some (.bad 24)
      else if ph.kind = 1 ∧ i < o + ph.outBytes ∧ o < i + ph.inBytes then some (.bad 8)
      else if s.namesWithdrawn i ph.inBytes || s.namesWithdrawn o ph.outBytes then some (.fail stNoResource)
      else
        let last := x.job.lastPhase
        if (if last = 255 then !ph.entry else bit ph.pred last == 0) then some (.reply stWrongState last 0)
        else
          let crews := ((List.range ph.placements).filter (fun k => pl == 0xFF || k == pl)).filterMap
            (fun k => m.placements[ph.firstPlacement + k]?)
          if crews.any (fun p => decide (p.crew ≤ s.tilesFor m.safe.isSome)) then none else some (.fail stNoResource)

/-- A job as job.submit enters it. -/
def jobOfCmd (c : Cmd) (s : State) (ctx : Nat) : Job :=
  { uid := c.uid, ctx := ctx, client := c.client, model := s.modelId (c.p 0 4), phase := c.p 4 2
    named := if c.p 6 1 = 0xFF then none else some (c.p 6 1), oppoint := c.p 7 1, inAddr := c.p 8 8, outAddr := c.p 16 8
    total := c.p 24 4, step := 0, ended := 0, noDegrade := c.noDegrade, state := .ready, readyAt := s.time.half
    counted := false, placement := 0, tiles := [], dispatchedAt := 0, order := 0, stoppedAt := 0, pausedHalf := 0, areas := []
    spillCtx := none, saved := [], boundary := false, flags := 0, detailHi := 0, degraded := false, approx := false
    appends := [], oldAppends := [], kvStatus := 0, arrived := [], layerArrived := [], lateLayers := [], merged := false, semTaken := false
    poisonRaised := false, avoid := [], urgent := false, cancelled := false, checks := [], repechage := false
    mismatch := false, frame := 0, goldenArea := none, inGolden := false, goldenFlags := none, vflags := 0, charged := []
    staleMask := 0, attemptAt := 0, invalids := 0, blamed := 0xFFFF, picked := none, owed := [] }

/-- job.submit: its step 0 is ready, and every step that can be placed is placed. -/
def runJobSubmit (s : State) (c : Cmd) : State × Res :=
  match c.ctx with
  | none => (s, .reply stBadParam 11 0)
  | some id =>
    match s.ctx id, s.model (c.p 0 4) with
    | some x, none => (s, if x.kind = 0 ∨ x.kind = 2 then .fail stModelAbsent else .reply stBadParam 8 0)
    | some x, some m =>
      match s.jobRefusal c x m with
      | some r => (s, r)
      | none =>
        if s.tablesBad id then (s.poisonTable id, .reply stTornDown 0x0111 0)
        else
          let first := (s.jobOf id).isNone
          let s1 := { s with sched := { s.sched with jobs := s.sched.jobs ++ [jobOfCmd c s id] } }
          ((if first then s1.makeReady c.uid else s1).schedule, .going)
    | none, _ => (s, .fail stCtxClosed)

/-- JOB_SUBMIT (R279). Its cheaper path under a deadline is the job's own. -/
def execJobSubmit (q k : Nat) (s : State) : Host.Outcome State Fault Refusal :=
  s.opcodeRow 0x0401 true chkJobSubmit runJobSubmit q k

/-! ### job.cancel (R281) -/

/-- job.cancel. -/
def runJobCancel (s : State) (c : Cmd) : State × Res :=
  match c.ctx.bind s.ctx, c.ctx.bind s.jobOf with
  | some x, none => (s, if x.kind = 3 then .reply stBadParam 8 0 else .fail stWrongState)
  | some x, some j =>
    if x.torn then (s, .fail stWrongState)
    else
      let s1 := s.modJob j.uid (fun j => { j with cancelled := true, detailHi := j.detailHi ||| 1 })
      let end_ (s : State) : State := match s.job j.uid with | some j => (s.finishJob j false).schedule | none => s
      match j.state with
      | .tearing _ => (s, .fail stWrongState)
      | .spilled => (end_ (((s1.undefineOut j).dropStep j).leaveStep j.ctx), .done j.ended)
      | .ready => (end_ (if j.counted then ((s1.undefineOut j).dropStep j).leaveStep j.ctx else s1.dropStep j), .done j.ended)
      | _ => (s1, .done j.ended)
  | _, _ => (s, .fail stWrongState)

/-- job.cancel has no parameter to check. -/
def chkJobCancel (_ : State) (_ : Cmd) : Check10 := none

/-- JOB_CANCEL (R281). -/
def execJobCancel (q k : Nat) (s : State) : Host.Outcome State Fault Refusal :=
  s.opcodeRow 0x0402 false chkJobCancel runJobCancel q k

/-! ### Clients (R276, R304, R305) -/

/-- The checks of sched.client. -/
def chkSchedClient (_ : State) (c : Cmd) : Check10 :=
  firstBad [(decide (4 < c.p 0 1), 0), (decide (c.p 1 2 = 0), 1)]

/-- sched.client. -/
def runSchedClient (s : State) (c : Cmd) : State × Res :=
  let x := match s.client c.client with
    | some k => { k with cls := c.p 0 1, weight := c.p 1 2 }
    | none => Client.reset (c.p 0 1) (c.p 1 2)
  ({ s with sched := { s.sched with clients := aset s.sched.clients c.client x } }.schedule, .done 0)

/-- SCHED_CLIENT (R276). -/
def execSchedClient (q k : Nat) (s : State) : Host.Outcome State Fault Refusal :=
  s.opcodeRow 0x0403 false chkSchedClient runSchedClient q k

/-- An accounting counter's 8 bytes. -/
def Acct.bytes (a : Acct) : List Byte := toLe 8 (a.v + b2n a.sat * 2 ^ 63)
/-- An event counter's 8 bytes. -/
def Ctr.bytes (c : Ctr) : List Byte := toLe 8 (c.count.toNat + b2n c.sat * 2 ^ 32)

/-- The 208 bytes of a client's record (R305). -/
def Client.bytes (id : Nat) (c : Client) : List Byte :=
  toLe 2 id ++ toLe 1 c.cls ++ toLe 1 0 ++ toLe 2 c.weight ++ toLe 2 0 ++ c.steps.bytes ++ c.waitSum.bytes ++
    toLe 8 c.waitMax ++ c.lostSum.bytes ++ c.preempt.bytes ++ c.spills.bytes ++ c.boosts.bytes ++ c.abandoned.bytes ++
    c.tornDown.bytes ++ (c.hist.toList.map Ctr.bytes).flatten

/-- Clients that sched.stats reports on. -/
def State.statsOf (s : State) (c : Cmd) : List (Nat × Client) :=
  if c.p 0 2 = 0xFFFF then s.sched.clients else s.sched.clients.filter (fun p => p.1 == c.p 0 2)

/-- The checks of sched.stats. -/
def chkSchedStats (s : State) (c : Cmd) : Check10 :=
  firstBad [((s.statsOf c).isEmpty, 0), (!s.destOk (c.p 2 8) (208 * (s.statsOf c).length), 2), (decide (1 < c.p 10 1), 10)]

/-- sched.stats. -/
def runSchedStats (s : State) (c : Cmd) : State × Res :=
  let l := s.statsOf c
  let b := (l.map (fun p => p.2.bytes p.1)).flatten
  let s1 := s.storeClean (c.p 2 8) b
  let s2 := if c.p 10 1 = 1 then
      l.foldl (fun s p => s.modClient p.1 (fun k =>
        { Client.reset k.cls k.weight with vt := k.vt, readies := k.readies, readySafe := k.readySafe })) s1
    else s1
  (s2, .done b.length)

/-- SCHED_STATS (R305). -/
def execSchedStats (q k : Nat) (s : State) : Host.Outcome State Fault Refusal :=
  s.opcodeRow 0x0404 false chkSchedStats runSchedStats q k

/-! ### Semaphores (R296, R298) -/

/-- The check of sem.alloc. -/
def chkSemAlloc (_ : State) (c : Cmd) : Check10 := firstBad [(decide (c.p 0 2 = 0 ∨ 4096 < c.p 0 2), 0)]

/-- sem.alloc. -/
def runSemAlloc (s : State) (c : Cmd) : State × Res :=
  let n := c.p 0 2
  match (gaps (s.sched.sems.map (fun p => ⟨p.1, 1⟩)) 0 4096).find? (fun e => decide (n ≤ e.count)) with
  | none => (s, .fail stNoResource)
  | some e =>
    let sems := (List.range n).foldl (fun l i => aset l (e.first + i) (Sem.mk c.client 1 none [])) s.sched.sems
    ({ s with sched := { s.sched with sems := sems } }, .done e.first)

/-- SEM_ALLOC (R296). -/
def execSemAlloc (q k : Nat) (s : State) : Host.Outcome State Fault Refusal :=
  s.opcodeRow 0x0405 false chkSemAlloc runSemAlloc q k

/-- The check of sem.free. -/
def chkSemFree (_ : State) (c : Cmd) : Check10 := firstBad [(decide (c.p 4 2 = 0), 4)]

/-- sem.free. -/
def runSemFree (s : State) (c : Cmd) : State × Res :=
  let first := c.p 0 4
  let ids := (List.range (c.p 4 2)).map (first + ·)
  let own (i : Nat) : Bool := match s.sem i with | some x => x.client == c.client | none => false
  let busy (i : Nat) : Bool := match s.sem i with | some x => x.holder.isSome || !x.waiters.isEmpty | none => false
  if 4096 < first + c.p 4 2 ∨ !ids.all own then (s, .bad 0)
  else if ids.any busy then (s, .fail stWrongState)
  else ({ s with sched := { s.sched with sems := s.sched.sems.filter (fun p => !ids.contains p.1) } }, .done 0)

/-- SEM_FREE (R296). -/
def execSemFree (q k : Nat) (s : State) : Host.Outcome State Fault Refusal :=
  s.opcodeRow 0x0406 false chkSemFree runSemFree q k

/-- BOOST_EXPIRED (R298): a boost by a semaphore has lasted 50 µs and tears its holder down. -/
def execBoostExpired (sem : Nat) (s : State) : Host.Outcome State Fault Refusal :=
  .next (match s.sched.boosts.find? (fun b => b.sem == sem && s.since b.since (us 50)) with
    | some b => s.teardown b.ctx 0x0120
    | none => s)

/-! ### Spilling (R291 to R293) -/

/-- A tile has drained: no array, run, pool operation, fill or drain is under way on it. -/
def Tile.drained (t : Tile) : Bool :=
  t.slots.toList.all (fun x => x.state != .draining && x.state != .filling) && t.sweepsOut.isEmpty && t.xfsOut.isEmpty &&
    t.arrays.toList.all (fun a => a.reducing.isNone && a.converting.isNone) && t.pool.isNone

/-- SPILL_DRAIN_COMPLETE (R291): the crew has drained, its stores are at home, and its save records are to be written. -/
def execSpillDrainComplete (ctx : Nat) (s : State) : Host.Outcome State Fault Refusal :=
  .next (match s.jobOf ctx with
    | none => s
    | some j =>
      if j.state = .draining ∧ j.tiles.all (fun t => (s.tile t).drained) then
        (j.tiles.foldl State.settleStores s).modJob j.uid (fun j => { j with state := .saving })
      else s)

/-- Bytes that share a poison bit. -/
def pbytes (p : Bool) (l : List Byte) : List PByte := l.map (fun b => ⟨b, p⟩)

/-- Zero bytes. -/
def pzero (n : Nat) : List PByte := List.replicate n ⟨0, false⟩

/-- Products that wait for their window added to the accumulators under E_b (R86). -/
def Arr.settle (a : Arr) (eb : Int) : List Acc :=
  if a.pend.isEmpty then a.acc.toList
  else (a.acc.toList.zip a.pend).map (fun x => x.2.foldl (fun c v => c.addVal eb v.1 v.2) x.1)

/-- An array's saved accumulators, under its E_b, or under `w` when no operation of the chain has named one. -/
def Arr.saveBytes (a : Arr) (w : Int) : List PByte :=
  let eb := a.eb.getD w
  ((a.settle eb).map (fun x => pbytes x.poison (x.record eb))).flatten

/-- A thread's saved registers and program counter (R292). -/
def Thread.saveBytes (t : Thread) : List PByte :=
  (t.x.toList.zipIdx.map (fun (v, i) =>
    if i = 0 then pbytes t.flagP (toLe 8 (b2n t.flag)) else pbytes (t.xp.getLsbD i) (toLe 8 v.toNat))).flatten ++
  ((t.v.toList.zip t.vp.toList).map (fun (v, p) =>
    (v.toList.zipIdx.map (fun (w, i) => pbytes (p.getLsbD (i / 2)) (toLe 4 w.toNat))).flatten)).flatten ++
  pbytes false (toLe 8 t.pc)

/-- Save code of a slot's state. -/
def SlotState.code : SlotState → Nat
  | .full => 1 | .posted => 2 | _ => 0

/-- An engine's 32 bytes of the tile record. -/
def Tile.engineBytes (t : Tile) (e : Nat) : List Byte :=
  let b := vget Bow.reset t.bows e
  let st := (List.range 32).foldr (fun i a => (vget Slot.reset t.slots (32 * e + i)).state.code + 16 * a) 0
  toLe 8 b.base ++ toLe 4 ((b.next - b.base) / 32) ++ toLe 4 b.step ++ toLe 16 st

/-- The tile record (R293). -/
def Tile.record (t : Tile) (p : Placement) (ctx : Nat) (arrived : Bool) (pauseNs : Nat) : List Byte :=
  let arrays := t.arrays.toList.zipIdx.foldl (fun a (x, i) => a + b2n x.live * 2 ^ i) 0
  toLe 4 ctx ++ toLe 1 t.rank ++ toLe 1 arrays ++ toLe 1 p.threads ++ toLe 1 0 ++ toLe 4 t.completed ++ toLe 4 (b2n arrived) ++
    t.engineBytes 0 ++ t.engineBytes 1 ++ toLe 4 t.arith.toNat ++ toLe 4 (min pauseNs 0xFFFFFFFF) ++ toLe 168 0

/-- Device address of a save area (R137). -/
def areaAddr (a : Nat) : Nat := t1Base + 0x08000000 + a * 0x200000

/-- One tile's save record written to its area (R292). -/
def State.saveTile (s : State) (j : Job) (p : Placement) (t area : Nat) : State :=
  let x := s.tile t
  let f := p.footprint
  let o := ceilDiv f 64 * 64
  let live := x.arrays.toList.filter (fun a => a.live)
  let (k, s) := s.draw
  let body := (live.map (fun a => a.saveBytes (sext 10 k))).flatten ++ ((x.threads.toList.take p.threads).map Thread.saveBytes).flatten
  let s1 := s.copyBytes (t * t0TileSize) (areaAddr area) f
  let s2 := s1.storeBytes (areaAddr area + f) (pzero (o - f))
  let s3 := s2.storeBytes (areaAddr area + o) body
  s3.storeClean (areaAddr area + 0x1FFF00) (x.record p j.ctx (j.arrived.contains x.rank) (j.pausedHalf / 2))

/-- SPILL_SAVE_COMPLETE (R291): the records are written, the crew dissolves and the step is spilled. -/
def execSpillSaveComplete (ctx : Nat) (s : State) : Host.Outcome State Fault Refusal :=
  .next (match s.jobOf ctx with
    | none => s
    | some j =>
      if j.state = .saving then
        match s.placementOf j j.placement with
        | none => s
        | some p =>
          let s1 := (j.tiles.zip j.areas).foldl (fun s (t, a) => s.saveTile j p t a) s
          let saved := j.tiles.map s1.tile
          ((s1.dissolve j.tiles j.ctx).modJob j.uid (fun j =>
            { j with state := .spilled, saved := saved, tiles := [], readyAt := s.time.half })).schedule
      else s)

/-! ### Resumption (R294) -/

/-- A scalar word read back from a save record: its value and its poison. -/
def wordAt (l : List PByte) (o n : Nat) : Nat × Bool :=
  let b := (l.drop o).take n
  (leNat (vals b), b.any PByte.p)

/-- Where a blocked thread stands when it resumes: it re-executes its instruction, unless its arrival at a barrier has
been counted (R293). -/
def Block.resume : Block → Block
  | .barrier true => .barrier true
  | .layerLate l rd true => .layerLate l rd true
  | _ => .run

/-- A thread with its registers and program counter from a save record. -/
def Thread.restore (t : Thread) (b : List PByte) : Thread :=
  let xs := (List.range 32).map (fun i => wordAt b (8 * i) 8)
  let f := xs.getD 0 (0, false)
  let v (r : Nat) : Vector Word32 64 := Vector.ofFn (fun i : Fin 64 => BitVec.ofNat 32 (wordAt b (256 + 256 * r + 4 * i.val) 4).1)
  let vp (r : Nat) : BitVec 32 := BitVec.ofNat 32 (ofBits ((List.range 32).map (fun i => (wordAt b (256 + 256 * r + 8 * i) 8).2)))
  { t with
    x := Vector.ofFn (fun i : Fin 32 => if i.val = 0 then 0 else BitVec.ofNat 64 (xs.getD i.val (0, false)).1)
    xp := BitVec.ofNat 32 (2 * ofBits ((xs.drop 1).map Prod.snd))
    v := Vector.ofFn (fun i : Fin 8 => v i.val), vp := Vector.ofFn (fun i : Fin 8 => vp i.val)
    pc := (wordAt b 2304 8).1, flag := decide (f.1 % 2 = 1), flagP := f.2, block := t.block.resume }

/-- An array with its accumulators from a save record; accumulators whose products wait for their window are kept as they are, but for
the poison of their words (R84, R295). -/
def Arr.restore (a : Arr) (b : List PByte) : Arr :=
  if a.eb.isNone then
    { a with acc := Vector.ofFn (fun i : Fin 1024 =>
        let x := vget Acc.zero a.acc i.val
        { x with poison := x.poison || ((b.drop (32 * i.val)).take 32).any PByte.p }) }
  else
  { a with acc := Vector.ofFn (fun i : Fin 1024 =>
      let r := (b.drop (32 * i.val)).take 32
      match Acc.ofRecord r with
      | some (x, _) => { x with poison := r.any PByte.p }
      | none => { Acc.zero with poison := true }) }

/-- A bow engine as it resumes: a stall is judged anew. -/
def BowState.resume : BowState → BowState
  | .idle => .idle
  | .atBarrier c => .atBarrier c
  | _ => .running

/-- A bow engine with its stream and its place in it from the 32 bytes of the tile record (R293). -/
def Bow.restore (b : Bow) (r : List PByte) : Bow :=
  let base := (wordAt r 0 8).1
  { b with state := b.state.resume, base := base, next := base + 32 * (wordAt r 8 4).1, step := (wordAt r 12 4).1 }

/-- The fields of a tile record bear poison: words of its area were lost (R295). -/
def recordLost (r : List PByte) : Bool := (r.take 88).any PByte.p

/-- A slot with its saved state. -/
def Slot.restore (x : Slot) (code : Nat) : Slot :=
  { x with state := if code = 1 then .full else if code = 2 then .posted else .empty }

/-- The tile record in a save area. -/
def State.areaRecord (s : State) (area : Nat) : List PByte := s.peek (areaAddr area + 0x1FFF00) 256

/-- A tile of the new crew takes over what a rank saved: from the record's bytes, and from the kept tile for the rest. -/
def State.restoreTile (s : State) (p : Placement) (t area : Nat) (sv : Tile) (pause : Nat) : State :=
  let f := p.footprint
  let o := ceilDiv f 64 * 64
  let live := sv.arrays.toList.zipIdx.filter (fun x => x.1.live)
  let accB := s.peek (areaAddr area + o) (32768 * live.length)
  let thB := s.peek (areaAddr area + o + 32768 * live.length) (2312 * p.threads)
  let rec_ := s.areaRecord area
  let arrays := live.zipIdx.foldl (fun (v : Vector Arr 4) (x, k) =>
    vmod v x.2 (fun a => a.restore ((accB.drop (32768 * k)).take 32768))) sv.arrays
  let s1 := s.copyBytes (areaAddr area) (t * t0TileSize) f
  let code (i : Nat) : Nat := (wordAt rec_ (32 + 32 * (i / 32) + i % 32 / 2) 1).1 / 16 ^ (i % 2) % 16
  s1.modTile t (fun x =>
    { x with
      threads := Vector.ofFn (fun i : Fin 128 =>
        let th := vget Thread.reset sv.threads i.val
        if i.val < p.threads then th.restore ((thB.drop (2312 * i.val)).take 2312) else th)
      arrays := arrays
      bows := Vector.ofFn (fun i : Fin 2 => (vget Bow.reset sv.bows i.val).restore ((rec_.drop (16 + 32 * i.val)).take 32))
      slots := Vector.ofFn (fun i : Fin 64 => (vget Slot.reset sv.slots i.val).restore (code i.val))
      completed := (wordAt rec_ 8 4).1
      mode := .running
      arith := x.arith ||| BitVec.ofNat 9 (wordAt rec_ 80 4).1
      layerDl := sv.layerDl.map (fun d => (d.1, d.2 + pause)), layerHit := sv.layerHit, executed := sv.executed, skipped := sv.skipped })

/-- Ranks whose records say that they have arrived in the barrier generation (R293). -/
def State.savedArrivals (s : State) (areas : List Nat) : List Nat :=
  (areas.zipIdx.filter (fun x => (wordAt (s.areaRecord x.1) 12 4).1 % 2 == 1)).map Prod.snd

/-- A tile whose record lost words of its fields uses a poisoned value as it resumes (R181, R295). DESIGN CHOICE (log entry 102): the
fault is thread 0's, at the record. -/
def State.resumeLost (s : State) (lost : List (Nat × Nat)) : State :=
  lost.foldl (fun s x => s.poisonUse x.1 0 (areaAddr x.2 + 0x1FFF00)) s

/-- RESUME_ISSUE (R294): the records are read back and the resumed step issues again. -/
def execResumeIssue (ctx : Nat) (s : State) : Host.Outcome State Fault Refusal :=
  .next (match s.jobOf ctx with
    | none => s
    | some j =>
      if j.state = .resuming ∧ j.tiles.all (fun t => s.domOn (t / 2)) then
        match s.placementOf j j.placement with
        | none => s
        | some p =>
          let pause := s.time.half - j.stoppedAt
          let s1 := (j.tiles.zip (j.areas.zip j.saved)).foldl (fun s (t, a, sv) => s.restoreTile p t a sv pause) s
          let s2 := (s1.countLost j).freeAreas j
          let s3 := s2.modJob j.uid (fun k =>
            { k with state := if k.inGolden then .golden else .running, pausedHalf := k.pausedHalf + pause
                     arrived := s.savedArrivals j.areas })
          s3.resumeLost ((j.tiles.zip j.areas).filter (fun x => recordLost (s.areaRecord x.2)))
      else s)

end Sys2Proof.Machine
end

