-- ==== Sys2Proof/Machine/Contexts.lean ====
section
/-! DEFINITION. Contexts and the KV cache as commands, and the events of their pages (R209 to R227, R282, R325). -/

namespace Sys2Proof.Machine

/-! ### ctx.open (R94, R209, R282, R325) -/

/-- The checks of ctx.open: kinds 1 and 3 are the TZ8's own, and kind 4 names no model. -/
def chkCtxOpen (_ : State) (c : Cmd) : Check10 :=
  let k := c.p 0 1
  firstBad [(decide (k = 1 ∨ k = 3 ∨ 4 < k), 0), (decide (k = 4 ∧ c.p 1 4 ≠ 0), 1)]

/-- The seed a context is given (R94, R264): drawn when a phase of the model has none, and whether it was drawn. -/
def State.ctxSeed (s : State) (m : Model) : Nat × Bool × State :=
  if m.phases.any (fun p => p.seed == 0) then
    let (k, s1) := s.draw
    (k % 2 ^ 64, true, s1)
  else ((m.phases.map PhaseEntry.seed).headD 0, false, s)

/-- A sequence part with every list empty. -/
def SeqShape.empty (q : SeqShape) (dir : Nat) : SeqCtx :=
  { dir := dir, layers := q.layers, heads := q.heads, headDim := q.headDim, kvFmt := q.kvFmt, emptyRows := 0, approx := 0
    clamped := 0
    lists := q.scales.map (fun x =>
      { len := 0, first := 0, vis := 0, visFirst := 0, kScale := x.1, vScale := x.2, appended := false, pages := [], blocks := [] }) }

/-- A context newly opened by a client. -/
def Ctx.fresh (kind model seed : Nat) (drawn : Bool) (client : Nat) (noSpill : Bool) (seq : Option SeqCtx) : Ctx :=
  { kind := kind, torn := false, model := model, seed := seed, drawn := drawn, client := client, step := false
    noSpill := noSpill, seq := seq, job := JobCtx.reset, spill := none, track := none, plan := PlanCtx.reset }

/-- ctx.open. -/
def runCtxOpen (s : State) (c : Cmd) : State × Res :=
  let kind := c.p 0 1
  if kind = 4 then
    match s.freeCtxId with
    | none => (s, .fail stNoResource)
    | some id => (s.putCtx id (Ctx.fresh 4 0 0 false c.client false none), .done id)
  else match s.model (c.p 1 4) with
    | none => (s, .fail stModelAbsent)
    | some m =>
      let h := s.modelId (c.p 1 4)
      if kind = 2 then
        match s.freeCtxId with
        | none => (s, .fail stNoResource)
        | some id =>
          let (seed, drawn, s1) := s.ctxSeed m
          (s1.putCtx id (Ctx.fresh 2 h seed drawn c.client false none), .done id)
      else match m.seq with
        | none => (s, .bad 0)
        | some q =>
          if s.sagging then (s, .fail stSag)
          else match s.freeCtxId, s.allocFrames (max 1 (ceilDiv (32 * q.scales.length) 16384)) with
            | some id, some (f, s1) =>
              let (seed, drawn, s2) := s1.ctxSeed m
              (s2.putCtx id (Ctx.fresh 0 h seed drawn c.client m.pinned (some (q.empty f))), .done id)
            | _, _ => (s, .fail stNoResource)

/-- CTX_OPEN (R209). -/
def execCtxOpen (q k : Nat) (s : State) : Host.Outcome State Fault Refusal :=
  s.opcodeRow 0x0501 false chkCtxOpen runCtxOpen q k

/-! ### ctx.close (R210, R282, R283, R299) -/

/-- A command of another queue that names a context is executing. -/
def State.namedElsewhere (s : State) (uid ctx : Nat) : Bool :=
  s.host.queues.toList.any (fun q => q.cmds.any (fun c =>
    c.uid != uid && c.ctx == some ctx && (c.phase == .ready || c.phase == .running)))

/-- Every page, page-table block and directory of a context freed. -/
def State.freeSeq (s : State) (id : Nat) : State :=
  let s1 := (s.allPages.filter (fun x => x.1 == id && x.2.2.2.state != .free)).foldl (fun s x => s.freePage id x.2.1 x.2.2.1) s
  match (s.ctx id).bind Ctx.seq with
  | none => s1
  | some q => (q.lists.foldl (fun s l => l.blocks.foldl State.freeFrames s) s1).freeFrames q.dir

/-- ctx.close. -/
def runCtxClose (s : State) (c : Cmd) : State × Res :=
  match c.ctx with
  | none => (s, .reply stBadParam 11 0)
  | some id =>
    match s.ctx id with
    | none => (s, .fail stCtxClosed)
    | some x =>
      if x.kind = 1 ∨ x.kind = 3 then (s, .reply stBadParam 8 0)
      else if x.step || s.namedElsewhere c.uid id then (s, .fail stWrongState)
      else if !x.torn && s.tablesBad id then (s.poisonTable id, .reply stTornDown 0x0111 0)
      else
        let s1 : State := { s with sched := { s.sched with boosts := s.sched.boosts.filter (fun b => b.ctx != id) } }
        ((((s1.breakSems id).freeSeq id).dropCtx id).schedule, .done 0)

/-- ctx.close has no parameter to check. -/
def chkCtxClose (_ : State) (_ : Cmd) : Check10 := none

/-- CTX_CLOSE (R210). -/
def execCtxClose (q k : Nat) (s : State) : Host.Outcome State Fault Refusal :=
  s.opcodeRow 0x0502 false chkCtxClose runCtxClose q k

/-! ### What every KV command asks of its context -/

/-- A KV command's context: a sequence whose tables are sound (R213, R226). -/
def State.onSeq (s : State) (c : Cmd) (f : Nat → SeqCtx → State × Res) : State × Res :=
  match c.ctx with
  | none => (s, .reply stBadParam 11 0)
  | some id =>
    match (s.ctx id).bind Ctx.seq with
    | none => (s, .reply stBadParam 8 0)
    | some q =>
      if s.tablesBad id then (s.poisonTable id, .reply stTornDown 0x0111 0) else f id q

/-- A step of a context runs. -/
def State.ctxStep (s : State) (id : Nat) : Bool := match s.ctx id with | some c => c.step | none => false

/-- A command waits for the step of its context to end (R216). -/
def State.deferKv (s : State) (c : Cmd) (id : Nat) : State × Res :=
  ({ s with boat := { s.boat with waits := s.boat.waits ++ [⟨c.uid, id, 0, [], [], []⟩] } }, .going)

/-! ### kv.append (R216 to R218, R226) -/

/-- The check of kv.append that needs no context. -/
def chkKvAppend (s : State) (c : Cmd) : Check10 := firstBad [(!s.destOk (c.p 0 8) 1, 0), (decide (c.p 12 2 = 0), 12)]

/-- A row of BF16 elements in memory. -/
def State.bf16Row (s : State) (a n : Nat) : List (Val × Bool) :=
  let b := s.peek a (2 * n)
  (List.range n).map (fun i => let e := elemAt 7 b i; (fBF16.decode e.1, e.2))

/-- Rows of K and V of `tokens` tokens read at `src` in kv.append's order and appended to `n` lists from `base`. -/
def State.appendAll (s : State) (id base n tokens src d : Nat) : Except Nat State :=
  let rows (i : Nat) := (List.range tokens).map (fun j =>
    let a := src + (i * tokens + j) * 4 * d
    (s.bf16Row a d, s.bf16Row (a + 2 * d) d))
  (List.range n).foldl (fun (acc : Except Nat State) i =>
    match acc with
    | .error e => .error e
    | .ok s => s.appendTokens id (base + i) (rows i)) (.ok s)

/-- kv.append. -/
def runKvAppend (s : State) (c : Cmd) : State × Res :=
  s.onSeq c (fun id q =>
    let src := c.p 0 8
    let tokens := c.p 8 2
    let first := c.p 10 2
    let layers := c.p 12 2
    let d := headD q.headDim
    let n := layers * q.heads
    let mine := (q.lists.drop (first * q.heads)).take n
    if q.layers < first + layers then (s, .bad 10)
    else if !s.destOk src (n * tokens * 4 * d) then (s, .bad 0)
    else if s.namesWithdrawn src (n * tokens * 4 * d) then (s, .fail stNoResource)
    else
      let len := match mine with | l :: _ => l.len | [] => 0
      if mine.any (fun l => l.len != len) then (s, .fail stWrongState)
      else if s.ctxStep id && mine.any (fun l => decide (l.len < l.vis)) && tokens != 0 then s.deferKv c id
      else
        match s.appendAll id (first * q.heads) n tokens src d with
        | .error e => (s, .fail e)
        | .ok s1 => (((s1.noteRead src (n * tokens * 4 * d)).syncCtx id).spillBackground, .done (len + tokens)))

/-- KV_APPEND (R226). -/
def execKvAppend (q k : Nat) (s : State) : Host.Outcome State Fault Refusal :=
  s.opcodeRow 0x0503 false chkKvAppend runKvAppend q k

/-! ### kv.trim (R214, R216, R226) -/

/-- kv.trim's parameters are judged against the lists. -/
def chkKvTrim (_ : State) (_ : Cmd) : Check10 := none

/-- A page left part-filled by a back trim with `j` tokens (R214): fetched when it is not resident, its slot freed. -/
def State.refill (s : State) (id n i j : Nat) : Except Nat State :=
  let p := s.page id n i
  let resident : Except Nat State :=
    match p.state with
    | .spilled => (s.startFetch id n i).map (fun s => s.endFetch id n i)
    | .fetching => .ok (s.endFetch id n i)
    | _ => .ok s
  match resident with
  | .error e => .error e
  | .ok s =>
    let p := s.page id n i
    if p.state = .free then .ok s
    else
      let s := if p.state.hasSlot then s.freeSlot p.slot else s
      .ok (s.modPage id n i (fun p =>
        { p with state := .filling, count := j, slot := 0, durable := false, sumValid := false, filledAt := 0 }))

/-- One list trimmed to positions `first` to `len` - 1. -/
def State.trimList (s : State) (id n tpp first len : Nat) : Except Nat State :=
  match s.kvList id n with
  | none => .ok s
  | some l =>
    let part : Except Nat State :=
      if len < l.len ∧ len % tpp ≠ 0 then s.refill id n (len / tpp) (len % tpp) else .ok s
    match part with
    | .error e => .error e
    | .ok s =>
      let gone := (List.range l.pages.length).filter (fun i => decide ((i + 1) * tpp ≤ first) || decide (len ≤ i * tpp))
      let s := gone.foldl (fun s i => s.releasePage id n i) s
      .ok (s.modList id n (fun l => { l with first := first, len := len }))

/-- Every list of a sequence trimmed by `front` and `back` tokens. -/
def State.trimAll (s : State) (id : Nat) (q : SeqCtx) (front back : Nat) : Except Nat State :=
  q.lists.zipIdx.foldl (fun (acc : Except Nat State) (l, n) =>
    match acc with
    | .error e => .error e
    | .ok s => s.trimList id n (tppOf q.headDim) (l.first + front) (l.len - back)) (.ok s)

/-- kv.trim. -/
def runKvTrim (s : State) (c : Cmd) : State × Res :=
  s.onSeq c (fun id q =>
    let front := c.p 0 4
    let back := c.p 4 4
    let tpp := tppOf q.headDim
    if q.lists.any (fun l => decide (l.len - l.first < front + back)) then (s, .bad 0)
    else if s.ctxStep id && q.lists.any (fun l => decide (l.len - back < l.vis ∧ 0 < back ∧ (l.len - back) % tpp ≠ 0)) then
      s.deferKv c id
    else
      match s.trimAll id q front back with
      | .error e => (s, .fail e)
      | .ok s1 => (s1.syncCtx id, .done (match s1.kvList id 0 with | some l => l.len - l.first | none => 0)))

/-- KV_TRIM (R226). -/
def execKvTrim (q k : Nat) (s : State) : Host.Outcome State Fault Refusal :=
  s.opcodeRow 0x0504 false chkKvTrim runKvTrim q k

/-! ### kv.move and kv.fetch (R214, R216, R222, R226) -/

/-- The check of kv.move. -/
def chkKvMove (_ : State) (c : Cmd) : Check10 := firstBad [(decide (c.p 8 1 ≠ 1 ∧ c.p 8 1 ≠ 2), 8)]

/-- Pages of a range in every list of a sequence that satisfy a test, as (list, page). -/
def SeqCtx.rangePages (q : SeqCtx) (first n : Nat) (f : Page → Bool) : List (Nat × Nat) :=
  q.lists.zipIdx.flatMap (fun (l, k) =>
    (l.pages.zipIdx.filter (fun (p, i) => decide (first ≤ i ∧ i < first + n) && f p)).map (fun (_, i) => (k, i)))

/-- What a waiting kv.move still waits for: a page of its range not yet durable for tier 2, not yet CLEAN for tier 1. -/
def State.kvPending (s : State) (w : KvWait) : Bool :=
  (w.pages ++ w.others).any (fun (n, i) =>
    let p := s.page w.ctx n i
    if w.tier = 2 then p.state == .spilling && !p.durable else p.state == .fetching)

/-- A page that a late kv.move moved goes back to where it was (R63): out of T1 again, or into T1 while a frame is free. -/
def State.unmove (w : KvWait) (s : State) (x : Nat × Nat) : State :=
  let p := s.page w.ctx x.1 x.2
  let back (s : State) (f : Nat) : State :=
    if w.clean.contains x then s.setPage w.ctx x.1 x.2 (fun p => { p with state := .clean, frame := f })
    else (s.freeSlot p.slot).setPage w.ctx x.1 x.2 (fun p => { p with state := .resident, frame := f, slot := 0, durable := false })
  if w.tier = 1 then
    if p.state = .clean ∧ p.holds = 0 then s.leaveT1 w.ctx x.1 x.2 else s
  else match p.state with
    | .spilling => back s p.frame
    | .spilled => match s.enterFrames 1 with
      | some (f, s1) => back (s1.copyBytes (s1.slotNvs p.slot) (frameAddr f) 16384) f
      | none => s
    | _ => s

/-- A kv.move whose pages have all arrived completes; a late one leaves them where they were (R63). -/
def State.endKvWait (s : State) (w : KvWait) : State :=
  if s.lateUid w.uid then (w.pages.foldl (State.unmove w) s).finishUid w.uid false stDeadline 0 0
  else s.finishUid w.uid false stDone 0 w.pages.length

/-- Waiting kv.move commands whose pages have all arrived complete. -/
def State.endKvWaits (s : State) : State :=
  let ended (w : KvWait) : Bool := w.tier != 0 && !s.kvPending w
  let s1 : State := { s with boat := { s.boat with waits := s.boat.waits.filter (fun w => !ended w) } }
  (s.boat.waits.filter ended).foldl State.endKvWait s1

/-- A kv.move goes on until its pages, and those of its range on their way already, have arrived. -/
def State.awaitPages (s : State) (w : KvWait) : State × Res :=
  if s.kvPending w then ({ s with boat := { s.boat with waits := s.boat.waits ++ [w] } }, .going)
  else (s, .done w.pages.length)

/-- kv.move to NVS: it returns once every full page of the range has a durable NVS copy, those included that were already
being written. -/
def State.moveOut (s : State) (c : Cmd) (id : Nat) (q : SeqCtx) : State × Res :=
  let pick (f : Page → Bool) := q.rangePages (c.p 0 4) (c.p 4 4) f
  let dirty := pick (fun p => p.state == .resident)
  let clean := pick (fun p => p.state == .clean)
  let flying := pick (fun p => p.state == .spilling && !p.durable)
  let durable := pick (fun p => p.state == .clean || p.state == .spilled || p.state == .fetching || (p.state == .spilling && p.durable))
  let free := s.tier.spillPages - s.boat.slots.length
  if 2 ≤ q.headDim then (s, .reply stBadParam 8 0)
  else if s.tier.spillPages = 0 then (s, .fail stNoResource)
  else if s.sagging then (s, .reply stSag durable.length 0)
  else if free < dirty.length then (s, .fail stNoResource)
  else
    let s1 := dirty.foldl (fun s x => (s.startSpill id x.1 x.2).getD s) s
    let s2 := clean.foldl (fun s x => s.leaveT1 id x.1 x.2) s1
    (s2.syncCtx id).awaitPages ⟨c.uid, id, 2, dirty ++ clean, clean, flying⟩

/-- Fetches begun for pages of a context, until one finds no frame. -/
def State.fetchAll (s : State) (id : Nat) (l : List (Nat × Nat)) : Except Nat State :=
  l.foldl (fun (acc : Except Nat State) x => match acc with | .error e => .error e | .ok s => s.startFetch id x.1 x.2) (.ok s)

/-- kv.move to T1. -/
def State.moveIn (s : State) (c : Cmd) (id : Nat) (q : SeqCtx) : State × Res :=
  let out := q.rangePages (c.p 0 4) (c.p 4 4) (fun p => p.state == .spilled)
  match s.fetchAll id out with
  | .error _ => (s, .fail stNoResource)
  | .ok s1 =>
    (s1.syncCtx id).awaitPages ⟨c.uid, id, 1, out, [], q.rangePages (c.p 0 4) (c.p 4 4) (fun p => p.state == .fetching)⟩

/-- kv.move. -/
def runKvMove (s : State) (c : Cmd) : State × Res :=
  s.onSeq c (fun id q => if c.p 8 1 = 2 then s.moveOut c id q else s.moveIn c id q)

/-- KV_MOVE (R226). -/
def execKvMove (q k : Nat) (s : State) : Host.Outcome State Fault Refusal :=
  s.opcodeRow 0x0505 false chkKvMove runKvMove q k

/-- kv.fetch takes any page range. -/
def chkKvFetch (_ : State) (_ : Cmd) : Check10 := none

/-- A fetch of a page of a context begun where a frame can be had. -/
def State.tryFetch (s : State × Nat) (x : Nat × Nat) : State × Nat :=
  match s.1.startFetch s.2 x.1 x.2 with | .ok t => (t, s.2) | .error _ => s

/-- kv.fetch: a page for which no frame can be had stays in NVS. -/
def runKvFetch (s : State) (c : Cmd) : State × Res :=
  s.onSeq c (fun id q =>
    let out := q.rangePages (c.p 0 4) (c.p 4 4) (fun p => p.state == .spilled)
    let s2 := (out.foldl State.tryFetch (s, id)).1.syncCtx id
    let readable := match (s2.ctx id).bind Ctx.seq with
      | some q => (q.rangePages (c.p 0 4) (c.p 4 4) (fun p => p.state.readable)).length
      | none => 0
    (s2, .done readable))

/-- KV_FETCH (R226). -/
def execKvFetch (q k : Nat) (s : State) : Host.Outcome State Fault Refusal :=
  s.opcodeRow 0x0506 false chkKvFetch runKvFetch q k

/-! ### kv.stats (R227) -/

/-- The record of kv.stats. -/
def SeqCtx.stats (q : SeqCtx) : List Byte :=
  toLe 2 q.layers ++ toLe 1 q.heads ++ toLe 1 q.headDim ++ toLe 1 q.kvFmt ++ toLe 1 (tppOf q.headDim) ++ toLe 2 0 ++
    toLe 4 (q.countPages PageState.hasFrame) ++ toLe 4 (q.countPages PageState.hasSlot) ++ toLe 4 q.emptyRows ++
    toLe 4 q.approx ++ toLe 4 q.clamped ++ toLe 36 0 ++
    (q.lists.map (fun l =>
      toLe 4 l.len ++ toLe 4 l.first ++ toLe 4 (l.pages.filter (fun p => p.state.readable)).length ++
        toLe 4 (l.pages.filter (fun p => p.state == .spilled || p.state == .fetching)).length)).flatten

/-- The check of kv.stats that needs no context. -/
def chkKvStats (s : State) (c : Cmd) : Check10 := firstBad [(!s.destOk (c.p 0 8) 64, 0)]

/-- kv.stats; a torn-down context still answers it. -/
def runKvStats (s : State) (c : Cmd) : State × Res :=
  let answer (q : SeqCtx) : State × Res :=
    if s.destOk (c.p 0 8) q.stats.length then (s.storeClean (c.p 0 8) q.stats, .done q.stats.length) else (s, .bad 0)
  match (c.ctx.bind s.ctx) with
  | some x => if x.torn then (match x.seq with | some q => answer q | none => (s, .reply stBadParam 8 0))
    else s.onSeq c (fun _ q => answer q)
  | none => (s, .fail stCtxClosed)

/-- KV_STATS (R227). -/
def execKvStats (q k : Nat) (s : State) : Host.Outcome State Fault Refusal :=
  s.opcodeRow 0x0507 false chkKvStats runKvStats q k

/-! ### Pages arriving (R214) -/

/-- KV_FETCH_COMPLETE (R214, R224): the page is CLEAN, walkers that wait for it go on, and a kv.move whose last page it was
completes. -/
def execKvFetchComplete (ctx list page : Nat) (s : State) : Host.Outcome State Fault Refusal :=
  .next (if (s.page ctx list page).state = .fetching then
      (((s.endFetch ctx list page).walkAll).syncCtx ctx).endKvWaits
    else s)

/-- KV_SPILL_DURABLE (R214): the page's NVS copy is durable; with HOLDS 0 its frame is free. -/
def execKvSpillDurable (ctx list page : Nat) (s : State) : Host.Outcome State Fault Refusal :=
  .next (
    let p := s.page ctx list page
    if p.state = .spilling ∧ p.durable = false then
      ((((s.modPage ctx list page (fun p => { p with durable := true })).endSpill ctx list page).walkAll).syncCtx ctx).endKvWaits
    else s)

end Sys2Proof.Machine
end

