-- ==== Sys2Proof/Machine/ArithFn.lean ====
section
/-! DEFINITION. Logarithm, cosine and sine to 1 ulp, and the correctly rounded twiddle factors (R97, R198, R199, R246). -/

namespace Sys2Proof.Machine

/-- 2 * sum of t^(2i+1) / (2i+1) in units of 2^-200, by fuel. -/
def atanhSeries : Nat → Nat → Nat → Nat → Nat → Nat
  | 0, _, _, _, acc => acc
  | f + 1, t2, i, term, acc =>
    let a := term / (2 * i + 1)
    if term = 0 then acc else atanhSeries f t2 (i + 1) (term * t2 / 2 ^ 200) (acc + 2 * a)

/-- ln of a positive `m * 2^e` in units of 2^-200. -/
def lnFix (m : Nat) (e : Int) : Int :=
  let l := ilog2 m
  let k : Int := (l : Int) + e
  let f := m * 2 ^ 200 / 2 ^ l
  let t := (f - 2 ^ 200) * 2 ^ 200 / (f + 2 ^ 200)
  k * (ln2Fix : Int) + (atanhSeries 130 (t * t / 2 ^ 200) 0 t 0 : Nat)

/-- A signed fixed-point real within 1 ulp in a format. -/
def Fmt.nearInt (f : Fmt) (fn x : Nat) (i : Int) (e : Int) : Nat := f.signBit (decide (i < 0)) + f.near fn x i.natAbs e

/-- FP32 natural logarithm (R97, R199): minus infinity of zero, NaN below zero. -/
def fln (a : Nat) : Nat :=
  match fFP32.decode a with
  | .nan => fFP32.nanEnc
  | .inf neg => if neg then fFP32.nanEnc else fFP32.infEnc
  | .fin neg m e =>
    if m = 0 then fFP32.signBit true + fFP32.infEnc
    else if neg then fFP32.nanEnc
    else fFP32.nearInt 2 a (lnFix m e) (-200)

/-- 2 pi in units of 2^-400. -/
def twoPi : Nat :=
  0x6487ED5110B4611A62633145C06E0E68948127044533E63A0105DF531D89CD9128A5043CC71A026EF7CA8CD9E69D218D98158

/-- Terms of the sine or cosine series of r in units of 2^-400, summed with alternating signs by fuel; `k` is the
order of the last term. -/
def trigSeries : Nat → Nat → Nat → Nat → Bool → Int → Int
  | 0, _, _, _, _, acc => acc
  | f + 1, r2, k, term, neg, acc =>
    let t := term * r2 / 2 ^ 400 / ((k + 1) * (k + 2))
    if t = 0 then acc else trigSeries f r2 (k + 2) t (!neg) (if neg then acc - (t : Int) else acc + (t : Int))

/-- Sine of r in units of 2^-400, r from 0 to 2 pi. -/
def sinFix (r : Nat) : Int := trigSeries 100 (r * r / 2 ^ 400) 1 r true (r : Int)
/-- Cosine of r in units of 2^-400. -/
def cosFix (r : Nat) : Int := trigSeries 100 (r * r / 2 ^ 400) 0 (2 ^ 400) true ((2 ^ 400 : Nat) : Int)

/-- An angle's magnitude reduced below 2 pi, in units of 2^-400. -/
def reduceAngle (m : Nat) (e : Int) : Nat := (if e + 400 ≥ 0 then m * 2 ^ (e + 400).toNat else m / 2 ^ (-(e + 400)).toNat) % twoPi

/-- FP32 cosine within 1 ulp (R198); NaN of an angle that is not finite. -/
def fcos (a : Nat) : Nat :=
  match fFP32.decode a with
  | .fin _ m e => if m = 0 then fFP32.near 3 a 1 0 else fFP32.nearInt 3 a (cosFix (reduceAngle m e)) (-400)
  | _ => fFP32.nanEnc

/-- FP32 sine within 1 ulp (R198). -/
def fsin (a : Nat) : Nat :=
  match fFP32.decode a with
  | .fin neg m e =>
    let i := sinFix (reduceAngle m e)
    fFP32.nearInt 4 a (if neg then -i else i) (-400)
  | _ => fFP32.nanEnc

/-- exp(-2 pi i j / n), both parts correctly rounded to FP32 (R246); n a power of two of at least 16. -/
def twiddle (n j : Nat) : Nat × Nat :=
  let j := j % n
  if 4 * j % n = 0 then
    match 4 * j / n with
    | 0 => (0x3F800000, 0)
    | 1 => (0, 0xBF800000)
    | 2 => (0xBF800000, 0)
    | _ => (0, 0x3F800000)
  else
    let r := twoPi * j / n
    (fofScaled (cosFix r) (-400), fofScaled (-(sinFix r)) (-400))

end Sys2Proof.Machine
end

