-- ==== Sys2Proof/Machine/SweepCalc.lean ====
section
/-! DEFINITION. What a sweep computes: its items, their visibility, the forward and the backward pass (R195 to R205, R224). -/

namespace Sys2Proof.Machine

/-! ### Rows of T0 (R195) -/

/-- A row of decoded elements of a format at a T0 offset, each a value and its poison. -/
def State.rowAt (s : State) (t o fmt d r : Nat) : List (Val × Bool) :=
  let b := packedBytes fmt d
  let base := t * t0TileSize + o
  scaledElems fmt (s.peek (base + r * b) b) (if isMx fmt then s.peek (base + 32 * b + r * (d / 32)) (d / 32) else []) 0 d

/-- An FP32 at a device address, with its poison. -/
def State.fp32At (s : State) (a : Nat) : Nat × Bool :=
  let b := s.peek a 4
  (leNat (vals b), b.any PByte.p)

/-! ### Rotary positions (R198) -/

/-- Cosine and sine of each pair's angle at a position, with the poison of the table's entry. -/
def State.ropeAngles (s : State) (d : List Byte) (dim pos : Nat) : List (Nat × Nat × Bool) :=
  (List.range (dim / 2)).map (fun j =>
    let (f, p) := s.fp32At (leAt d 72 8 + 4 * j)
    let a := fmul (fofInt pos) f
    (fcos a, fsin a, p))

/-- A BF16 row rotated in FP32: element encodings with their poison. -/
def rotate (halves : Bool) (ang : List (Nat × Nat × Bool)) (row : List (Val × Bool)) : List (Nat × Bool) :=
  let dim := row.length
  let x (i : Nat) : Nat × Bool := let v := row.getD i (.nan, true); (fFP32.encode .rne v.1, v.2)
  (List.range dim).map (fun i =>
    let j := if halves then i % (dim / 2) else i / 2
    let second := if halves then decide (dim / 2 ≤ i) else decide (i % 2 = 1)
    let a := x (if halves then j else 2 * j)
    let b := x (if halves then j + dim / 2 else 2 * j + 1)
    let (c, sn, p) := ang.getD j (0, 0, true)
    (if second then ffma a.1 sn (fmul b.1 c) else ffma a.1 c (fneg (fmul b.1 sn)), a.2 || b.2 || p))

/-- FP32 encodings as values. -/
def fvals (l : List (Nat × Bool)) : List (Val × Bool) := l.map (fun x => (fFP32.decode x.1, x.2))

/-- Values of a row converted to an MX format by R90 and decoded again under the block scales: what an array operand holds.
A poisoned element poisons its block. -/
def mxRow (code : Nat) (row : List (Val × Bool)) : List (Val × Bool) :=
  let (b, sc, _) := convRow code (rnes row.length) row
  scaledElems code b sc 0 row.length

/-- The query row `r` as the score array takes it. -/
def State.queryRow (s : State) (t : Nat) (d : List Byte) (dim r : Nat) : List (Val × Bool) :=
  let row := s.rowAt t (leAt d 32 4) (byteAt d 6) dim r
  if byteAt d 2 % 2 = 1 then
    mxRow 0 (fvals (rotate (bit (byteAt d 2) 1 == 1) (s.ropeAngles d dim (leAt d 16 4 + r / byteAt d 5)) row))
  else row

/-! ### Items (R196, R211, R218, R224) -/

/-- An item of a sweep: its position, the first and last positions a mask must allow, the key and value rows in the list's
KV format, and the score bias with whether it applies. -/
structure Item where
  pos : Nat
  lo : Nat
  hi : Nat
  key : List PByte
  value : List PByte
  bias : Option Nat

/-- The K and V rows of token `j` of a page; a page that holds no frame reads poisoned. -/
def State.tokenRow (s : State) (p : Page) (dim j half : Nat) : List PByte :=
  if p.state.hasFrame then s.peek (frameAddr p.frame + half + dim * j) dim else List.replicate dim ⟨0, true⟩

/-- The pseudo-token of a page (R219, R224): its key, its value, and the elements clamped. -/
def State.pseudo (s : State) (q : SeqCtx) (l : KvList) (i : Nat) (p : Page) : Item × Nat :=
  let dim := headD q.headDim
  let code := if dim = 64 then 0 else 4
  let b := s.peek (l.sumAddr i) 128
  let half := packedBytes code dim
  let one (o sc : Nat) : List (Val × Bool) :=
    (List.range dim).map (fun e => let (x, pz) := elemAt code ((b.drop o).take half) e; (scaleVal sc (elemVal code x), pz))
  let n := fofInt p.count
  let mean := one 0 p.kSumScale
  let avg := (one half p.vSumScale).map (fun v => (fFP32.decode (fdiv (fFP32.encode .rne v.1) n), v.2))
  let (k, nk) := kvRow q.kvFmt l.kScale mean
  let (v, nv) := kvRow q.kvFmt l.vScale avg
  let tpp := tppOf q.headDim
  (⟨i * tpp, i * tpp, i * tpp + tpp - 1, k, v, some (fln n)⟩, nk + nv)

/-- The items of the snapshot in ascending position, and the elements its pseudo-tokens clamped. -/
def State.snapItems (s : State) (w : Sweep) (id n : Nat) (q : SeqCtx) (l : KvList) : List Item × Nat :=
  let tpp := tppOf q.headDim
  let dim := headD q.headDim
  (l.snapPages tpp).foldl (fun (acc : List Item × Nat) i =>
    let p := s.page id n i
    if w.replaced.contains i then
      let (x, k) := s.pseudo q l i p
      (acc.1 ++ [x], acc.2 + k)
    else
      let lo := max l.visFirst (i * tpp)
      let hi := min l.vis ((i + 1) * tpp)
      (acc.1 ++ (List.range (hi - lo)).map (fun k =>
        let pos := lo + k
        Item.mk pos pos pos (s.tokenRow p dim (pos - i * tpp) 0) (s.tokenRow p dim (pos - i * tpp) 8192) none), acc.2)) ([], 0)

/-- The BF16 row of a new token. -/
def State.newRow (s : State) (t : Nat) (d : List Byte) (dim j : Nat) : List (Val × Bool) :=
  let b := s.peek (t * t0TileSize + leAt d 44 4 + 2 * dim * j) (2 * dim)
  scaledElems 7 b [] 0 dim

/-- The new tokens as items, converted as R218 defines, and the elements clamped. -/
def State.newItems (s : State) (t : Nat) (d : List Byte) (q : SeqCtx) (l : KvList) : List Item × Nat :=
  let dim := headD q.headDim
  let n := leAt d 48 2
  (List.range n).foldl (fun (acc : List Item × Nat) j =>
    let pos := l.vis + j
    let kr := s.newRow t d dim j
    let kr := if byteAt d 2 % 2 = 1 then fvals (rotate (bit (byteAt d 2) 1 == 1) (s.ropeAngles d dim pos) kr) else kr
    let (k, nk) := kvRow q.kvFmt l.kScale kr
    let (v, nv) := kvRow q.kvFmt l.vScale (s.newRow t d dim (n + j))
    (acc.1 ++ [⟨pos, pos, pos, k, v, none⟩], acc.2 + nk + nv)) ([], 0)

/-- The masks allow position `k` to a row at position `q`; a poisoned bitmap byte allows nothing and is told apart. -/
def State.allows (s : State) (d : List Byte) (q k : Nat) : Bool × Bool :=
  let m := byteAt d 1
  let causal := bit m 0 == 0 || decide (k ≤ q)
  let window := bit m 1 == 0 || decide (q < k + leAt d 20 4)
  if bit m 2 = 1 then
    let b := (s.peek (leAt d 56 8 + q / 32 * leAt d 64 4 + k / 256) 1).headD ⟨0, true⟩
    (causal && window && !b.p && bit b.v.toNat (k / 32 % 8) == 1, b.p)
  else (causal && window, false)

/-- An item is visible to a row at position `q`, and whether a bitmap byte that decides it is poisoned (R197). -/
def State.visible (s : State) (d : List Byte) (q : Nat) (x : Item) : Bool × Bool :=
  let l := (List.range (x.hi + 1 - x.lo)).map (fun i => s.allows d q (x.lo + i))
  (l.all Prod.fst, l.any Prod.snd)

/-- Key or value row of an item decoded under a static scale. -/
def kvVals (fmt sc : Nat) (row : List PByte) : List (Val × Bool) :=
  row.map (fun b => (scaleVal sc ((kvFmtOf fmt).decode b.v.toNat), b.p))

/-- Items cut into blocks of 32, by fuel. -/
def blocks32 {α : Type} : Nat → List α → List (List α)
  | 0, _ => []
  | f + 1, l => if l.isEmpty then [] else l.take 32 :: blocks32 f (l.drop 32)

/-- A dot product in an accumulator. -/
def dot (eb : Int) (a b : List (Val × Bool)) : Acc :=
  (a.zip b).foldl (fun acc x => acc.addVal eb (x.1.1.mul x.2.1) (x.1.2 || x.2.2)) Acc.zero

/-- A readout of an accumulator in FP32. -/
def Acc.fp32 (a : Acc) (eb : Int) : Nat := fFP32.encode .rne (a.value eb 0)

/-- Flags for lost products. -/
def Acc.flags (a : Acc) : BitVec 9 := flagIf a.lo fInexLo ||| flagIf a.hi fInexHi

/-- An item prepared for the arrays. -/
structure Prep where
  item : Item
  k : List (Val × Bool)
  v : List (Val × Bool)

/-- The score of an item for a query row: FP32, poison, flags (R199). -/
def score (eb : Int) (scale : Nat) (q : List (Val × Bool)) (x : Prep) : Nat × Bool × BitVec 9 :=
  let a := dot eb q x.k
  let s := fmul (a.fp32 eb) scale
  (match x.item.bias with | some b => fadd s b | none => s, a.poison, a.flags)

/-- Sums of neighbouring lanes, one level of the tree. -/
def pairSums : List Nat → List Nat
  | a :: b :: t => fadd a b :: pairSums t
  | l => l

/-- The sum of 32 lanes in the tree of R199. -/
def treeSum (l : List Nat) : Nat :=
  let l := l ++ List.replicate (32 - l.length) 0
  (pairSums (pairSums (pairSums (pairSums (pairSums l))))).headD 0

/-! ### The forward pass (R199 to R202) -/

/-- What a row keeps. -/
structure RowSt where
  m : Nat
  l : Nat
  o : List Nat
  /-- the row's scores are poisoned -/
  p : Bool
  /-- poison of each output element through its values -/
  op : List Bool
  flags : BitVec 9
  seen : Bool

/-- Minus and plus infinity in FP32. -/
def negInf : Nat := 0xFF800000
def posInf : Nat := 0x7F800000

/-- One block of a forward sweep for one row. The value array takes every item of the block, one the row does not see under a P of 0,
so that a NaN or an infinity in it shows (R81, R199). DESIGN CHOICE (log entry 101): the poison of such an item does not reach the
output, which R200 gives to the outputs that depend on it. -/
def State.forwardBlock (s : State) (d : List Byte) (q : List (Val × Bool)) (qpos : Nat) (st : RowSt) (blk : List Prep) : RowSt :=
  let ebQ := ebAt d 28
  let ebV := ebAt d 30
  let sc := blk.map (score ebQ (leAt d 24 4) q)
  let vis := blk.map (fun x => s.visible d qpos x.item)
  let flags := st.flags ||| flagsOr (sc.map (fun x => x.2.2))
  let bad := vis.any Prod.snd
  let st := { st with flags := flags, p := st.p || bad }
  let seen := (sc.zip vis).filter (fun x => x.2.1)
  if seen.isEmpty then st
  else
    let mNew := seen.foldl (fun a x => fmax a x.1.1) st.m
    let c := if st.m = negInf then 0 else fFP32.exp (fsub st.m mNew)
    let p := (sc.zip vis).map (fun x => if x.2.1 then fFP32.exp (fsub x.1.1 mNew) else 0)
    let l := ffma st.l c (treeSum p)
    let pd := (mxRow 0 (p.map (fun x => (fFP32.decode x, false)) ++ List.replicate (32 - p.length) (Val.fin false 0 0, false))).take p.length
    let u := (List.range st.o.length).map (fun e =>
      (pd.zip (blk.zip vis)).foldl (fun (acc : Acc) x =>
        let v := x.2.1.v.getD e (.nan, true)
        acc.addVal ebV (x.1.1.mul v.1) (x.2.2.1 && v.2)) Acc.zero)
    { m := mNew, l := l
      o := (st.o.zip u).map (fun x => ffma x.1 c (x.2.fp32 ebV))
      p := st.p || seen.any (fun x => x.1.2.1)
      op := (st.op.zip u).map (fun x => x.1 || x.2.poison)
      flags := st.flags ||| flagsOr (u.map Acc.flags), seen := true }

/-- One row of a forward sweep: its outputs with their poison, the maximum, the log-sum-exp, its poison, its flags and
whether it is empty. A score of plus infinity makes output and statistics NaN, as a NaN score does (R200). -/
def State.forwardRow (s : State) (d : List Byte) (dim : Nat) (q : List (Val × Bool)) (qpos : Nat) (blks : List (List Prep)) :
    List (Val × Bool) × Nat × Nat × Bool × BitVec 9 × Bool :=
  let st := blks.foldl (fun st b => s.forwardBlock d q qpos st b)
    ⟨negInf, 0, List.replicate dim 0, false, List.replicate dim false, 0, false⟩
  if feq st.l 0 then (st.op.map (fun p => (Val.fin false 0 0, st.p || p)), negInf, negInf, st.p, st.flags, !st.seen)
  else
    ((st.o.zip st.op).map (fun x => (fFP32.decode (fdiv x.1 st.l), st.p || x.2)),
      if st.m = posInf then fsub st.m st.m else st.m, fadd st.m (fln st.l), st.p, st.flags,
      !st.seen)

/-- Items prepared and cut into blocks. -/
def prepare (q : SeqCtx) (l : KvList) (items : List Item) : List (List Prep) :=
  blocks32 (items.length + 1) (items.map (fun x => ⟨x, kvVals q.kvFmt l.kScale x.key, kvVals q.kvFmt l.vScale x.value⟩))

/-- Rows and scales stored at a T0 offset: row `r`'s packed bytes, then for MX formats its scale bytes (R195). -/
def State.putRow (s : State) (t o fmt d r : Nat) (b sc : List PByte) : State :=
  let w := packedBytes fmt d
  let base := t * t0TileSize + o
  let s1 := s.storeBytes (base + r * w) b
  if isMx fmt then s1.storeBytes (base + 32 * w + r * (d / 32)) sc else s1

/-- EMPTY_ROWS counted (R201, R203). -/
def State.countEmpty (s : State) (id k : Nat) : State :=
  (s.modSeq id (fun q => { q with emptyRows := min (q.emptyRows + k) 0xFFFFFFFF })).bump (sweepCtr 0xA0) k

/-- The rows of a forward sweep written: outputs, and statistics when STATS is set; the flags raised and the empty rows
counted. -/
def State.forwardOut (s0 s : State) (t : Nat) (d : List Byte) (q : SeqCtx) (l : KvList) (items : List Item) : State × BitVec 9 × Nat :=
  let dim := headD q.headDim
  let blks := prepare q l items
  (List.range (swRows d)).foldl (fun (acc : State × BitVec 9 × Nat) r =>
    let (s, fl, n) := acc
    let (out, m, lse, p, f, empty) := s0.forwardRow d dim (s0.queryRow t d dim r) (leAt d 16 4 + r / byteAt d 5) blks
    let (b, sc, cf) := convRow (byteAt d 7) (rnes dim) out
    let s1 := s.putRow t (leAt d 36 4) (byteAt d 7) dim r b sc
    let s2 := if bit (byteAt d 2) 3 = 1 then
        s1.storeBytes (t * t0TileSize + leAt d 40 4 + 8 * r) ((toLe 4 m ++ toLe 4 lse).map (fun x => ⟨x, p⟩))
      else s1
    (s2, fl ||| f ||| cf, n + b2n empty)) (s, 0, 0)

/-! ### The backward pass (R203, R204) -/

/-- What one row of a backward sweep gives for one item: P and dS as converted, and whether the row sees it. -/
structure BackTerm where
  p : Val × Bool
  ds : Val × Bool
  vis : Bool

/-- One row of a backward sweep: its dQ accumulators, the terms it gives for each item, the flags, and whether its
log-sum-exp is minus infinity. An item the row does not see has P 0 and enters every product with it (R81, R203); its poison stays
away, as in the forward pass (log entry 101). -/
def State.backwardRow (s : State) (t : Nat) (d : List Byte) (dim r : Nat) (blks : List (List Prep)) :
    List Acc × List BackTerm × BitVec 9 × Bool :=
  let q := s.queryRow t d dim r
  let qpos := leAt d 16 4 + r / byteAt d 5
  let dO := s.rowAt t (leAt d 80 4) (byteAt d 84) dim r
  let o := s.rowAt t (leAt d 92 4) (byteAt d 116) dim r
  let (lse, lp) := s.fp32At (t * t0TileSize + leAt d 40 4 + 8 * r + 4)
  let empty := lse == negInf
  let enc (v : Val) : Nat := fFP32.encode .rne v
  let dd := (dO.zip o).foldl (fun a x => ffma (enc x.1.1) (enc x.2.1) a) 0
  let ddP := dO.any Prod.snd || o.any Prod.snd
  let ebQ := ebAt d 28
  let ebP := ebAt d 50
  let ebDq := ebAt d 86
  let g := byteAt d 85
  let pad (l : List (Val × Bool)) : List (Val × Bool) :=
    (mxRow g (l ++ List.replicate (32 - l.length) (Val.fin false 0 0, false))).take l.length
  blks.foldl (fun (acc : List Acc × List BackTerm × BitVec 9 × Bool) blk =>
    let (dq, terms, fl, _) := acc
    let one := blk.map (fun x =>
      let (sv, sp, sf) := score ebQ (leAt d 24 4) q x
      let (vis, bp) := s.visible d qpos x.item
      let use := vis && flt negInf lse
      let a := dot ebP dO x.v
      let p := if use then fFP32.exp (fsub sv lse) else 0
      let ds := fmul (fmul p (fsub (a.fp32 ebP) dd)) (leAt d 24 4)
      ((p, use && (sp || lp) || bp), (ds, use && (sp || lp || a.poison || ddP) || bp), use, sf ||| a.flags))
    let ps := pad (one.map (fun x => (fFP32.decode x.1.1, x.1.2)))
    let dss := pad (one.map (fun x => (fFP32.decode x.2.1.1, x.2.1.2)))
    let bt := (ps.zip (dss.zip one)).map (fun x => BackTerm.mk x.1 x.2.1 x.2.2.2.2.1)
    let dq1 := if empty then dq else dq.zipIdx.map (fun (a, e) =>
      (bt.zip blk).foldl (fun (a : Acc) x =>
        let k := x.2.k.getD e (.nan, true)
        a.addVal ebDq (x.1.ds.1.mul k.1) (x.1.ds.2 || (x.1.vis && k.2))) a)
    (dq1, terms ++ bt, fl ||| flagsOr (one.map (fun x => x.2.2.2)), empty))
    (List.replicate dim Acc.zero, [], 0, empty)

/-- The dK (or dV) contribution of item `j`, element `e`, over the rows of the block. -/
def backSum (eb : Int) (rows : List (List BackTerm × List (Val × Bool) × Bool)) (sel : BackTerm → Val × Bool) (j e : Nat) : Acc :=
  rows.foldl (fun (a : Acc) x =>
    if x.2.2 then a
    else match x.1[j]? with
      | none => a
      | some t =>
        let y := x.2.1.getD e (.nan, true)
        a.addVal eb ((sel t).1.mul y.1) ((sel t).2 || (t.vis && y.2))) Acc.zero

/-- An ACC128 contribution merged into the record at a device address (R83, R204): the bytes to store, or the fault. -/
def State.mergeRecord (s : State) (a : Nat) (x : Acc) (eb : Int) : Except Nat (List PByte) :=
  let b := s.peek a 32
  let bad := b.any PByte.p
  let out (y : Acc) : List PByte := (y.record eb).map (fun c => ⟨c, y.poison || bad⟩)
  if bad then .ok (out x)
  else if allZero (vals b) then .ok (out x)
  else match Acc.ofRecord b with
    | none => .error 0x0003
    | some (y, w) =>
      if w ≠ eb then .error 0x0003
      else if maxTerms < x.terms + y.terms then .error 0x0002
      else .ok (out (y.merge x))

end Sys2Proof.Machine
end

