-- ==== Sys2Proof/Machine/Sweep.lean ====
section
/-! DEFINITION. The sweep operations: issue, wait, grace and completion with appends and merges (R190 to R192, R204, R216,
R217, R224, R225). -/

namespace Sys2Proof.Machine

/-! ### Issuing a run from a thread (R112, R181, R439) -/

/-- Runs a thread has outstanding. -/
def runsOut (l : List (Nat × Nat)) : Nat := l.foldl (fun a p => a + p.2) 0

/-- One more outstanding run of a thread. -/
def raiseCount (l : List (Nat × Nat)) (th : Nat) : List (Nat × Nat) := aset l th ((alookup l th).getD 0 + 1)

/-- The T0 offset a thread's register gives for a descriptor of `n` bytes aligned to `al`, or the fault it takes. -/
def State.descOffset (s : State) (t th ra al n : Nat) : Except State Nat :=
  let x := (s.tile t).thread th
  let o := x.getX ra
  if x.poisonX ra then .error (s.poisonUse t th x.pc)
  else if o % al ≠ 0 then .error (s.threadFault t th 0x0006 o)
  else if t0TileSize < o + n then .error (s.threadFault t th 0x0004 o)
  else .ok o

/-- SWEEP_RUN (R191, R192, R439): the sweep enters the package queue, and a free pipeline takes it. A seventeenth waits. -/
def execSweepRun (t th ra : Nat) (s : State) : Host.Outcome State Fault Refusal :=
  .next (if s.canIssue t th then
    match s.descOffset t th ra 128 128 with
    | .error s1 => s1
    | .ok o =>
      let x := s.tile t
      match x.ctx with
      | none => s
      | some ctx =>
        if s.notRetired 1 = 0 then s.teardown ctx 0x0130
        else if 16 ≤ runsOut x.sweepsOut then s
        else
          let r := Run.mk t th (x.thread th).pc ctx o [] false
          let s1 := s.modTile t (fun x => { (x.modThread th Thread.next) with sweepsOut := raiseCount x.sweepsOut th })
          { s1 with sweep := { s1.sweep with queue := s1.sweep.queue ++ [r] } }.runsPlace
    else s)

/-- SWEEP_WAIT (R191): the thread blocks until its sweeps have finished. -/
def execSweepWait (t th : Nat) (s : State) : Host.Outcome State Fault Refusal :=
  .next (if s.canIssue t th then
    s.modThread t th (fun x => if (alookup (s.tile t).sweepsOut th).isNone then x.next else { x with block := .sweepWait })
    else s)

/-- A finished sweep no longer counts, and its thread goes on when it waits for no other. -/
def State.sweepDone (s : State) (t th : Nat) : State :=
  s.modTile t (fun x =>
    let l := lowerCount x.sweepsOut th
    let x1 := { x with sweepsOut := l }
    if (alookup l th).isNone && (x.thread th).block == .sweepWait then x1.modThread th Thread.wake else x1)

/-! ### Grace (R224) -/

/-- The sweep of a run may replace a page by its summary: a forward sweep of a job without NO_DEGRADE, outside its
golden pass (R405) and not of a re-shard (R270). -/
def State.mayReplace (s : State) (w : Sweep) : Bool :=
  !swBack (vals w.run.desc) && !(match s.jobOf w.run.ctx with | some j => j.strict || s.reshard j | none => false)

/-- Grace periods of a sweep run: they do not count while issue of its step is stopped (R294). -/
def State.graceRuns (s : State) (w : Sweep) : Bool := match s.jobOf w.run.ctx with | some j => j.issues | none => false

/-- KV_GRACE_EXPIRED (R224): the page the walker waits for has not become readable by its deadline, and its pseudo-token
takes its place; the fetch goes on. -/
def execKvGraceExpired (p list page : Nat) (s : State) : Host.Outcome State Fault Refusal :=
  .next (match vget none s.sweep.pipes p with
    | none => s
    | some w =>
      match s.sweepList w, w.wait_ with
      | some (_, n, _, _, _), some (i, dl) =>
        if n = list ∧ i = page ∧ dl ≤ s.time.half ∧ s.mayReplace w ∧ s.graceRuns w then
          let w1 := { w with replaced := w.replaced ++ [i], wait_ := none }
          State.walk { s with sweep := { s.sweep with pipes := vset s.sweep.pipes p (some w1) } } p
        else s
      | _, _ => s)

/-! ### Completion -/

/-- The append status of a job that stands: the first of R217's list. -/
def worseKv (a b : Nat) : Nat :=
  let rank (x : Nat) : Nat := if x = stWrongState then 0 else if x = stSag then 1 else if x = stNoResource then 2 else 3
  if rank b < rank a then b else a

/-- Tokens already converted appended to a list, all or none. -/
def State.appendRows (s : State) (id n : Nat) : List Item → Except Nat State
  | [] => .ok s
  | x :: t =>
    match s.appendToken id n x.key x.value with
    | .error e => .error e
    | .ok s1 => s1.appendRows id n t

/-- A sweep's append after its last block (R216, R217, R434). -/
def State.sweepAppend (s : State) (r : Run) (id n : Nat) (l : KvList) (items : List Item) : State :=
  match s.jobOf r.ctx with
  | none => s
  | some j =>
    let failed (st : Nat) : State := s.modJob j.uid (fun j => { j with kvStatus := worseKv j.kvStatus st })
    let mark (s : State) : State :=
      (s.modJob j.uid (fun j => { j with appends := j.appends ++ [(id, n)] })).modList id n (fun l => { l with appended := true })
    if j.oldAppends.contains (id, n) then
      mark (s.modJob j.uid (fun j => { j with oldAppends := j.oldAppends.erase (id, n) }))
    else if l.len ≠ l.vis ∨ l.appended then failed stWrongState
    else match s.appendRows id n items with
      | .error e => failed e
      | .ok s1 => mark s1

/-- Pseudo-tokens used counted, and the job's reply made approximate (R225). -/
def State.countApprox (s : State) (r : Run) (id k : Nat) : State :=
  if k = 0 then s
  else
    let s1 := (s.modSeq id (fun q => { q with approx := min (q.approx + k) 0xFFFFFFFF })).bump (sweepCtr 0xA8) k
    match s1.jobOf r.ctx with
    | some j => s1.modJob j.uid (fun j => { j with approx := true })
    | none => s1

/-- Every page a sweep needs is at hand: held, or replaced. -/
def Sweep.ready (w : Sweep) (l : KvList) (tpp : Nat) : Bool :=
  (l.snapPages tpp).all (fun i => w.held.contains i || w.replaced.contains i)

/-- The ranges of memory a sweep reads. -/
def State.sweepReads (s : State) (w : Sweep) (id n : Nat) (q : SeqCtx) (l : KvList) (d : List Byte) : List (Nat × Nat) :=
  let t0 := w.run.tile * t0TileSize
  let dim := headD q.headDim
  let rows := swRows d
  let nt := leAt d 48 2
  [(t0 + w.run.addr, 128), (t0 + leAt d 32 4, rowsLen (byteAt d 6) dim rows), (t0 + leAt d 44 4, 4 * dim * nt)] ++
    (if swBack d then [(t0 + leAt d 80 4, rowsLen (byteAt d 84) dim rows), (t0 + leAt d 92 4, rowsLen (byteAt d 116) dim rows),
      (t0 + leAt d 40 4, 8 * rows)] else []) ++
    (if bit (byteAt d 1) 2 = 1 ∧ l.visFirst < l.vis + nt then swBitmapRanges d l.visFirst (l.vis + nt - 1) else []) ++
    (if byteAt d 2 % 2 = 1 then [(leAt d 72 8, 2 * dim)] else []) ++
    (l.snapPages (tppOf q.headDim)).flatMap (fun i =>
      if w.replaced.contains i then [(l.sumAddr i, 128)]
      else
        let a := frameAddr (s.page id n i).frame
        let k := (s.page id n i).count
        [(a, k * dim), (a + 8192, k * dim)])

/-- A forward sweep's outputs, append and counts. -/
def State.finishForward (s : State) (w : Sweep) (id n : Nat) (q : SeqCtx) (l : KvList) (d : List Byte) : State :=
  let t := w.run.tile
  let (old, c0) := s.snapItems w id n q l
  let (new, c1) := s.newItems t d q l
  let (s1, fl, empty) := s.forwardOut s t d q l (old ++ new)
  let s2 := ((s1.raiseFlags t fl).countEmpty id empty).countApprox w.run id w.replaced.length
  let s3 := s2.countClamped id (c0 + c1)
  if bit (byteAt d 2) 2 = 1 then s3.sweepAppend w.run id n l new else s3

/-- A backward sweep's dQ rows and merges; none of them, and a fault of the issuing thread, when a merge cannot be made. -/
def State.finishBackward (s : State) (w : Sweep) (id n : Nat) (q : SeqCtx) (l : KvList) (d : List Byte) : Except Nat State :=
  let t := w.run.tile
  let dim := headD q.headDim
  let (old, c0) := s.snapItems w id n q l
  let (new, c1) := s.newItems t d q l
  let items := old ++ new
  let blks := prepare q l items
  let rs := (List.range (swRows d)).map (fun r => s.backwardRow t d dim r blks)
  let base := leAt d 112 4
  let side (eb : Int) (o : Nat) (rows : List (List BackTerm × List (Val × Bool) × Bool)) (sel : BackTerm → Val × Bool) :
      List (Nat × Acc × Int) :=
    if leAt d o 8 = 0 then []
    else (items.zipIdx.filter (fun x => decide (base ≤ x.1.pos))).flatMap (fun x =>
      (List.range dim).map (fun e => (leAt d o 8 + ((x.1.pos - base) * dim + e) * 32, backSum eb rows sel x.2 e, eb)))
  let kRows := rs.zipIdx.map (fun x => (x.1.2.1, s.queryRow t d dim x.2, x.1.2.2.2))
  let vRows := rs.zipIdx.map (fun x => (x.1.2.1, s.rowAt t (leAt d 80 4) (byteAt d 84) dim x.2, x.1.2.2.2))
  let recs := side (ebAt d 88) 96 kRows BackTerm.ds ++ side (ebAt d 90) 104 vRows BackTerm.p
  if maxTerms < items.length then .error 0x0002
  else
    let merged : Except Nat (State × Bool) := recs.foldl (fun (acc : Except Nat (State × Bool)) x =>
      match acc with
      | .error e => .error e
      | .ok (s, p) => match s.mergeRecord x.1 x.2.1 x.2.2 with
        | .error e => .error e
        | .ok b => .ok (s.storeBytes x.1 b, p || b.any PByte.p)) (.ok (s, false))
    match merged with
    | .error e => .error e
    | .ok (s1, poisoned) =>
      let s2 := rs.zipIdx.foldl (fun s x =>
        if byteAt d 7 = 0xA then
          s.storeBytes (t * t0TileSize + leAt d 36 4 + x.2 * 32 * dim)
            ((x.1.1.map (fun a => (a.record (ebAt d 86)).map (fun b => PByte.mk b a.poison))).flatten)
        else
          let (b, sc, cf) := convRow (byteAt d 7) (rnes dim) (x.1.1.map (fun a => (a.value (ebAt d 86) 0, a.poison)))
          (s.putRow t (leAt d 36 4) (byteAt d 7) dim x.2 b sc).raiseFlags t cf) s1
      let fl := flagsOr (rs.map (fun x => x.2.2.1 ||| flagsOr (x.1.map Acc.flags))) ||| flagsOr (recs.map (fun x => x.2.1.flags)) |||
        flagIf (poisoned || (byteAt d 7 == 0xA && rs.any (fun x => x.1.any Acc.poison))) fPoisonOut
      let s3 := ((s2.raiseFlags t fl).countEmpty id ((rs.filter (fun x => x.2.2.2)).length)).countClamped id (c0 + c1)
      match s3.jobOf w.run.ctx with
      | some j => .ok (if recs.isEmpty then s3 else s3.modJob j.uid (fun j => { j with merged := true }))
      | none => .ok s3

/-- A pipeline is free again. -/
def State.freePipe (s : State) (p : Nat) (w : Sweep) : State :=
  let s1 := s.dropHolds w
  ({ s1 with sweep := { s1.sweep with pipes := vset s1.sweep.pipes p none } }.touch (64 + p / 4)).sweepDone w.run.tile w.run.thread

/-- SWEEP_COMPLETE (R191, R199 to R207, R216, R217, R225): a sweep whose pages are all at hand writes its outputs,
statistics, merges and appends, ORs its flags and frees its pipeline, which takes the next. -/
def execSweepComplete (p : Nat) (s : State) : Host.Outcome State Fault Refusal :=
  .next (match vget none s.sweep.pipes p with
    | none => s
    | some w =>
      match s.sweepList w with
      | none => s
      | some (id, n, q, l, d) =>
        let reads := s.sweepReads w id n q l d
        if p < 16 ∧ s.usable 1 p ∧ s.domOn (64 + p / 4) ∧ !s.fault.bridge.down ∧ w.ready l (tppOf q.headDim) then
          if reads.any (fun r => s.heldRange r.1 r.2) then s.hold reads else
          let r : State × Option Nat :=
            if swBack d then
              match s.finishBackward w id n q l d with
              | .ok s1 => (s1, none)
              | .error e => (s, some e)
            else (s.finishForward w id n q l d, none)
          let s2 := r.1.freePipe p w
          let s3 := match r.2 with | some e => s2.runFault w.run (e, none) | none => s2
          let s4 := (s3.syncCtx id).spillBackground.walkAll.runsPlace
          (s4.noteReads reads).endKvWaits
        else s)

end Sys2Proof.Machine
end

