-- ==== Sys2Proof/Machine/Xform.lean ====
section
/-! DEFINITION. Transform engines: spectra and frequency-domain convolution (R244 to R251), and stochastic rounding's words
(R93, R94). -/

namespace Sys2Proof.Machine

/-! ### Rounding of converted elements (R93, R94) -/

/-- The rounding seed of a tile's step, and whether it was drawn: its phase's, or the context's where that is 0 (R94,
R264). -/
def State.stepSeed (s : State) (t : Nat) : Nat × Bool :=
  match ((s.tileJob t).bind s.phaseOf).map PhaseEntry.seed, (s.tile t).ctx.bind s.ctx with
  | some (k + 1), _ => (k + 1, false)
  | _, some x => (x.seed, x.drawn)
  | _, none => (0, false)

/-- The rounding of each value that a tile's job converts under a conversion descriptor, and SR_UNSEEDED where a drawn
seed is used. An element's index in its logical output tensor is the compiler's and stands in no descriptor: an open value that
is the same for the same descriptor and values (R93, R100). -/
def State.rounds (s : State) (t : Nat) (conv : List Byte) (vs : List Val) : List Rnd × BitVec 9 :=
  if byteAt conv 3 % 2 = 1 then
    let (seed, drawn) := s.stepSeed t
    let keys := vs.map Val.key
    ((List.range vs.length).map (fun i => Rnd.sr (mixR seed (leAt conv 8 4) (Config.elementIndex conv keys i))), flagIf drawn fSrUnseeded)
  else (rnes vs.length, 0)

/-- A value under OUT_EXP (R87). -/
def outExp (conv : List Byte) (v : Val) : Val :=
  match v with
  | .fin n m e => .fin n m (e - sext 16 (leAt conv 4 2))
  | w => w

/-- Values converted in blocks of up to 32 along a pixel's channels; the last block of an MX format may be short. -/
def convPixel (code : Nat) (rnds : List Rnd) (vs : List (Val × Bool)) : List PByte × List PByte × BitVec 9 :=
  if isMx code ∧ vs.length % 32 ≠ 0 then
    let k := 32 - vs.length % 32
    let (b, sc, f) := convRow code (rnds ++ rnes k) (vs ++ List.replicate k (Val.fin false 0 0, false))
    (b.take (packedBytes code vs.length), sc, f)
  else convRow code rnds vs

/-- A pixel's elements and scales as they are stored one behind the other. -/
def pixelBytes (code c dist : Nat) (b sc : List PByte) : List PByte :=
  let sc := if isIntCode code then List.replicate ((c + 31) / 32) ⟨0x7F, false⟩ else sc
  (b ++ sc).take (pixBytes code c dist)

/-! ### The transform (R246) -/

/-- A complex number of two FP32 encodings. -/
abbrev Cplx := Nat × Nat

/-- The `n` low bits of a number reversed. -/
def bitRev : Nat → Nat → Nat
  | 0, _ => 0
  | n + 1, x => x % 2 * 2 ^ n + bitRev n (x / 2)

/-- The twiddle factors of a transform size, conjugated for the inverse. -/
def twiddles (n : Nat) (inv : Bool) : List Cplx :=
  (List.range (n / 2)).map (fun j => let (c, i) := twiddle n j; (c, if inv then fneg i else i))

/-- Stage `s` of the one-dimensional procedure, `h` half its span. -/
def fftStage (tw : List Cplx) (n h : Nat) (a : List Cplx) : List Cplx :=
  (List.range n).map (fun i =>
    let g := i / (2 * h) * (2 * h)
    let k := i % h
    let w := tw.getD (k * n / (2 * h)) (0, 0)
    let v := a.getD (g + k + h) (0, 0)
    let u := a.getD (g + k) (0, 0)
    let t : Cplx := (ffma v.1 w.1 (fneg (fmul v.2 w.2)), ffma v.1 w.2 (fmul v.2 w.1))
    if i % (2 * h) < h then (fadd u.1 t.1, fadd u.2 t.2) else (fsub u.1 t.1, fsub u.2 t.2))

/-- The one-dimensional transform of `2^l` values. -/
def fft1 (tw : List Cplx) (l : Nat) (a : List Cplx) : List Cplx :=
  let n := 2 ^ l
  (List.range l).foldl (fun a s => fftStage tw n (2 ^ s) a) ((List.range n).map (fun i => a.getD (bitRev l i) (0, 0)))

/-- Rows and columns exchanged. -/
def transpose (n : Nat) (p : List (List Cplx)) : List (List Cplx) :=
  (List.range n).map (fun j => p.map (fun r => r.getD j (0, 0)))

/-- The two-dimensional transform: every row, then every column; the inverse scales every result by 2^(-2L). -/
def fft2 (l : Nat) (inv : Bool) (p : List (List Cplx)) : List (List Cplx) :=
  let n := 2 ^ l
  let tw := twiddles n inv
  let q := transpose n ((transpose n (p.map (fft1 tw l))).map (fft1 tw l))
  if inv then
    let k := fFP32.encode .rne (.fin false 1 (-(2 * (l : Int))))
    q.map (fun r => r.map (fun x => (fmul x.1 k, fmul x.2 k)))
  else q

/-! ### Runs (R247 to R249) -/

/-- Channels C0 on of the pixel or tap (y, x): FP32 encodings with poison. -/
def State.xfPixel (s : State) (d : List Byte) (y x : Nat) : List (Nat × Bool) :=
  let code := byteAt d 3
  let c0 := leAt d 88 2
  let n := leAt d 4 2
  let b := s.peek (leAt d 32 8 + y * leAt d 44 4 + x * leAt d 40 4) (packedBytes code (c0 + n))
  let sc := if isMx code || isIntCode code then
      s.peek (leAt d 48 8 + y * leAt d 60 4 + x * leAt d 56 2) ((c0 + n + 31) / 32)
    else []
  (scaledElems code b sc c0 n).map (fun v => (fFP32.encode .rne v.1, v.2))

/-- SPECTRUM (R247): the bins written. -/
def State.runSpectrum (s : State) (d : List Byte) : State :=
  let l := byteAt d 1
  let n := 2 ^ l
  let taps := (List.range (byteAt d 12)).map (fun ty => (List.range (byteAt d 13)).map (fun tx =>
    ((s.xfPixel d ty tx).headD (0, true))))
  let bad := taps.any (fun r => r.any Prod.snd)
  let plane := (List.range n).map (fun y => (List.range n).map (fun x =>
    if y % byteAt d 14 = 0 ∧ y / byteAt d 14 < byteAt d 12 ∧ x % byteAt d 15 = 0 ∧ x / byteAt d 15 < byteAt d 13 then
      (((taps.getD (y / byteAt d 14) []).getD (x / byteAt d 15) (0, false)).1, 0)
    else ((0, 0) : Cplx)))
  let f := fft2 l false plane
  let bytes := (f.map (fun r => ((r.take (n / 2 + 1)).map (fun c => toLe 4 c.1 ++ toLe 4 c.2)).flatten)).flatten
  s.storeBytes (leAt d 64 8) (bytes.map (fun b => if bad then ⟨0, true⟩ else ⟨b, false⟩))

/-- The stored bins of a spectrum, rows of N/2 + 1, with whether a word of it is poisoned. -/
def State.spectrum (s : State) (a n : Nat) : List (List Cplx) × Bool :=
  let b := s.peek a (specBytes n)
  let v := vals b
  ((List.range n).map (fun u => (List.range (n / 2 + 1)).map (fun w =>
    let o := 8 * (u * (n / 2 + 1) + w)
    ((leAt v o 4, leAt v (o + 4) 4) : Cplx))), b.any PByte.p)

/-- One input bin times the conjugate of one filter bin, accumulated (R247). -/
def conjAcc (acc x w : Cplx) : Cplx :=
  (ffma x.2 w.2 (ffma x.1 w.1 acc.1), ffma (fneg x.1) w.2 (ffma x.2 w.1 acc.2))

/-- The real plane of output `m` of a CONVOLVE block, from the transformed inputs. -/
def State.xfOutput (s : State) (d : List Byte) (ins : List (List (List Cplx))) (m : Nat) : List (List Nat) × Bool :=
  let l := byteAt d 1
  let n := 2 ^ l
  let cin := leAt d 4 2
  let zero : List (List Cplx) := List.replicate n (List.replicate (n / 2 + 1) (0, 0))
  let (acc, bad) := ins.zipIdx.foldl (fun (a : List (List Cplx) × Bool) x =>
    let (w, p) := s.spectrum (leAt d 64 8 + (m * cin + x.2) * specBytes n) n
    ((a.1.zip (x.1.zip w)).map (fun r => (r.1.zip (r.2.1.zip r.2.2)).map (fun c => conjAcc c.1 c.2.1 c.2.2)), a.2 || p))
    (zero, false)
  let full := (List.range n).map (fun u => (List.range n).map (fun v =>
    if v ≤ n / 2 then (acc.getD u []).getD v (0, 0)
    else let c := (acc.getD ((n - u) % n) []).getD (n - v) (0, 0); ((c.1, fneg c.2) : Cplx)))
  ((fft2 l true full).map (fun r => r.map Prod.fst), bad)

/-- CONVOLVE (R247 to R249): the block's outputs written and its flags raised. -/
def State.runConvolve (s : State) (t : Nat) (d : List Byte) : State :=
  let l := byteAt d 1
  let n := 2 ^ l
  let cin := leAt d 4 2
  let cout := byteAt d 6
  let conv := slice d 96 16
  let code := byteAt d 98
  let (y0, x0) := xfOrigin d
  let zero := List.replicate cin ((0 : Nat), false)
  let pix := (List.range n).map (fun (i : Nat) => (List.range n).map (fun (j : Nat) =>
    match mapPixel (byteAt d 2) (leAt d 8 2) (leAt d 10 2) (y0 + (i : Int)) (x0 + (j : Int)) with
    | some (y, x) => s.xfPixel d y x
    | none => zero))
  let badIn := pix.any (fun r => r.any (fun p => p.any Prod.snd))
  let ins := (List.range cin).map (fun c => fft2 l false (pix.map (fun r => r.map (fun p => ((p.getD c (0, false)).1, (0 : Nat))))))
  let outs := (List.range cout).map (fun m => s.xfOutput d ins m)
  let bad := badIn || outs.any Prod.snd
  let vy := n - byteAt d 14 * (byteAt d 12 - 1)
  let vx := n - byteAt d 15 * (byteAt d 13 - 1)
  let pos := xfPositions d
  let s1 := pos.foldl (fun s (oy, ox) =>
    let vs := outs.map (fun o =>
      (outExp conv (fFP32.decode ((o.1.getD (oy - leAt d 24 2 * vy) []).getD (ox - leAt d 26 2 * vx) 0)), bad))
    let (rn, uf) := s.rounds t conv (vs.map Prod.fst)
    let (b, sc, f) := convPixel code rn vs
    (s.storeBytes (leAt d 72 8 + oy * leAt d 84 4 + ox * leAt d 80 4) (pixelBytes code cout (leAt d 80 4) b sc)).raiseFlags t
      (fInexFft ||| uf ||| f)) s
  s1.bump (ctrId 0x05000040) 1

/-- The ranges a run reads. -/
def xfReads (r : Run) (d : List Byte) : List (Nat × Nat) :=
  let n := 2 ^ byteAt d 1
  let code := byteAt d 3
  let k := leAt d 88 2 + leAt d 4 2
  (r.tile * t0TileSize + r.addr, 128) ::
    (xfPixels d).flatMap (fun (y, x) =>
      (leAt d 32 8 + y * leAt d 44 4 + x * leAt d 40 4, packedBytes code k) ::
        (if isMx code || isIntCode code then [(leAt d 48 8 + y * leAt d 60 4 + x * leAt d 56 2, (k + 31) / 32)] else [])) ++
    (if byteAt d 0 = 1 then [(leAt d 64 8, byteAt d 6 * leAt d 4 2 * specBytes n)] else [])

/-! ### The rows -/

/-- XF_RUN (R244, R439): the run enters the package queue, and a free engine takes it. A ninth waits. -/
def execXfRun (t th ra : Nat) (s : State) : Host.Outcome State Fault Refusal :=
  .next (if s.canIssue t th then
    match s.descOffset t th ra 128 128 with
    | .error s1 => s1
    | .ok o =>
      let x := s.tile t
      match x.ctx with
      | none => s
      | some ctx =>
        if s.notRetired 2 = 0 then s.teardown ctx 0x0130
        else if 8 ≤ runsOut x.xfsOut then s
        else
          let r := Run.mk t th (x.thread th).pc ctx o [] false
          let s1 := s.modTile t (fun x => { (x.modThread th Thread.next) with xfsOut := raiseCount x.xfsOut th })
          { s1 with xf := { s1.xf with queue := s1.xf.queue ++ [r] } }.runsPlace
    else s)

/-- XF_WAIT (R244). -/
def execXfWait (t th : Nat) (s : State) : Host.Outcome State Fault Refusal :=
  .next (if s.canIssue t th then
    s.modThread t th (fun x => if (alookup (s.tile t).xfsOut th).isNone then x.next else { x with block := .xfWait })
    else s)

/-- A finished run no longer counts, and its thread goes on when it waits for no other. -/
def State.xfDone (s : State) (t th : Nat) : State :=
  s.modTile t (fun x =>
    let l := lowerCount x.xfsOut th
    let x1 := { x with xfsOut := l }
    if (alookup l th).isNone && (x.thread th).block == .xfWait then x1.modThread th Thread.wake else x1)

/-- XF_RUN_COMPLETE (R244, R247 to R251): an engine's run writes its outputs, ORs its flags, and the engine takes the
next. -/
def execXfRunComplete (e : Nat) (s : State) : Host.Outcome State Fault Refusal :=
  .next (match vget none s.xf.engines e with
    | none => s
    | some r =>
      let d := vals r.desc
      let reads := xfReads r d
      if s.usable 2 e ∧ s.domOn (68 + e / 2) ∧ !s.fault.bridge.down then
        if reads.any (fun x => s.heldRange x.1 x.2) then s.hold reads else
        let s1 := if byteAt d 0 = 0 then s.runSpectrum d else s.runConvolve r.tile d
        let s2 := (({ s1 with xf := { s1.xf with engines := vset s1.xf.engines e none } }).touch (68 + e / 2)).xfDone r.tile r.thread
        s2.runsPlace.noteReads reads
      else s)

end Sys2Proof.Machine
end

