-- ==== Sys2Proof/Machine/Arrays.lean ====
section
/-! DEFINITION. Array operations: direct reductions, convolution passes, output conversion and check sums (R102, R106 to R109,
R235 to R243, R403). -/

namespace Sys2Proof.Machine

/-! ### Descriptor fields shared by arr.run and arr.conv -/

/-- START (R106, R235). -/
def opStart (d : List Byte) : Nat := byteAt d 0 % 4
/-- CHECK. -/
def opCheck (d : List Byte) : Bool := bit (byteAt d 0) 2 == 1
/-- The conversion descriptor of an operation. -/
def ArrOp.convDesc (o : ArrOp) : List Byte := slice (vals o.desc) (if o.conv then 96 else 48) 16
/-- OUT_ADDR and OUT_STRIDE. -/
def ArrOp.out (o : ArrOp) : Nat × Nat :=
  let d := vals o.desc
  if o.conv then (leAt d 76 4, leAt d 80 2) else (leAt d 36 4, leAt d 40 2)
/-- ACC_ADDR. -/
def ArrOp.accAddr (o : ArrOp) : Nat := leAt (vals o.desc) (if o.conv then 84 else 44) 4
/-- Format codes of the two operands. -/
def ArrOp.fmts (o : ArrOp) : Nat × Nat := (byteAt (vals o.desc) 2, byteAt (vals o.desc) 3)
/-- The operation converts its tile. -/
def ArrOp.converts (o : ArrOp) : Bool := !allZero o.convDesc

/-! ### Convolution geometry (R236) -/

/-- OH and OW of the whole filter. -/
def cvOut (d : List Byte) : Nat × Nat :=
  (outSize (leAt d 8 2) (leAt d 12 2) (byteAt d 16) (byteAt d 18) (leAt d 20 2) (leAt d 22 2),
   outSize (leAt d 10 2) (leAt d 14 2) (byteAt d 17) (byteAt d 19) (leAt d 24 2) (leAt d 26 2))

/-- The rows of the operation that are computed. -/
def ArrOp.rows (o : ArrOp) : List Nat :=
  if o.conv then
    let d := vals o.desc
    let (oh, ow) := cvOut d
    (List.range 32).filter (fun i => decide (leAt d 36 4 + i < oh * ow))
  else List.range 32

/-- The taps of the pass, in order. -/
def cvTaps (d : List Byte) : List (Nat × Nat) :=
  (List.range (byteAt d 32)).flatMap (fun a => (List.range (byteAt d 33)).map (fun b => (a, b)))

/-- The pixel that row `i` reads for a tap of the pass; none in zero-mode padding. -/
def cvPixel (d : List Byte) (i : Nat) (tap : Nat × Nat) : Option (Nat × Nat) :=
  let (_, ow) := cvOut d
  let p := leAt d 36 4 + i
  let y : Int := (p / ow * byteAt d 16 + (leAt d 28 2 + tap.1) * byteAt d 18 : Nat) - (leAt d 20 2 : Int)
  let x : Int := (p % ow * byteAt d 17 + (leAt d 30 2 + tap.2) * byteAt d 19 : Nat) - (leAt d 24 2 : Int)
  mapPixel (byteAt d 5) (leAt d 8 2) (leAt d 10 2) y x

/-- A pixel lies in the region held in T0. -/
def cvInRegion (d : List Byte) (p : Nat × Nat) : Bool :=
  decide (leAt d 40 2 ≤ p.1 ∧ p.1 < leAt d 40 2 + leAt d 44 2 ∧ leAt d 42 2 ≤ p.2 ∧ p.2 < leAt d 42 2 + leAt d 46 2)

/-- Number of a pixel within the region. -/
def cvIndex (d : List Byte) (p : Nat × Nat) : Nat := (p.1 - leAt d 40 2) * leAt d 46 2 + (p.2 - leAt d 42 2)

/-- Taps that lie in zero-mode padding for every computed row (R242). -/
def cvSkipped (d : List Byte) (rows : List Nat) : Nat :=
  if rows.isEmpty then 0
  else ((cvTaps d).filter (fun t => rows.all (fun i => (cvPixel d i t).isNone))).length

/-! ### Checks (R78, R87, R106, R108, R235, R237, R403) -/

/-- A field of either descriptor that START and CHECK make out of range on an array. -/
def startBad (a : Arr) (d : List Byte) : Bool :=
  opStart d == 3 || (opStart d == 1 && (!a.live || a.check != opCheck d))

/-- DESCRIPTOR failures of an array descriptor. -/
def arDescBad (a : Arr) (d : List Byte) : Bool :=
  let bf := byteAt d 2 == 7 && byteAt d 3 == 7
  let k := leAt d 4 4
  startBad a d ||
  decide (leAt d 0 2 ≥ 8 ∨ 7 < byteAt d 2 ∨ 7 < byteAt d 3 ∨ k < 1 ∨ 65536 < k ∨ leAt d 42 2 ≠ 0) ||
  (!bf && k % 32 != 0) || (bf && !allZero (slice d 16 8 ++ slice d 32 4))

/-- DESCRIPTOR failures of a convolution descriptor. -/
def cvDescBad (a : Arr) (d : List Byte) : Bool :=
  let bf := byteAt d 2 == 7 && byteAt d 3 == 7
  let ck := leAt d 6 2
  let bd := bit (byteAt d 0) 3 == 1
  let g := 2 ^ (byteAt d 4 % 8)
  startBad a d ||
  decide (leAt d 0 2 ≥ 16 ∨ 7 < byteAt d 2 ∨ 7 < byteAt d 3 ∨ 5 < byteAt d 4 ∨ 3 < byteAt d 5 ∨ ck < 1 ∨ 4096 < ck ∨
    leAt d 8 2 = 0 ∨ leAt d 10 2 = 0 ∨ leAt d 12 2 < 1 ∨ 4095 < leAt d 12 2 ∨ leAt d 14 2 < 1 ∨ 4095 < leAt d 14 2 ∨
    byteAt d 16 = 0 ∨ byteAt d 17 = 0 ∨ byteAt d 18 = 0 ∨ byteAt d 19 = 0 ∨ byteAt d 32 < 1 ∨ 11 < byteAt d 32 ∨
    byteAt d 33 < 1 ∨ 11 < byteAt d 33 ∨ leAt d 12 2 < leAt d 28 2 + byteAt d 32 ∨ leAt d 14 2 < leAt d 30 2 + byteAt d 33 ∨
    leAt d 82 2 ≠ 0 ∨ 65536 < ck * byteAt d 32 * byteAt d 33) ||
  (!bd && byteAt d 4 != 0) || (!bf && ck % 32 != 0) || decide (ck % g ≠ 0) ||
  (byteAt d 2 != 7 && leAt d 34 2 % 32 != 0) || !allZero (slice d 88 8 ++ slice d 112 16) ||
  (bf && !allZero (slice d 56 4 ++ slice d 60 4 ++ slice d 72 4))

/-- ARITH_FORMAT failures of an operation. -/
def ArrOp.formatBad (o : ArrOp) : Bool :=
  let (fa, fb) := o.fmts
  codeGroup fa != codeGroup fb || (o.converts && convBad o.convDesc)

/-- T0 ranges an operation writes: its output rows, and its scale bytes. -/
def ArrOp.writes (o : ArrOp) : List (Nat × Nat) :=
  if o.converts then
    let f := byteAt o.convDesc 2
    let (a, st) := o.out
    o.rows.map (fun i => (a + i * st, packedBytes f 32)) ++ (if isMx f || isIntCode f then [(a + 32 * st, 32)] else [])
  else []

/-- T0 ranges an operation reads besides its descriptor. -/
def ArrOp.reads (o : ArrOp) : List (Nat × Nat) :=
  let d := vals o.desc
  let (fa, fb) := o.fmts
  (if opStart d = 2 then [(o.accAddr, 32768)] else []) ++
  if o.conv then
    let ck := leAt d 6 2
    let k := ck * byteAt d 32 * byteAt d 33
    let pix := ((o.rows.flatMap (fun i => (cvTaps d).filterMap (cvPixel d i)))).eraseDups
    pix.flatMap (fun p =>
      (leAt d 48 4 + cvIndex d p * leAt d 52 4, packedBytes fa (leAt d 34 2 + ck)) ::
        (if fa = 7 then [] else [(leAt d 56 4 + cvIndex d p * leAt d 60 2, (leAt d 34 2 + ck) / 32)])) ++
    (List.range 32).flatMap (fun j =>
      (leAt d 64 4 + j * leAt d 68 4, packedBytes fb k) ::
        (if fb = 7 then [] else [(leAt d 72 4 + j * leAt d 62 2, k / 32)]))
  else
    let k := leAt d 4 4
    (List.range 32).flatMap (fun i =>
      [(leAt d 8 4 + i * leAt d 24 4, packedBytes fa k), (leAt d 12 4 + i * leAt d 28 4, packedBytes fb k)] ++
        (if fa = 7 then [] else [(leAt d 16 4 + i * leAt d 32 2, k / 32), (leAt d 20 4 + i * leAt d 34 2, k / 32)]))

/-- Every T0 offset a descriptor holds, used or not (R106, R132, R235). -/
def ArrOp.offsets (o : ArrOp) : List Nat :=
  (if o.conv then [48, 56, 64, 72, 76, 84] else [8, 12, 16, 20, 36, 44]).map (fun k => leAt (vals o.desc) k 4)

/-- The check of an operation's descriptor before its first step. -/
def State.arrFail (t : Nat) (a : Arr) (base : Nat) (o : ArrOp) : Fail :=
  let d := vals o.desc
  match o.desc.findIdx? PByte.p with
  | some i => some (0x0007, some ((base + i) / 8 * 8))
  | none =>
    let bad := if o.conv then cvDescBad a d else arDescBad a d
    firstFail [failIf bad 0x0009, failIf o.formatBad 0x0001,
      failIf (o.conv && !bad && o.rows.any (fun i => (cvTaps d).any (fun tp =>
        match cvPixel d i tp with | some p => !cvInRegion d p | none => false))) 0x0004,
      if bad then none else firstFail (o.offsets.map (fun a => t0Fail t a 1) ++ (o.reads ++ o.writes).map (fun r => t0Fail t r.1 r.2))]

/-! ### Products (R75 to R77, R80, R81, R234, R236, R240) -/

/-- The slice of operand A for row `i`, along the reduction axis. -/
def State.rowSlice (s : State) (t : Nat) (o : ArrOp) (i : Nat) : List (Val × Bool) :=
  let d := vals o.desc
  let b := t * t0TileSize
  let (fa, _) := o.fmts
  if o.conv then
    let ck := leAt d 6 2
    let c0 := leAt d 34 2
    (cvTaps d).flatMap (fun tp =>
      match cvPixel d i tp with
      | none => List.replicate ck (Val.fin false 0 0, false)
      | some p =>
        scaledElems fa (s.peek (b + leAt d 48 4 + cvIndex d p * leAt d 52 4) (packedBytes fa (c0 + ck)))
          (if fa = 7 then [] else s.peek (b + leAt d 56 4 + cvIndex d p * leAt d 60 2) ((c0 + ck) / 32)) c0 ck)
  else
    let k := leAt d 4 4
    scaledElems fa (s.peek (b + leAt d 8 4 + i * leAt d 24 4) (packedBytes fa k))
      (if fa = 7 then [] else s.peek (b + leAt d 16 4 + i * leAt d 32 2) (k / 32)) 0 k

/-- The slice of operand B for column `j`. -/
def State.colSlice (s : State) (t : Nat) (o : ArrOp) (j : Nat) : List (Val × Bool) :=
  let d := vals o.desc
  let b := t * t0TileSize
  let (_, fb) := o.fmts
  if o.conv then
    let k := leAt d 6 2 * byteAt d 32 * byteAt d 33
    scaledElems fb (s.peek (b + leAt d 64 4 + j * leAt d 68 4) (packedBytes fb k))
      (if fb = 7 then [] else s.peek (b + leAt d 72 4 + j * leAt d 62 2) (k / 32)) 0 k
  else
    let k := leAt d 4 4
    scaledElems fb (s.peek (b + leAt d 12 4 + j * leAt d 28 4) (packedBytes fb k))
      (if fb = 7 then [] else s.peek (b + leAt d 20 4 + j * leAt d 34 2) (k / 32)) 0 k

/-- Column `j` forms a product at position `k` of the reduction: always, but for block-diagonal packing (R240). -/
def ArrOp.forms (o : ArrOp) (j k : Nat) : Bool :=
  let d := vals o.desc
  if o.conv && bit (byteAt d 0) 3 == 1 then
    let g := 2 ^ (byteAt d 4 % 8)
    let ck := leAt d 6 2
    decide (j / (32 / g) = k % ck / (ck / g))
  else true

/-- The products of every element, row-major, each with its poison; none for a row that is not computed. -/
def State.products (s : State) (t : Nat) (o : ArrOp) : List (List (Val × Bool)) :=
  let cols := (List.range 32).map (s.colSlice t o)
  (List.range 32).flatMap (fun i =>
    if o.rows.contains i then
      let row := s.rowSlice t o i
      cols.zipIdx.map (fun (c, j) => ((row.zip c).zipIdx.filter (fun x => o.forms j x.2)).map (fun x =>
        (x.1.1.1.mul x.1.2.1, x.1.1.2 || x.1.2.2)))
    else List.replicate 32 [])

/-- Products appended to those that wait. -/
def joinPend (a b : List (List (Val × Bool))) : List (List (Val × Bool)) :=
  if a.isEmpty then b else (a.zip b).map (fun x => x.1 ++ x.2)

/-- For each row, then for each column, whether any of 1,024 flags is set. -/
def tileAny (l : List Bool) : List Bool :=
  (List.range 32).map (fun i => ((l.drop (32 * i)).take 32).any id) ++
    (List.range 32).map (fun j => (List.range 32).any (fun i => l.getD (32 * i + j) false))

/-- Row sums then column sums of 1,024 values. -/
def tileSums (l : List Int) : List Int :=
  (List.range 32).map (fun i => ((l.drop (32 * i)).take 32).foldl (· + ·) 0) ++
    (List.range 32).map (fun j => (List.range 32).foldl (fun a i => a + l.getD (32 * i + j) 0) 0)

/-- Exact sums of finite products. -/
def exactSum (l : List (Val × Bool)) : Int × Int :=
  l.foldl (fun a v => match v.1 with | .fin n m e => alignSum a.1 a.2 (signed n m) e | _ => a) (0, 0)

/-- The lane's sums of an operation's products: rows then columns. -/
def laneSums (p : List (List (Val × Bool))) : List (Int × Int) :=
  let e := p.map exactSum
  let add (l : List (Int × Int)) : Int × Int := l.foldl (fun a x => alignSum a.1 a.2 x.1 x.2) (0, 0)
  (List.range 32).map (fun i => add ((e.drop (32 * i)).take 32)) ++
    (List.range 32).map (fun j => add ((List.range 32).map (fun i => e.getD (32 * i + j) (0, 0))))

/-- A lane with an operation's products. -/
def Lane.add (l : Lane) (p : List (List (Val × Bool))) : Lane :=
  { l with
    sums := (l.sums.zip (laneSums p)).map (fun x => alignSum x.1.1 x.1.2 x.2.1 x.2.2)
    terms := (l.terms.zip (tileSums (p.map (fun x => (x.length : Int))))).map (fun x => x.1 + x.2.toNat)
    special := l.special || p.any (fun x => x.any (fun v => !v.1.isFin)) }

/-! ### Reduction (R80 to R83, R108, R238, R242) -/

/-- The accumulators an operation starts from: the array with them in place, or the fault (R83, R106). -/
def State.arrStart (s : State) (t : Nat) (a : Arr) (o : ArrOp) : Except Nat Arr :=
  let d := vals o.desc
  match opStart d with
  | 1 => .ok a
  | 2 =>
    let b := s.peek (t * t0TileSize + o.accAddr) 32768
    let rs := (List.range 1024).map (fun i =>
      let r := (b.drop (32 * i)).take 32
      if r.any PByte.p then some ({ Acc.zero with poison := true }, none) else (Acc.ofRecord r).map (fun x => (x.1, some x.2)))
    let ws := (rs.filterMap (fun r => r.bind Prod.snd)).eraseDups
    if rs.any Option.isNone || decide (1 < ws.length) then .error 0x0003
    else
      let accs := rs.map (fun r => match r with | some x => x.1 | none => Acc.zero)
      .ok { a with eb := ws.head?, acc := Vector.ofFn (fun i : Fin 1024 => accs.getD i.val Acc.zero), pend := [], check := opCheck d
                   lane := { Lane.zero with base := tileSums (accs.map Acc.a) } }
  | _ => .ok { a with eb := none, acc := Vector.replicate 1024 Acc.zero, pend := [], check := opCheck d, lane := Lane.zero }

/-- The window an operation ends under: its own conversion's, else the one its chain already has. -/
def ArrOp.window (o : ArrOp) (a : Arr) : Except Nat (Option Int) :=
  if o.converts then
    let w := sext 10 (leAt o.convDesc 0 2)
    match a.eb with
    | some e => if e = w then .ok (some w) else .error 0x0003
    | none => .ok (some w)
  else .ok a.eb

/-- Products added to accumulators under E_b, with the INEX bits of what is added to each: what is lost is told apart from what
the accumulators already lacked (R403). -/
def absorb (eb : Int) (acc : List Acc) (p : List (List (Val × Bool))) : List Acc × List Bool × List Bool :=
  let ds := p.map (fun l => l.foldl (fun c v => c.addVal eb v.1 v.2) Acc.zero)
  ((acc.zip ds).map (fun x => x.1.merge x.2), ds.map Acc.lo, ds.map Acc.hi)

/-- Flags ORed place by place. -/
def orFlags (a b : List Bool) : List Bool := (a.zip b).map (fun x => x.1 || x.2)

/-- The array at the end of an operation's reduction, or the fault it takes, the accumulators then unchanged (R82). -/
def State.arrReduce (s : State) (t : Nat) (a : Arr) (o : ArrOp) : Except Nat Arr :=
  match s.arrStart t a o with
  | .error e => .error e
  | .ok a1 =>
    match o.window a1 with
    | .error e => .error e
    | .ok w =>
      let p := joinPend a1.pend (s.products t o)
      if (a1.acc.toList.zip p).any (fun x => decide (maxTerms < x.1.terms + x.2.length)) then .error 0x0002
      else
        let lane := if a1.check then a1.lane.add (s.products t o) else a1.lane
        match w with
        | none => .ok { a1 with live := true, pend := p, lane := lane, reducing := none }
        | some eb =>
          let (l, lo, hi) := absorb eb a1.acc.toList p
          let lane := { lane with lo := orFlags lane.lo (tileAny lo), hi := orFlags lane.hi (tileAny hi) }
          .ok { a1 with live := true, eb := some eb, pend := [], acc := Vector.ofFn (fun i : Fin 1024 => l.getD i.val Acc.zero)
                        lane := lane, reducing := none }

/-- Array steps counted in TILE.STEPS, saturating (R130). -/
def Tile.addSteps (x : Tile) (n : Nat) : Tile :=
  if x.steps + n ≥ 2 ^ 48 - 1 then { x with steps := 2 ^ 48 - 1, stepsSat := x.stepsSat || decide (n ≠ 0) } else { x with steps := x.steps + n }

/-- An array of a tile. -/
def Tile.arr (x : Tile) (a : Nat) : Arr := vget Arr.reset x.arrays a

/-- Threads that wait for an array whose last operation is finished go on (R109). -/
def Tile.wakeArr (x : Tile) (a : Nat) : Tile :=
  let y := x.arr a
  if y.reducing.isNone && y.converting.isNone then
    { x with threads := x.threads.map (fun th => if th.block = .arrWait a then th.wake else th) }
  else x

/-- A tile goes on working: its unit is usable and its domain is on. -/
def State.tileRuns (s : State) (t : Nat) : Bool := decide (t < 128) && s.usable 0 t && s.domOn (t / 2)

/-- An array operation is issued (R106, R108, R235, R237); `arr.conv` asks its descriptor's offset to be a multiple of 64, `arr.run`
takes any: it waits, by the thread's not going on, while the array's previous
reduction is unfinished. -/
def State.arrIssue (s : State) (t th ra rb : Nat) (conv : Bool) : State :=
  if s.canIssue t th then
    let x := (s.tile t).thread th
    let a := x.getX rb
    if x.poisonX rb then s.poisonUse t th x.pc
    else if 4 ≤ a then s.faultPc t th 0x0008
    else
      let n := if conv then 128 else 64
      match s.descOffset t th ra (if conv then 64 else 1) n with
      | .error s1 => s1
      | .ok off =>
        let y := (s.tile t).arr a
        if y.reducing.isSome then s
        else
          let base := t * t0TileSize + off
          let o : ArrOp := { conv := conv, desc := s.peek base n, thread := th, pc := x.pc }
          match State.arrFail t y base o with
          | some (7, some ad) => s.poisonUse t th ad
          | some (c, ad) => s.threadFault t th c (ad.getD x.pc)
          | none =>
            (s.modTile t (fun x => { (x.modThread th Thread.next) with
              arrays := vmod x.arrays a (fun y => { y with reducing := some o }) })).noteRead base n
  else s

/-- ARR_RUN (R106). -/
def execArrRun (t th ra rb : Nat) (s : State) : Host.Outcome State Fault Refusal := .next (s.arrIssue t th ra rb false)
/-- ARR_CONV (R235). -/
def execArrConv (t th ra rb : Nat) (s : State) : Host.Outcome State Fault Refusal := .next (s.arrIssue t th ra rb true)

/-- ARR_WAIT (R109): the thread blocks until the array's last operation has written its output and its flags. -/
def execArrWait (t th rb : Nat) (s : State) : Host.Outcome State Fault Refusal :=
  .next (if s.canIssue t th then
    let x := (s.tile t).thread th
    let a := x.getX rb
    if x.poisonX rb then s.poisonUse t th x.pc
    else if 4 ≤ a then s.faultPc t th 0x0008
    else
      let y := (s.tile t).arr a
      s.modThread t th (fun x => if y.reducing.isNone && y.converting.isNone then x.next else { x with block := .arrWait a })
    else s)

/-- ARRAY_REDUCTION_DONE (R109, R238, R242): the operation's products are in the accumulators; with CONV set they move to the
second set for conversion, once that is free. -/
def execArrayReductionDone (t a : Nat) (s : State) : Host.Outcome State Fault Refusal :=
  .next (
    let y := (s.tile t).arr a
    match y.reducing with
    | none => s
    | some o =>
      if !s.tileRuns t || (o.converts && y.converting.isSome) then s
      else
        match s.arrReduce t y o with
        | .error e => s.threadFault t o.thread e o.pc
        | .ok y1 =>
          let d := vals o.desc
          let (fa, fb) := o.fmts
          let k := if o.conv then leAt d 6 2 * byteAt d 32 * byteAt d 33 else leAt d 4 4
          let skip := if o.conv then cvSkipped d o.rows * stepsOf fa fb (leAt d 6 2) else 0
          let y2 := if o.converts then
              { y1 with live := false, converting := some o, outAcc := y1.acc, outEb := y1.eb.getD 0
                        outLane := if y1.check then some y1.lane else none
                        acc := Vector.replicate 1024 Acc.zero, eb := none, lane := Lane.zero }
            else y1
          let s1 := s.modTile t (fun x =>
            (({ x with arrays := vset x.arrays a y2 }).addSteps (stepsOf fa fb k - skip)).wakeArr a)
          (s1.bump (ctrId 0x05000048) skip).noteReads (o.reads.map (fun r => (t * t0TileSize + r.1, r.2))))

/-! ### Output conversion (R87 to R94, R102, R107) -/

/-- The bytes of a converted tile: for each computed row its packed elements, then the scale bytes with their places, and the
flags. -/
def convTile (conv : List Byte) (rows : List Nat) (rnds : List Rnd) (acc : List Acc) (eb : Int) :
    List (Nat × List PByte) × List (Nat × PByte) × BitVec 9 :=
  let f := byteAt conv 2
  let ox := sext 16 (leAt conv 4 2)
  let val (i j : Nat) : Val × Bool := let x := acc.getD (32 * i + j) Acc.zero; (x.value eb ox, x.poison)
  let rnd (i j : Nat) : Rnd := rnds.getD (32 * i + j) .rne
  if f = 0xA then
    (rows.map (fun i => (i, ((List.range 32).map (fun j =>
      let x := acc.getD (32 * i + j) Acc.zero
      if x.poison then List.replicate 32 ⟨0, true⟩ else (x.record eb).map (fun b => PByte.mk b false))).flatten)), [],
      flagIf (rows.any (fun i => (List.range 32).any (fun j => (acc.getD (32 * i + j) Acc.zero).poison))) fPoisonOut)
  else if rows.isEmpty then ([], [], 0)
  else if isMx f && bit (byteAt conv 3) 1 == 1 then
    let cols := (List.range 32).map (fun j =>
      let vs := (List.range 32).map (fun i => if rows.contains i then val i j else (Val.fin false 0 0, false))
      if vs.any Prod.snd then (List.replicate 32 ((0 : Nat), true), PByte.mk 0 true, fPoisonOut)
      else
        let (sc, es, fl) := convMx f ((List.range 32).map (fun i => rnd i j)) (vs.map Prod.fst)
        (es.map (fun e => (e, false)), PByte.mk (BitVec.ofNat 8 sc) false, fl))
    (rows.map (fun i => (i, packElems f (cols.map (fun c => c.1.getD i (0, false))))),
      cols.zipIdx.map (fun c => (c.2, c.1.2.1)), flagsOr (cols.map (fun c => c.2.2)))
  else
    let rs := rows.map (fun i => (i, convRow f ((List.range 32).map (rnd i)) ((List.range 32).map (val i))))
    (rs.map (fun r => (r.1, r.2.1)),
      if isIntCode f then
        (if bit (byteAt conv 3) 1 = 1 then (List.range 32).map (fun k => (k, ⟨0x7F, false⟩)) else rows.map (fun k => (k, ⟨0x7F, false⟩)))
      else rs.filterMap (fun r => (r.2.2.1.head?).map (fun x => (r.1, x))), flagsOr (rs.map (fun r => r.2.2.2)))

/-- The check record of a finished chain (R102, R403, R404). -/
def Arr.checkRecord (y : Arr) (t a at_ : Nat) (l : Lane) : Check :=
  { tile := t, array := a, at_ := at_
    sums := ((tileSums (y.outAcc.toList.map Acc.a)).zip l.base).map (fun x => x.1 - x.2)
    eb := y.outEb, lo := l.lo, hi := l.hi, lane := l.sums, terms := l.terms, special := l.special
    poison := y.outAcc.toList.any Acc.poison }

/-- OUTPUT_CONVERSION_DONE (R102, R107, R109, R401): the tile is written with its scales, its flags are ORed, and a checked
chain's sums go to the umpires; the array stalls while four records of its tile wait. -/
def execOutputConversionDone (t a : Nat) (s : State) : Host.Outcome State Fault Refusal :=
  .next (
    let y := (s.tile t).arr a
    match y.converting with
    | none => s
    | some o =>
      let waiting := ((s.sched.jobs.flatMap Job.checks).filter (fun c => c.tile == t)).length
      if !s.tileRuns t || (y.outLane.isSome && decide (4 ≤ waiting)) then s
      else
        let conv := o.convDesc
        let ox := sext 16 (leAt conv 4 2)
        let (rnds, uf) := s.rounds t conv (y.outAcc.toList.map (fun x => x.value y.outEb ox))
        let (rows, scales, cf) := convTile conv o.rows rnds y.outAcc.toList y.outEb
        let base := t * t0TileSize
        let (oa, st) := o.out
        let s1 := rows.foldl (fun s r => s.storeBytes (base + oa + r.1 * st) r.2) s
        let s2 := scales.foldl (fun s r => s.storeBytes (base + oa + 32 * st + r.1) [r.2]) s1
        let used := o.rows.flatMap (fun i => (y.outAcc.toList.drop (32 * i)).take 32)
        let fl := cf ||| flagIf (!o.rows.isEmpty) uf ||| flagIf (used.any Acc.lo) fInexLo ||| flagIf (used.any Acc.hi) fInexHi
        let s3 := s2.raiseFlags t fl
        let s4 := match y.outLane, s3.tileJob t with
          | some l, some j => s3.modJob j.uid (fun j => { j with checks := j.checks ++ [y.checkRecord t a s.time.half l] })
          | _, _ => s3
        s4.modTile t (fun x => ({ x with arrays := vmod x.arrays a (fun y => { y with converting := none, outLane := none }) }).wakeArr a))

end Sys2Proof.Machine
end

