-- ==== Sys2Proof/Machine/Loads.lean ====
section
/-! DEFINITION. Loads, stores and atomic operations of a thread, scalar and vector (R119 to R123, R130, R180, R267). -/

namespace Sys2Proof.Machine

/-- The address of an access of `n` bytes aligned to `al`: its fault, or the address it reaches (R119 to R121, R181). A
misaligned address is reported before an address out of range. -/
def State.access (s : State) (t th : Nat) (ea : PVal) (n al : Nat) (write : Bool) : Except State Nat :=
  if ea.2 then .error (s.poisonUse t th ((s.tile t).thread th).pc)
  else if ea.1 % al ≠ 0 then .error (s.threadFault t th 0x0006 ea.1)
  else match s.reach t ea.1 n write with
    | .error c => .error (s.threadFault t th c ea.1)
    | .ok a => .ok a

/-- A tile's own register read by one of its threads; an offset that names no register reads as a free value. -/
def State.readTileReg (s : State) (t a n : Nat) : Nat × State :=
  let off := a - tileBlock t
  let (v, s1) := match s.tileReg t (off / 8 * 8) with
    | some r => r
    | none => s.draw
  (v / 2 ^ (8 * (off % 8)) % 2 ^ (8 * n), s1)

/-- A loaded value extended to 64 bits. -/
def extend (n : Nat) (signed : Bool) (v : Nat) : Nat := if signed then wrap 64 (sext (8 * n) v) else v

/-- LOAD (R119 to R123, R180, R267): RD from RA + IMM, of the size, caching and extension MOD names. -/
def execLoad (t th mod rd ra imm : Nat) (ups : List Upset) (s : State) : Host.Outcome State Fault Refusal :=
  .next (if s.canIssue t th then
    if 16 ≤ mod then s.faultPc t th 0x0008
    else
      let n := sizeOf2 mod
      let nc := bit mod 2 == 1
      match s.access t th (((s.tile t).thread th).effAddr ra imm) n n false with
      | .error s1 => s1
      | .ok a =>
        if tileBlock t ≤ a ∧ a < tileBlock t + 0x1000 then
          let (v, s1) := s.readTileReg t a n
          s1.modThread t th (fun x => (x.put rd (extend n (bit mod 3 == 1) v, false)).next)
        else if s.loadHeld t a n nc then s.hold [(a, n)]
        else
          let (s1, b) := (ups.foldl State.strike s).threadLoad t a n nc
          let v := wordsVal b (a % 8) n
          (s1.modThread t th (fun x => (x.put rd (extend n (bit mod 3 == 1) v.1, v.2)).next)).crewProgress t
  else s)

/-- STORE (R119 to R123, R130, R180, R267): RB to RA + IMM. A poisoned value stored to TILE.ARITH_STATUS writes free bits. -/
def execStore (t th mod ra rb imm : Nat) (s : State) : Host.Outcome State Fault Refusal :=
  .next (if s.canIssue t th then
    if 4 ≤ mod then s.faultPc t th 0x0008
    else
      let n := sizeOf2 mod
      let h := (s.tile t).thread th
      match s.access t th (h.effAddr ra imm) n n true with
      | .error s1 => s1
      | .ok a =>
        let v := h.operand rb
        if tileBlock t ≤ a ∧ a < tileBlock t + 0x1000 then
          let (w, s1) := if v.2 then s.draw else (v.1, s)
          let o := 8 * (a % 8)
          s1.modTile t (fun x => (x.clearArith (w % 2 ^ (8 * n) * 2 ^ o) ((2 ^ (8 * n) - 1) * 2 ^ o)).modThread th Thread.next)
        else (s.threadStore t th a ((toLe n v.1).map (fun b => PByte.mk (if v.2 then 0 else b) v.2))).modThread t th Thread.next
  else s)

/-- What an atomic operation leaves at home, from the old value, RD and RB of `w` bits; minimum and maximum are signed. -/
def atomicVal (op w old rd rb : Nat) : Nat :=
  match op with
  | 0 => (old + rb) % 2 ^ w
  | 1 => rb % 2 ^ w
  | 2 => if old = rd % 2 ^ w then rb % 2 ^ w else old
  | 3 => if sext w rb < sext w old then rb % 2 ^ w else old
  | _ => if sext w old < sext w rb then rb % 2 ^ w else old

/-- ATOMIC (R123, R180, R267): performed at home on T0 or T1; RD returns the old value. A poisoned word is returned poisoned and
stays so, but for an 8-byte swap; a poisoned operand poisons what is stored. -/
def execAtomic (t th mod rd ra rb : Nat) (s : State) : Host.Outcome State Fault Refusal :=
  .next (if s.canIssue t th then
    if 10 ≤ mod then s.faultPc t th 0x0008
    else
      let n := if mod % 2 = 0 then 4 else 8
      let op := mod / 2
      let h := (s.tile t).thread th
      match s.access t th (h.operand ra) n n true with
      | .error s1 => s1
      | .ok a =>
        if !(isT0 a || isT1 a) then s.threadFault t th 0x0004 (h.getX ra)
        else if s.heldRange a n then s.hold [(a, n)]
        else
          let lo := a / 8 * 8
          let s1 := s.settle t lo 8
          let b := s1.peek lo 8
          let old := wordsVal b (a % 8) n
          let v := h.operand rb
          let cmp := h.operand rd
          let keep := old.2 && !(op == 1 && n == 8)
          let bad := v.2 || (op == 2 && cmp.2)
          let new := (toLe n (atomicVal op (8 * n) old.1 cmp.1 v.1)).map (fun x => PByte.mk (if bad then 0 else x) bad)
          let s2 := (s1.noteRead lo 8)
          let s3 := if keep then s2 else s2.storeBytes a new
          let s4 := s3.modTile t (fun x => { x with cache := x.cache.map (fun c =>
            if isT1 a ∧ c.line = a / 64 ∧ !keep then { c with bytes := layOver c.bytes (List.replicate (a % 64) none ++ new.map some) } else c) })
          (s4.modThread t th (fun x => (x.put rd old).next)).crewProgress t
  else s)

/-- The bytes of the parts of a range as a thread's load finds them. -/
def State.loadPieces (s : State) (t : Nat) (l : List (Nat × Nat)) : State × List PByte :=
  l.foldl (fun acc p => let (s1, b) := acc.1.threadLoad t p.1 p.2 false; (s1, acc.2 ++ b)) (s, [])

/-- Bytes a thread stores over the parts of a range. -/
def State.storePieces (s : State) (t th : Nat) (l : List (Nat × Nat)) (b : List PByte) : State :=
  (l.foldl (fun (acc : State × List PByte) p => (acc.1.threadStore t th p.1 (acc.2.take p.2), acc.2.drop p.2)) (s, b)).1

/-- The parts of a vector access's 256 bytes; its fault has been judged. -/
def State.vecPieces (s : State) (t th ra imm : Nat) (write : Bool) : List (Nat × Nat) :=
  match s.pieces t (((s.tile t).thread th).effAddr ra imm).1 256 write with
  | .ok l => l
  | .error _ => []

/-- VECTOR_LOAD (R116, R120, R180, R267): 256 bytes aligned to 64 bytes into a vector register. -/
def execVectorLoad (t th rd ra imm : Nat) (s : State) : Host.Outcome State Fault Refusal :=
  .next (if s.canIssue t th then
    match s.access t th (((s.tile t).thread th).effAddr ra imm) 256 64 false with
    | .error s1 => s1
    | .ok a =>
      if tileBlock t ≤ a ∧ a < tileBlock t + 0x1000 then
        let ws := (List.range 32).foldl (fun (acc : List Nat × State) i =>
          let (v, s1) := acc.2.readTileReg t (a + 8 * i) 8
          (acc.1 ++ [v], s1)) ([], s)
        ws.2.modThread t th (fun x => (x.putV rd (Vector.ofFn (fun i : Fin 64 =>
          BitVec.ofNat 32 (ws.1.getD (i.val / 2) 0 / 2 ^ (32 * (i.val % 2))))) 0).next)
      else if (s.vecPieces t th ra imm false).any (fun p => s.loadHeld t p.1 p.2 false) then s.hold (s.vecPieces t th ra imm false)
      else
        let (s1, b) := s.loadPieces t (s.vecPieces t th ra imm false)
        let p := BitVec.ofNat 32 (ofBits ((List.range 32).map (fun w => ((b.drop (8 * w)).take 8).any PByte.p)))
        (s1.modThread t th (fun x =>
          (x.putV rd (Vector.ofFn (fun i : Fin 64 => BitVec.ofNat 32 (leAt (vals b) (4 * i.val) 4))) p).next)).crewProgress t
  else s)

/-- VECTOR_STORE (R116, R120, R130, R180, R267): a vector register to 256 bytes aligned to 64 bytes; never to the tile's own
registers. -/
def execVectorStore (t th rd ra imm : Nat) (s : State) : Host.Outcome State Fault Refusal :=
  .next (if s.canIssue t th then
    let h := (s.tile t).thread th
    match s.access t th (h.effAddr ra imm) 256 64 true with
    | .error s1 => s1
    | .ok _ =>
      let (v, p) := h.vreg rd
      let b := (v.toList.zipIdx.map (fun x => (toLe 4 x.1.toNat).map (fun y => PByte.mk y (p.getLsbD (x.2 / 2))))).flatten
      (s.storePieces t th (s.vecPieces t th ra imm true) b).modThread t th Thread.next
  else s)

end Sys2Proof.Machine
end

