-- ==== Sys2Proof/Machine/VecUnit.lean ====
section
/-! DEFINITION. Vector operations and the prefix scan (R95 to R98, R110, R111, R180, R267). -/

namespace Sys2Proof.Machine

/-- The format of a vector operation's operands: FP32, or FP16 or BF16 in the low half of each lane. -/
def vecFmt (mod : Nat) : Fmt := if mod / 16 = 1 then fFP16 else if mod / 16 = 2 then fBF16 else fFP32

/-- An encoding's bits in a lane. -/
def lane (f : Fmt) (x : Nat) : Nat := x % 2 ^ (1 + f.eb + f.mb)

/-- 1.0 in a format. -/
def Fmt.one (f : Fmt) : Nat := f.bias * 2 ^ f.mb

/-- One lane of a vector operation on encodings: the old RD, RA and RB. -/
def vecLane (mod d a b : Nat) : Nat :=
  let f := vecFmt mod
  let d := lane f d
  let b := lane f b
  let x := lane f a
  match mod % 16 with
  | 0 => fop2 f Val.add x b
  | 1 => fop2 f (fun x y => x.add y.neg) x b
  | 2 => fop2 f Val.mul x b
  | 3 => fmaF f x b d
  | 4 => fop2 f Val.div x b
  | 5 => f.encode .rne (f.decode x).sqrt
  | 6 => f.exp x
  | 7 => f.rsqrt x
  | 8 => fop2 f Val.max x b
  | 9 => fop2 f Val.min x b
  | 10 => if (f.decode x).lt (f.decode b) then f.one else 0
  | 11 => if (f.decode x).eq (f.decode b) then f.one else 0
  | 12 => fconv f fBF16 x
  | 13 => fconv f fFP16 x
  | 14 => fconv fBF16 f (lane fBF16 a)
  | _ => fconv fFP16 f (lane fFP16 a)

/-- The format of a vector operation's result. -/
def vecOut (mod : Nat) : Fmt :=
  match mod % 16 with
  | 12 => fBF16
  | 13 => fFP16
  | _ => vecFmt mod

/-- The operation reads RB. -/
def vecReadsB (mod : Nat) : Bool := [0, 1, 2, 3, 4, 8, 9, 10, 11].contains (mod % 16)

/-- The flags of a vector result: a NaN, an infinity or a poisoned word in it (R98). -/
def vecFlags (f : Fmt) (v : Vector Word32 64) (p : BitVec 32) : BitVec 9 :=
  let live := v.toList.zipIdx.filter (fun x => !p.getLsbD (x.2 / 2))
  flagIf (live.any (fun x => (f.decode (lane f x.1.toNat)).isNan)) fNanOut |||
    flagIf (live.any (fun x => match f.decode (lane f x.1.toNat) with | .inf _ => true | _ => false)) fInfOut ||| flagIf (p != 0) fPoisonOut

/-- VECTOR_OP (R95 to R97, R110, R180, R267): RD = RA op RB in every lane. -/
def execVectorOp (t th mod rd ra rb : Nat) (s : State) : Host.Outcome State Fault Refusal :=
  .next (if s.canIssue t th then
    if 48 ≤ mod then s.faultPc t th 0x0008
    else
      let h := (s.tile t).thread th
      let (a, pa) := h.vreg ra
      let (b, pb) := h.vreg rb
      let (d, pd) := h.vreg rd
      let v : Vector Word32 64 := Vector.ofFn (fun i : Fin 64 => BitVec.ofNat 32 (vecLane mod d[i].toNat a[i].toNat b[i].toNat))
      let p := pa ||| (if vecReadsB mod then pb else 0) ||| (if mod % 16 = 3 then pd else 0)
      (s.modThread t th (fun x => (x.putV rd v p).next)).raiseFlags t (vecFlags (vecOut mod) v p)
  else s)

/-! ### The prefix scan (R111) -/

/-- A lane of a scan: for a recurrence the pair (a, b), for the others b alone; and whether it is poisoned. -/
structure ScanLane where
  a : Nat
  b : Nat
  p : Bool

/-- An earlier lane combined into a later one. -/
def scanCombine (mod : Nat) (u w : ScanLane) : ScanLane :=
  match mod with
  | 0 => ⟨w.a, fadd u.b w.b, u.p || w.p⟩
  | 1 => ⟨w.a, fmax u.b w.b, u.p || w.p⟩
  | 2 => ⟨w.a, fmin u.b w.b, u.p || w.p⟩
  | _ => ⟨fmul u.a w.a, ffma w.a u.b w.b, u.p || w.p⟩

/-- One level of the tree on one half. -/
def scanLevel (mod d : Nat) (l : List ScanLane) : List ScanLane :=
  l.zipIdx.map (fun x => if 2 ^ d ≤ x.2 then scanCombine mod (l.getD (x.2 - 2 ^ d) x.1) x.1 else x.1)

/-- The carry-in operand applied to a lane. -/
def scanCarry (mod : Nat) (c : PVal) (w : ScanLane) : PVal :=
  let v := match mod with
    | 0 => fadd w.b c.1
    | 1 => fmax c.1 w.b
    | 2 => fmin c.1 w.b
    | _ => ffma w.a c.1 w.b
  (v, w.p || c.2)

/-- A half scanned: five levels, then the carry-in. -/
def scanHalf (mod : Nat) (l : List ScanLane) (c : List PVal) : List PVal :=
  ((List.range 5).foldl (fun l d => scanLevel mod d l) l).zip c |>.map (fun x => scanCarry mod x.2 x.1)

/-- The lanes of a vector register with each lane's poison. -/
def laneList (v : Vector Word32 64) (p : BitVec 32) : List PVal := v.toList.zipIdx.map (fun x => (x.1.toNat, p.getLsbD (x.2 / 2)))

/-- PREFIX_SCAN (R111, R180, R267): RA scanned into RD with the carry-in RB, lane by lane; in the linear recurrence RA holds the
a and RD the b of each element. -/
def execPrefixScan (t th mod rd ra rb : Nat) (s : State) : Host.Outcome State Fault Refusal :=
  .next (if s.canIssue t th then
    if 4 ≤ mod then s.faultPc t th 0x0008
    else
      let h := (s.tile t).thread th
      let la := laneList (h.vreg ra).1 (h.vreg ra).2
      let lc := laneList (h.vreg rb).1 (h.vreg rb).2
      let ld := laneList (h.vreg rd).1 (h.vreg rd).2
      let ins := if mod = 3 then (la.zip ld).map (fun x => ScanLane.mk x.1.1 x.2.1 (x.1.2 || x.2.2)) else la.map (fun x => ScanLane.mk 0 x.1 x.2)
      let out := scanHalf mod (ins.take 32) (lc.take 32) ++ scanHalf mod (ins.drop 32) (lc.drop 32)
      let v : Vector Word32 64 := Vector.ofFn (fun i : Fin 64 => BitVec.ofNat 32 (out.getD i.val (0, false)).1)
      let p := BitVec.ofNat 32 (ofBits ((List.range 32).map (fun w => (out.getD (2 * w) (0, false)).2 || (out.getD (2 * w + 1) (0, false)).2)))
      (s.modThread t th (fun x => (x.putV rd v p).next)).raiseFlags t (vecFlags fFP32 v p)
  else s)

end Sys2Proof.Machine
end

