-- ==== Sys2Proof/Machine/Bows.lean ====
section
/-! DEFINITION. The bow engines and their buffer slots (R126 to R129, R133, R154 to R157). -/

namespace Sys2Proof.Machine

/-! ### Access descriptors (R127) -/

/-- ROWS, ROW_BYTES, OUTER, OUTER_STRIDE, T0_ADDR, T0_STRIDE and BUFFER of an access descriptor. -/
structure Access where
  rows : Nat
  bytes : Nat
  outer : Nat
  stride : Nat
  t0 : Nat
  t0Stride : Nat
  buffer : Nat

/-- The fields of a LOAD or STORE. -/
def accessOf (d : List Byte) : Access :=
  { rows := leAt d 2 2, bytes := leAt d 4 4, outer := leAt d 8 8, stride := leAt d 16 4, t0 := leAt d 20 4
    t0Stride := leAt d 24 4, buffer := byteAt d 28 }

/-- Outer address of a row. -/
def Access.outerRow (x : Access) (i : Nat) : Nat := x.outer + i * x.stride

/-- T0 offset of a row. -/
def Access.t0Row (x : Access) (i : Nat) : Nat := x.t0 + i * x.t0Stride

/-- Bytes from the first byte of row 0 to the last of the last row, in outer memory and in T0. -/
def Access.outerSpan (x : Access) : Nat := (x.rows - 1) * x.stride + x.bytes
/-- The same in T0. -/
def Access.t0Span (x : Access) : Nat := (x.rows - 1) * x.t0Stride + x.bytes

/-- What is wrong with a descriptor's own fields: a cause of R132. -/
def badAccess (t : Nat) (d : List Byte) : Option Nat :=
  let k := adKind d
  let x := accessOf d
  if 5 ≤ k then some 0x0009
  else if 2 ≤ k then (if (d.drop 1).any (· != 0) then some 0x0009 else none)
  else if 1 < byteAt d 1 ∨ x.rows = 0 ∨ x.bytes = 0 ∨ 2097152 < x.bytes ∨ 31 < x.buffer ∨ leAt d 29 3 ≠ 0 ∨ 2 ^ 48 ≤ x.outer ∨
      (t * t0TileSize ≤ x.outer ∧ x.outer < (t + 1) * t0TileSize) then some 0x0009
  else if t0TileSize < x.t0 + x.t0Span then some 0x0004
  else none

/-- The outer rows of a LOAD or STORE, each as the parts it reaches, or the cause and address of the first that is out of
reach. -/
def State.outerRows (s : State) (t : Nat) (x : Access) (write : Bool) : Except (Nat × Nat) (List (List (Nat × Nat))) :=
  (List.range x.rows).foldl (fun (acc : Except (Nat × Nat) (List (List (Nat × Nat)))) i =>
    match acc with
    | .error e => .error e
    | .ok l =>
      match s.bowPieces t (x.outerRow i) x.bytes write with
      | .error c => .error (c, x.outerRow i)
      | .ok a => .ok (l ++ [a])) (.ok [])

/-! ### bow.start and bow.wait (R126) -/

/-- An engine number in RB: the engine, or none when it is not 0 or 1. -/
def engineOf (v : Nat) : Option Nat := if v < 2 then some v else none

/-- BOW_START (R126): fence.dev for the thread, then the engine in RB starts the stream at RA. While the engine still runs a
stream the thread waits. -/
def execBowStart (t th ra rb : Nat) (s : State) : Host.Outcome State Fault Refusal :=
  .next (if s.canIssue t th then
    let h := (s.tile t).thread th
    let a := h.operand ra
    let e := h.operand rb
    if a.2 || e.2 then s.poisonUse t th h.pc
    else match engineOf e.1 with
      | none => s.faultPc t th 0x0008
      | some e =>
        if (vget Bow.reset (s.tile t).bows e).state != .idle then s
        else
          let s1 := s.sendOwn t th
          if (s1.tile t).unacked th then s1.modThread t th (fun x => { x with block := .bowStart e a.1 })
          else (s1.modTile t (fun x => (x.startBow e th a.1).modThread th Thread.next)).startWaited t
  else s)

/-- An engine is at rest with its stores at home. -/
def Tile.bowDone (x : Tile) (e : Nat) : Bool := (vget Bow.reset x.bows e).state == .idle && x.bowDrained e

/-- Threads in `bow.wait` for an engine that is done go on. -/
def State.wakeBow (s : State) (t e : Nat) : State :=
  s.modTile t (fun x => if x.bowDone e then
    { x with threads := x.threads.map (fun h => if h.block == .bowWait e then h.wake else h) } else x)

/-- BOW_WAIT (R126): returns when every STORE of the stream is performed at home. -/
def execBowWait (t th rb : Nat) (s : State) : Host.Outcome State Fault Refusal :=
  .next (if s.canIssue t th then
    let h := (s.tile t).thread th
    let e := h.operand rb
    if e.2 then s.poisonUse t th h.pc
    else match engineOf e.1 with
      | none => s.faultPc t th 0x0008
      | some e => s.modThread t th (fun x => if (s.tile t).bowDone e then x.next else { x with block := .bowWait e })
  else s)

/-! ### An engine executes a descriptor (R127 to R129) -/

/-- The state with an engine changed. -/
def State.modBow (s : State) (t e : Nat) (f : Bow → Bow) : State := s.modTile t (fun x => { x with bows := vmod x.bows e f })

/-- The state with a slot changed. -/
def State.modSlot (s : State) (t i : Nat) (f : Slot → Slot) : State := s.modTile t (fun x => { x with slots := vmod x.slots i f })

/-- The engine moves past the descriptor it has executed. -/
def State.bowNext (s : State) (t e : Nat) : State := s.modBow t e (fun b => { b with next := b.next + 32, state := .running })

/-- A slot's fill or drain starts (R129). -/
def State.slotStart (s : State) (t e i : Nat) (st : SlotState) (d : List PByte) : State :=
  let b := vget Bow.reset (s.tile t).bows e
  let n := (s.tile t).executed
  let dl := st == .filling && byteAt (vals d) 1 % 2 == 1
  ((s.modSlot t i (fun x => { x with state := st, desc := d, deadline := dl, step := b.step, discard := false, order := n })).modTile t
    (fun x => { x with executed := n + 1 })).bowNext t e

/-- A layer was declared late in the step: the LOADs of an engine step are those of a late layer. -/
def Job.lateStep (j : Job) (step : Nat) : Bool := j.lateLayers.any (fun r => decide (r.1 ≤ step ∧ step < r.2))

/-- A LOAD or STORE reaches its slot (R129): it starts, or the engine stalls. A LOAD of a layer already late leaves its slot
FULL without a fill (R156). -/
def State.bowMove (s : State) (j : Job) (t e : Nat) (d : List PByte) : State :=
  let b := vget Bow.reset (s.tile t).bows e
  let v := vals d
  let i := 32 * e + byteAt v 28
  let st := (vget Slot.reset (s.tile t).slots i).state
  if adKind v = 0 then
    if (s.tile t).skipped.contains b.next then
      (s.modTile t (fun x => { x with skipped := x.skipped.filter (· != b.next) })).bowNext t e
    else if st != .empty then s.modBow t e (fun b => { b with state := .stalledSlot })
    else if byteAt v 1 % 2 == 1 && j.lateStep b.step then
      (s.modSlot t i (fun x => { x with state := .full, desc := d, deadline := true, step := b.step, discard := false })).bowNext t e
    else s.slotStart t e i .filling d
  else if st != .posted then s.modBow t e (fun b => { b with state := .stalledSlot })
  else s.slotStart t e i .draining d

/-- A descriptor fetched by an engine carried out. -/
def State.bowExec (s : State) (j : Job) (t e : Nat) (d : List PByte) : State :=
  let b := vget Bow.reset (s.tile t).bows e
  let v := vals d
  if d.any PByte.p then s.poisonUse t b.thread b.next
  else match badAccess t v with
    | some c => s.threadFault t b.thread c b.next
    | none =>
      match adKind v with
      | 2 => (s.bowNext t e).modBow t e (fun b => { b with step := b.step + 1 })
      | 3 => ((s.bowNext t e).modBow t e (fun b => { b with state := .atBarrier false })).crewProgress t
      | 4 => ((s.modBow t e (fun b => { b with state := .idle })).wakeBow t e).crewProgress t
      | k =>
        match s.outerRows t (accessOf v) (k == 1) with
        | .error (c, a) => s.threadFault t b.thread c a
        | .ok _ => s.bowMove j t e d

/-- The bytes of the parts of a range. -/
def State.peekPieces (s : State) (l : List (Nat × Nat)) : List PByte := l.flatMap (fun p => s.peek p.1 p.2)

/-- Upsets struck, then the parts of a range read: the state after, and the bytes delivered. -/
def State.readPieces (s : State) (ups : List Upset) (l : List (Nat × Nat)) : State × List PByte :=
  let s1 := ups.foldl State.strike s
  (s1.noteReads l, s1.peekPieces l)

/-- BOW_DESCRIPTOR (R127 to R129, R135, R181): a running engine within its run-ahead fetches the next descriptor of its stream
and executes it; a stalled engine has its descriptor at hand. A STEP descriptor is one of the step it ends. -/
def execBowDescriptor (t e : Nat) (ups : List Upset) (s : State) : Host.Outcome State Fault Refusal :=
  .next (let b := vget Bow.reset (s.tile t).bows e
    match s.tileJob t with
    | none => s
    | some j =>
      if 2 ≤ e ∨ s.usable 0 t = false ∨ s.crewIssues j t = false then s
      else match b.state with
        | .idle => s
        | .atBarrier _ => s
        | _ =>
          match s.bowPieces t b.next 32 false with
          | .error c => s.threadFault t b.thread c b.next
          | .ok l =>
            if l.any (fun p => s.heldRange p.1 p.2) then s.hold l
            else
              let (s1, d) := if b.state == .running then s.readPieces ups l else (s, s.peekPieces l)
              if (s.tile t).completed + 16 < b.step then s1.modBow t e (fun b => { b with state := .stalledAhead })
              else s1.bowExec j t e d)

/-! ### Fills and drains complete (R126, R129, R133) -/

/-- The outer addresses of a transfer: the crew alias resolved row by row (R116), else the span of its rows. -/
def State.outerRanges (s : State) (t : Nat) (x : Slot) : List (Nat × Nat) :=
  let a := accessOf (vals x.desc)
  if a.outer < 0x20000000 ∧ 0x10000000 < a.outer + a.outerSpan then
    (List.range a.rows).flatMap (fun i => (s.scratch t (a.outerRow i) a.bytes).getD [(a.outerRow i, a.bytes)])
  else [(a.outer, a.outerSpan)]

/-- The T0 range of a transfer. -/
def Slot.innerRange (t : Nat) (x : Slot) : List (Nat × Nat) :=
  let a := accessOf (vals x.desc)
  [(t * t0TileSize + a.t0, a.t0Span)]

/-- The ranges a transfer writes: outer and T0 changed places by the direction. -/
def State.slotWrites (s : State) (t : Nat) (x : Slot) : List (Nat × Nat) :=
  if x.state = .filling then x.innerRange t else s.outerRanges t x

/-- The ranges a transfer reads. -/
def State.slotReads (s : State) (t : Nat) (x : Slot) : List (Nat × Nat) :=
  if x.state = .filling then s.outerRanges t x else x.innerRange t

/-- Ranges of two lists share a byte. -/
def meet (a b : List (Nat × Nat)) : Bool := a.any (fun x => b.any (fun y => overlaps x.1 x.2 y.1 y.2))

/-- A transfer must take effect after an earlier one of its engine for an address both name. -/
def State.slotAfter (s : State) (t : Nat) (x y : Slot) : Bool :=
  meet (s.slotWrites t x) (s.slotWrites t y) || meet (s.slotWrites t x) (s.slotReads t y) || meet (s.slotReads t x) (s.slotWrites t y)

/-- An earlier transfer of the same engine, still under way, holds a slot's back (R126). -/
def State.heldBackSlot (s : State) (t i : Nat) : Bool :=
  let x := s.tile t
  let me := vget Slot.reset x.slots i
  (List.range 32).any (fun k =>
    let y := vget Slot.reset x.slots (32 * (i / 32) + k)
    (y.state == .filling || y.state == .draining) && decide (y.order < me.order) && s.slotAfter t me y)

/-- The bytes of an outer row as a bow engine reads them. -/
def State.outerPeek (s : State) (l : List (Nat × Nat)) : List PByte :=
  l.flatMap (fun p => match mailboxAt p.1 with
    | some (c, o) => ((vget Chain.reset s.stroke.chains c).mailbox.drop o).take p.2
    | none => s.peek p.1 p.2)

/-- Bytes a bow engine stores over the parts of an outer row. -/
def State.outerStore (s : State) (t : Nat) (l : List (Nat × Nat)) (b : List PByte) : State :=
  (l.foldl (fun (acc : State × List PByte) p =>
    (acc.1.homeStore t p.1 ((acc.2.take p.2).map some), acc.2.drop p.2)) (s, b)).1

/-- The crew of a tile is being torn down: its transfers end without effect (R133). -/
def State.tileTearing (s : State) (t : Nat) : Bool :=
  match s.tileJob t with | some j => (match j.state with | .tearing _ => true | _ => false) | none => false

/-- A slot goes to a state. -/
def State.setSlot (s : State) (t i : Nat) (st : SlotState) : State := s.modSlot t i (fun x => { x with state := st, discard := false })

/-- FILL_COMPLETE (R126, R129, R157): the rows read from outer memory stand in T0, and the slot is FULL; a fill released at a
late layer is discarded. A row held by a fence keeps the fill waiting. -/
def execFillComplete (t slot : Nat) (s : State) : Host.Outcome State Fault Refusal :=
  .next (let x := vget Slot.reset (s.tile t).slots slot
    if x.state != .filling || decide (64 ≤ slot) || !s.tileRuns t then s
    else if s.tileTearing t then s.setSlot t slot .empty
    else if s.heldBackSlot t slot then s
    else
      let a := accessOf (vals x.desc)
      match s.outerRows t a false with
      | .error _ => s
      | .ok rows =>
        if rows.any (fun r => r.any (fun p => s.heldRange p.1 p.2)) then s.hold rows.flatten
        else
          let s1 := rows.foldl State.noteReads (s.hitLayer t slot)
          if x.discard then (s1.setSlot t slot .empty).crewProgress t
          else
            let s2 := rows.zipIdx.foldl (fun s2 r => s2.storeBytes (t * t0TileSize + a.t0Row r.2) (s.outerPeek r.1)) s1
            let late := b2n (s.slotPast t slot)
            ((s2.setSlot t slot .full).wakeBuf t slot late).crewProgress t)

/-- DRAIN_COMPLETE (R126, R129): the rows of T0 are performed at home, and the slot is EMPTY. A store to NVS waits while the
supply is low (R490), and one to a fenced channel while it is fenced. -/
def execDrainComplete (t slot : Nat) (s : State) : Host.Outcome State Fault Refusal :=
  .next (let x := vget Slot.reset (s.tile t).slots slot
    if x.state != .draining || decide (64 ≤ slot) || !s.tileRuns t then s
    else if s.tileTearing t then s.setSlot t slot .empty
    else if s.heldBackSlot t slot then s
    else
      let a := accessOf (vals x.desc)
      match s.outerRows t a true with
      | .error _ => s
      | .ok rows =>
        if rows.any (fun r => r.any (fun p => s.heldRange p.1 p.2 || (isNvs p.1 && s.sagging))) then s.hold rows.flatten
        else
          let s1 := rows.zipIdx.foldl (fun s r =>
            let o := t * t0TileSize + a.t0Row r.2
            (s.noteRead o a.bytes).outerStore t r.1 (s.peek o a.bytes)) s
          ((s1.setSlot t slot .empty).wakeBow t (slot / 32)).crewProgress t)

/-! ### Buffer operations of a thread (R128, R129, R157) -/

/-- BUF_WAIT (R129, R157): RD 0 when the slot is FULL, RD 1 when its DEADLINE LOAD is past its deadline; else the thread blocks,
and a first wait on a DEADLINE slot of a layer starts its deadline, as soon as the slot's LOAD is known. -/
def execBufWait (t th rd imm : Nat) (s : State) : Host.Outcome State Fault Refusal :=
  .next (if s.canIssue t th then
    if 64 ≤ imm then s.faultPc t th 0x0008
    else match (vget Slot.reset (s.tile t).slots imm).state with
      | .full => s.modThread t th (fun h => h.wakeWith rd 0)
      | .posted => s.faultPc t th 0x000A
      | .draining => s.faultPc t th 0x000A
      | _ =>
        if s.slotPast t imm then (s.hitLayer t imm).modThread t th (fun h => h.wakeWith rd 1)
        else
          (s.modThread t th (fun h => { h with block := .bufWait imm rd s.time.half })).startWaited t
  else s)

/-- BUF_POST (R129). -/
def execBufPost (t th imm : Nat) (s : State) : Host.Outcome State Fault Refusal :=
  .next (if s.canIssue t th then
    if 64 ≤ imm then s.faultPc t th 0x0008
    else if (vget Slot.reset (s.tile t).slots imm).state != .empty then s.faultPc t th 0x000A
    else (s.setSlot t imm .posted).modThread t th Thread.next
  else s)

/-- A FILLING slot may be released: its DEADLINE LOAD is past its deadline and its layer was declared late (R129). -/
def State.lateFill (s : State) (t i : Nat) : Bool :=
  let x := vget Slot.reset (s.tile t).slots i
  match s.tileJob t with
  | some j => x.state == .filling && s.slotPast t i && j.lateStep x.step
  | none => false

/-- BUF_RELEASE (R129, R157). -/
def execBufRelease (t th imm : Nat) (s : State) : Host.Outcome State Fault Refusal :=
  .next (if s.canIssue t th then
    if 64 ≤ imm then s.faultPc t th 0x0008
    else if (vget Slot.reset (s.tile t).slots imm).state == .full then (s.setSlot t imm .empty).modThread t th Thread.next
    else if s.lateFill t imm then (s.modSlot t imm (fun x => { x with discard := true })).modThread t th Thread.next
    else s.faultPc t th 0x000A
  else s)

/-- STEP_DONE (R128): COMPLETED rises by 1. -/
def execStepDone (t th : Nat) (s : State) : Host.Outcome State Fault Refusal :=
  .next (if s.canIssue t th then s.modTile t (fun x => ({ x with completed := x.completed + 1 }).modThread th Thread.next) else s)

/-- FETCH_DEADLINE (R155 to R157): the deadline of a slot's DEADLINE LOAD passes while the slot is EMPTY or FILLING. -/
def execFetchDeadline (t slot : Nat) (s : State) : Host.Outcome State Fault Refusal :=
  .next (if decide (slot < 64) && s.tileRuns t && s.slotPast t slot then
    ((s.hitLayer t slot).wakeBuf t slot 1).crewProgress t
  else s)

end Sys2Proof.Machine
end

