-- ==== Sys2Proof/Machine/FuseMath.lean ====
section
/-! DEFINITION. The fusion engine's arithmetic: rotations, transforms and the integration of motion (R332 to R335). Products are
formed exactly; each stored result is rounded to nearest, ties to even, and saturated. -/

namespace Sys2Proof.Machine

/-- An integer over a positive number, rounded to nearest, ties to even. -/
def rne (n : Int) (d : Nat) : Int :=
  let q := n.fdiv (d : Int)
  let r := n - q * (d : Int)
  if 2 * r < (d : Int) then q
  else if (d : Int) < 2 * r then q + 1
  else if q % 2 = 0 then q else q + 1

/-- An integer over a positive number, rounded to nearest, ties away from zero. -/
def rna (n : Int) (d : Nat) : Int :=
  let a := (2 * n.natAbs + d) / (2 * d)
  if n < 0 then -(a : Int) else (a : Int)

/-- An integer saturated to a signed field of `w` bits. -/
def satInt (w : Nat) (i : Int) : Int := max (-((2 ^ (w - 1) : Nat) : Int)) (min (((2 ^ (w - 1) : Nat) : Int) - 1) i)

/-- A function on each component. -/
def V3.map (f : Int → Int) (v : V3) : V3 := ⟨f v.x, f v.y, f v.z⟩
/-- Sum. -/
def V3.add (a b : V3) : V3 := ⟨a.x + b.x, a.y + b.y, a.z + b.z⟩
/-- Difference. -/
def V3.sub (a b : V3) : V3 := ⟨a.x - b.x, a.y - b.y, a.z - b.z⟩
/-- Each component multiplied. -/
def V3.scale (k : Int) (v : V3) : V3 := v.map (k * ·)
/-- Sum of squares. -/
def V3.norm2 (v : V3) : Int := v.x * v.x + v.y * v.y + v.z * v.z
/-- Cross product. -/
def V3.cross (a b : V3) : V3 := ⟨a.y * b.z - a.z * b.y, a.z * b.x - a.x * b.z, a.x * b.y - a.y * b.x⟩

/-- Exact quaternion product of the components as integers. -/
def Quat.mulNum (a b : Quat) : Quat :=
  ⟨a.w * b.w - a.x * b.x - a.y * b.y - a.z * b.z, a.w * b.x + a.x * b.w + a.y * b.z - a.z * b.y,
    a.w * b.y - a.x * b.z + a.y * b.w + a.z * b.x, a.w * b.z + a.x * b.y - a.y * b.x + a.z * b.w⟩

/-- A function on each component. -/
def Quat.map (f : Int → Int) (q : Quat) : Quat := ⟨f q.w, f q.x, f q.y, f q.z⟩
/-- The conjugate. -/
def Quat.conj (q : Quat) : Quat := ⟨q.w, -q.x, -q.y, -q.z⟩
/-- Sum of the squares of the components, 60 fraction bits. -/
def Quat.norm2 (q : Quat) : Int := q.w * q.w + q.x * q.x + q.y * q.y + q.z * q.z

/-- A product stored. -/
def Quat.mul (a b : Quat) : Quat := (a.mulNum b).map (fun i => satInt 32 (rne i (2 ^ 30)))

/-- One normalising step: q * (3 - |q|^2) / 2. -/
def Quat.normalise (q : Quat) : Quat :=
  let k := 3 * 2 ^ 60 - q.norm2
  q.map (fun i => satInt 32 (rne (i * k) (2 ^ 61)))

/-- A vector rotated, exactly, in units of 2^-60 of the vector's. -/
def Quat.rot (q : Quat) (v : V3) : V3 :=
  let r := (q.mulNum ⟨0, v.x, v.y, v.z⟩).mulNum q.conj
  ⟨r.x, r.y, r.z⟩

/-- The rotation of a small half-angle vector with 30 fraction bits: (1 - |h|^2 / 2, h). -/
def Quat.ofHalf (h : V3) : Quat := ⟨satInt 32 (rne (2 ^ 61 - h.norm2) (2 ^ 31)), h.x, h.y, h.z⟩

/-- A rotation about z by a signed angle of 2 pi * 2^-32 rad per unit (R335). -/
def Quat.rz (k : Int) : Quat :=
  let r := twoPi * k.natAbs / 2 ^ 33
  let s := rne (sinFix r) (2 ^ 370)
  ⟨satInt 32 (rne (cosFix r) (2 ^ 370)), 0, 0, satInt 32 (if k < 0 then -s else s)⟩

/-- A product of transforms, stored (R335). -/
def Xform.mul (a b : Xform) : Xform :=
  ⟨a.q.mul b.q, ((a.q.rot b.t).add (a.t.scale (2 ^ 60))).map (fun i => satInt 32 (rne i (2 ^ 60)))⟩

/-- A rotation alone. -/
def Xform.ofQuat (q : Quat) : Xform := ⟨q, V3.zero⟩

/-- A rotation vector in microradians as a transform (R336). -/
def Xform.ofVector (d : V3) : Xform := .ofQuat (.ofHalf (d.map (fun i => satInt 32 (rne (i * 2 ^ 29) 1000000))))

/-- Half-angle vector of an angular rate in 2^-20 rad/s over `dt` ns, 30 fraction bits. -/
def halfAngle (w : V3) (dt : Int) : V3 := w.map (fun i => satInt 32 (rne (i * dt * 512) (10 ^ 9)))

/-- An orientation turned at a rate for `dt` ns, with its normalising step (R332). -/
def Quat.turn (q : Quat) (w : V3) (dt : Int) : Quat := (q.mul (.ofHalf (halfAngle w dt))).normalise

/-- A position in micrometres moved at a velocity in mm/s for `dt` ns. -/
def moveBy (p v : V3) (dt : Int) : V3 :=
  let f (a b : Int) : Int := satInt 64 (rne (a * 1000000 + b * dt) 1000000)
  ⟨f p.x v.x, f p.y v.y, f p.z v.z⟩

/-- A vector rotated by two rotations, the inner first, in units of 2^-120 of the vector's. -/
def rot2 (q m : Quat) (v : V3) : V3 := q.rot (m.rot v)

/-- Velocity in mm/s after an acceleration sample of 2^-16 m/s^2 in the sensor frame, for `dt` ns (R332). -/
def accelerate (q m : Quat) (vel a : V3) (dt : Int) : V3 :=
  let n := rot2 q m a
  let f (v i g : Int) : Int := satInt 32 (rne (v * (2 ^ 136 * 10 ^ 11) + (i * 100000 - g * 2 ^ 136) * dt) (2 ^ 136 * 10 ^ 11))
  ⟨f vel.x n.x 0, f vel.y n.y 0, f vel.z n.z 980665⟩

/-- Velocity in mm/s of an odometry sample in micrometres per second in the sensor frame (R332). -/
def odoVelocity (q m : Quat) (v : V3) : V3 := (rot2 q m v).map (fun i => satInt 32 (rne i (2 ^ 120 * 1000)))

/-- A pose extrapolated to a time at its own rate and velocity (R333). -/
def Pose.at_ (p : Pose) (t : Int) : Pose :=
  if t = p.t then p else { p with t := t, q := p.q.turn p.rate (t - p.t), pos := moveBy p.pos p.vel (t - p.t) }

/-- A point in mm in a sensor frame placed in the odometry frame, in mm (R342). -/
def Pose.place (p : Pose) (m : Xform) (v : V3) : V3 :=
  let body := (m.t.scale (2 ^ 60)).add (m.q.rot (v.scale 1000))
  ((p.pos.scale (2 ^ 120)).add (p.q.rot body)).map (fun i => satInt 32 (rne i (2 ^ 120 * 1000)))

/-- The direction, of any length, of a point of the odometry frame in mm as a sensor sees it (R336). -/
def Pose.sight (p : Pose) (m : Xform) (v : V3) : V3 :=
  let body := p.q.conj.rot ((v.scale 1000).sub p.pos)
  m.q.conj.rot (body.sub (m.t.scale (2 ^ 60)))

/-- The small-angle rotation from one direction to another in microradians, truncated (R336). -/
def smallAngle (a b : V3) : V3 :=
  let n := isqrt (a.norm2 * b.norm2).toNat
  if n = 0 then V3.zero else (a.cross b).map (fun i => (i * 1000000).tdiv (n : Int))

end Sys2Proof.Machine
end

