-- ==== Sys2Proof/Machine/Stroke.lean ====
section
/-! DEFINITION. The stroke engine: cycles, frames, sections, profiles, supervision, feed-forward, auto-tune (ch. 14). -/

namespace Sys2Proof.Machine

/-! ### Access -/

/-- Chain `c`. -/
def State.chain (s : State) (c : Nat) : Chain := vget Chain.reset s.stroke.chains c
/-- The state with chain `c` changed. -/
def State.modChain (s : State) (c : Nat) (f : Chain → Chain) : State :=
  { s with stroke := { s.stroke with chains := vmod s.stroke.chains c f } }
/-- Loop `l`. -/
def State.loop (s : State) (l : Nat) : Loop := vget Loop.reset s.stroke.loops l
/-- The state with loop `l` changed. -/
def State.modLoop (s : State) (l : Nat) (f : Loop → Loop) : State :=
  { s with stroke := { s.stroke with loops := vmod s.stroke.loops l f } }

/-- STROKE counter of a chain: 0 FRAMES_BAD, 1 FF_REFUSED, 2 FF_LATE, 3 FALLBACKS (R379). -/
def chainCtr (c i : Nat) : Nat := ctrId (0x09000000 + 0x40 * c + 0x20 + 8 * i)
/-- LOOP_MISS of a loop. -/
def loopMissCtr (l : Nat) : Nat := ctrId (0x09000000 + 0x400 + 0x20 * l + 0x18)

/-- Cycle frequency in Hz of a rate code (R353). -/
def rateHz (r : Nat) : Nat := 1000 * 2 ^ r
/-- Byte-clock count, from the chain's start, at which its m-th cycle starts (R354). -/
def byteClock (r m : Nat) : Nat := m * 125000000 / rateHz r

/-! ### Sections (R362, R363) -/

/-- A clamp to `±2^(w-1)` signed range, and whether it acted. -/
def satTo (w : Nat) (v : Int) : Int × Bool :=
  let hi : Int := (2 ^ (w - 1) : Nat) - 1
  let lo : Int := -((2 ^ (w - 1) : Nat) : Int)
  if v > hi then (hi, true) else if v < lo then (lo, true) else (v, false)

/-- One product of a section: coefficient times value, shifted with rounding (R362). -/
def sectTerm (c : Int) (sh : Nat) (v : Int) : Int :=
  if sh = 0 then c * v else (c * v + ((2 ^ (sh - 1) : Nat) : Int)) / ((2 ^ sh : Nat) : Int)

/-- The accumulator with one more term, saturated. -/
def sectAcc (a : Int × Bool) (t : Int) : Int × Bool :=
  let (v, c) := satTo 64 (a.1 + t)
  (v, a.2 || c)

/-- One section: its output for input `x`, its histories shifted, its sticky flag set when a clamp acted. -/
def Section.run (s : Section) (x : Int) : Section × Int :=
  let t (i : Nat) (v : Int) := sectTerm (s.coefs.getD i 0) (s.shifts.getD i 0) v
  let a := sectAcc (sectAcc (sectAcc (0, false) (t 1 s.x1)) (t 2 s.x2)) (t 3 s.x3)
  let a := sectAcc (sectAcc (sectAcc a (-(t 4 s.y1))) (-(t 5 s.y2))) (-(t 6 s.y3))
  let a := sectAcc a (t 0 x)
  let (y, c) := satTo 32 a.1
  ({ s with x1 := x, x2 := s.x1, x3 := s.x2, y1 := y, y2 := s.y1, y3 := s.y2, sat := s.sat || a.2 || c }, y)

/-- The sections in order, each output the next input (R361 step 4). -/
def runSections : List Section → Int → List Section × Int
  | [], x => ([], x)
  | h :: t, x =>
    let (h', y) := h.run x
    let (t', z) := runSections t y
    (h' :: t', z)

/-- A section with its histories at 0. -/
def Section.clear (s : Section) : Section := { s with x1 := 0, x2 := 0, x3 := 0, y1 := 0, y2 := 0, y3 := 0 }

/-- SAT_SECT and SAT_OUT as the DETAIL of LOOP_SATURATED (R363). -/
def Loop.satFlags (l : Loop) : Nat := ofBits (l.sections.map Section.sat) + 16 * b2n l.satOut

/-- A clamp to `±m`. -/
def clampAbs (m : Int) (v : Int) : Int := if v > m then m else if v < -m then -m else v

/-! ### Profile (R367) -/

/-- One step of the profile generator. -/
def Loop.profileStep (l : Loop) : Loop :=
  let vM : Int := (l.vMax : Int) * 2 ^ 24
  let aM : Int := (l.aMax : Int) * 2 ^ 16
  let jM : Int := (l.jMax : Int) * 2 ^ 8
  let e := sext 64 (wrap 64 ((l.target : Int) * 2 ^ 32 - l.p))
  let l :=
    if (e.natAbs : Int) ≤ aM ∧ (l.v.natAbs : Int) ≤ aM then
      { l with p := sext 64 (wrap 64 ((l.target : Int) * 2 ^ 32)), v := 0, a := 0 }
    else
      let root : Int := isqrt (2 * aM.natAbs * e.natAbs)
      let mag := if vM < root then vM else root
      let vDes := if e < 0 then -mag else mag
      let aDes := clampAbs aM (vDes - l.v)
      let a := l.a + clampAbs jM (aDes - l.a)
      let v := sext 64 (wrap 64 (l.v + a))
      { l with a := a, v := v, p := sext 64 (wrap 64 (l.p + v)) }
  { l with setpoint := wrap 32 ((l.p + 2 ^ 31) / 2 ^ 32) }

/-! ### Auto-tune record (R375 to R377) -/

/-- binary64. -/
def fFP64 : Fmt := ⟨11, 52, 1023, .ieee⟩
/-- A natural number as binary64. -/
def dOfNat (n : Nat) : Nat := fFP64.encode .rne (.fin false n 0)
/-- binary64 operations. -/
def dAdd (a b : Nat) : Nat := fop2 fFP64 Val.add a b
def dSub (a b : Nat) : Nat := fop2 fFP64 (fun x y => x.add y.neg) a b
def dMul (a b : Nat) : Nat := fop2 fFP64 Val.mul a b
def dDiv (a b : Nat) : Nat := fop2 fFP64 Val.div a b
def dSqrt (a : Nat) : Nat := fFP64.encode .rne (fFP64.decode a).sqrt
def dNeg (a : Nat) : Nat := a ^^^ 2 ^ 63
/-- The binary64 value nearest to pi. -/
def dPi : Nat := 0x400921FB54442D18

/-- `m * 2^e` is below 2^31. -/
def below31 (m : Nat) (e : Int) : Bool :=
  if e ≥ 0 then decide (m * 2 ^ e.toNat < 2 ^ 31) else decide (m < 2 ^ (31 + (-e).toNat))

/-- A coefficient's word and shift (R376): the largest shift from 0 to 62 that keeps it below 2^31, the word rounded to
nearest, ties to even, and saturated; the last component says that it was saturated. -/
def coefWord (d : Nat) : Int × Nat × Bool :=
  match fFP64.decode d with
  | .fin neg m e =>
    if m = 0 then (0, 0, false)
    else
      let sh : Nat := ((List.range 63).reverse.find? (fun (s : Nat) => below31 m (e + Int.ofNat s))).getD 0
      let x := e + Int.ofNat sh
      let q : Nat := if x ≥ 0 then m * 2 ^ x.toNat else roundShift .rne m (-x).toNat
      let w := if neg then -(q : Int) else (q : Int)
      let (v, c) := satTo 32 w
      (v, sh, c)
  | .inf neg => (if neg then -(2 ^ 31) else 2 ^ 31 - 1, 0, true)
  | .nan => (0, 0, false)

/-- A quotient whose rounding the spec does not state: rounded down, or up when it is inexact and the drawn value is
odd. -/
def roundFree (free a b : Nat) : Nat := a / b + (if a % b = 0 then 0 else Config.freeValue free % 2)

/-- The proposed section block of R376 and COEF_SAT. -/
def tuneSection (ku : Nat) (tu : Nat) : List Byte × Bool :=
  let one := dOfNat 1
  let two := dOfNat 2
  let kp := dMul 0x3FE3333333333333 ku
  let ti := dDiv tu two
  let td := dDiv tu (dOfNat 8)
  let b0 := dMul kp (dAdd (dAdd one (dDiv one ti)) td)
  let b1 := dMul (dNeg kp) (dAdd one (dMul two td))
  let b2 := dMul kp td
  let ws := [coefWord b0, coefWord b1, coefWord b2, (0, 0, false), coefWord (dNeg one), (0, 0, false), (0, 0, false)]
  ((ws.map (fun w => toLe 4 (wrap 32 w.1))).flatten ++ ws.map (fun w => BitVec.ofNat 8 w.2.1), ws.any (fun w => w.2.2))

/-- Ku as an unsigned 16.16 number, saturating. -/
def kuField (free : Nat) (ku : Nat) : Nat :=
  match fFP64.decode ku with
  | .fin false m e =>
    let x := e + 16
    let v := if x ≥ 0 then m * 2 ^ x.toNat else roundFree free m (2 ^ (-x).toNat)
    min v 0xFFFFFFFF
  | .fin true _ _ => 0
  | _ => 0xFFFFFFFF

/-- The tune record (R377). -/
def tuneRecord (free : Nat) (l : Nat) (t : Tune) (status : Nat) : List Byte :=
  let periods := min t.cycles (t.switches - 3)
  let aD := dDiv (dOfNat t.sumSwing) (dOfNat (2 * t.cycles))
  let tuD := dDiv (dOfNat t.sumSamples) (dOfNat t.cycles)
  let eps := dOfNat t.hysteresis
  let ku := dDiv (dMul (dOfNat 4) (dOfNat t.amplitude)) (dMul dPi (dSqrt (dSub (dMul aD aD) (dMul eps eps))))
  let (sec, sat) := if status = 0 then tuneSection ku tuD else (List.replicate 35 0, false)
  let n := if periods = 0 then 1 else periods
  toLe 1 status ++ toLe 1 l ++ toLe 1 periods ++ toLe 1 (b2n sat) ++
    toLe 4 (roundFree free (t.sumSamples * 65536) n) ++ toLe 4 (roundFree (free + 1) t.sumSwing (2 * n)) ++
    toLe 4 (if status = 0 then kuField (free + 2) ku else 0) ++ toLe 4 t.amplitude ++ toLe 4 t.hysteresis ++
    toLe 8 t.startCycle ++ sec ++ List.replicate 29 0

/-- The command with a number has passed its deadline (R63). -/
def State.uidLate (s : State) (uid : Nat) : Bool :=
  match s.findUid uid with
  | none => false
  | some (q, k) => match s.cmd q k with | some c => s.isLate c | none => false

/-- A tune ends with a status (R375): histories restored, the sticky flags as they stand (R363), and unless the deadline has passed, the record written, the
event raised and the command answered. -/
def State.endTune (s : State) (l status : Nat) : State :=
  match (s.loop l).tune with
  | none => s
  | some t =>
    let s1 := s.modLoop l (fun x => { x with
      sections := (t.saved.zip x.sections).map (fun p => { p.1 with sat := p.2.sat }), tune := none, state := .run })
    if s.uidLate t.uid then s1.finishUid t.uid false stDeadline 0 0
    else
      let s2 := { s1.storeClean t.dest (tuneRecord s.free l t status) with free := s.free + 3 }
      (s2.raise 0x0805 88 l 96).finishUid t.uid false stDone 0 96

/-! ### Fault actions (R369, R370) -/

/-- FOLLOWING_ERROR of a loop (R369). -/
def State.followingError (s : State) (l action reason : Nat) : State := s.raise 0x0801 88 l (action + 256 * reason)

/-- A loop takes a fault action with a reason; a tune ends first with status 2. -/
def State.loopFault (s : State) (l action reason : Nat) : State :=
  let s1 := s.endTune l (((s.loop l).tune.bind Tune.done).getD 2)
  let s2 := s1.modLoop l (fun x => { x with
    reason := reason, fault := none
    state := if x.state = .off then .off else if action = 0 then .hold else if action = 1 then .frozen else .disabled
    target := if action = 0 then x.setpoint else x.target
    v := if action = 0 then 0 else x.v
    a := if action = 0 then 0 else x.a
    u := if action = 1 then x.command else x.u
    missRun := 0 })
  s2.followingError l action reason

/-- The action a loop takes for missed samples: the one stroke.limit set, and disable in FAULT_HOLD (R365, R369, R370). -/
def Loop.missAction (l : Loop) : Nat := if l.state = .hold then 2 else l.action

/-! ### Commands that apply at a sample instant (R371) -/

/-- Enabling a loop from OFF or a FAULT state (R370). -/
def Loop.enable (l : Loop) : Loop :=
  match l.state with
  | .run => l
  | .tuning => l
  | _ => { l with state := .run, sections := l.sections.map Section.clear, timer := none, missRun := 0, begun := false
                  u := 0, fault := none }

/-- One staged command applied. -/
def State.applyStaged (s : State) (c l : Nat) (x : Staged) : State :=
  match x with
  | .profile v a j => s.modLoop l (fun y => { y with vMax := v, aMax := a, jMax := j })
  | .limit lim t act => s.modLoop l (fun y => { y with limit := lim, timerUs := t, action := act })
  | .target p => s.modLoop l (fun y => { y with target := if y.state = .run then p else y.target })
  | .enable true => s.modLoop l Loop.enable
  | .enable false =>
    let s1 := s.endTune l 3
    s1.modLoop l (fun y => { y with state := .off, u := 0, fault := none })
  | .tune uid amp hys cyc dest =>
    if (s.loop l).state = .run then
      let (f, s1) := s.draw
      s1.modLoop l (fun y => { y with
        state := .tuning
        tune := some { uid := uid, amplitude := amp, hysteresis := hys, cycles := cyc, dest := dest
                       u0 := (y.sections.getLast?.map Section.y1).getD 0
                       d := if f % 3 = 0 then none else some (f % 3 == 1)
                       saved := y.sections, startCycle := (s.chain c).cycle, samples := 0, switches := 0, at_ := 0
                       lo := 0, hi := 0, sumSamples := 0, sumSwing := 0, done := none } })
    else s.finishUid uid true stWrongState 0 0

/-- Every staged command of a loop applied, in the order they completed; an enable among them puts off a fault that
would take effect at the same instant. -/
def State.applyAllStaged (s : State) (c l : Nat) : State :=
  let st := (s.loop l).staged
  let s1 := s.modLoop l (fun y => { y with staged := [] })
  st.foldl (fun s x => s.applyStaged c l x) s1

/-- A command staged for a loop, or applied at once when its chain sends no frames and so has no sample instant. -/
def State.stage (s : State) (l : Nat) (x : Staged) : State :=
  let s1 := s.modLoop l (fun y => { y with staged := y.staged ++ [x] })
  if (s.chain (l / 32)).running then s1 else s1.applyAllStaged (l / 32) l

/-! ### Samples -/

/-- The following-error supervision of one sample whose error is `x`, or of a missed one (R369): the loop, and whether
the timer expired. `t` is the sample instant. With L = 0 no timer runs. -/
def Loop.supervise (l : Loop) (x : Option Int) (t : Nat) : Loop × Bool :=
  if l.limit = 0 then ({ l with timer := none }, false)
  else if !(l.state = .run || l.state = .tuning) then (l, false)
  else
    let timer := match x with
      | none => l.timer
      | some x => if (x.natAbs : Nat) ≤ l.limit then none else some (l.timer.getD t)
    ({ l with timer := timer }, match timer with | some t0 => decide (t0 + us l.timerUs ≤ t) | none => false)

/-- A fault to take at the next sample instant. -/
def Loop.withFault (l : Loop) (b : Bool) (action reason : Nat) : Loop :=
  if b && l.fault.isNone then { l with fault := some (action, reason) } else l

/-- The relay's sample (R375): the relay output, its switches, and the swing of x in the period under way. -/
def Tune.sample (t : Tune) (x : Int) (n : Nat) : Tune :=
  let eps : Int := t.hysteresis
  let d' := if x > eps then some true else if x < -eps then some false else t.d
  let up := decide (d' = some true ∧ t.d ≠ some true)
  if up then
    let k := t.switches + 1
    let measured := decide (4 ≤ k)
    { t with d := d', switches := k, at_ := n, lo := x, hi := x, samples := n
             sumSamples := t.sumSamples + (if measured then n - t.at_ else 0)
             sumSwing := t.sumSwing + (if measured then (t.hi - t.lo).natAbs else 0) }
  else { t with d := d', lo := if x < t.lo then x else t.lo, hi := if x > t.hi then x else t.hi, samples := n }

/-- The status with which a tune ends after a sample, if it does. -/
def Tune.ended (t : Tune) : Option Nat :=
  if t.switches = t.cycles + 3 then (if t.sumSwing ≤ 2 * t.cycles * t.hysteresis then some 1 else some 0)
  else if 65536 ≤ t.samples then some 1
  else none

/-- A tune whose samples are complete, or whose command's deadline has passed, has ended: its loop leaves TUNING at the next sample
instant (R370, R375). -/
def State.markTune (s : State) (l : Nat) : State :=
  match (s.loop l).tune with
  | none => s
  | some t =>
    match (if s.uidLate t.uid then some 4 else t.ended) with
    | some st => s.modLoop l (fun y => { y with tune := y.tune.map (fun t => { t with done := some (t.done.getD st) }) })
    | none => s

/-- A valid feedback word for a loop in the present cycle (R361, R370). -/
def State.loopSample (s : State) (l f : Nat) : State :=
  let c := l / 32
  let ch := s.chain c
  let y := s.loop l
  let y := { y with feedback := f, got := true, missRun := 0 }
  let closed := y.state = .run ∨ y.state = .tuning ∨ y.state = .hold
  if ¬closed then s.modLoop l (fun _ => y)
  else
    let y := if y.begun then y
      else { y with begun := true, target := f, p := sext 64 (f * 2 ^ 32), v := 0, a := 0, setpoint := f }
    let x := sext 32 (wrap 32 ((y.setpoint : Int) - f))
    let ff := ch.ff.getD (l % 32) 0
    let lim : Int := y.outLimit
    let before := y.satFlags
    let n := ch.cycle - (match y.tune with | some t => t.startCycle | none => 0)
    let y := match y.state, y.tune with
      | .tuning, some t =>
        let t' := t.sample x n
        let d : Int := match t'.d with | some true => t.amplitude | some false => -(t.amplitude : Int) | none => 0
        let raw := t.u0 + d + ff
        { y with tune := some t', u := clampAbs lim raw, satOut := y.satOut || decide (clampAbs lim raw ≠ raw) }
      | _, _ =>
        let (secs, o) := runSections y.sections x
        let raw := o + ff
        { y with sections := secs, u := clampAbs lim raw, satOut := y.satOut || decide (clampAbs lim raw ≠ raw) }
    let (y, expired) := y.supervise (some x) ch.cycleT
    let y := y.withFault expired y.action 1
    let s1 := s.modLoop l (fun _ => y)
    (if before.xor y.satFlags ≠ 0 then s1.raise 0x0804 88 l y.satFlags else s1).markTune l

/-- No valid feedback word for a loop in the present cycle (R365). -/
def State.loopMiss (s : State) (l : Nat) : State :=
  let y := s.loop l
  if y.state = .run ∨ y.state = .tuning ∨ y.state = .hold then
    let ch := s.chain (l / 32)
    let n := y.missRun + 1
    let y := { y with missRun := n }
    let (y, expired) := y.supervise none ch.cycleT
    let y := y.withFault expired y.action 1
    let y := y.withFault (decide (ch.missLimit ≤ n)) y.missAction 2
    let y := match y.tune with
      | some t => { y with tune := some { t with samples := ch.cycle - t.startCycle } }
      | none => y
    ((s.modLoop l (fun _ => y)).bump (loopMissCtr l) 1).markTune l
  else s

/-! ### Chain frames (R357, R358) -/

/-- CHECK of a command or feedback word: its bytes 0 to 5 and the frame's CYCLE (R358). -/
def wordCheck (w : List Byte) (cycle : Nat) : Nat := crcMsb 16 0x1021 0xFFFF (w.take 6 ++ toLe 4 cycle)

/-- The Ethernet frame check sequence. -/
def fcs (l : List Byte) : List Byte := toLe 4 ((l.foldl (crcByte 0xEDB88320) 0xFFFFFFFF) ^^^ 0xFFFFFFFF)

/-- A loop's MODE byte (R370). -/
def Loop.mode (l : Loop) : Nat :=
  match l.state with
  | .off => 0
  | .run => 1
  | .tuning => 1
  | .hold => 5
  | .frozen => 7
  | .disabled => 4

/-- The COMMAND a loop's state places in the frame (R370). -/
def Loop.output (l : Loop) : Int :=
  match l.state with
  | .off => 0
  | .disabled => 0
  | _ => l.u

/-- The frame a chain sends in the present cycle, FCS included. -/
def State.chainFrame (s : State) (c : Nat) : List Byte :=
  let ch := s.chain c
  let words := (List.range ch.joints).map (fun j =>
    let l := s.loop (32 * c + j)
    let w := toLe 4 (wrap 32 l.output) ++ toLe 1 l.mode ++ toLe 1 0
    w ++ toLe 2 (wordCheck w (ch.cycle % 2 ^ 32)) ++ [0, 0, 0, 0, 0xFF, 0, 0, 0])
  let pay := toLe 1 1 ++ toLe 1 c ++ toLe 1 ch.joints ++ toLe 1 (b2n (ch.clock == 1)) ++ toLe 4 ch.cycle ++
    toLe 1 ch.rate ++ toLe 7 0 ++ words.flatten
  let h := List.replicate 6 0xFF ++ toLe 1 2 ++ toLe 4 0 ++ toLe 1 c ++ toBe 2 ch.etherType ++ pay
  let h := h ++ List.replicate (60 - h.length) 0
  h ++ fcs h

/-! ### The rows -/

/-- The loops of a chain's joints. -/
def Chain.loopIds (ch : Chain) (c : Nat) : List Nat := (List.range ch.joints).map (fun j => 32 * c + j)

/-- The last valid positions of the present cycle go to the fusion engine, while the die bridge is up (R335, R360). -/
def State.sendPositions (s : State) (c : Nat) : State :=
  if s.fault.bridge.down ∨ s.fault.bridge.lost then s
  else
    let ch := s.chain c
    let rec_ : ChainCycle := ⟨ch.cycleT / 2, (ch.loopIds c).map (fun l => (s.loop l).feedback)⟩
    { s with fuse := { s.fuse with cycles := vmod s.fuse.cycles c (fun l => (rec_ :: l).take 256) } }

/-- The cutoff of the present cycle (R359 step 4, R360): missed samples are counted, and the positions are sent on. -/
def State.cutoff (s : State) (c : Nat) : State :=
  let ch := s.chain c
  if ch.cut then s
  else
    let s1 := s.modChain c (fun x => { x with cut := true })
    ((ch.loopIds c).foldl (fun s l => if (s.loop l).got then s else s.loopMiss l) s1).sendPositions c

/-- Feed-forward for cycle `m` with no frame coming into force: a cycle past the coverage of the frame in force is late,
and the values decay (R374). -/
def Chain.decideOld (ch : Chain) (m : Nat) : Chain :=
  match ch.ffUntil with
  | some u =>
    if u < m then { ch with lateNext := true, ff := ch.ff.map (fun v => (v * (ch.decay : Int)).tdiv 65536) }
    else { ch with lateNext := false }
  | none => ch

/-- Feed-forward for the commands of cycle `m`, decided at the sample instant of cycle m - 1 (R374). -/
def Chain.decideFf (ch : Chain) (m : Nat) : Chain :=
  match ch.pendingFf with
  | some f =>
    if f.apply_ ≤ m then
      { ch with ff := f.ff, ffUntil := some (f.apply_ + f.valid - 1), pendingFf := none, lateNext := false }
    else ch.decideOld m
  | none => ch.decideOld m

/-- A late cycle counted and reported at its sample instant (R374). -/
def State.lateCycle (s : State) (c : Nat) : State :=
  let ch := s.chain c
  if ch.lateNext then
    let s1 := (s.modChain c (fun x => { x with late := true })).bump (chainCtr c 2) 1
    if ch.late then s1 else s1.raise 0x0802 88 c ch.cycle
  else s.modChain c (fun x => { x with late := false })

/-- A tune that has ended leaves TUNING (R370). -/
def State.leaveTune (s : State) (l : Nat) : State :=
  match (s.loop l).tune.bind Tune.done with | some st => s.endTune l st | none => s

/-- One loop at a sample instant: a tune's end, staged commands, faults, then the profile (R361 step 1, R370, R371). A fault that falls
together with an enable is judged anew on the next sample. -/
def State.loopInstant (s : State) (c l : Nat) : State :=
  let s := s.leaveTune l
  let y := s.loop l
  let enables := y.staged.any (fun x => x == Staged.enable true)
  let s1 := if enables then s.modLoop l (fun y => { y with fault := none }) else s
  let s2 := s1.applyAllStaged c l
  let s3 := match (s2.loop l).fault with
    | some (a, r) => s2.loopFault l a r
    | none => s2
  let y := s3.loop l
  let y := if y.state = .run ∧ y.begun then y.profileStep else y
  s3.modLoop l (fun _ => { y with got := false, command := y.output })

/-- The byte-clock count, from the chain's start, at which cycle `n` starts (R354). -/
def Chain.countAt (ch : Chain) (n : Nat) : Nat := byteClock ch.rate ((n + 2 ^ 64 - ch.first) % 2 ^ 64)

/-- How far the byte clock may run fast, in parts per million: the judge's tolerance on the recovered clock, 3 % on the fallback (R355,
R464). -/
def State.chainTol (s : State) (c : Nat) : Nat :=
  let tol := (vget ⟨4096, 4, 500⟩ s.clk.judges 2).tolPpm
  if (s.chain c).clock = 1 then 30000 else if s.pllStable then tol else max tol 50000

/-- The byte-clock count of a chain can have reached the start of its next cycle: it counts 8 ns periods from the present cycle's
start, on from its last value whatever clock times it (R354, R355). DESIGN CHOICE (log entry 63): the clock's own error is open, so
the row is the moment itself, and the elapsed count only bounds how early it can come. -/
def State.cycleDue (s : State) (c : Nat) : Bool :=
  let ch := s.chain c
  !ch.begun || decide (16 * (ch.countAt (ch.cycle + 1) - ch.countAt ch.cycle) * 1000000 ≤
    (s.time.half - ch.cycleT + 16) * (1000000 + s.chainTol c))

/-- SAMPLE_INSTANT (R354, R355, R361, R374): the byte-clock count of a running chain reaches its next cycle, which starts, and its frame
is sent. -/
def execSampleInstant (c : Nat) (s : State) : Host.Outcome State Fault Refusal :=
  .next (if (s.chain c).running ∧ s.domOn 88 ∧ s.cycleDue c then
    let s := s.cutoff c
    let back := (s.chain c).clock == 1 && (s.chain c).ret && (vget ⟨0, false⟩ s.clk.cands (2 + c)).stable
    let s := s.modChain c (fun x => { x with
      cycle := if x.begun then (x.cycle + 1) % 2 ^ 64 else x.first
      begun := true, cycleT := s.time.half, returned := false, cut := false
      clock := if back then 0 else x.clock })
    let s := s.lateCycle c
    let s := s.modChain c (fun x => x.decideFf (x.cycle + 1))
    let s := ((s.chain c).loopIds c).foldl (fun s l => s.loopInstant c l) s
    s.modChain c (fun x => { x with sent := s.chainFrame c })
  else s)

/-- A returning frame's header matches a cycle's frame (R360). -/
def Chain.matches (ch : Chain) (c cycle : Nat) (frame : List Byte) : Bool :=
  decide (30 ≤ frame.length) && frame.take 6 == List.replicate 6 0xFF && beNat (slice frame 12 2) == ch.etherType &&
    byteAt frame 15 == c && leAt frame 18 4 == cycle % 2 ^ 32

/-- The valid feedback words among the bytes of a returning frame each drive their loop's sample (R358, R360, R361). -/
def State.takeWords (s : State) (c : Nat) (frame : List Byte) : State :=
  let ch := s.chain c
  (List.range ch.joints).foldl (fun s j =>
    let w := slice frame (14 + 24 + 16 * j) 8
    let st := byteAt w 4
    if w.length = 8 ∧ leAt w 6 2 = wordCheck w (ch.cycle % 2 ^ 32) ∧ st ≠ 0xFF ∧ st % 2 = 0 then
      s.loopSample (32 * c + j) (leAt w 0 4)
    else s) s

/-- The frame check sequence at a frame's end: a failure is counted (R360). -/
def State.checkFcs (s : State) (c : Nat) (frame : List Byte) : State :=
  if slice frame (frame.length - 4) 4 == fcs (frame.take (frame.length - 4)) then s else s.bump (chainCtr c 0) 1

/-- CHAIN_FRAME_RETURN (R360): a frame's end reaches the port. The words of the present cycle's frame are taken when its cutoff has not
passed; of a frame that was still returning at its cutoff only the check sequence is left. Any other frame, and a bad check
sequence, is counted. -/
def execChainFrameReturn (c : Nat) (frame : List Byte) (s : State) : Host.Outcome State Fault Refusal :=
  .next (if c < 4 ∧ s.domOn 88 then
    let ch := s.chain c
    if (match ch.straddle with | some n => ch.matches c n frame | none => false) then
      (s.modChain c (fun x => { x with straddle := none, returned := x.returned || decide (ch.straddle = some ch.cycle) })).checkFcs c frame
    else if ch.matches c ch.cycle frame && ch.running && ch.begun && !ch.returned then
      let s1 := s.modChain c (fun x => { x with returned := true })
      (if ch.cut then s1 else s1.takeWords c frame).checkFcs c frame
    else s.bump (chainCtr c 0) 1
  else s)

/-- FEEDBACK_CUTOFF (R359 step 4, R360, R365): the words of a frame that is still returning, of which `part` has arrived, are taken, and
the cycle's feedback is settled. -/
def execFeedbackCutoff (cut : ChainCut) (s : State) : Host.Outcome State Fault Refusal :=
  .next (
    let c := cut.chain
    let ch := s.chain c
    if ch.running ∧ ch.begun ∧ ch.cut = false then
      (if ch.matches c ch.cycle cut.part && !ch.returned then
        (s.modChain c (fun x => { x with straddle := some ch.cycle })).takeWords c cut.part
      else s).cutoff c
    else s)

/-- A stopped chain's commands that wait for a sample instant apply at once; an enable does not, the chain being stopped (R356, R378).
DESIGN CHOICE (log entry 62): no sample instant comes. -/
def State.dropEnables (s : State) (l : Nat) : State :=
  s.modLoop l (fun y => { y with staged := y.staged.filter (fun x => x != Staged.enable true) })

/-- The recovered clock of a chain is lost (R355, R356): the fallback takes over, or the chain stops and every loop that is not OFF
takes its fault action with reason 3. -/
def State.chainClockLost (s : State) (c : Nat) : State :=
  let ch := s.chain c
  if ch.running ∧ ch.clock = 0 then
    if ch.allow then
      ((s.modChain c (fun x => { x with clock := 1 })).bump (chainCtr c 3) 1).raise 0x0803 88 c ch.cycle
    else
      let s := if ch.cut then s else s.sendPositions c
      let s := s.modChain c (fun x => { x with running := false, clock := 2, cut := true })
      (ch.loopIds c).foldl (fun s l =>
        let y := s.loop l
        let s := if y.state = .off then s else s.loopFault l y.action 3
        (s.dropEnables l).applyAllStaged c l) s
  else s

/-- CHAIN_CLOCK_LOST (R355, R356). -/
def execChainClockLost (c : Nat) (s : State) : Host.Outcome State Fault Refusal :=
  .next (State.chainClockLost { s with clk := { s.clk with cands := vset s.clk.cands (2 + c) ⟨0, false⟩ } } c)

/-- FF_COMMIT (R10, R373): the feed-forward frame that has crossed the die bridge first reaches the stroke engine and is judged. -/
def execFfCommit (c : Nat) (s : State) : Host.Outcome State Fault Refusal :=
  .next (match s.stroke.crossing with
    | [] => s
    | f :: rest =>
      let ch := s.chain c
      let s0 := s
      let s : State := { s with stroke := { s.stroke with crossing := rest } }
      if f.chain ≠ c then s0
      else if s.fault.bridge.down ∨ s.fault.bridge.lost then s
      else
        let client := f.client
        let b := f.bytes.map PByte.v
        let poison := f.bytes.any PByte.p
        let zero (o n : Nat) := (slice b o n).all (· == 0)
        let seq := leAt b 0 4
        let newer := match ch.seq with
          | none => true
          | some l => let d := (seq + 2 ^ 32 - l) % 2 ^ 32; decide (1 ≤ d ∧ d < 2 ^ 31)
        let ok := crc32c (b.take 252) == leAt b 252 4 && leAt b 256 8 == seq && zero 4 4 && zero 18 14 && zero 160 92 &&
          decide (1 ≤ leAt b 16 2) && newer && !poison && (ch.ffClient == 256 || ch.ffClient == client)
        if ok then
          s.modChain c (fun x => { x with
            seq := some seq
            pendingFf := some ⟨seq, leAt b 8 8, leAt b 16 2, (List.range 32).map (fun j => sext 32 (leAt b (32 + 4 * j) 4))⟩ })
        else
          let s := s.bump (chainCtr c 1) 1
          if poison then (s.bump (integCtr 0x38) 1).raise 0x0802 88 c ch.cycle else s)

/-! ### Commands (R353, R364 to R369, R378) -/

/-- The EtherTypes R353 excludes. -/
def badEtherType (e : Nat) : Bool := decide (e < 0x0600) || [0x0800, 0x86DD, 0x8100, 0x88A8, 0x88E5, 0x22F0].contains e

/-- Checks of stroke.chain (R378). -/
def chkStrokeChain (_ : State) (c : Cmd) : Check10 :=
  firstBad [(decide (3 < c.p 0 1), 0), (decide (5 < c.p 1 1), 1), (decide (32 < c.p 2 1), 2), (badEtherType (c.p 3 2), 3),
    (decide (3 < c.p 5 1), 5)]

/-- STROKE_CHAIN (R353, R354). -/
def runStrokeChain (s : State) (c : Cmd) : State × Res :=
  let n := c.p 0 1
  if (List.range 32).any (fun j => (s.loop (32 * n + j)).state != .off) then (s, Res.fail stWrongState)
  else
    let s := s.cutoff n
    let j := c.p 2 1
    (s.modChain n (fun x => { x with
      rate := c.p 1 1, joints := j, etherType := c.p 3 2, allow := bit (c.p 5 1) 0 == 1, ret := bit (c.p 5 1) 1 == 1
      running := decide (0 < j), clock := if j = 0 then 2 else 0
      configured := x.configured || decide (0 < j), begun := if 0 < j then false else x.begun
      first := if 0 < j ∧ x.begun then (x.cycle + 1) % 2 ^ 64 else x.first
      returned := false, cut := true, straddle := none }), Res.done 0)

/-- STROKE_CHAIN (R353, R354, R378). -/
def execStrokeChain (q k : Nat) (s : State) : Host.Outcome State Fault Refusal :=
  s.opcodeRow 0x0801 false chkStrokeChain runStrokeChain q k

/-- Offset of section i's block among the parameters of stroke.loop. -/
def secOff (i : Nat) : Nat := 3 + 35 * i

/-- Checks of stroke.loop (R364, R378). COUNT must be 3 (R66): the packet field lies at offset 3. -/
def chkStrokeLoop (_ : State) (c : Cmd) : Check10 :=
  let n := c.p 1 1
  let f := c.p 2 1
  let secs := (List.range 4).flatMap (fun i =>
    if i < n then
      (if bit f i = 0 then [(c.p (secOff i + 12) 4 != 0, secOff i + 12), (c.p (secOff i + 24) 4 != 0, secOff i + 24)] else []) ++
        (List.range 7).map (fun k => (decide (62 < c.p (secOff i + 28 + k) 1)
          || (bit f i == 0 && (k == 3 || k == 6) && c.p (secOff i + 28 + k) 1 != 0), secOff i + 28 + k))
    else (List.range 35).map (fun k => (c.p (secOff i + k) 1 != 0, secOff i + k)))
  if c.params.length ≠ 152 then some (stBadParam, 3)
  else firstBad ([(decide (127 < c.p 0 1), 0), (decide (n < 1 ∨ 4 < n), 1), (decide (2 ^ n ≤ f), 2)] ++ secs)

/-- STROKE_LOOP (R364). -/
def runStrokeLoop (s : State) (c : Cmd) : State × Res :=
  let l := c.p 0 1
  if (s.loop l).state ≠ .off then (s, Res.fail stWrongState)
  else
    let sec (i : Nat) : Section :=
      { coefs := (List.range 7).map (fun k => sext 32 (c.p (secOff i + 4 * k) 4))
        shifts := (List.range 7).map (fun k => c.p (secOff i + 28 + k) 1)
        x1 := 0, x2 := 0, x3 := 0, y1 := 0, y2 := 0, y3 := 0, sat := false }
    (s.modLoop l (fun y => { y with sections := (List.range (c.p 1 1)).map sec, forms := c.p 2 1, satOut := false }),
      Res.done 0)

/-- STROKE_LOOP (R364, R378). -/
def execStrokeLoop (q k : Nat) (s : State) : Host.Outcome State Fault Refusal :=
  s.opcodeRow 0x0802 false chkStrokeLoop runStrokeLoop q k

/-- Checks of stroke.profile (R378). -/
def chkStrokeProfile (_ : State) (c : Cmd) : Check10 :=
  firstBad [(decide (127 < c.p 0 1), 0), (c.p 1 4 == 0, 1), (c.p 5 4 == 0, 5), (c.p 9 4 == 0, 9)]

/-- STROKE_PROFILE (R366). -/
def runStrokeProfile (s : State) (c : Cmd) : State × Res :=
  let l := c.p 0 1
  ((s.modLoop l (fun y => { y with profiled := true })).stage l (.profile (c.p 1 4) (c.p 5 4) (c.p 9 4)), Res.done 0)

/-- STROKE_PROFILE (R366, R371, R378). -/
def execStrokeProfile (q k : Nat) (s : State) : Host.Outcome State Fault Refusal :=
  s.opcodeRow 0x0803 false chkStrokeProfile runStrokeProfile q k

/-- Checks of stroke.limit (R378). -/
def chkStrokeLimit (_ : State) (c : Cmd) : Check10 := firstBad [(decide (127 < c.p 0 1), 0), (decide (2 < c.p 9 1), 9)]

/-- STROKE_LIMIT (R369). -/
def runStrokeLimit (s : State) (c : Cmd) : State × Res :=
  (s.stage (c.p 0 1) (.limit (c.p 1 4) (c.p 5 4) (c.p 9 1)), Res.done 0)

/-- STROKE_LIMIT (R369, R371, R378). -/
def execStrokeLimit (q k : Nat) (s : State) : Host.Outcome State Fault Refusal :=
  s.opcodeRow 0x0804 false chkStrokeLimit runStrokeLimit q k

/-- Checks of a command whose first parameter is a loop. -/
def chkLoop (_ : State) (c : Cmd) : Check10 := firstBad [(decide (127 < c.p 0 1), 0)]

/-- STROKE_TARGET (R368). -/
def runStrokeTarget (s : State) (c : Cmd) : State × Res :=
  if (s.loop (c.p 0 1)).state ≠ .run then (s, Res.fail stWrongState)
  else (s.stage (c.p 0 1) (.target (c.p 1 4)), Res.done 0)

/-- STROKE_TARGET (R368, R371, R378). -/
def execStrokeTarget (q k : Nat) (s : State) : Host.Outcome State Fault Refusal :=
  s.opcodeRow 0x0805 false chkLoop runStrokeTarget q k

/-- Checks of stroke.enable (R378). -/
def chkStrokeEnable (_ : State) (c : Cmd) : Check10 := firstBad [(decide (127 < c.p 0 1), 0), (decide (1 < c.p 1 1), 1)]

/-- STROKE_ENABLE (R370, R378). -/
def runStrokeEnable (s : State) (c : Cmd) : State × Res :=
  let l := c.p 0 1
  let y := s.loop l
  let ch := s.chain (l / 32)
  if c.p 1 1 = 1 ∧ (!ch.running || decide (ch.joints ≤ l % 32) || y.sections.isEmpty || !y.profiled) then
    (s, Res.fail stWrongState)
  else (s.stage l (.enable (c.p 1 1 == 1)), Res.done (b2n (y.state != .off)))

/-- STROKE_ENABLE (R370, R371, R378). -/
def execStrokeEnable (q k : Nat) (s : State) : Host.Outcome State Fault Refusal :=
  s.opcodeRow 0x0806 false chkStrokeEnable runStrokeEnable q k

/-- Checks of stroke.tune (R378). -/
def chkStrokeTune (s : State) (c : Cmd) : Check10 :=
  firstBad [(decide (127 < c.p 0 1), 0), (decide (c.p 1 4 = 0 ∨ 2 ^ 31 ≤ c.p 1 4), 1), (decide (2 ^ 31 ≤ c.p 5 4), 5),
    (decide (c.p 9 1 < 2 ∨ 64 < c.p 9 1), 9), (!s.destOk (c.p 10 8) 96, 10)]

/-- STROKE_TUNE (R375). -/
def runStrokeTune (s : State) (c : Cmd) : State × Res :=
  let l := c.p 0 1
  if (s.loop l).state ≠ .run ∨ (s.loop l).tune.isSome then (s, Res.fail stWrongState)
  else (s.stage l (.tune c.uid (c.p 1 4) (c.p 5 4) (c.p 9 1) (c.p 10 8)), .going)

/-- STROKE_TUNE (R375, R378). -/
def execStrokeTune (q k : Nat) (s : State) : Host.Outcome State Fault Refusal :=
  s.opcodeRow 0x0807 true chkStrokeTune runStrokeTune q k

/-- Checks of stroke.ff (R378). -/
def chkStrokeFf (_ : State) (c : Cmd) : Check10 := firstBad [(decide (3 < c.p 0 1), 0)]

/-- STROKE_FF (R374). -/
def runStrokeFf (s : State) (c : Cmd) : State × Res :=
  (s.modChain (c.p 0 1) (fun x => { x with decay := c.p 1 2 }), Res.done 0)

/-- STROKE_FF (R372, R378). -/
def execStrokeFf (q k : Nat) (s : State) : Host.Outcome State Fault Refusal :=
  s.opcodeRow 0x0808 false chkStrokeFf runStrokeFf q k

/-! ### Registers (R379) -/

/-- STROKE.LOOP's state code. -/
def LoopState.code : LoopState → Nat
  | .off => 0 | .run => 1 | .tuning => 2 | .hold => 3 | .frozen => 4 | .disabled => 5

/-- A register of the STROKE block by offset; counters are read elsewhere. -/
def State.strokeReg (s : State) (o : Nat) : Option Nat :=
  if o < 0x100 then
    let ch := s.chain (o / 0x40)
    match o % 0x40 with
    | 0 => some (ch.joints + ch.rate * 2 ^ 6 + b2n ch.running * 2 ^ 9 + ch.clock * 2 ^ 10 + b2n ch.allow * 2 ^ 12 +
        b2n ch.ret * 2 ^ 13 + ch.missLimit * 2 ^ 16 + ch.ffClient * 2 ^ 24 + ch.etherType * 2 ^ 48)
    | 8 => some ch.cycle
    | 0x10 => some (ch.cycleT / 2)
    | 0x18 => some (ch.decay + b2n ch.late * 2 ^ 16 + ch.seq.getD 0 * 2 ^ 32)
    | _ => none
  else if 0x400 ≤ o ∧ o < 0x1400 then
    let y := s.loop ((o - 0x400) / 0x20)
    match o % 0x20 with
    | 0 => some (y.state.code + y.sections.length * 2 ^ 4 + y.forms * 2 ^ 7 + b2n y.profiled * 2 ^ 11 +
        y.satFlags * 2 ^ 12 + y.reason * 2 ^ 17)
    | 8 => some (y.feedback + y.setpoint * 2 ^ 32)
    | 0x10 => some (wrap 32 y.command + y.outLimit * 2 ^ 32)
    | _ => none
  else none

/-- Sticky saturation flags of a loop cleared by writing 1 (R363, R379): bits 15 to 12 and 16 of STROKE.LOOP. -/
def State.clearSat (s : State) (l w : Nat) : State :=
  s.modLoop l (fun y => { y with
    sections := (y.sections.zipIdx).map (fun p => { p.1 with sat := p.1.sat && bit w (12 + p.2) == 0 })
    satOut := y.satOut && bit w 16 == 0 })

/-- A write of the STROKE block: `v` the bits written under `mask`. -/
def State.strokeWrite (s : State) (o v mask : Nat) : State :=
  match s.strokeReg o with
  | none => s
  | some old =>
    let new := mergeBits old v mask
    if o < 0x100 ∧ o % 0x40 = 0 then
      s.modChain (o / 0x40) (fun ch => { ch with
        missLimit := if bits new 23 16 = 0 then ch.missLimit else bits new 23 16
        ffClient := if bits new 32 24 > 256 then ch.ffClient else bits new 32 24 })
    else if 0x400 ≤ o ∧ o % 0x20 = 0 then s.clearSat ((o - 0x400) / 0x20) (v &&& mask)
    else if 0x400 ≤ o ∧ o % 0x20 = 0x10 then
      s.modLoop ((o - 0x400) / 0x20) (fun y => { y with outLimit := bits new 62 32 })
    else s

end Sys2Proof.Machine
end

