-- ==== Sys2Proof/Machine/Tracks.lean ====
section
/-! DEFINITION. Streams, poses, mounts and tracks of the fusion engine (R333 to R346). -/

namespace Sys2Proof.Machine

/-! ### Streams and poses -/

/-- A stream; the reset stream outside 0 to 35. -/
def State.stream (s : State) (i : Nat) : Stream := vget Stream.reset s.fuse.streams i

/-- The state with the FUSE block changed. -/
def State.modFuse (s : State) (f : FuseSt → FuseSt) : State := { s with fuse := f s.fuse }

/-- The state with a stream changed. -/
def State.modStream (s : State) (i : Nat) (f : Stream → Stream) : State :=
  s.modFuse (fun x => { x with streams := vmod x.streams i f })

/-- The period estimate in ns (R338): over the last 17 frames with consecutive counters, else the configured period. -/
def Stream.period (x : Stream) : Nat :=
  match x.run.head?, x.run[16]? with
  | some a, some b => (a.2 - b.2) / 16
  | _, _ => x.periodUs * 1000

/-- The stream is lying (R341). -/
def Stream.lying (x : Stream) : Bool := decide (0 < x.frozenLeft) || decide (0 < x.counterLeft) || x.boundLie

/-- The lead stream. -/
def State.leadStream (s : State) : Option Nat := (List.range 32).find? (fun i => (s.stream i).configured && (s.stream i).lead)

/-- The lead's period estimate in ns. -/
def State.leadPeriod (s : State) : Nat := match s.leadStream with | some i => (s.stream i).period | none => 0

/-- The fusion engine works: powered, not fenced, the die bridge up. -/
def State.fuseRuns (s : State) : Bool := s.usable 6 0 && s.domOn 76 && !s.fault.bridge.down && !s.fault.bridge.lost

/-- The pose at a time (R333): the latest integrated at or before it, extrapolated. Before the first sample the spec states no
pose: it is free. -/
def State.poseAt (s : State) (t : Int) : Pose × State :=
  match s.fuse.poses.find? (fun p => decide (p.t ≤ t)) with
  | some p => (p.at_ t, s)
  | none =>
    let (k, s1) := s.draw
    let f (i w : Nat) : Int := sext w (k / 2 ^ (64 * i))
    (⟨t, ⟨f 0 32, f 1 32, f 2 32, f 3 32⟩, ⟨f 4 64, f 5 64, f 6 64⟩, ⟨f 7 32, f 8 32, f 9 32⟩, ⟨f 10 32, f 11 32, f 12 32⟩⟩, s1)

/-- Ego-motion is valid at a time (R333). -/
def State.egoValid (s : State) (t : Int) : Bool :=
  s.fuse.poses.any (fun p => decide (p.t ≤ t ∧ t ≤ p.t + 4 * ((s.stream s.fuse.imu).period : Int)))

/-- An odometry sample lies within 4 odometry periods of a time (R332, R347). -/
def State.odoFresh (s : State) (t : Int) : Bool :=
  let x := s.stream s.fuse.odo
  x.configured && s.fuse.odoSeen.any (fun o => decide ((t - o).natAbs ≤ 4 * x.period))

/-! ### Mounts (R334 to R336) -/

/-- A transform-table entry. -/
def State.entry (s : State) (i : Nat) : Xform := vget ⟨Quat.one, V3.zero⟩ s.fuse.xforms i

/-- The chain cycle whose sample instant lies nearest a time, the earlier on a tie; none beyond two cycle periods (R335). -/
def State.nearCycle (s : State) (c : Nat) (t : Int) : Option ChainCycle :=
  let best := (vget [] s.fuse.cycles c).foldl (fun (a : Option ChainCycle) y =>
    match a with
    | none => some y
    | some b =>
      let dy := ((y.t : Int) - t).natAbs
      let db := ((b.t : Int) - t).natAbs
      if dy < db ∨ (dy = db ∧ y.t < b.t) then some y else a) none
  match best with
  | some b => if ((b.t : Int) - t).natAbs * rateHz (s.chain c).rate ≤ 2 * 10 ^ 9 then some b else none
  | none => none

/-- The mount of a stream for a frame observed at a time (R334, R335). -/
def State.mount (s : State) (i : Nat) (t : Int) : Option Xform :=
  let x := s.stream i
  if x.transform ≠ 0xFF then some (s.entry x.transform)
  else match x.link with
    | none => none
    | some (c, j, _) =>
      (s.nearCycle c t).map (fun y =>
        let links := (List.range (j + 1)).flatMap (fun k => [s.entry (128 + 32 * c + k), Xform.ofQuat (Quat.rz (sext 32 (y.pos.getD k 0)))])
        let all := links ++ [Xform.ofVector x.delta, s.entry (96 + i)]
        let m := (all.drop 1).foldl Xform.mul (all.headD ⟨Quat.one, V3.zero⟩)
        { m with q := m.q.normalise })

/-- The detections of a frame placed in the odometry frame, with the pose at the frame's own time (R340, R342). -/
def State.placeFrame (s : State) (f : ObsFrame) (reused : Bool) : List Placed × State :=
  match s.mount f.stream f.tObs with
  | none => ([], s)
  | some m =>
    let (p, s1) := s.poseAt f.tObs
    (f.dets.zipIdx.map (fun x => Placed.mk f.stream f.tObs x.2 reused x.1 (p.place m x.1.pos)), s1)

/-! ### Association (R344) -/

/-- A track during an instant's processing: what has hit it, and where a fixed-mount stream put it. -/
structure Live where
  id : Nat
  t : Track
  born : Bool
  hit : Bool
  seen : List Placed
  fixed : Option V3

/-- Every track, by context ID. -/
def State.tracks (s : State) : List (Nat × Track) := s.ctxs.filterMap (fun p => if p.2.kind = 1 then p.2.track.map (fun t => (p.1, t)) else none)

/-- A track's position at a time, in mm (R344). -/
def Track.predict (t : Track) (time : Int) : V3 :=
  let f (p v : Int) : Int := rna (p * 10 ^ 9 + v * (time - t.tUpd)) (10 ^ 9)
  ⟨f t.pos.x t.vel.x, f t.pos.y t.vel.y, f t.pos.z t.vel.z⟩

/-- Squared distance of a track from a detection. -/
def Live.dist (l : Live) (z : Placed) : Int := ((l.t.predict z.time).sub z.pos).norm2

/-- The squared gate of a class. -/
def State.gate2 (s : State) (cls : Nat) : Int := ((vget 0 s.fuse.gates cls ^ 2 : Nat) : Int)

/-- A track and a detection may form a pair. -/
def State.inGate (s : State) (l : Live) (z : Placed) : Bool := l.t.cls == z.det.cls && decide (l.dist z ≤ s.gate2 z.det.cls)

/-- A candidate pair: squared distance, track, and the detection's place in the pass. -/
structure Pairing where
  d : Int
  id : Nat
  z : Nat

/-- The order in which pairs are taken (R344). -/
def Pairing.before (a b : Pairing) : Bool := a.d < b.d || (a.d == b.d && (a.id < b.id || (a.id == b.id && a.z < b.z)))

/-- A pair put in its place. -/
def putPair : List Pairing → Pairing → List Pairing
  | [], p => [p]
  | x :: l, p => if p.before x then p :: x :: l else x :: putPair l p

/-- The pairs a pass accepts. -/
def State.pairUp (s : State) (ls : List Live) (zs : List Placed) : List Pairing :=
  let all := (ls.flatMap (fun l => zs.zipIdx.filterMap (fun z => if s.inGate l z.1 then some (Pairing.mk (l.dist z.1) l.id z.2) else none))).foldl
    putPair []
  all.foldl (fun acc p => if acc.any (fun q => q.id == p.id || q.z == p.z) then acc else acc ++ [p]) []

/-- A track updated by a detection (R344). -/
def State.updateTrack (s : State) (l : Live) (z : Placed) : Live :=
  let p := l.t.predict z.time
  let e := z.pos.sub p
  let dt := z.time - l.t.tUpd
  let pos := (p.add (e.map (fun i => rna ((s.fuse.alpha : Int) * i) (2 ^ 16)))).map (satInt 32)
  let dv := if 1000000 ≤ dt then e.map (fun i => rna ((s.fuse.beta : Int) * i * 10 ^ 9) (2 ^ 16 * dt.toNat)) else V3.zero
  let fixed := (s.stream z.stream).transform != 0xFF
  { l with t := { l.t with pos := pos, vel := (l.t.vel.add dv).map (satInt 32), size := z.det.size, tUpd := z.time }
           hit := l.hit || !z.reused, seen := if z.reused then l.seen else l.seen ++ [z]
           fixed := if fixed && !z.reused then some pos else l.fixed }

/-- One stream's pass: the tracks after it, and its detections that found no pair. -/
def State.assocPass (s : State) (ls : List Live) (zs : List Placed) : List Live × List Placed :=
  let ps := s.pairUp ls zs
  (ls.map (fun l => match ps.find? (fun p => p.id == l.id) with
    | some p => (match zs[p.z]? with | some z => s.updateTrack l z | none => l)
    | none => l),
   (zs.zipIdx.filter (fun z => !ps.any (fun p => p.z == z.2))).map Prod.fst)

/-! ### Births, hits and deletion (R345, R346) -/

/-- A track's context (R343). -/
def trackCtx (t : Track) : Ctx :=
  { kind := 1, torn := false, model := 0, seed := 0, drawn := false, client := 0, step := false, noSpill := false, seq := none
    job := JobCtx.reset, spill := none, track := some t, plan := PlanCtx.reset }

/-- FUSE counter by register offset (R352). -/
def fuseCtr (off : Nat) : Nat := ctrId (0x08000000 + off)

/-- A detection that no track takes gives birth, or the birth is refused (R345). -/
def State.birth (tn : Int) (acc : State × List Live) (z : Placed) : State × List Live :=
  let (s, ls) := acc
  if ls.any (fun l => s.inGate l z) then acc
  else
    match (if 65536 ≤ ls.length then none else s.freeCtxId) with
    | none => (s.bump (fuseCtr 0x428) 1, ls)
    | some id =>
      let t : Track :=
        { confirmed := false, cls := z.det.cls, hits := 1, misses := 0, instants := 1, pos := z.pos, vel := V3.zero, size := z.det.size
          streams := 2 ^ z.stream, tUpd := z.time, tHit := tn }
      (s.putCtx id (trackCtx t), ls ++ [⟨id, t, true, true, [z], none⟩])

/-- Hits and misses of a track that was not born at this instant. -/
def Live.count (l : Live) (tn : Int) : Live :=
  if l.born then l
  else
    { l with t := { l.t with
        hits := (l.t.hits * 2 + b2n l.hit) % 2 ^ 16, misses := if l.hit then 0 else min (l.t.misses + 1) 255
        instants := min (l.t.instants + 1) 255, tHit := if l.hit then tn else l.t.tHit
        streams := if l.hit then l.seen.foldl (fun a z => a ||| 2 ^ z.stream) 0 else l.t.streams } }

/-- Confirmation, by the settings of fuse.tracks. -/
def State.confirm (s : State) (l : Live) : Live :=
  if !l.t.confirmed && decide (s.fuse.m ≤ popCount s.fuse.n l.t.hits) then { l with t := { l.t with confirmed := true } } else l

/-- A track is deleted at an instant. -/
def State.expired (s : State) (tn : Int) (l : Live) : Bool :=
  if l.t.confirmed then decide (s.fuse.k ≤ l.t.misses) || decide (((s.fuse.maxAgeMs * 1000000 : Nat) : Int) < tn - l.t.tHit)
  else decide (s.fuse.n ≤ l.t.instants)

/-- Tracks whose descriptor holds a poisoned word are deleted (R181, R343). -/
def State.dropPoisoned (s : State) : State :=
  (s.tracks.filter (fun p => s.anyPoison (t1Base + p.1 * 128) 128)).foldl (fun s p =>
    ((s.dropCtx p.1).bump (integCtr 0x38) 1).raise 0x0401 76 0 (p.1 + 0x0111 * 2 ^ 32)) s

/-! ### Refinement (R336) -/

/-- The rotations of the pairs of a moving-link stream at an instant. -/
def State.refinePairs (s : State) (i : Nat) (ls : List Live) : List V3 × State :=
  ls.foldl (fun (acc : List V3 × State) l =>
    match l.t.confirmed, l.seen.find? (fun z => z.stream == i), l.fixed with
    | true, some z, some f =>
      match acc.2.mount i z.time with
      | none => acc
      | some m =>
        let (p, s1) := acc.2.poseAt z.time
        (acc.1 ++ [smallAngle z.det.pos (p.sight m f)], s1)
    | _, _, _ => acc) ([], s)

/-- One axis of the refinement moved. -/
def refineAxis (lim d mean : Int) : Int :=
  let step := max (-(lim / 64)) (min (lim / 64) (mean.fdiv 16))
  max (-lim) (min lim (d + step))

/-- A moving-link stream's refinement updated, and its time at the bound counted (R336, R341). -/
def State.refine (s : State) (ls : List Live) (i : Nat) : State :=
  match (s.stream i).link with
  | none => s
  | some (_, _, lim) =>
    if (s.stream i).transform ≠ 0xFF ∨ lim = 0 then s
    else
      let (rs, s1) := s.refinePairs i ls
      if rs.length < 4 then s1
      else
        let sum := rs.foldl V3.add V3.zero
        let mean := sum.map (fun v => v.tdiv (rs.length : Int))
        let lim : Int := lim
        s1.modStream i (fun x =>
          let d : V3 := ⟨refineAxis lim x.delta.x mean.x, refineAxis lim x.delta.y mean.y, refineAxis lim x.delta.z mean.z⟩
          let at_ := decide (d.x.natAbs = lim.natAbs ∨ d.y.natAbs = lim.natAbs ∨ d.z.natAbs = lim.natAbs)
          let a := if at_ then x.atBound + 1 else 0
          let o := if at_ then 0 else x.offBound + 1
          { x with delta := d, atBound := a, offBound := o
                   boundLie := if x.boundLie then decide (o < 16) else decide (64 ≤ a) })

end Sys2Proof.Machine
end

