-- ==== Sys2Proof/Machine/Fusion.lean ====
section
/-! DEFINITION. The fusion engine: its commands, input rings, instants, levels and output records (R11, R327 to R352). -/

namespace Sys2Proof.Machine

/-! ### Commands (R327, R328, R334, R336, R346, R349, R351) -/

/-- A `fuse.*` command while the fusion engine is retired or quarantined. -/
def State.fuseGate (s : State) (r : State × Res) : State × Res :=
  if s.retired 6 0 then (s, .fail stNoResource) else if s.quarantined 6 0 then (s, .fail stQuarantined) else r

/-- A `fuse.*` command that is refused while fusion is enabled. -/
def State.fuseSetup (s : State) (r : State × Res) : State × Res := s.fuseGate (if s.fuse.enabled then (s, .fail stWrongState) else r)

/-- Bounds of the period parameter of a stream, in microseconds. -/
def periodBounds (i : Nat) : Nat × Nat := if i < 32 then (1000, 1000000) else if i < 34 then (125, 100000) else (250, 100000)

/-- The checks of fuse.stream: the table of R327. -/
def chkFuseStream (_ : State) (c : Cmd) : Check10 :=
  let i := c.p 0 1
  let k := c.p 1 1
  let gone := k == 0xFF
  let t := c.p 3 1
  let b := periodBounds i
  firstBad [(decide (35 < i), 0), (!gone && !(if i < 32 then decide (k ≤ 3) else if i < 34 then k == 4 else k == 5), 1),
    (!gone && decide (11 < c.p 2 1 ∧ c.p 2 1 ≠ 0xFF), 2), (!gone && decide (95 < t ∧ ¬(t = 0xFF ∧ i < 32)), 3),
    (!gone && decide (c.p 4 4 < b.1 ∨ b.2 < c.p 4 4), 4),
    (decide (3 < c.p 8 1) || (!gone && ((bit (c.p 8 1) 0 == 1 && decide (2 < k)) || (bit (c.p 8 1) 1 == 1 && decide (3 < k)))), 8)]

/-- fuse.stream: the stream starts afresh; its ring and its latency are registers of their own. -/
def runFuseStream (s : State) (c : Cmd) : State × Res :=
  s.fuseSetup (s.modStream (c.p 0 1) (fun x =>
    let y : Stream := { Stream.reset with ringBase := x.ringBase, ringLog2 := x.ringLog2, next := x.next, latencyUs := x.latencyUs }
    if c.p 1 1 = 0xFF then y
    else { y with configured := true, kind := c.p 1 1, port := c.p 2 1, transform := c.p 3 1, periodUs := c.p 4 4
                  lead := bit (c.p 8 1) 0 == 1, critical := bit (c.p 8 1) 1 == 1 }), .done 0)

/-- FUSE_STREAM (R327). -/
def execFuseStream (q k : Nat) (s : State) : Host.Outcome State Fault Refusal := s.opcodeRow 0x0701 false chkFuseStream runFuseStream q k

/-- A vector of three signed 32-bit parameters. -/
def Cmd.v3 (c : Cmd) (o : Nat) : V3 := ⟨sext 32 (c.p o 4), sext 32 (c.p (o + 4) 4), sext 32 (c.p (o + 8) 4)⟩

/-- The quaternion of fuse.xform. -/
def Cmd.quat (c : Cmd) : Quat := ⟨sext 32 (c.p 1 4), sext 32 (c.p 5 4), sext 32 (c.p 9 4), sext 32 (c.p 13 4)⟩

/-- The check of fuse.xform: the squared norm differs from 1 by at most 2^-20. -/
def chkFuseXform (_ : State) (c : Cmd) : Check10 := firstBad [(decide (2 ^ 40 < (c.quat.norm2 - 2 ^ 60).natAbs), 1)]

/-- fuse.xform. -/
def runFuseXform (s : State) (c : Cmd) : State × Res :=
  s.fuseGate (s.modFuse (fun x => { x with xforms := vset x.xforms (c.p 0 1) ⟨c.quat, c.v3 17⟩ }), .done 0)

/-- FUSE_XFORM (R334). -/
def execFuseXform (q k : Nat) (s : State) : Host.Outcome State Fault Refusal := s.opcodeRow 0x0702 false chkFuseXform runFuseXform q k

/-- A stream is configured on a moving link. -/
def Stream.moving (x : Stream) : Bool := x.configured && x.transform == 0xFF

/-- The checks of fuse.link. -/
def chkFuseLink (s : State) (c : Cmd) : Check10 :=
  firstBad [(!(s.stream (c.p 0 1)).moving, 0), (decide (3 < c.p 1 1), 1), (decide (31 < c.p 2 1), 2), (decide (100000 < c.p 3 4), 3)]

/-- fuse.link. -/
def runFuseLink (s : State) (c : Cmd) : State × Res :=
  s.fuseSetup (s.modStream (c.p 0 1) (fun x =>
    { x with link := some (c.p 1 1, c.p 2 1, c.p 3 4), delta := V3.zero, atBound := 0, offBound := 0, boundLie := false }), .done 0)

/-- FUSE_LINK (R336). -/
def execFuseLink (q k : Nat) (s : State) : Host.Outcome State Fault Refusal := s.opcodeRow 0x0703 false chkFuseLink runFuseLink q k

/-- The checks of fuse.tracks. -/
def chkFuseTracks (_ : State) (c : Cmd) : Check10 :=
  firstBad [(decide (c.p 0 1 = 0 ∨ c.p 1 1 < c.p 0 1), 0), (decide (16 < c.p 1 1), 1), (decide (c.p 2 1 = 0), 2),
    (decide (c.p 3 4 = 0 ∨ 3600000 < c.p 3 4), 3), (decide (1 < c.p 7 1), 7)]

/-- fuse.tracks. -/
def runFuseTracks (s : State) (c : Cmd) : State × Res :=
  s.fuseSetup (s.modFuse (fun x =>
    { x with m := c.p 0 1, n := c.p 1 1, k := c.p 2 1, maxAgeMs := c.p 3 4, carryLate := c.p 7 1 == 1 }), .done 0)

/-- FUSE_TRACKS (R346). -/
def execFuseTracks (q k : Nat) (s : State) : Host.Outcome State Fault Refusal := s.opcodeRow 0x0704 false chkFuseTracks runFuseTracks q k

/-- The checks of fuse.out. -/
def chkFuseOut (s : State) (c : Cmd) : Check10 :=
  firstBad [(decide (c.p 0 8 % 64 ≠ 0), 0), (decide (c.p 8 4 < 16 ∨ 16777216 < c.p 8 4), 8), (!s.destOk (c.p 0 8) (64 + 64 * c.p 8 4), 0)]

/-- fuse.out: the ring starts with TAIL 0. -/
def runFuseOut (s : State) (c : Cmd) : State × Res :=
  if s.namesWithdrawn (c.p 0 8) (64 + 64 * c.p 8 4) then (s, .fail stNoResource)
  else s.fuseSetup ((s.storeClean (c.p 0 8) (toLe 4 0)).modFuse (fun x => { x with outAddr := c.p 0 8, outSlots := c.p 8 4, tail := 0 }), .done 0)

/-- FUSE_OUT (R349). -/
def execFuseOut (q k : Nat) (s : State) : Host.Outcome State Fault Refusal := s.opcodeRow 0x0705 false chkFuseOut runFuseOut q k

/-- The ratio of a stream's period to the lead's, when it is an integer from 1 to 16 (R328). -/
def State.ratio (s : State) (lead i : Nat) : Option Nat :=
  let p := (s.stream lead).periodUs
  let k := (s.stream i).periodUs
  if p ≠ 0 ∧ k % p = 0 ∧ 1 ≤ k / p ∧ k / p ≤ 16 then some (k / p) else none

/-- The first condition of R328 that does not hold: the offending stream, 0xFF when none applies. -/
def State.fuseOffender (s : State) : Option Nat :=
  let conf (l : List Nat) : List Nat := l.filter (fun i => (s.stream i).configured)
  let obs := conf (List.range 32)
  let leads := obs.filter (fun i => (s.stream i).lead)
  match leads with
  | [] => some 0xFF
  | _ :: x :: _ => some x
  | [l] =>
    match obs.find? (fun i => (s.ratio l i).isNone) with
    | some i => some i
    | none =>
      if (conf [32, 33]).isEmpty then some 0xFF
      else match (conf (List.range 36)).find? (fun i => (s.stream i).ringLog2 == 0) with
        | some i => some i
        | none =>
          match obs.find? (fun i => (s.stream i).moving && (s.stream i).link.isNone) with
          | some i => some i
          | none => if s.fuse.outSlots = 0 then some 0xFF else none

/-- The check of fuse.enable. -/
def chkFuseEnable (_ : State) (c : Cmd) : Check10 := firstBad [(decide (1 < c.p 0 1), 0)]

/-- Fusion starts (R351). -/
def FuseSt.begin (f : FuseSt) : FuseSt :=
  { f with enabled := true, level := 4, instant := 0, nextInstant := 0, tLast := 0, started := false, instants := [], paired := []
           closedCoasts := [], degraded := false, q := Quat.one, pos := V3.zero, vel := V3.zero, rate := V3.zero, poses := []
           drSince := none, falls := [], lateSince := 0, lostSince := 0, slippedSince := 0, carried := []
           streams := f.streams.map (fun x => { x with
             offset := none, drift := 0, slips := [], delta := V3.zero, atBound := 0, offBound := 0, boundLie := false }) }

/-- fuse.enable. -/
def runFuseEnable (s : State) (c : Cmd) : State × Res :=
  s.fuseGate (
    let prev := b2n s.fuse.enabled
    if c.p 0 1 = prev then (s, .done prev)
    else if c.p 0 1 = 0 then ((s.fuseStop.modFuse (fun f => { f with degraded := false })).touch 76, .done prev)
    else match s.fuseOffender with
      | some d => (s, .reply stWrongState d 0)
      | none => ((s.modFuse FuseSt.begin).wakeDomain 76, .done prev))

/-- FUSE_ENABLE (R328, R351). -/
def execFuseEnable (q k : Nat) (s : State) : Host.Outcome State Fault Refusal := s.opcodeRow 0x0706 false chkFuseEnable runFuseEnable q k

/-! ### FUSE.S_RING (R329, R352) -/

/-- Bytes of a slot of a stream's ring. -/
def ringSlotBytes (i : Nat) : Nat := if i < 32 then 4096 else 64

/-- FUSE.S_RING of a stream written under a mask: kept while fusion is enabled, and where the ring would be misaligned, outside the
T1 host region, or of a size the field does not admit. -/
def State.writeSRing (s : State) (i v mask : Nat) : State :=
  let x := s.stream i
  let w := mergeBits (x.ringBase + x.ringLog2 * 2 ^ 48) v mask
  let base := w % 2 ^ 48
  let lg := bits w 51 48
  let ok := base % 64 == 0 && (lg == 0 || (decide (4 ≤ lg ∧ lg ≤ 12) && s.inT1Host base (ringSlotBytes i * 2 ^ lg)))
  if s.fuse.enabled || !ok || decide (36 ≤ i) then s else s.modStream i (fun x => { x with ringBase := base, ringLog2 := lg, next := 0 })

/-- FUSE_S_RING_WRITE (R352). -/
def execFuseSRingWrite (i v mask : Nat) (s : State) : Host.Outcome State Fault Refusal := .next (s.writeSRing i v mask)

/-! ### Input slots (R329 to R331) -/

/-- A field of a slot; a poisoned one is a free value. -/
def State.slotField (s : State) (pd : List PByte) (o n : Nat) : Nat × State :=
  let b := (pd.drop o).take n
  if b.any PByte.p then (let (k, s1) := s.draw; (k % 2 ^ (8 * n), s1)) else (leNat (vals b), s)

/-- A vector of three signed 32-bit fields. -/
def v3At (l : List Byte) (o : Nat) : V3 := ⟨sext 32 (leAt l o 4), sext 32 (leAt l (o + 4) 4), sext 32 (leAt l (o + 8) 4)⟩
/-- A vector of three unsigned 32-bit fields. -/
def u3At (l : List Byte) (o : Nat) : V3 := ⟨(leAt l o 4 : Nat), (leAt l (o + 4) 4 : Nat), (leAt l (o + 8) 4 : Nat)⟩

/-- A detection entry: the detection, or why it is discarded: poison, or a field out of range. -/
def detAt (pd : List PByte) (i : Nat) : Except Bool Det :=
  let e := (pd.drop (64 + 64 * i)).take 64
  let l := vals e
  if e.any PByte.p then .error true
  else if 15 < byteAt l 0 ∨ (slice l 1 3).any (· != 0) ∨ (slice l 28 36).any (· != 0) then .error false
  else .ok ⟨byteAt l 0, v3At l 4, u3At l 16⟩

/-- An observation frame taken from its slot, with what is counted (R330). -/
def State.takeFrame_ (s : State) (i : Nat) (pd : List PByte) : ObsFrame × State :=
  let x := s.stream i
  let h := pd.take 64
  let l := vals h
  let bad := h.any PByte.p
  let (ready, s1) := s.slotField pd 0 4
  let (tObs, s2) := s1.slotField pd 8 8
  let (arr, s3) := s2.slotField pd 16 8
  let st := byteAt l 4
  let usable := !bad && st == 0
  let n := if usable && x.kind ≠ 3 then min (byteAt l 5) 63 else 0
  let ds := (List.range n).map (detAt pd)
  let discarded := ds.filter (fun d => match d with | .error _ => true | .ok _ => false)
  let poisoned := ds.filter (fun d => match d with | .error p => p | .ok _ => false)
  let s4 := (s3.bump (fuseCtr 0x420) (if bad || decide (1 < st) then 1 else discarded.length)).bump (integCtr 0x38) (b2n bad + poisoned.length)
  (⟨i, (ready + 2 ^ 32 - 1) % 2 ^ 32, usable, (tObs : Int) - 1000 * (x.latencyUs : Int), arr,
    ds.filterMap (fun d => match d with | .ok d => some d | .error _ => none), v3At l 24, v3At l 36⟩, s4)

/-- Instants below this number have closed (R339). -/
def State.firstOpen (s : State) : Nat := match s.fuse.instants with | i :: _ => i.n | [] => s.fuse.nextInstant

/-- An entry ready after its instant closed (R340). -/
def State.lateFrame (s : State) (f : ObsFrame) : State :=
  let s1 := (s.bump (fuseCtr 0x400) 1).modFuse (fun x => { x with lateSince := min (x.lateSince + 1) 0xFFFFFFFF })
  if s1.fuse.carryLate && f.usable && decide ((s1.stream f.stream).kind ≤ 2) && !(s1.stream f.stream).lying then
    let (ps, s2) := s1.placeFrame f false
    s2.modFuse (fun x => { x with carried := x.carried ++ ps })
  else s1

/-- A frame paired to an instant that has not closed, with the ARRIVAL predicted for it; a later one of the stream takes its place. -/
def State.pairFrame (s : State) (n : Nat) (f : ObsFrame) (reused : Bool) (expected : Option Nat) : State :=
  s.modFuse (fun x =>
    { x with paired := x.paired.filter (fun p => !(p.n == n && p.frame.stream == f.stream)) ++ [⟨n, f, reused, expected⟩] })

/-- A lead frame forms an instant, joins a coasted one, or is late (R337). -/
def State.leadFrame (s : State) (f : ObsFrame) (expected : Option Nat) : State :=
  let p := s.leadPeriod
  let near (t : Int) : Bool := decide (2 * (f.tObs - t).natAbs ≤ p)
  match s.fuse.instants.find? (fun i => i.coasted && near i.t) with
  | some i =>
    (s.pairFrame i.n f false expected).modFuse (fun x =>
      { x with instants := x.instants.map (fun k => if k.n = i.n then { k with t := f.tObs, coasted := false } else k)
               tLast := if i.n + 1 = x.nextInstant then f.tObs else x.tLast })
  | none =>
    if s.fuse.closedCoasts.any near then s.lateFrame f
    else
      (s.pairFrame s.fuse.nextInstant f false expected).modFuse (fun x =>
        { x with instants := x.instants ++ [⟨x.nextInstant, f.tObs, false⟩], nextInstant := x.nextInstant + 1, tLast := f.tObs
                 started := true, closedCoasts := [] })

/-- The time of an instant by its number: of an open one its own, else predicted from the last (R338). -/
def State.instantTime (s : State) (n : Int) : Int :=
  match s.fuse.instants.find? (fun i => (i.n : Int) == n) with
  | some i => i.t
  | none => s.fuse.tLast + (n + 1 - (s.fuse.nextInstant : Int)) * (s.leadPeriod : Int)

/-- The multiple of `r` whose instant lies nearest a time, the earlier on a tie (R338). -/
def State.nearestDue (s : State) (r : Nat) (t : Int) : Int :=
  let p : Int := max 1 s.leadPeriod
  let mid := (s.fuse.nextInstant : Int) - 1 + (t - s.fuse.tLast).fdiv p
  let lo := mid.fdiv (r : Int) - 1
  let best := (List.range 4).foldl (fun (a : Option Int) (k : Nat) =>
    let n := (lo + (k : Int)) * (r : Int)
    if n < 0 then a
    else match a with
      | none => some n
      | some b => if (s.instantTime n - t).natAbs < (s.instantTime b - t).natAbs then some n else a) none
  best.getD 0

/-- A frame goes to its instant, or is late. -/
def State.toInstant (s : State) (n : Int) (f : ObsFrame) (expected : Option Nat) : State :=
  if n < (s.firstOpen : Int) then s.lateFrame f else s.pairFrame n.toNat f false expected

/-- A frame of a stream other than the lead pairs by its OFFSET, with its drift and its slips (R338). -/
def State.followFrame (s : State) (lead i : Nat) (f : ObsFrame) (prev : Option ObsFrame) (expected : Option Nat) : State :=
  let x := s.stream i
  let r := (s.ratio lead i).getD 1
  let rx : Int := (r : Int) * x.index
  match x.offset with
  | none =>
    let n := s.nearestDue r f.tObs
    (s.modStream i (fun y => { y with offset := some (n - rx), drift := 0, slips := [] })).toInstant n f expected
  | some o =>
    let pl : Int := s.leadPeriod
    let a := x.drift + (x.period : Int) - (r : Int) * pl
    if pl < a ∨ a < -pl then
      let up := decide (pl < a)
      let o1 := if up then o + 1 else o - 1
      let last := if up then rx + o else rx - (r : Int) + o
      let s1 := ((s.modStream i (fun y =>
        { y with offset := some o1, drift := if up then a - pl else a + pl, slips := (last, o) :: y.slips })).raise 0x0701 76 0 i).bump
        (fuseCtr 0x418) 1
      let s2 := s1.modFuse (fun y => { y with slippedSince := y.slippedSince ||| 2 ^ i })
      if up then
        let old := rx + o
        let s3 := match prev with
          | some p => if (s2.firstOpen : Int) ≤ old then (s2.pairFrame old.toNat p true expected).bump (fuseCtr 0x410) 1 else s2
          | none => s2
        s3.toInstant (rx + o1) f expected
      else
        let n := rx + o1
        let meets := s2.fuse.paired.any (fun p => (p.n : Int) == n && p.frame.stream == i)
        (if meets then s2.bump (fuseCtr 0x408) 1 else s2).toInstant n f expected
    else (s.modStream i (fun y => { y with drift := a })).toInstant (rx + o) f expected

/-- A frame's counter against the one before it, as a signed difference (R341). -/
def counterStep (prev : Option Nat) (c : Nat) : Int := match prev with | none => 1 | some p => sext 32 (c + 2 ^ 32 - p)

/-- A frame consumed: the stream's counters, its period, and its instant (R337, R338, R341). -/
def State.takeObs (s : State) (i : Nat) (f : ObsFrame) : State :=
  let x := s.stream i
  let d := counterStep x.lastCounter f.counter
  let silent := x.lastFrame.isSome && decide (16 * x.period < s.elapsed - x.lastAt)
  let s1 := s.modStream i (fun x =>
    { x with index := if x.lastCounter.isNone then (f.counter : Int) else x.index + d
             run := if d = 1 ∧ x.lastCounter.isSome then ((f.counter, f.arrival) :: x.run).take 17 else [(f.counter, f.arrival)]
             lastCounter := some f.counter, lastFrame := some f, lastAt := s.elapsed
             counterLeft := if d ≤ 0 then 4 else x.counterLeft
             offset := if silent then none else x.offset, drift := if silent then 0 else x.drift
             slips := if silent then [] else x.slips })
  match s1.leadStream with
  | none => s1
  | some l =>
    let expected := x.lastFrame.map (fun p => p.arrival + x.period)
    if i = l then s1.leadFrame f expected else if s1.fuse.started then s1.followFrame l i f x.lastFrame expected else s1

/-- The stream of a pair of ego streams whose samples are used now: the first, unless it has given none for 4 of its periods
(R332). -/
def State.egoUsed (s : State) (first i : Nat) : Bool :=
  let x := s.stream first
  i == first || !(x.configured && x.lastObs.isSome && decide (s.elapsed - x.lastAt ≤ 4 * x.period))

/-- An ego sample consumed (R331, R332). -/
def State.takeEgo (s : State) (i : Nat) (pd : List PByte) : State :=
  let x := s.stream i
  let l := vals pd
  let tRaw : Int := (leAt l 8 8 : Nat)
  let stale := match x.lastObs with | some o => decide (tRaw ≤ o) | none => false
  let bad := pd.any PByte.p
  if bad || byteAt l 4 != 0 || stale then (s.bump (fuseCtr 0x420) 1).bump (integCtr 0x38) (b2n bad)
  else
    let first := if i < 34 then 32 else 34
    let c := (leAt l 0 4 + 2 ^ 32 - 1) % 2 ^ 32
    let arr := leAt l 16 8
    let s0 := s.modStream i (fun x =>
      { x with run := if x.lastCounter = some ((c + 2 ^ 32 - 1) % 2 ^ 32) then ((c, arr) :: x.run).take 17 else [(c, arr)]
               lastCounter := some c })
    if !s.egoUsed first i then s0
    else
      let t := tRaw - 1000 * (x.latencyUs : Int)
      let m := (s.entry x.transform).q
      let s1 := s0.modStream i (fun x => { x with lastObs := some tRaw, lastAt := s.elapsed })
      if i < 34 then
        let dt := match s.fuse.poses with | p :: _ => t - p.t | [] => 0
        let odo := s.odoFresh t
        s1.modFuse (fun f =>
          let w := (m.rot (v3At l 24)).map (fun k => satInt 32 (rne k (2 ^ 60)))
          let q := f.q.turn w dt
          let vel := if odo then f.vel else accelerate q m f.vel (v3At l 36) dt
          let pos := moveBy f.pos vel dt
          { f with q := q, vel := vel, pos := pos, rate := w, imu := i, poses := (Pose.mk t q pos vel w :: f.poses).take 1024 })
      else s1.modFuse (fun f => { f with vel := odoVelocity f.q m (v3At l 36), odo := i, odoSeen := t :: f.odoSeen })

/-- INPUT_SLOT_READY (R329 to R332, R337, R338): the next expected slot of a stream is read, and its READY written 0. -/
def execInputSlotReady (i : Nat) (s : State) : Host.Outcome State Fault Refusal :=
  .next (
    let x := s.stream i
    let a := x.ringBase + x.next * ringSlotBytes i
    let n := ringSlotBytes i
    let pd := s.peek a n
    let rdy := pd.take 4
    if !s.fuse.enabled || !x.configured || x.ringLog2 == 0 || decide (36 ≤ i) || !s.fuseRuns then s
    else if s.heldRange a n then s.hold [(a, n)]
    else if !(rdy.any (fun b => b.p || b.v != 0)) then s
    else
      let read := if i < 32 then 64 + 64 * min (byteAt (vals pd) 5) 63 else 64
      let s1 := ((s.noteRead a read).storeClean a (toLe 4 0)).modStream i (fun x => { x with next := (x.next + 1) % 2 ^ x.ringLog2 })
      if i < 32 then
        let (f, s2) := s1.takeFrame_ i pd
        s2.takeObs i f
      else s1.takeEgo i pd)

/-! ### Instants (R337, R339) -/

/-- COASTED_INSTANT (R337): no lead frame by T_last + 1.5 periods of the lead. -/
def execCoastedInstant (s : State) : Host.Outcome State Fault Refusal :=
  .next (
    let p : Int := s.leadPeriod
    if s.fuse.enabled && s.fuse.started && s.fuseRuns && decide (2 * s.fuse.tLast + 3 * p < 2 * (s.elapsed : Int)) then
      s.modFuse (fun f =>
        { f with instants := f.instants ++ [⟨f.nextInstant, f.tLast + p, true⟩], nextInstant := f.nextInstant + 1, tLast := f.tLast + p })
    else s)

/-- The OFFSET of a stream at an instant: that before the earliest slip which the instant precedes (R338). -/
def Stream.offsetAt (x : Stream) (n : Nat) : Int :=
  match (x.slips.filter (fun p => decide ((n : Int) ≤ p.1))).getLast? with
  | some p => p.2
  | none => x.offset.getD 0

/-- A stream is due at an instant (R328, R338). -/
def State.dueAt (s : State) (lead n i : Nat) : Bool :=
  let x := s.stream i
  x.configured && decide (i < 32) &&
    (i == lead || (let r : Int := (s.ratio lead i).getD 1; ((n : Int) - x.offsetAt n) % r == 0))

/-- Streams due at an instant. -/
def State.dueList (s : State) (n : Nat) : List Nat :=
  match s.leadStream with | some l => (List.range 32).filter (fun i => s.dueAt l n i) | none => []

/-- The entry of a stream paired to an instant. -/
def State.pairedAt (s : State) (n i : Nat) : Option Paired := s.fuse.paired.find? (fun p => p.n == n && p.frame.stream == i)

/-- The close deadline of an instant (R339), by the ARRIVAL predicted for each due stream's frame: that of the stream's previous frame plus
its period, whether the frame has come since or not. -/
def State.closeDeadline (s : State) (k : Instant) : Int :=
  let arr := (s.dueList k.n).filterMap (fun i =>
    match s.pairedAt k.n i with
    | some p => p.expected.map (fun a => ((a : Nat) : Int))
    | none => (s.stream i).run.head?.map (fun r => (((r.2 + (s.stream i).period : Nat)) : Int)))
  let close : Int := (s.fuse.closeUs * 1000 : Nat)
  min (arr.foldl max k.t + close) (k.t + close + (s.leadPeriod : Int))

/-! ### Levels (R347) -/

/-- The level whose condition holds at an instant: what is valid, the streams due and those present. -/
def State.levelOf (s : State) (ego : Bool) (drLate : Bool) (due present : List Nat) : Nat :=
  let absent := due.filter (fun i => !present.contains i)
  let ranging := due.filter (fun i => (s.stream i).kind == 1 || (s.stream i).kind == 2)
  if !ego || drLate then 4
  else if present.isEmpty then 3
  else if absent.any (fun i => (s.stream i).critical) || (!ranging.isEmpty && ranging.all (fun i => absent.contains i)) then 2
  else if !absent.isEmpty then 1
  else 0

/-- A level set, with FUSION_LEVEL where it changes. -/
def State.setLevel (s : State) (l : Nat) : State :=
  if l = s.fuse.level then s
  else (s.modFuse (fun f => { f with level := l })).raise 0x0702 76 0 (l + s.fuse.level * 256)

/-- The level moves: a rise at once; a fall at the third consecutive instant that allows it, to the highest level that the three
allow. -/
def State.moveLevel (s : State) (c : Nat) : State :=
  let l := c :: s.fuse.falls
  let s1 := s.modFuse (fun f => { f with falls := l.take 2 })
  if s.fuse.level ≤ c then s1.setLevel c
  else if 3 ≤ l.length ∧ l.all (fun x => decide (x < s.fuse.level)) then s1.setLevel (l.foldl max 0)
  else s1

/-- The dead-reckoning timer at an instant's close. -/
def State.deadReckon (s : State) (tn : Int) (present : List Nat) : State :=
  s.modFuse (fun f => { f with drSince :=
    if present.isEmpty || !s.odoFresh tn then (match f.drSince with | some t => some t | none => some s.elapsed) else none })

/-- The dead-reckoning timer is above its bound. -/
def State.drLate (s : State) : Bool :=
  match s.fuse.drSince with | some t => decide (s.fuse.drMaxMs * 1000000 < s.elapsed - t) | none => false

/-! ### Records (R349, R350) -/

/-- A signed vector of 32-bit fields. -/
def V3.bytes (v : V3) : List Byte := toLe 4 (wrap 32 v.x) ++ toLe 4 (wrap 32 v.y) ++ toLe 4 (wrap 32 v.z)

/-- A mask of stream numbers. -/
def streamMask (l : List Nat) : Nat := l.foldl (fun a i => a ||| 2 ^ i) 0

/-- The ego slot of a pose. -/
def Pose.slot (p : Pose) : List Byte :=
  toLe 4 (wrap 32 p.q.w) ++ toLe 4 (wrap 32 p.q.x) ++ toLe 4 (wrap 32 p.q.y) ++ toLe 4 (wrap 32 p.q.z) ++
    toLe 8 (wrap 64 p.pos.x) ++ toLe 8 (wrap 64 p.pos.y) ++ toLe 8 (wrap 64 p.pos.z) ++ p.vel.bytes ++ p.rate.bytes

/-- A wrench slot: force and torque turned into the body frame. -/
def wrenchSlot (f : ObsFrame) (m : Xform) : List Byte :=
  let turn (v : V3) : V3 := (m.q.rot v).map (fun i => satInt 32 (rne i (2 ^ 60)))
  toLe 1 f.stream ++ toLe 3 0 ++ (turn f.force).bytes ++ (turn f.torque).bytes ++ toLe 36 0

/-- A track slot at a time. -/
def trackSlot (n : Nat) (id : Nat) (t : Track) (at_ : Int) : List Byte :=
  toLe 4 id ++ toLe 1 t.cls ++ toLe 1 (popCount n t.hits) ++ toLe 2 0 ++ toLe 4 t.streams ++ ((t.predict at_).map (satInt 32)).bytes ++
    t.vel.bytes ++ t.size.bytes ++ toLe 16 0

/-- What the header slot says of an instant. -/
structure RecHead where
  level : Nat
  flags : Nat
  n : Nat
  present : Nat
  due : Nat
  tracks : Nat
  wrenches : Nat
  births : Nat
  deletions : Nat

/-- A record written to the output ring, or counted as lost (R349): the slots after the header are given. -/
def State.writeRecord (s : State) (h : RecHead) (body : List (List Byte)) : State :=
  let f := s.fuse
  let k := body.length + 1
  let hd := s.peek (f.outAddr + 8) 4
  let (head, s1) := s.slotField hd 0 4
  let free := (head % f.outSlots + 2 * f.outSlots - f.tail - 1) % f.outSlots
  if free < k then (s1.bump (fuseCtr 0x430) 1).modFuse (fun f => { f with lostSince := min (f.lostSince + 1) 0xFFFFFFFF })
  else
    let header := toLe 2 k ++ toLe 1 h.level ++ toLe 1 h.flags ++ toLe 4 h.n ++ toLe 8 s.elapsed ++ toLe 4 h.present ++ toLe 4 h.due ++
      toLe 4 f.slippedSince ++ toLe 2 h.tracks ++ toLe 1 h.wrenches ++ toLe 1 0 ++ toLe 4 f.lateSince ++ toLe 4 f.lostSince ++
      toLe 4 h.births ++ toLe 4 h.deletions ++ toLe 16 0
    let s2 := (header :: body).zipIdx.foldl (fun s x => s.storeClean (f.outAddr + 64 + 64 * ((f.tail + x.2) % f.outSlots)) x.1) s1
    let tail := (f.tail + k) % f.outSlots
    (s2.storeClean f.outAddr (toLe 4 tail)).modFuse (fun f => { f with tail := tail, slippedSince := 0, lateSince := 0, lostSince := 0 })

/-- Confirmed tracks for output: by ascending distance from a position in micrometres, then by context ID. -/
def nearestTracks (ts : List (Nat × Track)) (pos : V3) (at_ : Int) : List (Nat × Track) :=
  let d (t : Track) : Int := (((t.predict at_).scale 1000).sub pos).norm2
  let rec_ := (ts.filter (fun p => p.2.confirmed)).foldl (fun acc p =>
    let lo := acc.filter (fun q => decide (d q.2 ≤ d p.2))
    let hi := acc.filter (fun q => decide (d p.2 < d q.2))
    lo ++ [p] ++ hi) []
  rec_

/-! ### INSTANT_CLOSE (R342) -/

/-- Detections grouped into passes by stream, ascending. -/
def passesOf (l : List Placed) : List (List Placed) :=
  ((List.range 32).map (fun i => l.filter (fun p => p.stream == i))).filter (fun p => !p.isEmpty)

/-- The frames present at an instant: usable, ready, their mount known, their stream not lying (R341). -/
def State.presentFrames (s : State) (n : Nat) (due : List Nat) : List Paired :=
  due.filterMap (fun i =>
    match s.pairedAt n i with
    | some p => if p.frame.usable && !(s.stream i).lying && (s.mount i p.frame.tObs).isSome then some p else none
    | none => none)

/-- Association, births, hits and misses, and refinement of an instant (R342, steps 1 to 5); births and deletions are counted. -/
def State.trackInstant (s : State) (tn : Int) (frames : List Paired) : State × Nat × Nat :=
  let run := s.fuse.level != 4
  let obs := frames.filter (fun p => decide ((s.stream p.frame.stream).kind ≤ 2))
  let (placed, s1) := if run then
      obs.foldl (fun (acc : List (List Placed) × State) p =>
        let (ps, s') := acc.2.placeFrame p.frame p.reused
        (acc.1 ++ [ps], s')) ([], s)
    else ([], s)
  let passes := if run then passesOf s1.fuse.carried ++ placed else []
  let ls0 := s1.tracks.map (fun p => Live.mk p.1 p.2 false false [] none)
  let (ls1, un) := passes.foldl (fun (acc : List Live × List Placed) zs =>
    let (ls, u) := s1.assocPass acc.1 zs
    (ls, acc.2 ++ u)) (ls0, [])
  let (s2, ls2) := un.foldl (State.birth tn) (s1, ls1)
  let ls3 := ls2.map (fun l => s2.confirm (l.count tn))
  let (gone, kept) := (ls3.filter (s2.expired tn), ls3.filter (fun l => !s2.expired tn l))
  let s3 := kept.foldl (fun s l => s.putCtx l.id (trackCtx l.t)) (gone.foldl (fun s l => s.dropCtx l.id) s2)
  let s4 := if run then (List.range 32).foldl (fun s i => if (s.stream i).moving then s.refine ls3 i else s) s3 else s3
  (s4, ls2.length - ls1.length, gone.length)

/-- The record of an instant (R350), every pose predicted to the elapsed count now. -/
def State.outputInstant (s : State) (k : Instant) (due : List Nat) (frames : List Paired) (carried : Bool) (births deletions : Nat) : State :=
  let lv := s.fuse.level
  let now : Int := s.elapsed
  let present := frames.map (fun p => p.frame.stream)
  let base := 4 * b2n k.coasted + 8 * b2n (s.fuse.paired.any (fun p => p.n == k.n && p.reused)) + 16 * b2n carried
  let h : RecHead := ⟨lv, base, k.n, streamMask present, streamMask due, 0, 0, births, deletions⟩
  if lv = 4 then s.writeRecord { h with flags := base + 1 } []
  else
    let (p, s1) := s.poseAt now
    let all := nearestTracks s1.tracks p.pos now
    let out := all.take s.fuse.maxOut
    let wr := frames.filterMap (fun f =>
      if (s.stream f.frame.stream).kind = 3 then (s.mount f.frame.stream f.frame.tObs).map (wrenchSlot f.frame) else none)
    s1.writeRecord { h with flags := base + 2 * b2n (decide (out.length < all.length)), tracks := out.length, wrenches := wr.length }
      (p.slot :: wr ++ out.map (fun t => trackSlot s.fuse.n t.1 t.2 now))

/-- Streams' marks after an instant has closed (R341, R352). -/
def State.afterClose (s : State) (n : Nat) (due present : List Nat) : State :=
  s.modFuse (fun f =>
    { f with
      streams := f.streams.mapIdx (fun i x =>
        { x with present := if due.contains i then present.contains i else false, frozenLeft := x.frozenLeft - 1
                 slips := x.slips.filter (fun p => decide ((n : Int) < p.1))
                 counterLeft := if due.contains i then x.counterLeft - 1 else x.counterLeft })
      paired := f.paired.filter (fun p => decide (n < p.n)), carried := [], instant := n })

/-- The oldest instant closes and is processed in the order of R342. -/
def State.closeInstant (s : State) (k : Instant) : State :=
  let s0 := s.dropPoisoned
  let due := s0.dueList k.n
  let frames := s0.presentFrames k.n due
  let present := frames.map (fun p => p.frame.stream)
  let carried := !s0.fuse.carried.isEmpty
  let s1 := s0.deadReckon k.t present
  let s2 := s1.moveLevel (s1.levelOf (s1.egoValid k.t) s1.drLate due present)
  let (s3, births, deletions) := s2.trackInstant k.t frames
  let s4 := s3.modFuse (fun f => { f with instants := f.instants.drop 1, closedCoasts := if k.coasted then k.t :: f.closedCoasts else f.closedCoasts })
  let s5 := s4.modFuse (fun f => { f with odoSeen := f.odoSeen.filter (fun o => decide (k.t - 4 * ((s4.stream f.odo).period : Int) ≤ o)) })
  (s5.outputInstant k due frames carried births deletions).afterClose k.n due present

/-- INSTANT_CLOSE (R339, R342): the oldest instant closes once every stream due at it has its entry ready, or at its close
deadline. -/
def execInstantClose (s : State) : Host.Outcome State Fault Refusal :=
  .next (match s.fuse.instants with
    | [] => s
    | k :: _ =>
      let ready := (s.dueList k.n).all (fun i => (s.pairedAt k.n i).isSome)
      let out := (s.fuse.outAddr, 64 + 64 * s.fuse.outSlots)
      if s.fuse.enabled && s.fuseRuns && (ready || decide (s.closeDeadline k ≤ (s.elapsed : Int))) then
        if s.heldRange out.1 out.2 then s.hold [out] else s.closeInstant k
      else s)

/-! ### Records while the engine is away (R11, R348, R436) -/

/-- Fusion output is unavailable: the die bridge is down or lost while fusion is enabled, or the engine was retired so. -/
def State.fuseAway (s : State) : Bool := s.fuse.degraded || (s.fuse.enabled && (s.fault.bridge.down || s.fault.bridge.lost))

/-- DEGRADED_RECORD (R11, R348): the cox writes a level-4 record for the oldest instant that has not closed, else for the next the
lead would have formed. -/
def execDegradedRecord (s : State) : Host.Outcome State Fault Refusal :=
  .next (if s.fuseAway && s.fuse.started then
    let p : Int := s.leadPeriod
    let k := match s.fuse.instants with | k :: _ => k | [] => ⟨s.fuse.nextInstant, s.fuse.tLast + p, true⟩
    if (s.elapsed : Int) < k.t then s
    else
      let s1 := (s.modFuse (fun f => { f with
        nextInstant := max f.nextInstant (k.n + 1), tLast := if f.instants.isEmpty then k.t else f.tLast, instants := f.instants.drop 1
        closedCoasts := if k.coasted then k.t :: f.closedCoasts else f.closedCoasts, falls := [] })).setLevel 4
      let s2 := if isT1 s1.fuse.outAddr && s1.heldRange s1.fuse.outAddr 64 then
          s1.modFuse (fun f => { f with lostSince := min (f.lostSince + 1) 0xFFFFFFFF })
        else s1.writeRecord ⟨4, 1 + 4 * b2n k.coasted, k.n, 0, streamMask (s1.dueList k.n), 0, 0, 0, 0⟩ []
      s2.afterClose k.n [] []
  else s)

end Sys2Proof.Machine
end

