-- ==== Sys2Proof/Machine/Image.lean ====
section
/-! DEFINITION. Images: header, directory, signature and sections, and the keys that verify them (R257 to R260, R272, R501). -/

namespace Sys2Proof.Machine

/-! ### Header and directory (R257, R258, R501) -/

/-- DETAIL of a fault of the header or of a section that is missing (R272). -/
def imgHeader : Nat := 0x8000FFFF
/-- DETAIL of a fault of the section at a place of the directory (R272). -/
def imgAt (i : Nat) : Nat := 0x80000000 + i

/-- A directory entry. -/
def imgSectionAt (b : List Byte) (i : Nat) : ImgSection :=
  ⟨leAt b (64 + 16 * i) 2, leAt b (64 + 16 * i + 8) 8, leAt b (64 + 16 * i + 4) 4⟩

/-- The directory of an image. -/
def imgSections (b : List Byte) : List ImgSection := (List.range (byteAt b 17)).map (imgSectionAt b)

/-- A fault of the 64 header bytes of an image of a KIND (R257, R501). -/
def headerBad (b : List Byte) (kind : Nat) : Bool :=
  let len := leAt b 8 8
  let n := byteAt b 17
  let ph := leAt b 18 2
  leAt b 0 4 != 0x4D385A54 || leAt b 4 2 != kind || leAt b 6 2 != 1 || len % 8 != 0 || decide (len < 256) ||
    decide (7 < byteAt b 16) || n == 0 || decide (32 < n) || !(slice b 32 32).all (· == 0) || decide (len - 96 < 64 + 16 * n) ||
    (if kind = 1 then ph == 0 || decide (16 < ph) else ph != 0 || leAt b 24 8 != 0 || decide (0x4000000 < len))

/-- A directory entry at fault (R258): its type, reserved bytes, place, or an earlier entry it repeats or overlaps. -/
def sectionBad (b : List Byte) (kind i : Nat) : Bool :=
  let x := imgSectionAt b i
  let len := leAt b 8 8
  let earlier := (List.range i).map (imgSectionAt b)
  (if kind = 1 then x.type == 0 || decide (11 < x.type) else x.type != 0x0101) || leAt b (66 + 16 * i) 2 != 0 ||
    x.offset % 8 != 0 || decide (len - 96 < x.offset + x.size) ||
    earlier.any (fun y => y.type == x.type || decide (y.offset < x.offset + x.size ∧ x.offset < y.offset + y.size))

/-- The fault of an image's header or directory, as its DETAIL. -/
def imgFault (b : List Byte) (kind : Nat) : Option Nat :=
  if headerBad b kind then some imgHeader
  else match (List.range (byteAt b 17)).find? (sectionBad b kind) with
    | some i => some (imgAt i)
    | none =>
      let has (t : Nat) : Bool := (imgSections b).any (fun x => x.type == t)
      if kind = 1 then (if [1, 2, 3, 4].all has then none else some imgHeader)
      else match (imgSections b).find? (fun x => x.type == 0x0101) with
        | none => some imgHeader
        | some x => if x.size < 4 then some (imgAt 0) else if leAt b x.offset 4 = leAt b 20 4 then none else some imgHeader

/-! ### Signature (R259) -/

/-- The signature of an image verifies against the key of its slot. -/
def State.signed (s : State) (b : List Byte) : Bool :=
  let len := b.length
  match vget none s.boat.keys (byteAt b 16) with
  | some (x, y, false) =>
    ecdsaVerify x y (sha384 (b.take (len - 96))) (beNat (slice b (len - 96) 48)) (beNat (slice b (len - 48) 48))
  | _ => false

/-! ### What the sections hold (R154, R209, R258, R261, R265, R266) -/

/-- The bytes of a section; none when the image has none. -/
def sectionBytes (b : List Byte) (type : Nat) : List Byte :=
  match (imgSections b).find? (fun x => x.type == type) with | some x => slice b x.offset x.size | none => []

/-- A phase entry. -/
def phaseAt (l : List Byte) (i : Nat) : PhaseEntry :=
  let b := slice l (64 * i) 64
  let f := byteAt b 4
  { kind := byteAt b 0, oppoint := byteAt b 1, pred := leAt b 2 2, entry := bit f 0 == 1, orderFixed := bit f 1 == 1
    sequence := bit f 2 == 1, placements := byteAt b 5, firstPlacement := leAt b 6 2, seed := leAt b 8 8
    inBytes := leAt b 16 4, outBytes := leAt b 20 4, fetchFirst := leAt b 24 4, fetchCount := leAt b 28 4
    expectedW := leAt b 32 2 }

/-- A placement entry. -/
def placementAt (l : List Byte) (i : Nat) : Placement :=
  let b := slice l (64 * i) 64
  { crew := byteAt b 0, threads := byteAt b 1, stages := byteAt b 2, hot := bit (byteAt b 3) 0 == 1, entry := leAt b 4 4
    footprint := leAt b 8 4, streams := leAt b 12 4, grants := leAt b 16 4, grantCount := byteAt b 20
    hotBytes := leAt b 24 4, stepNs := leAt b 28 4 }

/-- A fetch entry. -/
def fetchAt (l : List Byte) (i : Nat) : Fetch :=
  let b := slice l (16 * i) 16
  ⟨leAt b 0 4, leAt b 4 2, byteAt b 6, leAt b 8 4, leAt b 12 4⟩

/-- A RELOC entry. -/
def relocAt (b l : List Byte) (i : Nat) : Reloc := ⟨leAt l (16 * i) 8, byteAt l (16 * i + 8), leAt b (leAt l (16 * i) 8) 8⟩

/-- The phase entries of an image. -/
def imgPhases (b : List Byte) : List PhaseEntry := (List.range (leAt b 18 2)).map (phaseAt (sectionBytes b 1))
/-- The placement entries of an image. -/
def imgPlacements (b : List Byte) : List Placement :=
  let l := sectionBytes b 2
  (List.range (l.length / 64)).map (placementAt l)
/-- The fetch entries of an image. -/
def imgFetches (b : List Byte) : List Fetch :=
  let l := sectionBytes b 5
  (List.range (l.length / 16)).map (fetchAt l)
/-- The RELOC entries of an image. -/
def imgRelocs (b : List Byte) : List Reloc :=
  let l := sectionBytes b 11
  (List.range (l.length / 16)).map (relocAt b l)

/-- The shape of a SEQUENCE section: LAYERS 2, KV_HEADS 1, HEAD_DIM 1 and KV_FMT 1 bytes as in the descriptor (R208), then
the pairs of scales. -/
def imgShape (b : List Byte) : Option SeqShape :=
  let l := sectionBytes b 10
  if l.isEmpty then none
  else
    let n := leAt l 0 2 * byteAt l 2
    some ⟨leAt l 0 2, byteAt l 2, byteAt l 3, byteAt l 4,
      (List.range n).map (fun i => (byteAt l (5 + 2 * i), byteAt l (6 + 2 * i)))⟩

/-! ### Check 4 of model.load (R231, R258, R270, R272) -/

/-- A phase entry out of range. -/
def phaseBad (b : List Byte) (i : Nat) : Bool :=
  let raw := slice (sectionBytes b 1) (64 * i) 64
  let p := phaseAt (sectionBytes b 1) i
  decide (1 < p.kind) || decide (15 < p.oppoint) || decide (8 ≤ byteAt raw 4) || p.placements == 0 || decide (8 < p.placements) ||
    decide ((imgPlacements b).length < p.firstPlacement + p.placements) ||
    decide ((imgFetches b).length < p.fetchFirst + p.fetchCount) || (p.kind == 1 && p.fetchCount != 0) ||
    !(slice raw 34 30).all (· == 0)

/-- A placement entry out of range. -/
def placementBad (b : List Byte) (i : Nat) : Bool :=
  let l := sectionBytes b 2
  let raw := slice l (64 * i) 64
  let p := placementAt l i
  let hotModel := (imgPlacements b).any (fun p => p.hot)
  let streams := (sectionBytes b 4).length / 32
  p.crew == 0 || decide (128 < p.crew) || p.threads == 0 || decide (128 < p.threads) || p.stages == 0 || decide (8 < p.stages) ||
    p.crew % p.stages != 0 || decide (1 < byteAt raw 3) || p.entry % 8 != 0 || decide ((sectionBytes b 3).length ≤ p.entry) ||
    decide ((if hotModel then 0x100000 else 0x200000) < p.footprint) || decide (streams < p.streams + 2 * p.crew) ||
    decide (14 < p.grantCount) || decide ((imgRelocs b).length < p.grants + 2 * p.grantCount) ||
    decide (0x100000 < p.hotBytes) || (!p.hot && p.hotBytes != 0) || !(slice raw 21 3).all (· == 0) ||
    !(slice raw 32 32).all (· == 0) || (p.hot && (((imgPlacements b).take i).any (fun p => p.hot)))

/-- A RELOC entry out of range. -/
def relocBad (b : List Byte) (i : Nat) : Bool :=
  let l := sectionBytes b 11
  let r := relocAt b l i
  decide (b.length - 96 < r.offset + 8) || decide (2 < r.kind) || !(slice l (16 * i + 9) 7).all (· == 0)

/-- A SEQUENCE section out of the ranges of R208. -/
def shapeBad (b : List Byte) : Bool :=
  match imgShape b with
  | none => false
  | some q => q.layers == 0 || decide (1024 < q.layers) || q.heads == 0 || decide (128 < q.heads) || decide (3 < q.headDim) ||
      decide (1 < q.kvFmt) || decide ((sectionBytes b 10).length < 5 + 2 * q.layers * q.heads)

/-- A CONV section is at fault (R231, R272): an entry is out of range, or a checked layer has the frequency method. -/
def convSectionBad (l : List (Option (Nat × Bool))) : Bool :=
  l.any (fun e => match e with | none => true | some (method, checked) => method == 3 && checked)

/-- The content of a section is at fault. -/
def contentBad (b : List Byte) (x : ImgSection) : Bool :=
  let seq := (imgPhases b).any (fun p => p.sequence)
  let has := (imgSections b).any (fun y => y.type == 10)
  match x.type with
  | 1 => x.size != 64 * leAt b 18 2 || (List.range (leAt b 18 2)).any (phaseBad b) || (seq && !has)
  | 2 => x.size % 64 != 0 || (List.range (x.size / 64)).any (placementBad b)
  | 6 => x.size % 2 != 0 || (List.range (x.size / 2)).any (fun i => decide (1023 < leAt b (x.offset + 2 * i) 2))
  | 7 => convSectionBad (Config.convLayers (slice b x.offset x.size))
  | 10 => !seq || shapeBad b
  | 11 => x.size % 16 != 0 || (List.range (x.size / 16)).any (relocBad b)
  | _ => false

/-- The first section whose content is at fault, as its DETAIL. -/
def contentFault (b : List Byte) : Option Nat := ((imgSections b).findIdx? (contentBad b)).map imgAt

/-! ### sec.key and sec.verify (R181, R260) -/

/-- The checks of sec.key. -/
def chkSecKey (s : State) (c : Cmd) : Check10 := firstBad [(decide (7 < c.p 0 1), 0), (!s.imageOk (c.p 1 8) 97, 1)]

/-- A command whose table holds a poisoned word (R181). -/
def State.poisonedTable (s : State) : State × Res := (s.bump (integCtr 0x38) 1, .fail stPoisoned)

/-- sec.key. -/
def runSecKey (s : State) (c : Cmd) : State × Res :=
  let s := s.noteRead (c.p 1 8) 97
  let slot := c.p 0 1
  let p := s.peek (c.p 1 8) 97
  let b := vals p
  let set (k : Option (Nat × Nat × Bool)) : State := { s with boat := { s.boat with keys := vset s.boat.keys slot k } }
  let x := beNat (slice b 1 48)
  let y := beNat (slice b 49 48)
  if p.any PByte.p then s.poisonedTable
  else if b.all (· == 0) then
    match vget none s.boat.keys slot with
    | some (x, y, false) => (set (some (x, y, true)), .done 0)
    | _ => (s, .fail stWrongState)
  else if byteAt b 0 = 4 ∧ onCurve x y = true then
    match vget none s.boat.keys slot with
    | none => (set (some (x, y, false)), .done 0)
    | some _ => (s, .fail stKeyLocked)
  else (s, .bad 1)

/-- SEC_KEY (R260). -/
def execSecKey (q k : Nat) (s : State) : Host.Outcome State Fault Refusal := s.opcodeRow 0x0D03 false chkSecKey runSecKey q k

/-- The checks of a command that names an image by address and length. -/
def chkImage (s : State) (c : Cmd) : Check10 := firstBad [(!s.imageOk (c.p 0 8) (c.p 8 8), 0)]

/-- Check 1 of an image: the length a command gives is the image's LEN. -/
def State.lenOk (s : State) (c : Cmd) : Bool :=
  decide (64 ≤ c.p 8 8) && leNat (vals (s.peek (c.p 0 8 + 8) 8)) == c.p 8 8

/-- sec.verify. -/
def runSecVerify (s : State) (c : Cmd) : State × Res :=
  let s := s.noteRead (c.p 0 8) (c.p 8 8)
  let p := s.peek (c.p 0 8) (c.p 8 8)
  let b := vals p
  if !s.lenOk c then (s, .bad 8)
  else if p.any PByte.p then s.poisonedTable
  else match imgFault b (if leAt b 4 2 = 2 then 2 else 1) with
    | some d => (s, .reply stBadParam d 0)
    | none => if s.signed b then (s, .done 0) else (s, .fail stSignature)

/-- SEC_VERIFY (R260). -/
def execSecVerify (q k : Nat) (s : State) : Host.Outcome State Fault Refusal := s.opcodeRow 0x0D04 false chkImage runSecVerify q k

end Sys2Proof.Machine
end

