-- ==== Sys2Proof/Machine/Net.lean ====
section
/-! DEFINITION. The sensor and trunk switch: its commands, links and tables (R380 to R383, R388, R389, R391, R396 to R399). -/

namespace Sys2Proof.Machine

/-! ### Ports -/

/-- A counter of a port by its offset among the port's registers (R399). -/
def netCtr (p off : Nat) : Nat := ctrId (0x0A000000 + 0x100 + 0x80 * p + off)

/-- A port's entry; a disabled one outside 0 to 15. -/
def State.nport (s : State) (p : Nat) : NetPort := vget (NetPort.reset 0 false) s.net.ports p

/-- The state with the switch changed. -/
def State.modNet (s : State) (f : NetSt → NetSt) : State := { s with net := f s.net }

/-- The state with a port changed. -/
def State.modPort (s : State) (p : Nat) (f : NetPort → NetPort) : State :=
  s.modNet (fun n => { n with ports := vmod n.ports p f })

/-- The switch is powered (R446). -/
def State.netOn (s : State) : Bool := s.domOn 91

/-! ### Templates and detectors (R391, R419) -/

/-- A template's KIND. -/
def Template.kind (t : Template) : Nat := byteAt t.bytes 0
/-- A template's PORT. -/
def Template.port (t : Template) : Nat := byteAt t.bytes 1
/-- A template covers a port. -/
def Template.covers (t : Template) (p : Nat) : Bool := t.port == p || t.port == 0xFF

/-- The template with the lowest index that a condition picks. -/
def NetSt.lowest (n : NetSt) (f : Template → Bool) : Option (Nat × Template) :=
  (List.range 64).findSome? (fun i => match alookup n.templates i with
    | some t => if f t then some (i, t) else none
    | none => none)

/-- The lowest-indexed KIND 0 template of a port: its index and its 128 bytes. -/
def NetSt.videoOf (n : NetSt) (p : Nat) : Option (Nat × List Byte) :=
  (n.lowest (fun t => t.kind == 0 && t.covers p)).map (fun x => (x.1, x.2.bytes))

/-- The remembered hashes of a port's detector cleared. -/
def NetSt.forget (n : NetSt) (p : Nat) : NetSt := { n with detectors := vmod n.detectors p (fun d => { d with hashes := [] }) }

/-- Template slot `i` set or emptied; a detector whose template changes forgets its hashes. -/
def NetSt.setTemplate (n : NetSt) (i : Nat) (t : Option Template) : NetSt :=
  let m : NetSt := { n with templates := match t with | some x => aset n.templates i x | none => aerase n.templates i }
  (List.range 12).foldl (fun (a : NetSt) p => if n.videoOf p = m.videoOf p then a else a.forget p) m

/-- A sample under way on a port stops part way (R392). -/
def NetSt.stopSamples (n : NetSt) (p : Nat) : NetSt :=
  { n with templates := n.templates.map (fun x =>
      match x.2.busy with
      | some b => if b.1 = p then (x.1, { x.2 with busy := none, lines := [] }) else x
      | none => x) }

/-- A port's link changes (R382, R392, R419): nothing where it stands already. -/
def State.linkTo (s : State) (p : Nat) (up : Bool) : State :=
  if (s.nport p).link = up ∨ 15 < p then s
  else
    let s1 := s.modPort p (fun x => { x with link := up })
    let s2 := if up then s1 else (s1.modNet (fun n => (n.stopSamples p).forget p)).bump (netCtr p 0x38) 1
    s2.raise 0x0B01 91 p (b2n up)

/-- PORT_LINK (R382): a link comes up, never on a disabled port, or goes down. -/
def execPortLink (port : Nat) (up : Bool) (s : State) : Host.Outcome State Fault Refusal :=
  .next (if !s.netOn || (up && (s.nport port).role == 0) then s else s.linkTo port up)

/-- FDB_AGE_OUT (R383): entry `i` of the table, after AGE_S seconds without a frame from its address. -/
def execFdbAgeOut (i : Nat) (s : State) : Host.Outcome State Fault Refusal :=
  .next (match s.net.fdb[i]? with
    | none => s
    | some e => if s.netOn && s.since e.seen (us (s.net.ageS * 1000000)) then s.modNet (fun n => { n with fdb := n.fdb.eraseIdx i }) else s)

/-! ### Commands (R382, R388, R389, R391, R396, R398) -/

/-- A VLAN by its VID. -/
def NetSt.vlan (n : NetSt) (v : Nat) : Option Vlan := n.vlans.find? (fun x => x.vid == v)

/-- A VLAN set, or removed where it has no members. -/
def NetSt.setVlan (n : NetSt) (v : Vlan) : NetSt :=
  let rest := n.vlans.filter (fun x => x.vid != v.vid)
  { n with vlans := if v.members = 0 then rest else rest ++ [v] }

/-- A port made an untagged member of a VLAN, which comes to exist where it did not and there is room (R382). -/
def NetSt.join (n : NetSt) (p vid : Nat) : NetSt :=
  match n.vlan vid with
  | some v => n.setVlan { v with members := v.members ||| 2 ^ p, untagged := v.untagged ||| 2 ^ p }
  | none => if n.vlans.length < 256 then n.setVlan ⟨vid, 2 ^ p, 2 ^ p⟩ else n

/-- The checks of net.port. -/
def chkNetPort (_ : State) (c : Cmd) : Check10 :=
  firstBad [(decide (11 < c.p 0 1), 0), (bits (c.p 1 1) 1 0 == 3 || bits (c.p 1 1) 6 2 != 0, 1),
    (decide (c.p 2 2 < 1 ∨ 4094 < c.p 2 2), 2)]

/-- net.port: the role, the PHY's mode and the default VID. -/
def runNetPort (s : State) (c : Cmd) : State × Res :=
  let p := c.p 0 1
  let role := bits (c.p 1 1) 1 0
  let s0 := if role = 0 then s.linkTo p false else s
  let s1 := s0.modPort p (fun x =>
    { x with role := role, slave := bit (c.p 1 1) 7 == 1, pvid := c.p 2 2
             tx := if x.role = 2 ∧ role ≠ 2 then [] else x.tx, rx := if x.role = 2 ∧ role ≠ 2 then [] else x.rx })
  let s2 := if role = 1 then s1 else s1.modNet (fun n => n.stopSamples p)
  (s2.modNet (fun n => n.join p (c.p 2 2)), .done 0)

/-- NET_PORT (R382). -/
def execNetPort (q k : Nat) (s : State) : Host.Outcome State Fault Refusal := s.opcodeRow 0x0B01 false chkNetPort runNetPort q k

/-- The checks of net.vlan. -/
def chkNetVlan (_ : State) (c : Cmd) : Check10 :=
  firstBad [(decide (c.p 0 2 < 1 ∨ 4094 < c.p 0 2), 0), (decide (4096 ≤ c.p 2 2), 2), (c.p 4 2 &&& c.p 2 2 != c.p 4 2, 4)]

/-- net.vlan. -/
def runNetVlan (s : State) (c : Cmd) : State × Res :=
  if c.p 2 2 ≠ 0 ∧ (s.net.vlan (c.p 0 2)).isNone ∧ 256 ≤ s.net.vlans.length then (s, .fail stNoResource)
  else (s.modNet (fun n => n.setVlan ⟨c.p 0 2, c.p 2 2, c.p 4 2⟩), .done 0)

/-- NET_VLAN (R398). -/
def execNetVlan (q k : Nat) (s : State) : Host.Outcome State Fault Refusal := s.opcodeRow 0x0B02 false chkNetVlan runNetVlan q k

/-- The sum of a port's idle slopes with one class's set. -/
def State.slopeSum (s : State) (p cls slope : Nat) : Nat :=
  (List.range 8).foldl (fun a k => a + (if k = cls then slope else (vget ⟨0, 0, 0⟩ (s.nport p).shapers k).slope)) 0

/-- The checks of net.shaper. -/
def chkNetShaper (s : State) (c : Cmd) : Check10 :=
  firstBad [(decide (11 < c.p 0 1), 0), (decide (7 < c.p 1 1), 1), (decide (7500000 < s.slopeSum (c.p 0 1) (c.p 1 1) (c.p 2 4)), 2)]

/-- net.shaper: a shaper starts with no credit. -/
def runNetShaper (s : State) (c : Cmd) : State × Res :=
  (s.modPort (c.p 0 1) (fun x => { x with shapers := vset x.shapers (c.p 1 1) ⟨c.p 2 4, 0, s.time.half⟩ }), .done 0)

/-- NET_SHAPER (R388). -/
def execNetShaper (q k : Nat) (s : State) : Host.Outcome State Fault Refusal := s.opcodeRow 0x0B03 false chkNetShaper runNetShaper q k

/-- The checks of net.filter. -/
def chkNetFilter (_ : State) (c : Cmd) : Check10 :=
  firstBad [(decide (255 < c.p 0 2), 0), (decide (2 ^ 60 ≤ c.p 2 8), 2),
    (decide (c.p 10 4 ≠ 0 ∧ (c.p 14 4 < 64 ∨ 16777216 < c.p 14 4)), 14), (decide (11 < c.p 18 1 ∧ c.p 18 1 ≠ 0xFF), 18)]

/-- net.filter: the bucket is full when the filter is set. -/
def runNetFilter (s : State) (c : Cmd) : State × Res :=
  let i := c.p 0 2
  let f : Filter :=
    { mac := bits (c.p 2 8) 47 0, vid := bits (c.p 2 8) 59 48, rate := c.p 10 4, burst := c.p 14 4, port := c.p 18 1
      tokens := c.p 14 4 * 16000000, at_ := s.time.half }
  (s.modNet (fun n => { n with filters := if f.rate = 0 then aerase n.filters i else aset n.filters i f }), .done 0)

/-- NET_FILTER (R389). -/
def execNetFilter (q k : Nat) (s : State) : Host.Outcome State Fault Refusal := s.opcodeRow 0x0B04 false chkNetFilter runNetFilter q k

/-- A range of a template is all zero. -/
def zeroAt (l : List Byte) (off n : Nat) : Bool := (slice l off n).all (fun b => b == 0)

/-- The bytes of a template's slot: its own SLOT_BYTES, or those of the fusion stream it names (R329, R391). -/
def slotSizeOf (l : List Byte) : Nat := if byteAt l 0 = 1 ∧ byteAt l 29 < 36 then ringSlotBytes (byteAt l 29) else leAt l 24 4

/-- The ring fields of a template are as R391 has them. -/
def State.ringFieldsOk (s : State) (l : List Byte) : Bool :=
  let base := leAt l 16 8
  let size := leAt l 24 4
  let lg := byteAt l 28
  if byteAt l 0 = 1 ∧ byteAt l 29 < 36 then base == 0 && size == 0 && lg == 0
  else
    byteAt l 29 == 0xFF && base % 64 == 0 && size % 64 == 0 && decide (64 ≤ size ∧ size ≤ 16777216) &&
      decide (1 ≤ lg ∧ lg ≤ 12) && s.inT1Host base (size * 2 ^ lg)

/-- The fields of a KIND 0 template are as R391 and R393 have them. -/
def videoFieldsOk (l : List Byte) : Bool :=
  let lb := leAt l 32 4
  let n := leAt l 36 2
  let co := leAt l 40 2
  decide (1 ≤ lb ∧ lb ≤ 65536) && decide (1 ≤ n ∧ n ≤ 16384) && decide (byteAt l 38 ≤ 1) && zeroAt l 39 1 &&
    (co == 0xFFFF || decide (co + 4 ≤ lb)) && zeroAt l 42 22 && zeroAt l 64 64 && decide (64 + n * lb ≤ leAt l 24 4)

/-- The fields of a KIND 1 template are as R391 and R394 have them. -/
def datagramFieldsOk (l : List Byte) : Bool :=
  let n := byteAt l 38
  zeroAt l 14 2 && [0, 2, 4].contains (byteAt l 34) && decide (byteAt l 35 ≤ 1) && decide (1 ≤ n ∧ n ≤ 8) && zeroAt l 39 25 &&
    (List.range n).all (fun i =>
      let e := slice l (64 + 8 * i) 8
      decide (4 ≤ leAt e 4 2) && [0, 2, 4].contains (leAt e 6 2) && decide (leAt e 4 2 + leAt e 2 2 ≤ slotSizeOf l)) &&
    zeroAt l (64 + 8 * n) (64 - 8 * n)

/-- Every field of a template is as R391 to R394 have it. -/
def State.templateOk (s : State) (l : List Byte) : Bool :=
  let p := byteAt l 1
  decide (byteAt l 0 ≤ 1) && (decide (p ≤ 11) || p == 0xFF) && decide (byteAt l 2 ≤ 1) && zeroAt l 3 1 && zeroAt l 6 2 &&
    decide (leAt l 4 2 ≤ 4094) && zeroAt l 30 2 && s.ringFieldsOk l &&
    (if byteAt l 0 = 0 then videoFieldsOk l else datagramFieldsOk l)

/-- The fields by which two templates would match the same frames: KIND, PORT, VID and MATCH. -/
def matchKey (l : List Byte) : List Byte := slice l 0 2 ++ slice l 4 2 ++ slice l 8 8

/-- The checks of net.template. -/
def chkNetTemplate (s : State) (c : Cmd) : Check10 :=
  firstBad [(decide (63 < c.p 0 1), 0), (!s.inT1Host (c.p 1 8) 128, 1)]

/-- net.template: the 128 bytes are read once and kept. -/
def runNetTemplate (s : State) (c : Cmd) : State × Res :=
  let i := c.p 0 1
  let a := c.p 1 8
  let l := vals (s.peek a 128)
  let s1 := s.noteRead a 128
  if s.namesWithdrawn a 128 then (s, .fail stNoResource)
  else if s.anyPoison a 128 then s1.poisonedTable
  else if byteAt l 0 = 0xFF then (s1.modNet (fun n => n.setTemplate i none), .done 0)
  else if !s.templateOk l then (s1, .bad 1)
  else if s.net.templates.any (fun x => x.1 != i && matchKey x.2.bytes == matchKey l) then (s1, .fail stWrongState)
  else (s1.modNet (fun n => n.setTemplate i (some ⟨l, 0, 0, none, none, []⟩)), .done 0)

/-- NET_TEMPLATE (R391). -/
def execNetTemplate (q k : Nat) (s : State) : Host.Outcome State Fault Refusal := s.opcodeRow 0x0B05 false chkNetTemplate runNetTemplate q k

/-- The checks of net.key. -/
def chkNetKey (_ : State) (c : Cmd) : Check10 :=
  firstBad [(decide (11 < c.p 0 1), 0), (decide (32 ≤ c.p 1 1), 1),
    (bit (c.p 1 1) 3 == 0 && c.p 26 16 != 0, 26 + ((List.range 16).findIdx? (fun i => c.p (26 + i) 1 != 0)).getD 0)]

/-- net.key: an association is known by its number and its SCI; installing it replaces it and starts its packet numbers. -/
def runNetKey (s : State) (c : Cmd) : State × Res :=
  let p := c.p 0 1
  let b := c.p 1 1
  let a : Assoc := ⟨bits b 1 0, bit b 3, c.p 2 8, c.p 10 32, 0⟩
  let upd (l : List Assoc) : List Assoc :=
    let rest := l.filter (fun x => !(x.an == a.an && x.sci == a.sci))
    if bit b 4 = 1 then a :: rest else rest
  if (s.nport p).role ≠ 2 then (s, .fail stWrongState)
  else (s.modPort p (fun x => if bit b 2 = 1 then { x with tx := upd x.tx } else { x with rx := upd x.rx }), .done 0)

/-- NET_KEY (R396). -/
def execNetKey (q k : Nat) (s : State) : Host.Outcome State Fault Refusal := s.opcodeRow 0x0B06 false chkNetKey runNetKey q k

end Sys2Proof.Machine
end

