-- ==== Sys2Proof/Machine/Frames.lean ====
section
/-! DEFINITION. Frames through the switch: filters, sensor intake, forwarding and transmission (R381 to R397, R419). -/

namespace Sys2Proof.Machine

/-! ### Frames -/

/-- A frame after VLAN classification (R383): its addresses, tag fields, and what follows from the EtherType on. -/
structure Classified where
  head : List Byte
  vid : Nat
  pcp : Nat
  dei : Nat
  rest : List Byte
  deriving DecidableEq, Repr

/-- The classification of a frame: an untagged or priority-tagged one takes the port's default VID with priority 0. -/
def classify (pvid : Nat) (f : List Byte) : Classified :=
  let tci := beAt f 14 2
  if beAt f 12 2 = 0x8100 ∧ 18 ≤ f.length then
    (if tci % 4096 = 0 then ⟨f.take 12, pvid, 0, 0, f.drop 16⟩ else ⟨f.take 12, tci % 4096, tci / 8192, bit tci 12, f.drop 16⟩)
  else ⟨f.take 12, pvid, 0, 0, f.drop 12⟩

/-- A frame as it leaves a port, in the VLAN's untagged set or not. -/
def Classified.leaving (x : Classified) (untagged : Bool) : List Byte :=
  if untagged then x.head ++ x.rest
  else x.head ++ toBe 2 0x8100 ++ toBe 2 (x.pcp * 8192 + x.dei * 4096 + x.vid) ++ x.rest

/-- The destination address. -/
def Classified.dst (x : Classified) : Nat := beAt x.head 0 6
/-- The source address. -/
def Classified.src (x : Classified) : Nat := beAt x.head 6 6

/-- A group address. -/
def isGroup (mac : Nat) : Bool := bit mac 40 == 1

/-! ### MACsec on reception (R397) -/

/-- The receive association that verifies a protected frame, and the frame without protection. -/
def NetPort.verify (x : NetPort) (f : List Byte) : Option (Assoc × List Byte) :=
  let tci := byteAt f 14
  let pn := beAt f 16 4
  if beAt f 12 2 ≠ 0x88E5 then none
  else x.rx.findSome? (fun a =>
    if a.an = bits tci 1 0 ∧ (bit tci 5 = 0 ∨ beAt f 20 8 = a.sci) ∧ a.pn < pn then
      (macsecOpen a.cipher a.sci a.key a.an f).map (fun g => (a, g))
    else none)

/-- A received frame without its protection: `none` where it is dropped. -/
def State.unprotect (s : State) (p : Nat) (f : List Byte) : State × Option (List Byte) :=
  let x := s.nport p
  if x.rx.isEmpty then (s, some f)
  else match x.verify f with
    | none => (s.bump (netCtr p 0x28) 1, none)
    | some (a, g) =>
      (s.modPort p (fun x => { x with rx := x.rx.map (fun b => if b = a then { b with pn := beAt f 16 4 } else b) }), some g)

/-! ### Stream filters (R389, R390) -/

/-- The filter with the lowest index that matches a frame. -/
def NetSt.filterOf (n : NetSt) (p : Nat) (x : Classified) : Option (Nat × Filter) :=
  (List.range 256).findSome? (fun i => match alookup n.filters i with
    | some f => if f.mac = x.dst ∧ f.vid = x.vid ∧ (f.port = p ∨ f.port = 0xFF) then some (i, f) else none
    | none => none)

/-- A bucket brought up to date: full at its burst. -/
def Filter.fill (f : Filter) (now : Nat) : Filter :=
  { f with tokens := min (f.burst * 16000000) (f.tokens + f.rate * (now - f.at_)), at_ := now }

/-- A frame of `len` bytes, its FCS included, at the flow meter: passed or dropped. -/
def State.meter (s : State) (p len : Nat) (x : Classified) : State × Bool :=
  match s.net.filterOf p x with
  | none => (s, true)
  | some (i, f) =>
    let g := f.fill s.time.half
    let put (h : Filter) : State := s.modNet (fun n => { n with filters := aset n.filters i h })
    if len * 16000000 ≤ g.tokens then (put { g with tokens := g.tokens - len * 16000000 }, true)
    else ((put g).bump (netCtr p 0x20) 1, false)

/-! ### The frozen-or-repeated-frame detector (R419) -/

/-- A serial number of 32 bits is later than another. -/
def serialLater (a b : Nat) : Bool := decide (0 < (a + 2 ^ 32 - b) % 2 ^ 32 ∧ (a + 2 ^ 32 - b) % 2 ^ 32 < 2 ^ 31)

/-- FRAME_FROZEN on a port: counted, and the fusion streams of the port lie for 3 instants (R341, R419). -/
def State.frameFrozen (s : State) (p counter : Nat) : State :=
  let s1 := (s.raise 0x0903 89 p counter).bump (safeCtr (0x180 + 8 * p)) 1
  (List.range 36).foldl (fun s i =>
    if (s.stream i).configured && (s.stream i).port == p then s.modStream i (fun x => { x with frozenLeft := 3 }) else s) s1

/-- An image that a port's lowest-indexed KIND 0 template completed with STATUS 0 is judged. -/
def State.judgeImage (s : State) (p i hash counter : Nat) : State :=
  let d := vget ⟨false, []⟩ s.net.detectors p
  match s.net.videoOf p, alookup s.net.templates i with
  | some (k, _), some t =>
    if k = i ∧ d.enabled then
      let fromSensor := leAt t.bytes 40 2 != 0xFFFF
      let stuck := fromSensor && (match t.sensor with | some c => !serialLater counter c | none => false)
      let s1 := s.modNet (fun n =>
        { n with detectors := vmod n.detectors p (fun d => { d with hashes := (hash :: d.hashes).take 4 })
                 templates := aset n.templates i { t with sensor := some counter } })
      if d.hashes.contains hash || stuck then s1.frameFrozen p counter else s1
    else s
  | _, _ => s

/-! ### Sensor intake (R391 to R395) -/

/-- T1 is in self-refresh (R446, R457). -/
def State.t1Asleep (s : State) : Bool := decide (2 ≤ s.pwr.state) && decide (s.pwr.easyStep < 3)

/-- The intake may write T1: the die bridge up, T1 awake, and no state entry past its point 0 (R11, R392, R453). -/
def State.intakeOpen (s : State) : Bool :=
  !s.fault.bridge.down && !s.fault.bridge.lost && !s.t1Asleep && (match s.pwr.entry with | some e => e.stage == 0 | none => true)

/-- The ring a template writes: its base, its slot size and its slots; no slots where no ring is set (R329, R391). -/
def State.ringOf (s : State) (l : List Byte) : Nat × Nat × Nat :=
  let i := byteAt l 29
  if byteAt l 0 = 1 ∧ i < 36 then
    let x := s.stream i
    (x.ringBase, ringSlotBytes i, if x.ringLog2 = 0 then 0 else 2 ^ x.ringLog2)
  else (leAt l 16 8, leAt l 24 4, 2 ^ byteAt l 28)

/-- The address of a template's next slot, where it has a ring. -/
def State.slotOf (s : State) (t : Template) : Option Nat :=
  let (base, size, n) := s.ringOf t.bytes
  if n = 0 then none else some (base + t.next % n * size)

/-- The slot's READY is not 0. -/
def State.slotTaken (s : State) (a : Nat) : Bool := (s.peek a 4).any (fun b => b.v != 0)

/-- The state with template `i` changed. -/
def State.modTemplate (s : State) (i : Nat) (f : Template → Template) : State :=
  s.modNet (fun n => { n with templates := n.templates.map (fun x => if x.1 = i then (i, f x.2) else x) })

/-- A sample dropped on a port. -/
def State.intakeDrop (s : State) (p : Nat) : State := s.bump (netCtr p 0x30) 1

/-- The port timestamp of a frame: the elapsed count at its start, to within 8 ns (R395). -/
def State.stamp (s : State) : Nat × State :=
  let (k, s1) := s.draw
  ((s.elapsed + k % 17 + (2 ^ 64 - 8)) % 2 ^ 64, s1)

/-- The AVTP header of a KIND 0 frame, as IEEE 1722 lays it out: what follows the EtherType. -/
def Classified.avtp (x : Classified) : List Byte := x.rest.drop 2

/-- A frame matches a KIND 0 template by its stream ID. -/
def Classified.isVideo (x : Classified) (key : Nat) : Bool :=
  beAt x.rest 0 2 == 0x22F0 && decide (32 ≤ x.avtp.length) && byteAt x.avtp 0 == 7 && beAt x.avtp 4 8 == key

/-- The ones' complement sum of 16-bit words. -/
def onesSum : List Byte → Nat
  | [] => 0
  | [a] => a.toNat * 256
  | a :: b :: t => a.toNat * 256 + b.toNat + onesSum t

/-- The UDP payload of a frame that R394 accepts, its source address and its destination port. -/
def Classified.udp (x : Classified) : Option (Nat × Nat × List Byte) :=
  let ip := x.rest.drop 2
  let total := beAt ip 2 2
  let u := (ip.take total).drop 20
  let n := beAt u 4 2
  let seg := u.take n
  let sum := onesSum (slice ip 12 8 ++ toBe 2 17 ++ toBe 2 n ++ seg)
  if beAt x.rest 0 2 = 0x0800 ∧ byteAt ip 0 = 0x45 ∧ beAt ip 6 2 % 0x4000 = 0 ∧ byteAt ip 9 = 17 ∧ 28 ≤ total ∧ total ≤ ip.length ∧
      8 ≤ n ∧ n ≤ u.length ∧ (beAt u 6 2 = 0 ∨ (sum ≠ 0 ∧ sum % 65535 = 0)) then
    some (beAt ip 12 4, beAt u 2 2, seg.drop 8)
  else none

/-- A frame matches a template (R391). -/
def Template.matches_ (t : Template) (p : Nat) (x : Classified) : Bool :=
  t.covers p && (leAt t.bytes 4 2 == 0 || leAt t.bytes 4 2 == x.vid) &&
    (if t.kind = 0 then x.isVideo (leAt t.bytes 8 8)
     else match x.udp with
       | some (src, port, _) => (leAt t.bytes 8 4 == 0 || leAt t.bytes 8 4 == src) && leAt t.bytes 12 2 == port
       | none => false)

/-- An image is complete: its header is written, READY last, unless its counter plus 1 is 0, and it is judged
(R392, R393, R419). -/
def State.endImage (s : State) (i p tObs arrival : Nat) : State :=
  match alookup s.net.templates i with
  | none => s
  | some t =>
    let l := t.bytes
    let lb := leAt l 32 4
    let n := leAt l 36 2
    let co := leAt l 40 2
    let line (k : Nat) : List Byte := (alookup t.lines k).getD (List.replicate lb 0)
    let missing := (List.range n).countP (fun k => (alookup t.lines k).isNone)
    let (k, s0) : Nat × State := if co ≠ 0xFFFF ∧ (alookup t.lines 0).isNone then s.draw else (0, s)
    let counter := if co = 0xFFFF then t.count % 2 ^ 32 else match alookup t.lines 0 with | some b => beAt b co 4 | none => k % 2 ^ 32
    let s1 := s0.modTemplate i (fun t => { t with busy := none, lines := [], count := (t.count + 1) % 2 ^ 32 })
    match s.slotOf t with
    | none => s1.intakeDrop p
    | some a =>
      if counter = 2 ^ 32 - 1 then s1.intakeDrop p
      else
        let hash := crc64 ((List.range n).flatMap line)
        let s2 := s1.storeClean a (toLe 4 (counter + 1) ++ toLe 4 (b2n (0 < missing)) ++ toLe 8 tObs ++ toLe 8 arrival ++ toLe 8 hash ++
          toLe 2 missing ++ List.replicate 30 0)
        let s3 := s2.modTemplate i (fun t => { t with next := (t.next + 1) % 2 ^ byteAt l 28 })
        if missing = 0 then s3.judgeImage p i hash counter else s3

/-- A packet of a KIND 0 template (R393): whole lines are written, the image begins with its first packet and ends with the
one whose end-of-frame bit is set. -/
def State.takeLines (s : State) (i p : Nat) (t : Template) (x : Classified) : State :=
  let l := t.bytes
  let lb := leAt l 32 4
  let h := x.avtp
  let len := beAt h 20 2 - 8
  let data := (h.drop 32).take len
  let ln := beAt h 30 2
  let first := ln - byteAt l 38
  let n := len / lb
  if len = 0 ∨ n * lb ≠ len ∨ data.length ≠ len ∨ ln < byteAt l 38 ∨ leAt l 36 2 < first + n then s.intakeDrop p
  else
    let (at_, s0) := s.stamp
    let slot := s.slotOf t
    let free := match slot with | some a => !s.slotTaken a | none => false
    let (begun, tObs, dropped) : Nat × Nat × Bool := t.busy.getD (p, at_, !free)
    let drop := dropped || !s.intakeOpen
    let s1 := if drop && (!dropped || t.busy.isNone) then s0.intakeDrop p else s0
    let rows := (List.range n).map (fun k => (first + k, slice data (k * lb) lb))
    let s2 := s1.modTemplate i (fun t =>
      { t with busy := some (begun, tObs, drop), lines := if drop then [] else rows.foldl (fun m r => aset m r.1 r.2) t.lines })
    let s3 := if drop then s2 else match slot with
      | some a => s2.storeClean (a + 64 + first * lb) data
      | none => s2
    if bit (byteAt h 22) 4 = 0 then s3
    else if drop then s3.modTemplate i (fun t => { t with busy := none, lines := [], count := (t.count + 1) % 2 ^ 32 })
    else s3.endImage i begun tObs at_

/-- The bytes of each whole element reversed; those of a part left over at the end are open. -/
def swapBytes (size free : Nat) (l : List Byte) : List Byte :=
  if size = 0 then l
  else
    let n := l.length / size
    ((List.range n).flatMap (fun k => (slice l (k * size) size).reverse)) ++
      (List.range (l.length - n * size)).map (fun k => BitVec.ofNat 8 (Config.freeValue (free + k)))

/-- A copy entry of a KIND 1 template written into its slot (R394). -/
def State.putCopy (s : State) (a : Nat) (payload e : List Byte) : State :=
  let n := leAt e 2 2
  let b := (List.range n).map (fun k => payload.getD (leAt e 0 2 + k) 0)
  let sw := leAt e 6 2
  { s.storeClean (a + leAt e 4 2) (swapBytes sw s.free b) with free := s.free + (if sw = 0 then 0 else n % sw) }

/-- The counter of a datagram: the intake's own, or the sensor's, one of 2 bytes extended by serial-number comparison; open
where the payload does not reach it (R394). -/
def State.datagramCounter (s : State) (t : Template) (payload : List Byte) : Nat × State :=
  let l := t.bytes
  let size := byteAt l 34
  let off := leAt l 32 2
  if size = 0 then (t.count % 2 ^ 32, s)
  else
    let (k, s1) : Nat × State := if off + size ≤ payload.length then (0, s) else s.draw
    let raw := if off + size ≤ payload.length then (if byteAt l 35 = 1 then beAt payload off size else leAt payload off size)
      else k % 2 ^ (8 * size)
    let c := if size = 4 then raw
      else match t.sensor with
        | none => raw
        | some e =>
          let d := (raw + 65536 - e % 65536) % 65536
          if d < 32768 then (e + d) % 2 ^ 32 else (e + d + 2 ^ 32 - 65536) % 2 ^ 32
    (c, s1)

/-- A datagram of a KIND 1 template (R392, R394). -/
def State.takeDatagram (s : State) (i p : Nat) (t : Template) (payload : List Byte) : State :=
  let l := t.bytes
  if payload.length < leAt l 36 2 then s.intakeDrop p
  else
    let (at_, s0) := s.stamp
    let (c, s1) := s0.datagramCounter t payload
    let s2 := s1.modTemplate i (fun t => { t with count := (t.count + 1) % 2 ^ 32, sensor := some c })
    match s.slotOf t with
    | none => s2.intakeDrop p
    | some a =>
      if s.slotTaken a || c == 2 ^ 32 - 1 || !s.intakeOpen then s2.intakeDrop p
      else
        let s3 := s2.storeClean (a + 5) [0, 0, 0]
        let s4 := (List.range (byteAt l 38)).foldl (fun s k => s.putCopy a payload (slice l (64 + 8 * k) 8)) s3
        let s5 := (s4.storeClean (a + 8) (toLe 8 at_ ++ toLe 8 at_)).storeClean (a + 4) [0]
        (s5.storeClean a (toLe 4 (c + 1))).modTemplate i (fun t => { t with next := (t.next + 1) % (s.ringOf l).2.2 })

/-- A frame that a template takes (R391). -/
def State.intake (s : State) (i p : Nat) (t : Template) (x : Classified) : State :=
  if t.kind = 0 then s.takeLines i p t x
  else match x.udp with
    | some (_, _, payload) => s.takeDatagram i p t payload
    | none => s

/-! ### Shapers and transmission (R384, R388, R397) -/

/-- Half nanoseconds that a frame of `n` bytes, FCS included, occupies a port with its preamble and its gap: 0.8 ns a
byte, rounded up. -/
def frameTime (n : Nat) : Nat := ((n + 20) * 8 + 4) / 5

/-- The credit brought up to date (IEEE 802.1Qav): it rises by the idle slope while a frame waits or it is negative, up to
the limit for a largest frame of 9,216 bytes, and a positive credit is lost when no frame waits. -/
def Shaper.settle (x : Shaper) (waiting : Bool) (now : Nat) : Shaper :=
  if now ≤ x.at_ ∨ x.slope = 0 then x
  else
    let c := x.credit + ((5 * x.slope * (now - x.at_) : Nat) : Int)
    let hi : Int := if waiting then ((73728 * x.slope : Nat) : Int) else 0
    { x with credit := if waiting then min c hi else min c 0, at_ := now }

/-- The credit after sending for a time: it falls by the send slope, down to the standard's limit. -/
def Shaper.send (x : Shaper) (dur now : Nat) : Shaper :=
  if x.slope = 0 then x
  else
    let lo : Int := -((73728 * (10000000 - x.slope) : Nat) : Int)
    { x with credit := max lo (x.credit - ((5 * (10000000 - x.slope) * dur : Nat) : Int)), at_ := now + dur }

/-- A port's queue is eligible (R384). -/
def NetPort.eligible (x : NetPort) (q now : Nat) : Bool :=
  let sh := vget ⟨0, 0, 0⟩ x.shapers q
  sh.slope == 0 || decide (0 ≤ (sh.settle (!(vget [] x.queues q).isEmpty) now).credit)

/-- A port that can send: enabled, its link up. -/
def NetPort.live (x : NetPort) : Bool := x.link && x.role != 0

/-- A frame sent on a port from a queue class, `bad` with its FCS inverted. Under a transmit association it takes the next
packet number, or is withheld when the numbers have run out. -/
def State.sendFrame (s : State) (p q : Nat) (f : List Byte) (bad : Bool) : State :=
  let x := s.nport p
  let go (s : State) (g : List Byte) : State :=
    let wire := g ++ (if bad then (fcs g).map (fun b => ~~~b) else fcs g)
    let d := frameTime wire.length
    s.modPort p (fun x =>
      { x with sent := wire, busyUntil := s.time.half + d
               shapers := vmod x.shapers q (fun h => (h.settle true s.time.half).send d s.time.half) })
  match x.tx with
  | [] => go s f
  | a :: rest =>
    if 0xFFFFFFFF ≤ a.pn then s.bump (netCtr p 0x28) 1
    else go (s.modPort p (fun x => { x with tx := { a with pn := a.pn + 1 } :: rest }))
      (macsecSeal a.cipher a.sci a.key a.an (a.pn + 1) f)

/-- The highest-numbered queue of a port that holds a frame and is eligible (R384). -/
def NetPort.nextFrame (x : NetPort) (now : Nat) : Option (Nat × List Byte) :=
  (List.range 8).reverse.findSome? (fun q => match vget [] x.queues q with
    | f :: _ => if x.eligible q now then some (q, f) else none
    | [] => none)

/-- FRAME_TRANSMIT (R384): an idle port starts sending the frame of its highest eligible queue. -/
def execFrameTransmit (port : Nat) (s : State) : Host.Outcome State Fault Refusal :=
  .next (
    let x := s.nport port
    if !s.netOn || decide (11 < port) || !x.live || decide (s.time.half < x.busyUntil) then s
    else match x.nextFrame s.time.half with
      | none => s
      | some (q, f) => (s.sendFrame port q f false).modPort port (fun x => { x with queues := vmod x.queues q (fun l => l.drop 1) }))

/-! ### Forwarding (R383, R385, R386) -/

/-- Bytes of the buffer that a port's queues hold, each frame with its FCS. -/
def NetPort.held (x : NetPort) : Nat :=
  x.queues.toList.foldl (fun a l => a + l.foldl (fun b f => b + f.length + 4) 0) 0

/-- Bytes of the buffer in use. -/
def NetSt.used (n : NetSt) : Nat := n.ports.toList.foldl (fun a x => a + x.held) 0

/-- The source address learnt, or its entry refreshed (R383). -/
def NetSt.learnFrom (n : NetSt) (p : Nat) (x : Classified) (now : Nat) : NetSt :=
  if isGroup x.src then n
  else if n.fdb.any (fun e => e.mac == x.src && e.vid == x.vid) then
    { n with fdb := n.fdb.map (fun e => if e.mac = x.src ∧ e.vid = x.vid then { e with seen := now, port := if n.learn then p else e.port } else e) }
  else if n.learn && decide (n.fdb.length < 8192) then { n with fdb := n.fdb ++ [⟨x.src, x.vid, p, now⟩] }
  else n

/-- The ports a frame is forwarded to, and whether one port is decided (R383): never its own. -/
def NetSt.targets (n : NetSt) (p : Nat) (x : Classified) : List Nat × Bool :=
  let up (q : Nat) : Bool := q != p && (vget (NetPort.reset 0 false) n.ports q).live
  let known := if isGroup x.dst then none else n.fdb.find? (fun e => e.mac == x.dst && e.vid == x.vid)
  match known with
  | some e => ([e.port].filter up, true)
  | none => match n.vlan x.vid with
    | some v => ((List.range 12).filter (fun q => bit v.members q == 1 && up q), false)
    | none => ([], false)

/-- A frame as it leaves a port. -/
def NetSt.shaped (n : NetSt) (x : Classified) (q : Nat) : List Byte :=
  x.leaving (match n.vlan x.vid with | some v => bit v.untagged q == 1 | none => false)

/-- A frame placed in a port's queue, its shaper brought up to date. -/
def State.enqueue (s : State) (x : Classified) (p : Nat) : State :=
  let f := s.net.shaped x p
  s.modPort p (fun y =>
    { y with shapers := vmod y.shapers x.pcp (fun h => h.settle (!(vget [] y.queues x.pcp).isEmpty) s.time.half)
             queues := vmod y.queues x.pcp (fun l => l ++ [f]) })

/-- The port that sends a frame cut-through, if it does (R385): it arrived on `p` with `len` bytes, FCS included. -/
def State.cutThrough (s : State) (p len : Nat) (x : Classified) : Option Nat :=
  match s.net.targets p x with
  | ([q], true) =>
    let y := s.nport q
    if 64 ≤ len ∧ (s.nport p).rx.isEmpty ∧ (s.net.filterOf p x).isNone ∧ y.busyUntil ≤ s.time.half ∧
        (List.range 8).all (fun k => decide (k < x.pcp) || (vget [] y.queues k).isEmpty) ∧ y.eligible x.pcp s.time.half then some q
    else none
  | _ => none

/-- A frame forwarded: cut-through, or stored in every egress queue if all its copies have room (R385, R386). -/
def State.forward (s : State) (p len : Nat) (x : Classified) : State :=
  match s.cutThrough p len x with
  | some q => s.sendFrame q x.pcp (s.net.shaped x q) false
  | none =>
    let ts := (s.net.targets p x).1
    let size (q : Nat) : Nat := (s.net.shaped x q).length + 4
    let total := ts.foldl (fun a q => a + size q) 0
    if 2 ^ 25 < s.net.used + total ∨ ts.any (fun q => decide (2 ^ 23 < (s.nport q).held + size q)) then s.bump (netCtr p 0x18) 1
    else
      let s1 := ts.foldl (fun s q => s.enqueue x q) s
      s1.modNet (fun n => { n with peakKib := max n.peakKib ((n.used + 1023) / 1024) })

/-- A frame of `len` bytes on the wire, unprotected, is classified, filtered, and taken or forwarded. -/
def State.bridge (s : State) (p len : Nat) (f : List Byte) : State :=
  let x := classify (s.nport p).pvid f
  match s.net.vlan x.vid with
  | none => s.bump (netCtr p 0x20) 1
  | some v =>
    if bit v.members p = 0 then s.bump (netCtr p 0x20) 1
    else match s.meter p len x with
      | (s1, false) => s1
      | (s1, true) =>
        let s2 := s1.modNet (fun n => n.learnFrom p x s.time.half)
        match (if (s.nport p).role = 1 then s.net.lowest (fun t => t.matches_ p x) else none) with
        | none => s2.forward p len x
        | some (i, t) =>
          let s3 := s2.intake i p t x
          if bit (byteAt t.bytes 2) 0 = 1 then s3.forward p len x else s3

/-- A frame with a bad FCS: counted, and cut off with an inverted FCS where cut-through had started it (R381, R385). -/
def State.badFrame (s : State) (p : Nat) (f : List Byte) : State :=
  let s1 := s.bump (netCtr p 0x08) 1
  let x := classify (s.nport p).pvid f
  let member := match s.net.vlan x.vid with | some v => bit v.members p == 1 | none => false
  let taken := (s.nport p).role == 1 && (s.net.lowest (fun t => t.matches_ p x && bit (byteAt t.bytes 2) 0 == 0)).isSome
  match s.cutThrough p (f.length + 4) x with
  | some q => if member && !taken then s1.sendFrame q x.pcp (s.net.shaped x q) true else s1
  | none => s1

/-- FRAME_RECEIVE (R381, R383, R395): a frame, given without its FCS, arrives on a port; `bad` tells that its FCS is wrong.
On a joint port the switch only counts. -/
def execFrameReceive (port : Nat) (frame : List Byte) (bad : Bool) (s : State) : Host.Outcome State Fault Refusal :=
  .next (
    let x := s.nport port
    let len := frame.length + 4
    if !s.netOn || decide (15 < port) || !x.live then s
    else if 9216 < len then s.bump (netCtr port 0x10) 1
    else if 12 ≤ port then (if bad then s.bump (netCtr port 0x08) 1 else s)
    else if bad then s.badFrame port frame
    else if frame.length < 14 then s
    else match s.unprotect port frame with
      | (s1, none) => s1
      | (s1, some f) => s1.bridge port len f)

end Sys2Proof.Machine
end

