-- ==== Sys2Proof/Machine/Umpires.lean ====
section
/-! DEFINITION. The safety island's commands and the umpires' self-test (R402, R407, R408, R415 to R421). -/

namespace Sys2Proof.Machine

/-! ### safe.job (R402, R407, R408) -/

/-- The images that `safe.job` accepts have one phase, of KIND 0, SEQUENCE clear, ORDER_FIXED set, SEED not 0 (R402). -/
def Model.safePhase (m : Model) : Option PhaseEntry :=
  match m.phases with
  | [p] => if p.kind = 0 ∧ !p.sequence ∧ p.orderFixed ∧ p.seed ≠ 0 then some p else none
  | _ => none

/-- The known output's trailer is as R407 has it. -/
def trailerOk (l : List Byte) : Bool := decide (leAt l 0 2 < 512) && (l.drop 2).all (fun b => b == 0)

/-- A range copied into pool frames from frame `f` on, poison with it. -/
def State.copyIn (s : State) (f a n : Nat) : State := (s.noteRead a n).storeBytes (frameAddr f) (s.peek a n)

/-- Both copies made and the model marked: the expected golden signature is taken over the known output (R408). -/
def State.mark (s : State) (h inp outp nIn nOut : Nat) : State × Res :=
  let s0 := s.unmark h
  let fi := max 1 (ceilDiv nIn 16384)
  let fo := max 1 (ceilDiv (nOut + 64) 16384)
  match s0.allocFrames fi with
  | none => (s, .fail stNoResource)
  | some (i, s1) => match s1.allocFrames fo with
    | none => (s, .fail stNoResource)
    | some (o, s2) =>
      let b := (s.peek outp (nOut + 2)).map (fun x => if x.p then 0 else x.v)
      let s3 := (s2.copyIn i inp nIn).copyIn o outp (nOut + 64)
      (s3.modModel h (fun m => { m with safe := some ⟨⟨i, fi⟩, ⟨o, fo⟩, crc64 b⟩ }), .done 0)

/-- A placement has a write grant in RELOC (R266). -/
def Model.writeGrant (m : Model) (p : Placement) : Bool :=
  (List.range (min p.grantCount 14)).any (fun i => match m.relocs[p.grants + 2 * i + 1]? with | some l => (m.relocated l).2 | none => false)

/-- safe.job has no value to check before its own order of checks. -/
def chkSafeJob (_ : State) (_ : Cmd) : Check10 := none

/-- safe.job. -/
def runSafeJob (s : State) (c : Cmd) : State × Res :=
  let h := c.p 0 4
  let inp := c.p 4 8
  let outp := c.p 12 8
  match s.model h with
  | none => (s, .fail stModelAbsent)
  | some m =>
    if !m.pinned then (s, .fail stWrongState)
    else if m.inUse ≠ 0 then (s, .fail stWrongState)
    else if inp = 0 ∧ outp = 0 then (s.unmark h, .done 0)
    else match m.safePhase with
      | none => (s, .bad 0)
      | some p =>
        if 2 ^ 20 < p.inBytes ∨ 2 ^ 20 < p.outBytes ∨ m.placements.any m.writeGrant then (s, .bad 0)
        else if !s.inT1Host inp p.inBytes then (s, .bad 4)
        else if !s.inT1Host outp (p.outBytes + 64) || !trailerOk (vals (s.peek (outp + p.outBytes) 64)) then (s, .bad 12)
        else if s.namesWithdrawn inp p.inBytes || s.namesWithdrawn outp (p.outBytes + 64) then (s, .fail stNoResource)
        else s.mark h inp outp p.inBytes p.outBytes

/-- SAFE_JOB (R402). -/
def execSafeJob (q k : Nat) (s : State) : Host.Outcome State Fault Refusal := s.opcodeRow 0x0901 false chkSafeJob runSafeJob q k

/-! ### safe.frozen and safe.selftest (R419, R420) -/

/-- The checks of safe.frozen. -/
def chkSafeFrozen (_ : State) (c : Cmd) : Check10 := firstBad [(decide (11 < c.p 0 1), 0), (decide (1 < c.p 1 1), 1)]

/-- safe.frozen: enabling a port clears its remembered hashes. -/
def runSafeFrozen (s : State) (c : Cmd) : State × Res :=
  let d := vget ⟨false, []⟩ s.net.detectors (c.p 0 1)
  let on := c.p 1 1 == 1
  (s.modNet (fun n => { n with detectors := vset n.detectors (c.p 0 1) ⟨on, if on then [] else d.hashes⟩ }), .done (b2n d.enabled))

/-- SAFE_FROZEN (R419). -/
def execSafeFrozen (q k : Nat) (s : State) : Host.Outcome State Fault Refusal := s.opcodeRow 0x0902 false chkSafeFrozen runSafeFrozen q k

/-- An umpire never tested. -/
def Umpire.fresh : Umpire := ⟨false, false, false, 0, 0, 0, 0, false⟩

/-- An umpire's entry; a fresh one outside 0 to 7. -/
def State.umpire (s : State) (u : Nat) : Umpire := vget Umpire.fresh s.safe.umpires u

/-- The state with an umpire changed. -/
def State.modUmpire (s : State) (u : Nat) (f : Umpire → Umpire) : State :=
  { s with safe := { s.safe with umpires := vmod s.safe.umpires u f } }

/-- MODE of an umpire: 3 failed, 1 testing, 2 overdue, 0 in service (R420, R421). -/
def Umpire.mode (x : Umpire) : Nat := if x.failed then 3 else if x.testing then 1 else if x.stale then 2 else 0

/-- An umpire's 16 bytes of the self-test report (R420). -/
def Umpire.entry (x : Umpire) : List Byte :=
  toLe 1 x.mode ++ toLe 1 x.segment ++ toLe 2 x.abandoned ++ toLe 4 x.tests ++ toLe 8 (x.last / 2)

/-- The check of safe.selftest. -/
def chkSafeSelftest (s : State) (c : Cmd) : Check10 := firstBad [(!s.destOk (c.p 0 8) 128, 0)]

/-- safe.selftest. -/
def runSafeSelftest (s : State) (c : Cmd) : State × Res :=
  (s.storeClean (c.p 0 8) (s.safe.umpires.toList.flatMap Umpire.entry), .done 128)

/-- SAFE_SELFTEST (R420). -/
def execSafeSelftest (q k : Nat) (s : State) : Host.Outcome State Fault Refusal :=
  s.opcodeRow 0x0903 false chkSafeSelftest runSafeSelftest q k

/-! ### SAFE.VERDICT (R421) -/

/-- SAFE.VERDICT as a word. -/
def SafeSt.verdictWord (x : SafeSt) : Nat := x.ringBase + x.ringLog2 * 2 ^ 48

/-- SAFE.VERDICT written: a ring outside a data window or the T1 host region, misaligned, or of a size not listed keeps the old
value. A ring named begins empty, its TAIL 0. -/
def State.writeVerdict (s : State) (v mask : Nat) : State :=
  let w := mergeBits s.safe.verdictWord v (mask % 2 ^ 53)
  let base := bits w 47 0
  let lg := bits w 52 48
  let size := 64 + 32 * 2 ^ lg
  let ok := base % 64 == 0 && (lg == 0 || (decide (4 ≤ lg ∧ lg ≤ 16) && s.destOk base size))
  if mask % 2 ^ 53 = 0 ∨ !ok then s
  else
    let s1 : State := { s with safe := { s.safe with ringBase := base, ringLog2 := lg, tail := 0 } }
    if lg = 0 then s1 else s1.putTail base 0

/-- SAFE_VERDICT_WRITE (R421). -/
def execSafeVerdictWrite (v mask : Nat) (s : State) : Host.Outcome State Fault Refusal := .next (s.writeVerdict v mask)

/-! ### The self-test (R415 to R418) -/

/-- The self-test may run: the island on, no state entry past its point 0, in Row or Paddle, retention restored after a return from
Easy, and the island up after a start (R453, R457, R498). The die bridge does not matter to it (R7). -/
def State.testsRun (s : State) : Bool :=
  s.domOn 89 && decide (s.pwr.state < 2 ∧ 4 ≤ s.pwr.easyStep) && s.reached 0 &&
    (match s.pwr.entry with | some e => e.stage == 0 | none => true)

/-- A step of a safety-relevant model runs on an umpire's tiles. -/
def State.safeOn (s : State) (u : Nat) : Bool :=
  s.sched.jobs.any (fun j => !(j.state == .ready || j.state == .spilled) && s.jobSafe j && j.tiles.any (fun t => t / 16 == u))

/-- The shortest interval between consecutive entries of a list, newest first. -/
def shortest : List Nat → Option Nat
  | a :: b :: t => match shortest (b :: t) with
    | some m => some (min m (a - b))
    | none => some (a - b)
  | _ => none

/-- A class-0 step of a safety-relevant model is predicted to become ready within 20 µs (R416). -/
def State.soonReady (s : State) : Bool :=
  s.sched.clients.any (fun p =>
    p.2.cls == 0 && p.2.readySafe &&
      (match p.2.readies, shortest p.2.readies with
        | a :: _, some m => decide (s.time.half ≤ a + m ∧ a + m ≤ s.time.half + us 20)
        | _, _ => false))

/-- SEGMENT_START (R415, R416): an umpire's next segment starts. -/
def execSegmentStart (u : Nat) (s : State) : Host.Outcome State Fault Refusal :=
  .next (
    let x := s.umpire u
    if decide (7 < u) || x.failed || x.testing || !s.testsRun || s.safeOn u || s.soonReady then s
    else s.modUmpire u (fun x => { x with testing := true }))

/-- The elapsed count from which an umpire's latent-fault interval runs (R415). -/
def State.intervalFrom (s : State) (u : Nat) : Nat := if (s.umpire u).last = 0 then s.start.t0 else (s.umpire u).last

/-- A gap hold of 20 µs is asked for (R302, R417). -/
def State.askGap (s : State) (u : Nat) : State :=
  if s.sched.gaps.any (fun g => g.1 == u) then s
  else
    let s1 : State := { s with sched := { s.sched with gaps := s.sched.gaps ++ [(u, none, us 20)] } }
    (s1.bump (schedCtr 0x20) 1).markHeld.markGaps

/-- An umpire's gap holds end. -/
def State.dropGap (s : State) (u : Nat) : State := { s with sched := { s.sched with gaps := s.sched.gaps.filter (fun g => g.1 != u) } }

/-- A failed segment (R418): its umpire is FAILED until the next start. -/
def State.segmentFail (s : State) (u : Nat) : State :=
  (((s.modUmpire u (fun x => { x with testing := false, failed := true, holdReq := false })).dropGap u).raise 0x0901 89 0 (u + 256)).bump
    (safeCtr 0x130) 1

/-- SEGMENT_END (R415, R417, R418): the segment passed, and after the sixteenth the test is complete and the stale bit clear;
or it failed. -/
def execSegmentEnd (u : Nat) (pass : Bool) (s : State) : Host.Outcome State Fault Refusal :=
  .next (
    let x := s.umpire u
    if !x.testing then s
    else if !pass then (s.segmentFail u).schedule
    else if x.segment < 15 then
      let s1 := s.modUmpire u (fun x => { x with testing := false, segment := x.segment + 1 })
      (if x.holdReq then s1.askGap u else s1).schedule
    else
      ((s.modUmpire u (fun x =>
        { x with testing := false, segment := 0, tests := min (x.tests + 1) 0xFFFFFFFF, last := s.time.half, stale := false
                 holdReq := false })).dropGap u).schedule)

/-- TEST_DEFERRAL (R417): 90 ms of an umpire's interval have passed with segments left; it asks for a gap. -/
def execTestDeferral (u : Nat) (s : State) : Host.Outcome State Fault Refusal :=
  .next (
    let x := s.umpire u
    if decide (7 < u) || x.failed || x.testing || !s.testsRun || !s.since (s.intervalFrom u) (us 90000) then s
    else (s.modUmpire u (fun x => { x with holdReq := true })).askGap u)

/-- CHECKER_TEST_OVERDUE (R417): 100 ms of an umpire's interval have passed. -/
def execCheckerTestOverdue (u : Nat) (s : State) : Host.Outcome State Fault Refusal :=
  .next (
    let x := s.umpire u
    if decide (7 < u) || x.failed || x.stale || decide (2 ≤ s.pwr.state ∨ s.pwr.easyStep < 6) || !s.domOn 89 ||
        !s.since (s.intervalFrom u) (us 100000) then s
    else ((s.modUmpire u (fun x => { x with stale := true })).raise 0x0901 89 0 u).bump (safeCtr 0x130) 1)

/-- GAP_HOLD_ELAPSED (R302): a gap of the length asked for has passed with no held kind of step running. -/
def execGapHoldElapsed (u : Nat) (s : State) : Host.Outcome State Fault Refusal :=
  .next (match s.sched.gaps.find? (fun g => g.1 == u) with
    | some (_, some t, n) => if s.since t n && !s.safeRuns then (s.dropGap u).schedule else s
    | _ => s)

end Sys2Proof.Machine
end

