-- ==== Sys2Proof/Machine/Cap.lean ====
section
/-! DEFINITION. Operating points, the power cap, telemetry, hints, rating lock and slips (R473 to R488). -/

namespace Sys2Proof.Machine

/-- A CAP counter by register offset (R495). -/
def capCtr (off : Nat) : Nat := ctrId (0x0F000000 + off)

/-- The state with the CAP block changed. -/
def State.modCap (s : State) (f : CapSt → CapSt) : State := { s with cap := f s.cap }

/-- A quotient whose rounding the spec leaves open: an exact one, else one of the two next integers. -/
def State.roundDiv (s : State) (a b : Nat) : Nat × State :=
  if a % b = 0 then (a / b, s)
  else
    let (k, s1) := s.draw
    (a / b + k % 2, s1)

/-! ### Operating points (R473, R474, R477, R488) -/

/-- The rating of an operating point in 0.01 steps/ns (R473). -/
def opRating (n : Nat) : Nat :=
  [110, 125, 140, 155, 170, 185, 200, 215, 230, 240, 255, 270, 280, 290, 300, 310].getD n 310

/-- The domain class of the voltage table (R474). -/
def domainClass (d : Nat) : Nat := if d < 64 then 0 else if d < 68 then 1 else if d < 72 then 2 else if d < 76 then 3 else 4

/-- The work that a compute domain holds: for each piece the class of its client and the operating point it asks for (R477).
The fusion engine's work has no client and counts as class 0. -/
def State.domWork (s : State) (d : Nat) : List (Nat × Nat) :=
  let ofTile (t : Nat) : List (Nat × Nat) := match s.tileJob t with | some j => [(s.classOf j, s.opOf j)] | none => []
  if d < 64 then ofTile (2 * d) ++ ofTile (2 * d + 1)
  else if d < 68 then
    ((List.range 4).filterMap (fun i => vget none s.sweep.pipes (4 * (d - 64) + i))).flatMap (fun w => ofTile w.run.tile)
  else if d < 72 then ((List.range 2).filterMap (fun i => vget none s.xf.engines (2 * (d - 68) + i))).flatMap (fun r => ofTile r.tile)
  else if d < 76 then (match vget none s.plan.units (d - 72) with | some q => [(s.queryClass q, 9)] | none => [])
  else if d = 76 ∧ s.fuse.enabled then [(0, 9)]
  else []

/-- The operating point its work asks for. -/
def State.domAsked (s : State) (d : Nat) : Nat := (s.domWork d).foldl (fun a w => max a w.2) 0

/-- The class of its work: the highest. -/
def State.domClassOf (s : State) (d : Nat) : Nat := (s.domWork d).foldl (fun a w => min a w.1) 4

/-- A domain's locked rating, 0 when it is not locked. -/
def State.lockOf (s : State) (d : Nat) : Nat := vget 0 s.cap.locked d

/-- The lowest operating point whose rating reaches a locked rating (R488). -/
def lockPoint (r : Nat) : Nat := ((List.range 16).find? (fun n => decide (r ≤ opRating n))).getD 15

/-- The operating point a domain runs at (R473, R477, R481, R488). -/
def State.domPoint (s : State) (d : Nat) : Nat :=
  if (s.domWork d).isEmpty then 0
  else
    let base := if s.lockOf d ≠ 0 then lockPoint (s.lockOf d) else min 15 (s.domAsked d + vget 0 s.cap.boosted d)
    base - vget 0 s.cap.lowered d

/-- The lower edge of a temperature band in °C (R474). -/
def bandEdge (b : Nat) : Int := [-40, -10, 25, 55, 85, 95, 105].getD b 105

/-- The band after a reading: up at an edge, down only 2 °C below it (R474). -/
def nextBand (cur : Nat) (temp : Int) : Nat :=
  let up := ((List.range 7).filter (fun b => decide (bandEdge b ≤ temp))).foldl max 0
  if cur < up then up
  else (List.range 7).foldl (fun b _ => if 0 < b ∧ temp ≤ bandEdge b - 2 then b - 1 else b) cur

/-- VDD_CORE set (R476, R479): the highest table voltage among the powered compute-die domains, 30 mV, and the load-line
allowance of the begun hints, clamped. The rail is not written before 400 µs after command packets are accepted (R510). -/
def State.setVcore (s : State) : State :=
  if s.start.stage ≠ .accepting || !s.since s.start.acceptedAt (us 400) then s else
  let top := ((List.range 77).filter s.domOn).foldl
    (fun a d => max a (Config.voltage (domainClass d) (vget 0 s.cap.bands d) (s.domPoint d) % 65536)) 0
  let watts := (s.cap.hints.filter Hint.begun).foldl (fun a h => max a h.watts) 0
  let (a, s1) := s.roundDiv ((watts * 100 - s.cap.control) * s.cap.loadline) (100 * max 1 s.cap.vcore)
  s1.modCap (fun c => { c with vcore := max 580 (min 950 (top + 30 + a)) })

/-- TEMPERATURE_BAND_CHANGE (R474): the hottest sensor of a domain reads a temperature. -/
def execTemperatureBandChange (d : Nat) (temp : Int) (s : State) : Host.Outcome State Fault Refusal :=
  .next (
    let b := nextBand (vget 0 s.cap.bands d) temp
    if 76 < d ∨ b = vget 0 s.cap.bands d then s else (s.modCap (fun c => { c with bands := vset c.bands d b })).setVcore)

/-! ### Throttling (R480 to R484) -/

/-- The effective cap in W (R481, R485, R492). -/
def State.effective (s : State) : Nat :=
  if s.sagging || (s.cap.unreliable && s.cap.telem == 3) then min s.cap.limit s.cap.sagCap else s.cap.limit

/-- The throttled groups by an order code, the highest priority first: 0 links, 1 memory, 2 compute (R480). -/
def groupOrder (o : Nat) : List Nat :=
  match o with
  | 0 => [0, 1, 2] | 1 => [0, 2, 1] | 2 => [1, 0, 2] | 3 => [1, 2, 0] | 4 => [2, 0, 1] | _ => [2, 1, 0]

/-- How fast a domain runs, for comparing domains: its operating point, or below OP 0 its pacing in 0.01 steps/ns. -/
def State.speedOf (s : State) (d : Nat) : Nat :=
  if s.domPoint d = 0 then (if vget 0 s.cap.pace d = 0 then 1000 else vget 0 s.cap.pace d) else 1000 + s.domPoint d

/-- A compute domain is throttled. -/
def State.throttled (s : State) (d : Nat) : Bool := decide (0 < vget 0 s.cap.lowered d ∨ 0 < vget 0 s.cap.pace d)

/-- A domain lowered by one operating point, or at OP 0 paced lower by 0.05 steps/ns, down to 0.05. -/
def State.lowerDomain (s : State) (d : Nat) : State :=
  if 0 < vget 0 s.cap.boosted d ∧ s.lockOf d = 0 then s.modCap (fun c => { c with boosted := vmod c.boosted d (· - 1) })
  else if 0 < s.domPoint d then s.modCap (fun c => { c with lowered := vmod c.lowered d (· + 1) })
  else s.modCap (fun c => { c with pace := vmod c.pace d (fun p => if p = 0 then 105 else max 5 (p - 5)) })

/-- One notch of a domain's throttling undone. -/
def State.raiseDomain (s : State) (d : Nat) : State :=
  if 0 < vget 0 s.cap.pace d then s.modCap (fun c => { c with pace := vmod c.pace d (fun p => if 105 ≤ p then 0 else p + 5) })
  else s.modCap (fun c => { c with lowered := vmod c.lowered d (· - 1) })

/-- The domain of a list that comes first in an order. -/
def firstBy (lt : Nat → Nat → Bool) (l : List Nat) : Option Nat :=
  l.foldl (fun (a : Option Nat) d => match a with | none => some d | some b => if lt d b then some d else some b) none

/-- A domain is lowered before another (R481): locked ones last, the lowest class first, then the fastest, then descending
numbers. -/
def State.lowersBefore (s : State) (a b : Nat) : Bool :=
  if (s.lockOf a == 0) != (s.lockOf b == 0) then s.lockOf a == 0
  else if s.domClassOf a ≠ s.domClassOf b then decide (s.domClassOf b < s.domClassOf a)
  else if s.speedOf a ≠ s.speedOf b then decide (s.speedOf b < s.speedOf a)
  else decide (b < a)

/-- Powered compute domains that hold work. -/
def State.working (s : State) : List Nat := (List.range 77).filter (fun d => s.domOn d && !(s.domWork d).isEmpty)

/-- The domain to lower next, when one is not at its floor. -/
def State.lowerNext (s : State) : Option Nat := firstBy s.lowersBefore (s.working.filter (fun d => decide (5 < s.speedOf d)))

/-- The domain to raise next: the reverse order. -/
def State.raiseNext (s : State) : Option Nat := firstBy (fun a b => s.lowersBefore b a) (s.working.filter s.throttled)

/-- One notch taken from a group: none at its floor (R480). -/
def State.cutGroup (s : State) (g : Nat) : Option State :=
  if g = 0 then (if s.cap.linkCut < 90 then some (s.modCap (fun c => { c with linkCut := c.linkCut + 1 })) else none)
  else if g = 1 then (if s.cap.memCut < 90 then some (s.modCap (fun c => { c with memCut := c.memCut + 1 })) else none)
  else s.lowerNext.map s.lowerDomain

/-- One notch given back to a group: none when it is not throttled. -/
def State.restoreGroup (s : State) (g : Nat) : Option State :=
  if g = 0 then (if 0 < s.cap.linkCut then some (s.modCap (fun c => { c with linkCut := c.linkCut - 1 })) else none)
  else if g = 1 then (if 0 < s.cap.memCut then some (s.modCap (fun c => { c with memCut := c.memCut - 1 })) else none)
  else s.raiseNext.map s.raiseDomain

/-- One boost given up, the last one given first. -/
def State.dropBoost (s : State) : Option State :=
  (firstBy s.lowersBefore (s.working.filter (fun d => decide (0 < vget 0 s.cap.boosted d)))).map
    (fun d => s.modCap (fun c => { c with boosted := vmod c.boosted d (· - 1) }))

/-- One notch of throttling (R481): boosts first, then the group of lowest priority that is not at its floor. -/
def State.throttleOne (s : State) : Option State :=
  match s.dropBoost with
  | some s1 => some s1
  | none => (groupOrder s.cap.order).reverse.findSome? s.cutGroup

/-- One notch undone, in the reverse order. -/
def State.undoOne (s : State) : Option State := (groupOrder s.cap.order).findSome? s.restoreGroup

/-- A domain is boosted before another (R477): the highest class first, then the slowest, then ascending numbers. -/
def State.boostsBefore (s : State) (a b : Nat) : Bool :=
  if s.domClassOf a ≠ s.domClassOf b then decide (s.domClassOf a < s.domClassOf b)
  else if s.domPoint a ≠ s.domPoint b then decide (s.domPoint a < s.domPoint b)
  else decide (a < b)

/-- One domain raised above its requested point, when throttling is undone, boosting is on and no hint holds it back
(R477, R478). -/
def State.boostOne (s : State) : Option State :=
  if s.undoOne.isSome || !s.cap.boost || s.cap.thermal || s.cap.hints.any (fun h => h.begun && decide (s.effective ≤ h.watts)) then none
  else (firstBy s.boostsBefore (s.working.filter (fun d => s.lockOf d == 0 && decide (s.domPoint d < 15)))).map
    (fun d => s.modCap (fun c => { c with boosted := vmod c.boosted d (· + 1) }))

/-- Up to `n` notches of one kind. -/
def State.notches (f : State → Option State) : Nat → State → State
  | 0, s => s
  | n + 1, s => match f s with | some s1 => State.notches f n s1 | none => s

/-- A group is throttled: CAP.STATE.BINDING. -/
def State.binding (s : State) : Bool := decide (0 < s.cap.linkCut ∨ 0 < s.cap.memCut) || s.working.any s.throttled

/-- Every group at its floor. -/
def State.atFloor (s : State) : Bool := ((List.range 3).all (fun g => (s.cutGroup g).isNone)) && s.dropBoost.isNone

/-- P_ctl in 0.01 W by the telemetry state (R485). -/
def CapSt.controlOf (c : CapSt) : Nat :=
  let m := c.measured.getD 0
  match c.telem with
  | 0 => 10 * max c.estimate m
  | 1 => 11 * max c.estimate m
  | 2 => 10 * m
  | _ => 12 * c.estimate

/-- E and M disagree (R485), in 0.1 W. -/
def disagrees (e m : Nat) : Bool :=
  let d := max e m - min e m
  decide (max e m < 4 * d ∧ 150 < d)

/-- E and M updated (R485): `meas` at 65,535 or above tells that no valid AVSBus reading arrived. -/
def State.measure (s : State) (est meas : Nat) : State :=
  let now := s.time.half
  let ok := decide (meas < 65535)
  s.modCap (fun c =>
    let lost := c.telem == 3
    let m := if lost then none else if ok then some meas else c.measured
    let dis := !lost && disagrees est (m.getD 0)
    let c1 : CapSt :=
      { c with estimate := min est 65535, measured := m, readAt := if ok then now else c.readAt
               valid := if ok then some (c.valid.getD now) else none
               disagree := if dis then some (c.disagree.getD now) else none
               agree := if lost || dis then none else some (c.agree.getD now) }
    { c1 with control := c1.controlOf })

/-- CAP_CONTROL_TICK (R481 to R485): every 100 µs E and M are updated, and the controller throttles, undoes throttling, or boosts.
How many notches it takes is not fixed: a free number, at least one while P_ctl exceeds the effective cap. -/
def execCapControlTick (est meas : Nat) (s : State) : Host.Outcome State Fault Refusal :=
  .next (
    let s1 := s.measure est meas
    let s2 := if s1.cap.thermal then s1.working.foldl State.lowerDomain s1 else s1
    let (k, s3) := s2.draw
    let cap := s3.effective * 100
    let s4 := if cap < s3.cap.control then State.notches State.throttleOne (k % 4096 + 1) s3
      else if s3.cap.control < cap ∧ !s3.cap.thermal then
        let (b, s5) := s3.draw
        State.notches State.boostOne (b % 1200) (State.notches State.undoOne (k % 4096) s5)
      else s3
    (s4.modCap (fun c => { c with unreachable := decide (s4.effective * 100 < c.control) && s4.atFloor })).setVcore)

/-- The grade's highest junction temperature in °C (R2). -/
def maxJunction : Int := if Config.gradeX then 110 else 95

/-- THERMAL_LIMIT (R484): the hottest compute-die sensor reads a temperature. -/
def execThermalLimit (temp : Int) (s : State) : Host.Outcome State Fault Refusal :=
  .next (if maxJunction - 2 ≤ temp then s.modCap (fun c => { c with thermal := true })
    else if temp ≤ maxJunction - 5 then s.modCap (fun c => { c with thermal := false }) else s)

/-! ### Telemetry (R485) -/

/-- POWER_ESTIMATE_MISMATCH with E, and M or 0xFFFF, in W. -/
def State.mismatchEvent (s : State) : State :=
  let (e, s1) := s.roundDiv s.cap.estimate 10
  let (m, s2) := match s.cap.measured with | some m => s1.roundDiv m 10 | none => (65535, s1)
  s2.raise 0x0A02 95 0 (e % 65536 + m % 65536 * 65536)

/-- TELEMETRY_LOST (R485): no valid AVSBus reading for 1 ms. -/
def execTelemetryLost (s : State) : Host.Outcome State Fault Refusal :=
  .next (if s.cap.telem ≠ 3 ∧ s.since s.cap.readAt (us 1000) then
    ((s.modCap (fun c =>
      { c with telem := 3, measured := none, valid := none, disagree := none, agree := none })).mismatchEvent).bump (capCtr 0x58) 1
  else s)

/-- MISMATCH_TIMER (R485): a disagreement has lasted 5 ms. -/
def execMismatchTimer (s : State) : Host.Outcome State Fault Refusal :=
  .next (match s.cap.disagree with
    | some t => if s.cap.telem = 0 ∧ s.since t (us 5000) then
        ((s.modCap (fun c => { c with telem := 1, mismatchFrom := t })).mismatchEvent).bump (capCtr 0x50) 1
      else s
    | none => s)

/-- AGREEMENT_TIMER (R485): agreement for 100 ms, or after lost telemetry valid readings for 100 ms. -/
def execAgreementTimer (s : State) : Host.Outcome State Fault Refusal :=
  .next (
    let long (t : Option Nat) : Bool := match t with | some a => s.since a (us 100000) | none => false
    if s.cap.telem = 3 then
      (if long s.cap.valid then s.modCap (fun c => { c with telem := if c.unreliable then 2 else 0 }) else s)
    else if s.cap.telem ≠ 0 ∧ long s.cap.agree then s.modCap (fun c => { c with telem := 0, unreliable := false })
    else s)

/-- UNRELIABLE_TIMER (R485): 1 s since the disagreement began. -/
def execUnreliableTimer (s : State) : Host.Outcome State Fault Refusal :=
  .next (if s.cap.telem = 1 ∧ s.since s.cap.mismatchFrom (us 1000000) then
    s.modCap (fun c => { c with telem := 2, unreliable := true }) else s)

/-! ### pwr.cap, pwr.sag, pwr.hint, pwr.lock (R478, R480, R487, R489) -/

/-- The checks of pwr.cap. -/
def chkPwrCap (_ : State) (c : Cmd) : Check10 := firstBad [(decide (c.p 0 2 < 30 ∨ 420 < c.p 0 2), 0), (decide (5 < c.p 2 1), 2)]

/-- pwr.cap. -/
def runPwrCap (s : State) (c : Cmd) : State × Res :=
  (s.modCap (fun x => { x with limit := c.p 0 2, order := c.p 2 1 }), .done s.cap.limit)

/-- PWR_CAP (R480). -/
def execPwrCap (q k : Nat) (s : State) : Host.Outcome State Fault Refusal := s.opcodeRow 0x0A01 false chkPwrCap runPwrCap q k

/-- CAP.LIMIT written under a mask, as `pwr.cap` would; a field written outside its range keeps its old value (R495). -/
def State.writeLimit (s : State) (v mask : Nat) : State :=
  let w := mergeBits (s.cap.limit + s.cap.order * 2 ^ 16) v mask
  s.modCap (fun c => { c with limit := if 30 ≤ bits w 8 0 ∧ bits w 8 0 ≤ 420 then bits w 8 0 else c.limit
                              order := if bits w 18 16 ≤ 5 then bits w 18 16 else c.order })

/-- CAP_LIMIT_WRITE (R495). -/
def execCapLimitWrite (v mask : Nat) (s : State) : Host.Outcome State Fault Refusal := .next (s.writeLimit v mask)

/-- The conditions of R489, each with the parameter offset of `pwr.sag`. -/
def sagFaults (warn rst cap : Nat) : List (Bool × Nat) :=
  [(decide (warn < 800 ∨ 1050 < warn), 0), (decide (rst < 700 ∨ 950 < rst ∨ warn < rst + 50), 2), (decide (cap < 30 ∨ 420 < cap), 4)]

/-- The checks of pwr.sag. -/
def chkPwrSag (_ : State) (c : Cmd) : Check10 := firstBad (sagFaults (c.p 0 2) (c.p 2 2) (c.p 4 2))

/-- pwr.sag. -/
def runPwrSag (s : State) (c : Cmd) : State × Res :=
  (s.modCap (fun x => { x with warnMv := c.p 0 2, resetMv := c.p 2 2, sagCap := c.p 4 2 }), .done 0)

/-- PWR_SAG (R489). -/
def execPwrSag (q k : Nat) (s : State) : Host.Outcome State Fault Refusal := s.opcodeRow 0x0A02 false chkPwrSag runPwrSag q k

/-- CAP.SAG as a word (R495). -/
def CapSt.sagWord (c : CapSt) : Nat := c.warnMv + c.resetMv * 2 ^ 16 + c.sagCap * 2 ^ 32 + c.preemptFrom * 2 ^ 41

/-- CAP.SAG written under a mask, as `pwr.sag` would; PREEMPT_FROM outside 1 to 5 keeps its old value (R495). -/
def State.writeSag (s : State) (v mask : Nat) : State :=
  let w := mergeBits s.cap.sagWord v mask
  let s1 := if (sagFaults (bits w 10 0) (bits w 26 16) (bits w 40 32)).any Prod.fst then s
    else s.modCap (fun c => { c with warnMv := bits w 10 0, resetMv := bits w 26 16, sagCap := bits w 40 32 })
  if 1 ≤ bits w 43 41 ∧ bits w 43 41 ≤ 5 then s1.modCap (fun c => { c with preemptFrom := bits w 43 41 }) else s1

/-- CAP_SAG_WRITE (R495). -/
def execCapSagWrite (v mask : Nat) (s : State) : Host.Outcome State Fault Refusal := .next (s.writeSag v mask)

/-- The checks of pwr.hint. -/
def chkPwrHint (_ : State) (c : Cmd) : Check10 :=
  firstBad [(decide (1000000 < c.p 0 4), 0), (decide (c.p 4 2 < 30 ∨ 420 < c.p 4 2), 4)]

/-- pwr.hint. -/
def runPwrHint (s : State) (c : Cmd) : State × Res := (s.addHint (c.decoded + us (c.p 0 4)) (c.p 4 2) c.decoded, .done 0)

/-- PWR_HINT (R478). -/
def execPwrHint (q k : Nat) (s : State) : Host.Outcome State Fault Refusal := s.opcodeRow 0x0A03 false chkPwrHint runPwrHint q k

/-- HINT_INTERVAL_BEGIN (R478): 50 µs before t_h, or at the decode when that is later. -/
def execHintIntervalBegin (i : Nat) (s : State) : Host.Outcome State Fault Refusal :=
  .next (match s.cap.hints[i]? with
    | some h => if !h.begun && decide (max (h.at_ - us 50) h.from_ ≤ s.time.half) then
        (s.modCap (fun c => { c with hints := lmod c.hints i (fun h => { h with begun := true }) })).setVcore else s
    | none => s)

/-- HINT_LAPSE (R479): at t_h + 1 ms. -/
def execHintLapse (i : Nat) (s : State) : Host.Outcome State Fault Refusal :=
  .next (match s.cap.hints[i]? with
    | some h => if s.since h.at_ (us 1000) then (s.modCap (fun c => { c with hints := c.hints.eraseIdx i })).setVcore else s
    | none => s)

/-- The checks of pwr.lock. -/
def chkPwrLock (_ : State) (c : Cmd) : Check10 :=
  firstBad [(decide (c.p 0 2 ≠ 0 ∧ (c.p 0 2 < 50 ∨ 310 < c.p 0 2)), 0), (decide (2 ^ 77 ≤ c.p 2 12), 2)]

/-- The domains of a mask locked to a rating, or unlocked for 0. -/
def State.lockDomains (s : State) (r mask : Nat) : State :=
  let ds := (List.range 77).filter (fun d => bit mask d == 1)
  let s1 := s.modCap (fun c => { c with locked := ds.foldl (fun v d => vset v d r) c.locked, lockRating := if r = 0 then c.lockRating else r })
  ds.foldl (fun s d => if d < 64 then
    (s.modTile (2 * d) (fun x => { x with ratingLocked := r })).modTile (2 * d + 1) (fun x => { x with ratingLocked := r }) else s) s1

/-- pwr.lock. -/
def runPwrLock (s : State) (c : Cmd) : State × Res :=
  if c.p 0 2 ≠ 0 ∧ !s.pllStable then (s, .fail stWrongState) else ((s.lockDomains (c.p 0 2) (c.p 2 12)).setVcore, .done 0)

/-- PWR_LOCK (R487). -/
def execPwrLock (q k : Nat) (s : State) : Host.Outcome State Fault Refusal := s.opcodeRow 0x0A05 false chkPwrLock runPwrLock q k

/-- RATING_SLIP (R488): a token that a locked domain did not take within one token period. -/
def execRatingSlip (d : Nat) (s : State) : Host.Outcome State Fault Refusal :=
  .next (if d < 77 ∧ s.lockOf d ≠ 0 ∧ s.domOn d then
    (s.modCap (fun c => { c with slips := vmod c.slips d (· + 1) })).bump (capCtr 0x48) 1 else s)

/-- RATING_SLIP_REPORT (R488): a millisecond ends, and every domain that slipped in it is reported. -/
def execRatingSlipReport (s : State) : Host.Outcome State Fault Refusal :=
  .next ((List.range 77).foldl (fun s d =>
    let n := vget 0 s.cap.slips d
    if n = 0 then s else (s.modCap (fun c => { c with slips := vset c.slips d 0 })).raise 0x0A03 d 0 n) s)

end Sys2Proof.Machine
end

