-- ==== Sys2Proof/Machine/Planner.lean ====
section
/-! DEFINITION. The planner units: lattices, the occupancy map, searches, re-checks and result records (R307 to R325), and the
passing of a command's deadline (R63). -/

namespace Sys2Proof.Machine

/-! ### Lattice tables (R310, R311) -/

/-- A motion primitive; its voxel list stands at table offset `at_`. -/
structure Prim where
  mask : Nat
  start : List Nat
  delta : List Int
  cost : Nat
  at_ : Nat
  voxels : List (Int × Int × Int)

/-- A lattice table as a search reads it. -/
structure LatTab where
  dims : Nat
  wrap : Nat
  goal : Nat
  maxPath : Nat
  size : List Nat
  pos : List Nat
  cell : List Nat
  origin : List Int
  coef : List Nat
  prims : List Prim

/-- Six 2-byte fields. -/
def six (l : List Byte) (o : Nat) : List Nat := (List.range 6).map (fun d => leAt l (o + 2 * d) 2)

/-- A header field, or a primitive entry, is against R310: `l` holds the header, `dims` the parameter. -/
def latHeaderBad (l : List Byte) (dims : Nat) : Bool :=
  let n := six l 8
  let z (o k : Nat) : Bool := (slice l o k).any (· != 0)
  let high (b : Nat) : Bool := decide (2 ^ dims ≤ b)
  byteAt l 0 != dims || high (byteAt l 1) || high (byteAt l 2) || byteAt l 2 == 0 || z 3 1 || leAt l 4 2 == 0 || z 6 2 ||
    (List.range 6).any (fun d => (n.getD d 0 == 0) != decide (dims ≤ d)) ||
    (List.range 3).any (fun a => byteAt l (20 + a) != 0xFF && decide (dims ≤ byteAt l (20 + a))) || z 23 1 ||
    (List.range 3).any (fun a => byteAt l (24 + a) == 0) || z 27 1 || z 34 2 ||
    (List.range 6).any (fun d => decide (dims ≤ d) && leAt l (36 + 4 * d) 4 != 0) || z 60 4 ||
    decide (2 ^ 32 < (n.take dims).foldl (· * ·) 1)

/-- A primitive entry of 32 bytes is against R310. -/
def primBad (e : List Byte) (dims : Nat) (size : List Nat) : Bool :=
  let m := byteAt e 0
  decide (2 ^ dims ≤ m) || byteAt e 1 != 0 || decide (2048 < leAt e 2 2) || leAt e 4 4 == 0 ||
    (List.range 6).any (fun d =>
      if dims ≤ d then leAt e (8 + 2 * d) 2 != 0 || leAt e (20 + 2 * d) 2 != 0
      else bit m d == 1 && decide (size.getD d 0 ≤ leAt e (8 + 2 * d) 2))

/-- VOXELS of a table's primitive entries. -/
def voxelCounts (l : List Byte) (n : Nat) : List Nat := (List.range n).map (fun i => leAt l (64 + 32 * i + 2) 2)

/-- Bytes of a lattice table whose header and entries are given. -/
def latBytes (l : List Byte) (n : Nat) : Nat := 64 + 32 * n + 4 * (voxelCounts l n).foldl (· + ·) 0

/-- The table that bytes spell. -/
def parseLat (l : List Byte) (n : Nat) : LatTab :=
  { dims := byteAt l 0, wrap := byteAt l 1, goal := byteAt l 2, maxPath := leAt l 4 2, size := six l 8
    pos := (List.range 3).map (fun a => byteAt l (20 + a)), cell := (List.range 3).map (fun a => byteAt l (24 + a))
    origin := (List.range 3).map (fun a => sext 16 (leAt l (28 + 2 * a) 2))
    coef := (List.range 6).map (fun d => leAt l (36 + 4 * d) 4)
    prims := ((List.range n).foldl (fun (acc : List Prim × Nat) i =>
      let e := slice l (64 + 32 * i) 32
      let k := leAt e 2 2
      let vox := (List.range k).map (fun j =>
        let v := slice l (acc.2 + 4 * j) 4
        (sext 8 (byteAt v 0), sext 8 (byteAt v 1), sext 8 (byteAt v 2)))
      (acc.1 ++ [Prim.mk (byteAt e 0) (six e 8) ((six e 20).map (sext 16)) (leAt e 4 4) acc.2 vox], acc.2 + 4 * k)) ([], 64 + 32 * n)).1 }

/-- The first primitive that R311 refuses: its entry, or the reserved byte of one of its voxels; none when all stand. -/
def firstBadPrim (l : List Byte) (n dims : Nat) : Option Nat :=
  let size := six l 8
  ((List.range n).foldl (fun (acc : Option Nat × Nat) i =>
    match acc.1 with
    | some _ => acc
    | none =>
      let e := slice l (64 + 32 * i) 32
      let k := leAt e 2 2
      if primBad e dims size || (List.range k).any (fun j => byteAt l (acc.2 + 4 * j + 3) != 0) then (some i, acc.2)
      else (none, acc.2 + 4 * k)) (none, 64 + 32 * n)).1

/-! ### plan.lattice and plan.map (R309, R312) -/

/-- The lattice of a handle. -/
def State.lattice (s : State) (h : Nat) : Option Lattice := s.plan.lattices.find? (fun x => x.handle == h)

/-- Every query waiting or running. -/
def State.queries (s : State) : List PlanQuery := s.plan.queue ++ s.plan.units.toList.filterMap id

/-- The checks of plan.lattice. -/
def chkPlanLattice (_ : State) (c : Cmd) : Check10 :=
  firstBad [(decide (4096 < c.p 8 2), 8), (c.p 8 2 != 0 && decide (c.p 10 1 = 0 ∨ 6 < c.p 10 1), 10)]

/-- A table registered under a handle, in handle order. -/
def State.putLattice (s : State) (x : Lattice) : State :=
  let lo := s.plan.lattices.filter (fun y => y.handle < x.handle)
  let hi := s.plan.lattices.filter (fun y => x.handle < y.handle)
  { s with plan := { s.plan with lattices := lo ++ [x] ++ hi } }

/-- plan.lattice with primitives: the table read and validated. The first bytes that cannot be read or do not stand decide. -/
def State.registerLattice (s : State) (a n dims h : Nat) : State × Res :=
  let head := 64 + 32 * n
  if !s.inT1Host a head then (s, .bad 0)
  else if s.namesWithdrawn a head then (s, .fail stNoResource)
  else
    let s1 := s.noteRead a head
    if s.anyPoison a head then (s1.bump (integCtr 0x38) 1, .fail stPoisoned)
    else
      let l := vals (s.peek a head)
      if latHeaderBad l dims then (s1, .reply stBadParam 0x8000FFFF 0)
      else
        let k := ((List.range n).find? (fun i => primBad (slice l (64 + 32 * i) 32) dims (six l 8))).getD n
        let len := head + 4 * ((voxelCounts l n).take k).foldl (· + ·) 0
        if !s.inT1Host a len then (s1, .bad 0)
        else if s.namesWithdrawn a len then (s1, .fail stNoResource)
        else
          let s2 := s1.noteRead (a + head) (len - head)
          if s.anyPoison a len then (s2.bump (integCtr 0x38) 1, .fail stPoisoned)
          else match firstBadPrim (vals (s.peek a len)) n dims with
            | some i => (s2, .reply stBadParam (0x80000000 + i) 0)
            | none => (s2.putLattice ⟨h, a, n, dims⟩, .done h)

/-- plan.lattice. -/
def runPlanLattice (s : State) (c : Cmd) : State × Res :=
  let a := c.p 0 8
  let n := c.p 8 2
  match s.plan.lattices.find? (fun x => x.addr == a) with
  | some x =>
    if s.queries.any (fun q => q.lattice == x.handle) then (s, .fail stWrongState)
    else if n = 0 then
      ({ s with plan := { s.plan with lattices := s.plan.lattices.filter (fun y => y.handle != x.handle) } }, .done x.handle)
    else s.registerLattice a n (c.p 10 1) x.handle
  | none =>
    if n = 0 then (s, .bad 8)
    else match lowestFree (s.plan.lattices.map Lattice.handle) 0 16 with
      | none => if s.inT1Host a (64 + 32 * n) then (s, .fail stNoResource) else (s, .bad 0)
      | some h => s.registerLattice a n (c.p 10 1) h

/-- PLAN_LATTICE (R309 to R311). -/
def execPlanLattice (q k : Nat) (s : State) : Host.Outcome State Fault Refusal :=
  s.opcodeRow 0x0601 false chkPlanLattice runPlanLattice q k

/-- Bytes of a map of an edge. -/
def mapBytes (e : Nat) : Nat := ceilDiv (e * e * e) 8

/-- The checks of plan.map. -/
def chkPlanMap (s : State) (c : Cmd) : Check10 :=
  firstBad [(decide (c.p 0 8 % 64 ≠ 0), 0), (decide (c.p 8 2 = 0 ∨ 1024 < c.p 8 2), 8), (!s.inT1Host (c.p 0 8) (mapBytes (c.p 8 2)), 0)]

/-- plan.map. -/
def runPlanMap (s : State) (c : Cmd) : State × Res :=
  let v := c.p 10 4
  if s.namesWithdrawn (c.p 0 8) (mapBytes (c.p 8 2)) then (s, .fail stNoResource)
  else if v ≤ s.plan.version then (s, .reply stWrongState s.plan.version 0)
  else ({ s with plan := { s.plan with version := v, edge := c.p 8 2, base := c.p 0 8, current := true } }, .done v)

/-- PLAN_MAP (R312). -/
def execPlanMap (q k : Nat) (s : State) : Host.Outcome State Fault Refusal := s.opcodeRow 0x0602 false chkPlanMap runPlanMap q k

/-! ### plan.query and the ends of a query (R314, R319, R322, R325) -/

/-- The heuristic of a state (R315). -/
def LatTab.h (l : LatTab) (goal st : List Nat) : Nat :=
  min 0xFFFFFFFF ((List.range 6).foldl (fun a d =>
    if bit l.goal d = 1 then
      let x := st.getD d 0
      let g := goal.getD d 0
      let n := l.size.getD d 0
      let dist := max x g - min x g
      a + l.coef.getD d 0 * (if bit l.wrap d = 1 then min dist (n - dist) else dist)
    else a) 0)

/-- The key of a node (R315). -/
def planKey (w g h : Nat) : Nat := min 0xFFFFFFFF (g + w * h / 2 ^ 16)

/-- One step of a returned path: the state after it, its primitive, and g. -/
structure PathStep where
  st : List Nat
  prim : Nat
  g : Nat

/-- The end of a query: its status, the path returned and its candidate number, COST, END_H, END_STATE, and MAP_VERSION. -/
structure PlanEnd where
  status : Nat
  path : List PathStep
  candidate : Nat
  cost : Nat
  h : Nat
  st : List Nat
  version : Nat

/-- FLAGS of a result record. -/
def PlanCounts.flags (c : PlanCounts) (cancelled : Bool) : Nat :=
  b2n c.queueTrimmed + 2 * b2n c.nodesFull + 4 * b2n c.costSat + 8 * b2n c.depthLimit + 16 * b2n cancelled + 32 * b2n c.recheckFailed

/-- The header and path entries of a result record. -/
def planRecord (q : PlanQuery) (e : PlanEnd) (cancelled : Bool) (searchNs : Nat) : List Byte :=
  let c := q.counts
  let sat (n : Nat) : List Byte := toLe 4 (min n 0xFFFFFFFF)
  toLe 2 e.status ++ toLe 2 (c.flags cancelled) ++ toLe 2 e.path.length ++ toLe 1 q.researches ++ toLe 1 e.candidate ++
    toLe 4 e.cost ++ toLe 4 e.h ++ ((List.range 6).map (fun d => toLe 2 (e.st.getD d 0))).flatten ++ toLe 4 e.version ++
    sat c.expansions ++ sat c.generated ++ sat c.trimmed ++ toLe 4 0 ++ toLe 8 c.voxels ++ toLe 8 searchNs ++
    (e.path.map (fun x => ((List.range 6).map (fun d => toLe 2 (x.st.getD d 0))).flatten ++ toLe 2 x.prim ++ toLe 2 0 ++ toLe 4 x.g ++
      toLe 4 0)).flatten

/-- A command completes with a reply that its deadline does not change. -/
def State.answerUid (s : State) (uid status detail result : Nat) : State :=
  match s.findUid uid with | some (q, k) => s.finish q k status detail result | none => s

/-- PLAN counter by register offset (R326). -/
def planCtr (off : Nat) : Nat := ctrId (0x07000000 + off)

/-- A query has left its unit or the queue. -/
def State.dropPlan (s : State) (uid : Nat) : State :=
  { s with plan := { s.plan with queue := s.plan.queue.filter (fun q => q.uid != uid)
                                 units := s.plan.units.map (fun o => match o with
                                   | some q => if q.uid = uid then none else some q
                                   | none => none) } }

/-- A query ends without a record. -/
def State.planFail (s : State) (q : PlanQuery) (status : Nat) : State :=
  let s1 := ((s.dropPlan q.uid).modPlanCtx q.ctx (fun p => { p with
    state := 0, queries := min (p.queries + 1) 0xFFFFFFFF, lastStatus := status })).bump (planCtr 0x40) (b2n q.counts.queueTrimmed)
  ((s1.answerUid q.uid status 0 0).endCancels q).planPlace

/-- A query ends with its record (R322, R325); `ns` is SEARCH_NS. -/
def State.planEnd (s : State) (q : PlanQuery) (e : PlanEnd) (cancelled : Bool) (ns : Nat) : State :=
  let s1 := (s.dropPlan q.uid).storeClean q.out (planRecord q e cancelled ns)
  let s2 := s1.modPlanCtx q.ctx (fun p => { p with
    state := 0, queries := min (p.queries + 1) 0xFFFFFFFF, lastStatus := e.status, lastVersion := e.version
    lastExpansions := min q.counts.expansions 0xFFFFFFFF })
  let s3 := ((s2.bump (planCtr 0x40) (b2n q.counts.queueTrimmed)).bump (planCtr 0x48) (b2n (e.status == stTimeout))).bump (planCtr 0x50)
    (b2n (e.status == stInvalidated))
  let detail := if e.candidate = 0xFF then 0 else e.cost
  ((s3.answerUid q.uid e.status detail (if e.status = stDone then e.path.length else 0)).endCancels q).planPlace

/-- The header of a lattice table as memory holds it. -/
def State.latHead (s : State) (x : Lattice) : List PByte := s.peek x.addr 64

/-- The bytes of a query's lattice table. -/
def State.latTable (s : State) (x : Lattice) : List PByte := s.peek x.addr (latBytes (vals (s.peek x.addr (64 + 32 * x.prims))) x.prims)

/-- Bytes of the largest record a query may write, by MAX_PATH of its table. -/
def planRange (l : LatTab) : Nat := 64 + 24 * l.maxPath

/-- A query that waits for a unit ends (R319): the start alone, TIMEOUT; under NO_DEGRADE a passed deadline replies
DEADLINE_MISSED. Nothing states MAP_VERSION and SEARCH_NS of a query that never searched: they are free. -/
def State.endWaiting (s : State) (q : PlanQuery) (cancelled : Bool) : State :=
  match s.lattice q.lattice with
  | none => s.planFail q stPoisoned
  | some x =>
    let pd := s.latHead x
    let l := parseLat (vals pd) 0
    if !cancelled && q.noDegrade then (s.scramble q.out (planRange l)).planFail q stDeadline
    else if pd.any PByte.p then ((s.noteRead x.addr 64).bump (integCtr 0x38) 1).planFail q stPoisoned
    else
      let (v, s1) := s.draw
      let (n, s2) := s1.draw
      s2.planEnd q ⟨stTimeout, [], 0, 0, l.h q.goal q.start, q.start, v % 2 ^ 32⟩ cancelled n

/-- Coordinates against a table's sizes, each with the parameter offset it blames. -/
def coordChecks (l : LatTab) (st : List Nat) (o : Nat) : List (Bool × Nat) :=
  (List.range 6).map (fun d => (if d < l.dims then decide (l.size.getD d 0 ≤ st.getD d 0) else st.getD d 0 != 0, o + 2 * d))

/-- The checks of plan.query, the first offending byte first (R49, R314): the context in the head packet, then the parameters in order.
Coordinates and the record's range are judged by the table's header, unless a word of it is poisoned. -/
def chkPlanQuery (s : State) (c : Cmd) : Check10 :=
  if (match c.ctx.bind s.ctx with | some x => x.kind != 4 | none => false) then some (stBadParam, 8)
  else
    let unit := (decide (3 < c.p 38 1 ∧ c.p 38 1 ≠ 0xFF), 38)
    match s.lattice (c.p 0 2) with
    | none => badAt 0
    | some t =>
      let h := s.latHead t
      if h.any PByte.p then none
      else
        let l := parseLat (vals h) 0
        firstBad (coordChecks l (six c.params 2) 2 ++ coordChecks l (six c.params 14) 14 ++
          [(!s.destOk (c.p 30 8) (planRange l), 30), unit])

/-- plan.query. -/
def runPlanQuery (s : State) (c : Cmd) : State × Res :=
  match c.ctx, c.ctx.bind s.ctx with
  | some id, some x =>
    if x.kind ≠ 4 then (s, .reply stBadParam 8 0)
    else if s.tablesBad id then (s.poisonTable id, .reply stTornDown 0x0111 0)
    else match s.lattice (c.p 0 2) with
      | none => (s, .bad 0)
      | some t =>
        let s := s.noteRead t.addr 64
        let h := s.latHead t
        let l := parseLat (vals h) 0
        let st := six c.params 2
        let go := six c.params 14
        let u := c.p 38 1
        let out := c.p 30 8
        if h.any PByte.p then (s.bump (integCtr 0x38) 1, .fail stPoisoned)
        else if s.namesWithdrawn out (planRange l) then (s, .fail stNoResource)
        else if !s.plan.current || s.queries.any (fun q => q.ctx == id) then (s, .fail stWrongState)
        else if s.notRetired 3 = 0 ∨ (u ≠ 0xFF ∧ s.retired 3 u) then (s, .fail stNoResource)
        else if u ≠ 0xFF ∧ s.quarantined 3 u then (s, .fail stQuarantined)
        else
          let q : PlanQuery :=
            { uid := c.uid, ctx := id, client := c.client, lattice := c.p 0 2, start := st, goal := go, weight := c.p 26 4, out := out
              unit := u, deadline := c.deadline, noDegrade := c.noDegrade, urgent := false, version := 0, base := 0, edge := 0
              researches := 0, counts := PlanCounts.zero, takenAt := 0, searchAt := 0, cancels := [], check := none }
          let s1 := s.modPlanCtx id (fun p => { p with lattice := c.p 0 2, state := 1 })
          ({ s1 with plan := { s1.plan with queue := s1.plan.queue ++ [q] } }.planPlace, .going)
  | _, _ => (s, .fail stCtxClosed)

/-- PLAN_QUERY (R308, R314). -/
def execPlanQuery (q k : Nat) (s : State) : Host.Outcome State Fault Refusal := s.opcodeRow 0x0603 true chkPlanQuery runPlanQuery q k

/-- plan.cancel has no parameter to check. -/
def chkPlanCancel (_ : State) (_ : Cmd) : Check10 := none

/-- plan.cancel: a waiting query ends at once; a running one between expansions, and the command waits for its reply. -/
def runPlanCancel (s : State) (c : Cmd) : State × Res :=
  match c.ctx, c.ctx.bind s.ctx with
  | some id, some x =>
    if x.kind ≠ 4 then (s, .reply stBadParam 8 0)
    else if s.tablesBad id then (s.poisonTable id, .reply stTornDown 0x0111 0)
    else match s.plan.queue.find? (fun q => q.ctx == id) with
      | some q => (s.endWaiting q true, .done 0)
      | none =>
        if s.queries.any (fun q => q.ctx == id) then
          ({ s with plan := { s.plan with units := s.plan.units.map (fun o => o.map (fun q =>
              if q.ctx = id then { q with cancels := q.cancels ++ [c.uid] } else q)) } }, .going)
        else (s, .fail stWrongState)
  | _, _ => (s, .fail stCtxClosed)

/-- PLAN_CANCEL (R319). -/
def execPlanCancel (q k : Nat) (s : State) : Host.Outcome State Fault Refusal :=
  s.opcodeRow 0x0604 false chkPlanCancel runPlanCancel q k

/-! ### The search (R315 to R318) -/

/-- The order of R315. -/
def QEntry.before (a b : QEntry) : Bool :=
  a.f < b.f || (a.f == b.f && (a.g < b.g || (a.g == b.g && a.idx < b.idx)))

/-- An entry put in its place. -/
def putEntry : List QEntry → QEntry → List QEntry
  | [], e => [e]
  | x :: t, e => if e.before x then e :: x :: t else x :: putEntry t e

/-- What a search reads: the table, as it parses and as its words stand, the goal, the weight, and the map. -/
structure PlanJob where
  lat : LatTab
  addr : Nat
  table : List PByte
  goal : List Nat
  weight : Nat
  base : Nat
  edge : Nat

/-- The state index (R311). -/
def LatTab.index (l : LatTab) (st : List Nat) : Nat :=
  (List.range l.dims).foldr (fun d a => st.getD d 0 + l.size.getD d 0 * a) 0

/-- The dimensions of the goal mask match the goal. -/
def PlanJob.atGoal (j : PlanJob) (st : List Nat) : Bool :=
  (List.range 6).all (fun d => bit j.lat.goal d == 0 || st.getD d 0 == j.goal.getD d 0)

/-- The map voxel where a primitive's swept voxel lies (R317). -/
def LatTab.voxel (l : LatTab) (st : List Nat) (v : Int × Int × Int) : List Int :=
  [v.1, v.2.1, v.2.2].zipIdx.map (fun x =>
    let p := l.pos.getD x.2 0xFF
    l.origin.getD x.2 0 + (if p = 0xFF then 0 else ((st.getD p 0 * l.cell.getD x.2 0 : Nat) : Int)) + x.1)

/-- A voxel of the map: occupied, and its byte's address and whether the byte is poisoned; no address outside the map. -/
def State.occupied (s : State) (base edge : Nat) (v : List Int) : Bool × Option (Nat × Bool) :=
  if v.any (fun x => x < 0 || (edge : Int) ≤ x) then (true, none)
  else
    let c (a : Nat) : Nat := (v.getD a 0).toNat
    let i := (c 2 * edge + c 1) * edge + c 0
    let a := base + i / 8
    match s.peek a 1 with
    | b :: _ => (b.p || bit b.v.toNat (i % 8) == 1, some (a, b.p))
    | [] => (true, none)

/-- The lines that `n` bytes of the table at an offset lie in. -/
def PlanJob.tableLines (j : PlanJob) (o n : Nat) : List Nat :=
  if n = 0 then [] else (List.range ((j.addr + o + n - 1) / 64 - (j.addr + o) / 64 + 1)).map ((j.addr + o) / 64 + ·)

/-- Bytes of the table at an offset bear poison. -/
def PlanJob.tableBad (j : PlanJob) (o n : Nat) : Bool := ((j.table.drop o).take n).any PByte.p

/-- A search reads bytes of the table (R322): their lines are noted, and poison met. -/
def Search.readTable (x : Search) (j : PlanJob) (o n : Nat) : Search :=
  { x with lines := insertAll x.lines (j.tableLines o n), tableBad := x.tableBad || j.tableBad o n }

/-- Swept voxels tested in list order up to the first occupied one, the search's counts and reads kept (R317); `o` is the table offset
of the first. A poisoned voxel of the list ends the test. -/
def State.testVoxels (s : State) (j : PlanJob) (st : List Nat) : Nat → List (Int × Int × Int) → Search → Bool × Search
  | _, [], x => (false, x)
  | o, v :: l, x =>
    let x := x.readTable j o 4
    if x.tableBad then (true, x)
    else
      let (occ, at_) := s.occupied j.base j.edge (j.lat.voxel st v)
      let x1 := { x with counts := { x.counts with voxels := x.counts.voxels + 1 }
                         lines := match at_ with | some (a, _) => insertSorted x.lines (a / 64) | none => x.lines
                         poisoned := x.poisoned + (match at_ with | some (_, p) => b2n p | none => 0) }
      if occ then (true, x1) else s.testVoxels j st (o + 4) l x1

/-- An entry pushed; when all 65,536 are in use the later of it and the last is dropped (R318). -/
def Search.push (x : Search) (e : QEntry) : Search :=
  let q := putEntry x.queue e
  if 65536 < q.length then
    { x with queue := q.dropLast, counts := { x.counts with queueTrimmed := true, trimmed := x.counts.trimmed + 1 } }
  else { x with queue := q }

/-- The state a primitive leads to; none where it leaves the lattice. -/
def LatTab.move (l : LatTab) (st : List Nat) (p : Prim) : Option (List Nat) :=
  (List.range 6).foldr (fun d (acc : Option (List Nat)) =>
    match acc with
    | none => none
    | some t =>
      if l.dims ≤ d then some (0 :: t)
      else
        let n := l.size.getD d 0
        let v : Int := (st.getD d 0 : Int) + p.delta.getD d 0
        if bit l.wrap d = 1 then some ((v % (n : Int)).toNat :: t)
        else if v < 0 ∨ (n : Int) ≤ v then none
        else some (v.toNat :: t)) (some [])

/-- The primitive applies from a state. -/
def Prim.fits (p : Prim) (st : List Nat) : Bool := (List.range 6).all (fun d => bit p.mask d == 0 || st.getD d 0 == p.start.getD d 0)

/-- A primitive tried from an expanded node (R316). -/
def State.tryPrim (s : State) (j : PlanJob) (e : QEntry) (n : Node) (x : Search) (i : Nat) (p : Prim) : Search :=
  if !p.fits n.st then x
  else match j.lat.move n.st p with
    | none => x
    | some st =>
      let g := e.g + p.cost
      let k := j.lat.index st
      let old := alookup x.nodes k
      if j.lat.maxPath < n.depth + 1 then { x with counts := { x.counts with depthLimit := true } }
      else if 0xFFFFFFFF < g then { x with counts := { x.counts with costSat := true } }
      else if (match old with | some o => decide (o.g ≤ g) | none => false) then x
      else
        let (hit, x1) := s.testVoxels j n.st p.at_ p.voxels x
        if hit then x1
        else if old.isNone ∧ 1048576 ≤ x1.nodes.length then { x1 with counts := { x1.counts with nodesFull := true } }
        else
          let h := j.lat.h j.goal st
          let x2 := { x1 with nodes := aset x1.nodes k ⟨g, some e.idx, i, n.depth + 1, st, h⟩
                              counts := { x1.counts with generated := x1.counts.generated + 1 } }
          x2.push ⟨planKey j.weight g h, g, k⟩

/-- How a search ends. -/
inductive SearchEnd where
  | empty
  | selected (idx : Nat)
  | stopped
  | poisoned
  deriving DecidableEq, Repr

/-- An entry of a search is expanded (R316, R322): it is counted, every primitive entry of the table is read, and each primitive is
tried. -/
def State.expand (s : State) (j : PlanJob) (e : QEntry) (n : Node) (x : Search) : Search :=
  let x1 := { x with expanded := x.expanded + 1, counts := { x.counts with expansions := x.counts.expansions + 1 } }
  let x2 := if x.expanded = 0 then x1.readTable j 64 (32 * j.lat.prims.length) else x1
  if x2.tableBad then x2
  else j.lat.prims.zipIdx.foldl (fun x p => if x.tableBad then x else s.tryPrim j e n x p.2 p.1) x2

/-- The procedure of R316, by fuel: 2^53 exceeds every number of entries it can push. `stop` is the number of expansions after which a
deadline or a cancel is found. Poison met in the table ends it (R322). -/
def State.searchLoop (s : State) (j : PlanJob) (stop : Option Nat) : Nat → Search → Search × SearchEnd
  | 0, x => (x, .empty)
  | f + 1, x =>
    if (match stop with | some n => decide (n ≤ x.expanded) | none => false) then (x, .stopped)
    else match x.queue with
      | [] => (x, .empty)
      | e :: q =>
        let x1 := { x with queue := q }
        match alookup x.nodes e.idx with
        | none => s.searchLoop j stop f x1
        | some n =>
          if n.g < e.g then s.searchLoop j stop f x1
          else if j.atGoal n.st then (x1, .selected e.idx)
          else
            let x2 := s.expand j e n x1
            if x2.tableBad then (x2, .poisoned) else s.searchLoop j stop f x2

/-- A search from a start. -/
def State.runSearch (s : State) (j : PlanJob) (start : List Nat) (c : PlanCounts) (stop : Option Nat) : Search × SearchEnd :=
  let h := j.lat.h j.goal start
  let i := j.lat.index start
  s.searchLoop j stop (2 ^ 53)
    { queue := [⟨planKey j.weight 0 h, 0, i⟩], nodes := [(i, ⟨0, none, 0, 0, start, h⟩)]
      counts := { c with generated := c.generated + 1 }, lines := j.tableLines 0 64, poisoned := 0, expanded := 0
      tableBad := false }

/-! ### Paths, re-check and candidates (R319 to R321) -/

/-- The path from start to a node, by fuel: before each step the state it starts from. -/
def Search.pathTo (x : Search) : Nat → Nat → List (List Nat × PathStep)
  | 0, _ => []
  | f + 1, k =>
    match alookup x.nodes k with
    | none => []
    | some n =>
      match n.parent with
      | none => []
      | some p =>
        x.pathTo f p ++ [((match alookup x.nodes p with | some m => m.st | none => []), ⟨n.st, n.prim, n.g⟩)]

/-- The path to a node. -/
def Search.path (x : Search) (k : Nat) : List (List Nat × PathStep) := x.pathTo (x.nodes.length + 1) k

/-- The best partial node: least h, then g, then state index (R319). -/
def Search.best (x : Search) : Option (Nat × Node) :=
  x.nodes.foldl (fun (a : Option (Nat × Node)) n =>
    match a with
    | none => some n
    | some b => if n.2.h < b.2.h ∨ (n.2.h = b.2.h ∧ n.2.g < b.2.g) then some n else a) none

/-- A path passes a map: none of its swept voxels is occupied, tests ending at the first that is. -/
def State.pathPasses (s : State) (j : PlanJob) : List (List Nat × PathStep) → Search → Bool × Search
  | [], x => (true, x)
  | m :: l, x =>
    match j.lat.prims[m.2.prim]? with
    | none => s.pathPasses j l x
    | some p =>
      let (hit, x1) := s.testVoxels j m.1 p.at_ p.voxels x
      if hit then (false, x1) else s.pathPasses j l x1

/-- Queue entries that match the goal and are not stale, in key order, at most 7 (R320). -/
def Search.candidates (x : Search) (j : PlanJob) : List Nat :=
  ((x.queue.filter (fun e => match alookup x.nodes e.idx with
    | some n => n.g == e.g && j.atGoal n.st
    | none => false)).map QEntry.idx).take 7

/-- The first candidate that passes, with its number. -/
def State.firstPassing (s : State) (j : PlanJob) : List (Nat × Nat) → Search → Option (Nat × Nat) × Search
  | [], x => (none, x)
  | (k, i) :: l, x =>
    let (ok, x1) := s.pathPasses j (x.path k) x
    if ok then (some (k, i), x1) else if x1.tableBad then (none, x1) else s.firstPassing j l x1

/-- An end with the path to a node. -/
def Search.endAt (x : Search) (status cand version k : Nat) : PlanEnd :=
  match alookup x.nodes k with
  | some n => ⟨status, (x.path k).map Prod.snd, cand, n.g, n.h, n.st, version⟩
  | none => ⟨status, [], cand, 0, 0, [], version⟩

/-- The end with the best partial node. -/
def Search.endBest (x : Search) (status version : Nat) : PlanEnd :=
  x.endAt status 0 version (match x.best with | some b => b.1 | none => 0)

/-! ### PLAN_SEARCH_END -/

/-- A query's reads charged: the lines of the table and of the map, the poison that counted as occupied, and poison met in the table
(R181, R317, R322). -/
def State.planReads (s : State) (r : Search) : State :=
  (r.lines.foldl (fun s l => s.noteRead (l * 64) 64) s).bump (integCtr 0x38) (r.poisoned + b2n r.tableBad)

/-- A query ends, its counts those of its searches. -/
def State.closeQuery (s : State) (q : PlanQuery) (r : Search) (e : PlanEnd) (cancelled : Bool) : State :=
  (s.planReads r).planEnd { q with counts := r.counts } e cancelled ((s.time.half - q.takenAt) / 2)

/-- A query that met poison in its lattice table replies POISONED, and nothing is written (R322). -/
def State.poisonQuery (s : State) (q : PlanQuery) (r : Search) : State := (s.planReads r).planFail { q with counts := r.counts } stPoisoned

/-- What a query's unit does next, unless a line it reads or the record's place is held by a fence. -/
def State.unlessHeld (s : State) (q : PlanQuery) (n : Nat) (r : Search) (t : State) : State :=
  if r.lines.any (fun a => s.heldRange (a * 64) 64) || s.heldRange q.out n then s.hold ((q.out, n) :: r.lines.map (fun a => (a * 64, 64)))
  else t

/-- A unit holds a query in a new state, which its context shows (R325). -/
def State.putQuery (s : State) (u : Nat) (q : PlanQuery) : State :=
  { s with plan := { s.plan with units := vset s.plan.units u (some q) } }.modPlanCtx q.ctx
    (fun p => { p with state := if q.check.isSome then 3 else 2 })

/-- A search has selected a goal: the re-check of its path begins, against the version now current (R313, R320). -/
def State.beginCheck (s : State) (u : Nat) (q : PlanQuery) (r : Search) (k : Nat) : State :=
  let c : PlanCheck := ⟨{ r with lines := [], poisoned := 0 }, k, s.time.half - q.searchAt, s.plan.version, s.plan.base, s.plan.edge⟩
  (s.planReads r).putQuery u { q with counts := r.counts, check := some c }

/-- A re-check ends (R320): the reply, a re-search under the version it used, or the candidates against the version now current. -/
def State.endCheck (s : State) (u : Nat) (q : PlanQuery) (j : PlanJob) (c : PlanCheck) : State :=
  let n := planRange j.lat
  let (ok, r1) := s.pathPasses { j with base := c.base, edge := c.edge } (c.search.path c.node) c.search
  if ok then s.unlessHeld q n r1 (s.closeQuery q r1 (r1.endAt stDone 0 c.version c.node) false)
  else if r1.tableBad then s.unlessHeld q n r1 (s.poisonQuery q r1)
  else
    let r2 := { r1 with counts := { r1.counts with recheckFailed := true } }
    let room := match q.deadline with | none => true | some d => decide (s.time.half + c.took ≤ d)
    if decide (q.researches < s.plan.researchMax) && room then
      s.unlessHeld q n r2 (((s.planReads r2).putQuery u
        { q with researches := q.researches + 1, counts := r2.counts, version := c.version, base := c.base, edge := c.edge
                 searchAt := s.time.half, check := none }).bump (planCtr 0x58) 1)
    else
      let v := s.plan.version
      let (found, r3) := s.firstPassing { j with base := s.plan.base, edge := s.plan.edge } ((r2.candidates j).zipIdx 1) r2
      match found with
      | some (k, i) => s.unlessHeld q n r3 (s.closeQuery q r3 (r3.endAt stInvalidated i v k) false)
      | none =>
        if r3.tableBad then s.unlessHeld q n r3 (s.poisonQuery q r3)
        else
          let (a, s1) := s.draw
          s.unlessHeld q n r3 (s1.closeQuery q r3 ⟨stInvalidated, [], 0xFF, a % 2 ^ 32, a / 2 ^ 32 % 2 ^ 32,
            (List.range 6).map (fun d => a / 2 ^ (64 + 16 * d) % 2 ^ 16), v⟩ false)

/-- The search of a unit ends: its queue empties, it selects, a deadline or a cancel is found after `cut` expansions, or it meets poison
in the table. -/
def State.endSearch (s : State) (u cut : Nat) (q : PlanQuery) (j : PlanJob) : State :=
  let n := planRange j.lat
  let late := match q.deadline with | some d => decide (d ≤ s.time.half) | none => false
  let (r, e) := s.runSearch j q.start q.counts (if late || !q.cancels.isEmpty then some cut else none)
  s.unlessHeld q n r (match e with
    | .empty => s.closeQuery q r (r.endBest stNoPath q.version) false
    | .selected k => s.beginCheck u q r k
    | .poisoned => s.poisonQuery q r
    | .stopped =>
      if q.cancels.isEmpty && q.noDegrade then
        ((s.planReads r).scramble q.out n).planFail { q with counts := r.counts } stDeadline
      else s.closeQuery q r (r.endBest stTimeout q.version) (!q.cancels.isEmpty))

/-- PLAN_SEARCH_END (R315 to R322): the search of unit `u` ends; or the re-check that followed its selection does. It waits while a
word it reads, or the record's place, is held by a fence. -/
def execPlanSearchEnd (u cut : Nat) (s : State) : Host.Outcome State Fault Refusal :=
  .next (match vget none s.plan.units u with
    | none => s
    | some q =>
      match s.lattice q.lattice with
      | none => s
      | some x =>
        let pd := s.latTable x
        if !s.usable 3 u || !s.domOn (72 + u) then s
        else if s.heldRange x.addr pd.length then s.hold [(x.addr, pd.length)]
        else if (s.latHead x).any PByte.p then ((s.noteRead x.addr 64).bump (integCtr 0x38) 1).planFail q stPoisoned
        else
          let j : PlanJob := ⟨parseLat (vals pd) x.prims, x.addr, pd, q.goal, q.weight, q.base, q.edge⟩
          match q.check with
          | none => s.endSearch u cut q j
          | some c => s.endCheck u q j c)

/-! ### Deadlines (R63) -/

/-- DEADLINE_PASSED (R63, R319): a command still waiting is completed unexecuted; one in execution is marked, and its completion takes
the cheaper path or replies DEADLINE_MISSED. A query that waits for a unit ends. -/
def execDeadlinePassed (q k : Nat) (s : State) : Host.Outcome State Fault Refusal :=
  .next (match s.cmd q k with
    | none => s
    | some c =>
      if s.isLate c then
        match c.phase with
        | .waiting =>
          ((s.modCmd q k (fun c => { c with inFlight := true, late := true, ackDue := c.ackReq })).finish q k stDeadline 0 0).releaseAcks q 1024
        | .done _ _ _ _ => s
        | _ =>
          let s1 := s.modCmd q k (fun c => { c with late := true })
          match s1.plan.queue.find? (fun x => x.uid == c.uid) with
          | some x => s1.endWaiting x false
          | none => s1
      else s)

end Sys2Proof.Machine
end

