-- ==== Sys2Proof/Machine/Pages.lean ====
section
/-! DEFINITION. Page writes of NVS that a command makes (R146, R147, R152, R162). -/

namespace Sys2Proof.Machine

/-- Bytes stored by the device before a reply, a feed-forward mailbox and unbacked host addresses apart (R150, R151). -/
def State.moveTo (s : State) (a : Nat) (b : List PByte) : State := s.storeBytes a b

/-! ### NVS page writes (R146, R147, R152) -/

/-- First NVS page of a write, and the pages of its range. -/
def NvsWrite.first (w : NvsWrite) : Nat := (w.dst - nvsBaseAddr) / 4096
/-- Pages of the range. -/
def NvsWrite.pages (w : NvsWrite) : Nat := ((w.dst - nvsBaseAddr) % 4096 + w.data.length + 4095) / 4096

/-- The bytes of a write that fall in a page: their device address and values. -/
def NvsWrite.part (w : NvsWrite) (p : Nat) : Nat × List PByte :=
  let lo := max w.dst (nvsBaseAddr + 4096 * p)
  let hi := min (w.dst + w.data.length) (nvsBaseAddr + 4096 * (p + 1))
  (lo, (w.data.drop (lo - w.dst)).take (hi - lo))

/-- Page writes in progress on an NVS channel. -/
def State.nvsInFlight (s : State) (c : Nat) : Nat :=
  (s.store.nvsWrites.flatMap NvsWrite.busy).countP (fun p => nvsChan p == c)

/-- The state with the NVS write of a command changed. -/
def State.modWrite (s : State) (uid : Nat) (f : NvsWrite → NvsWrite) : State :=
  { s with store := { s.store with nvsWrites := s.store.nvsWrites.map (fun w => if w.uid = uid then f w else w) } }

/-- Page writes of a command started in ascending order, at most `n` of them, as far as the channels take them (R146, R152). -/
def State.startPages (uid : Nat) : Nat → State → State
  | 0, s => s
  | n + 1, s =>
    match s.store.nvsWrites.find? (fun w => w.uid == uid) with
    | none => s
    | some w =>
      let p := w.first + w.started
      if w.stop || decide (w.pages ≤ w.started) || decide (8 ≤ s.nvsInFlight (nvsChan p)) || s.heldRange (nvsBaseAddr + 4096 * p) 1 then s
      else State.startPages uid n (s.modWrite uid (fun w => { w with started := w.started + 1, busy := w.busy ++ [p] }))

/-- How many page writes start is not fixed: a free number, at least one when none is in progress. -/
def State.pumpWrite (s : State) (uid : Nat) : State :=
  match s.store.nvsWrites.find? (fun w => w.uid == uid) with
  | none => s
  | some w =>
    let (k, s1) := s.draw
    State.startPages uid (k % 257 + b2n w.busy.isEmpty) s1

/-- A page of a write performed at home. -/
def State.putPage (s : State) (w : NvsWrite) (p : Nat) : State :=
  let (a, b) := w.part p
  (s.moveTo a b).modWrite w.uid (fun w => { w with busy := w.busy.filter (· != p) })

/-- A command begins to write bytes to NVS. -/
def State.startWrite (s : State) (uid dst : Nat) (b : List PByte) : State :=
  { s with store := { s.store with nvsWrites := s.store.nvsWrites ++ [NvsWrite.mk uid dst b 0 [] false] } }.pumpWrite uid

end Sys2Proof.Machine
end

