-- ==== Sys2Proof/Machine/Models.lean ====
section
/-! DEFINITION. The commands of the boathouse: loading, evicting, pinning, swapping, moving and inspecting models (R160 to
R164, R272 to R275). -/

namespace Sys2Proof.Machine

/-! ### model.load (R162, R163, R272) -/

/-- The checks of model.load's own values. -/
def chkModelLoad (s : State) (c : Cmd) : Check10 :=
  firstBad [(!s.imageOk (c.p 0 8) (c.p 8 8), 0), (decide (2 < c.p 16 1), 16)]

/-- The model that an image describes, with its home copy at a page. -/
def modelOf (b : List Byte) (digest page n : Nat) : Model :=
  { state := .cold, pinned := false, inUse := 0, keySlot := byteAt b 16, modelId := leAt b 24 8, version := leAt b 20 4
    len := b.length, sections := imgSections b, phases := imgPhases b, placements := imgPlacements b, fetches := imgFetches b
    relocs := imgRelocs b, seq := imgShape b, seqBytes := sectionBytes b 10, digest := digest, home := ⟨page, n⟩, warm := none, variants := none
    hotTiles := [], hotAt := [], lastUse := 0, swapTo := none, swapUid := 0, waits := [], safe := none }

/-- Pool frames for a model's fallback variants and their bytes in them (R154): whether there was room. -/
def State.placeVariants (s : State) (h : Nat) (b : List PByte) : State × Bool :=
  match (s.model h).bind (fun m => m.section? 9) with
  | none => (s, true)
  | some x =>
    if x.size = 0 then (s, true)
    else
      let n := ceilDiv x.size 16384
      match State.roomT1 h n s.boat.models.length s with
      | (s1, none) => (s1, false)
      | (s1, some f) =>
        ((s1.storeBytes (frameAddr f) ((b.drop x.offset).take x.size)).modModel h (fun m => { m with variants := some ⟨f, n⟩ }), true)

/-- A model whose load failed taken out again with all its copies, no event raised. -/
def State.unload (s : State) (h : Nat) : State :=
  let s := (s.dropHot h).dropWarm h
  match s.model h with
  | none => s
  | some m =>
    let s1 := (match m.variants with | some v => s.freeFrames v.first | none => s).freeNvs m.home.first
    { s1 with boat := { s1.boat with models := aerase s1.boat.models h } }

/-- The copies a new model has in a tier made of its image: the status (R162). -/
def State.loadTier (s : State) (h tier : Nat) (b : List PByte) : State × Nat :=
  let (s1, ok) := s.placeVariants h b
  if !ok then (s1, stNoResource)
  else if tier = 2 then (s1, stDone)
  else
    let (s2, ok) := s1.placeWarm h b
    if !ok then (s2, stNoResource) else if tier = 1 then (s2, stDone) else s2.enterHot h

/-- An image that has passed its checks is given its room in the NVS pool and the tier, and its home copy begins to be written; the model
is entered in the boathouse when that is durable (R152, R162, R272). -/
def State.loadImage (s : State) (uid : Nat) (b : List Byte) (tier : Nat) : State × Res :=
  let n := ceilDiv b.length 4096
  match State.roomNvs n s.boat.models.length s with
  | (s1, none) => (s1, .fail stNoResource)
  | (s1, some page) =>
    let h := s1.boat.nextHandle
    let s2 : State := { s1 with boat := { s1.boat with
      models := aset s1.boat.models h (modelOf b (sha384 b) page n), nextHandle := h + 1 } }
    let (s3, st) := s2.loadTier h tier (b.map (fun x => ⟨x, false⟩))
    if st ≠ stDone then (s3.unload h, .fail st)
    else match s3.model h with
      | none => (s3, .fail stNoResource)
      | some m =>
        let s4 : State := { s3 with boat := { s3.boat with
          models := aerase s3.boat.models h, loading := s3.boat.loading ++ [⟨uid, h, m⟩] } }
        (s4.startWrite uid m.homeBase ((m.homeImage b).map (fun x => ⟨x, false⟩)), .going)

/-- A model whose load has ended enters the boathouse. -/
def State.enterLoaded (s : State) (l : Loading) : State :=
  { s with boat := { s.boat with models := aset s.boat.models l.handle l.model, loading := s.boat.loading.filter (· != l) } }

/-- A load ends: its model is in the boathouse, in the tiers whose memory has not been withdrawn meanwhile (R145). -/
def State.endLoad (s : State) (l : Loading) : State :=
  let s1 := s.enterLoaded l
  match l.model.warm with
  | some w => if (256 - s.fault.t1Withdrawn) * 65536 < w.first + w.count then s1.forceTier l.handle 2 else s1
  | none => s1

/-- The home copy of a load lies, in part, in withdrawn NVS (R437). -/
def State.loadLost (s : State) (l : Loading) : Bool :=
  decide ((2048 - s.fault.nvsWithdrawn) * 2 ^ 18 < l.model.home.first + l.model.home.count)

/-- A load is given up: nothing of its model is retained. -/
def State.stopLoad (s : State) (l : Loading) : State := (s.enterLoaded l).unload l.handle

/-- model.load. -/
def runModelLoad (s : State) (c : Cmd) : State × Res :=
  let s := s.noteRead (c.p 0 8) (c.p 8 8)
  let src := c.p 0 8
  let p := s.peek src (c.p 8 8)
  let b := vals p
  if !s.lenOk c then (s, .bad 8)
  else if p.any PByte.p then s.poisonedTable
  else match imgFault b 1 with
    | some d => (s, .reply stBadParam d 0)
    | none =>
      if !s.signed b then (s, .fail stSignature)
      else match contentFault b with
        | some d => (s, .reply stBadParam d 0)
        | none =>
          if c.p 16 1 = 0 ∧ !(imgPlacements b).any (fun p => p.hot) then (s, .bad 16)
          else if c.sag || s.sagging then (s, .fail stSag)
          else s.loadImage c.uid b (c.p 16 1)

/-- MODEL_LOAD (R272). -/
def execModelLoad (q k : Nat) (s : State) : Host.Outcome State Fault Refusal :=
  s.opcodeRow 0x0301 false chkModelLoad runModelLoad q k

/-! ### model.evict, model.pin, model.tier (R162, R163, R209) -/

/-- A model that no demotion may move now: a step of it runs, or a swap names it (R162, R274). -/
def State.modelBusy (s : State) (h : Nat) (m : Model) : Bool :=
  m.inUse != 0 || m.swapTo.isSome || s.boat.models.any (fun p => p.2.swapTo == some (s.modelId h))

/-- A command waits for a model not to be in use. -/
def State.waitModel (s : State) (c : Cmd) (h target : Nat) : State × Res :=
  (s.modModel h (fun m => { m with waits := m.waits ++ [(some c.uid, target)] }), .going)

/-- model.evict has no value to check. -/
def chkModelEvict (_ : State) (_ : Cmd) : Check10 := none

/-- model.evict. -/
def runModelEvict (s : State) (c : Cmd) : State × Res :=
  let h := c.p 0 4
  match s.model h with
  | none => (s, .fail stModelAbsent)
  | some m =>
    if m.pinned then (s, .fail stPinned)
    else if s.modelBusy h m then s.waitModel c h 3
    else (s.evictNow h, .done 0)

/-- MODEL_EVICT (R162). -/
def execModelEvict (q k : Nat) (s : State) : Host.Outcome State Fault Refusal :=
  s.opcodeRow 0x0302 false chkModelEvict runModelEvict q k

/-- The check of model.pin. -/
def chkModelPin (_ : State) (c : Cmd) : Check10 := firstBad [(decide (1 < c.p 4 1), 4)]

/-- A model pinned or unpinned; NO_SPILL of its sequences follows (R209). -/
def State.setPin (s : State) (h : Nat) (pin : Bool) : State :=
  let id := s.modelId h
  let s1 := s.modModel h (fun m => { m with pinned := pin })
  ((s.ctxs.filter (fun p => p.2.kind == 0 && s.modelId p.2.model == id)).map Prod.fst).foldl
    (fun s i => s.updCtx i (fun x => { x with noSpill := pin })) s1

/-- model.pin. -/
def runModelPin (s : State) (c : Cmd) : State × Res :=
  match s.model (c.p 0 4) with
  | none => (s, .fail stModelAbsent)
  | some m => ((s.setPin (c.p 0 4) (c.p 4 1 == 1)).spillBackground, .done (b2n m.pinned))

/-- MODEL_PIN (R163). -/
def execModelPin (q k : Nat) (s : State) : Host.Outcome State Fault Refusal :=
  s.opcodeRow 0x0303 false chkModelPin runModelPin q k

/-- The check of model.tier. -/
def chkModelTier (_ : State) (c : Cmd) : Check10 := firstBad [(decide (2 < c.p 4 1), 4)]

/-- model.tier. -/
def runModelTier (s : State) (c : Cmd) : State × Res :=
  let h := c.p 0 4
  let t := c.p 4 1
  match s.model h with
  | none => (s, .fail stModelAbsent)
  | some m =>
    if t = 0 ∧ m.hotPlacement.isNone then (s, .bad 4)
    else if m.pinRefuses t then (s, .fail stPinned)
    else if m.state.tier = t then (s, .done t)
    else if s.modelBusy h m then s.waitModel c h t
    else
      let (s1, st) := s.tierNow h t
      (s1.schedule, .reply st 0 t)

/-- MODEL_TIER (R162). -/
def execModelTier (q k : Nat) (s : State) : Host.Outcome State Fault Refusal :=
  s.opcodeRow 0x0305 false chkModelTier runModelTier q k

/-! ### model.swap (R274) -/

/-- Two models may take each other's place. -/
def Model.compatible (a b : Model) : Bool :=
  a.phases.length == b.phases.length && a.seqBytes == b.seqBytes &&
    (a.phases.zip b.phases).all (fun (p, q) =>
      p.kind == q.kind && p.sequence == q.sequence && p.pred == q.pred && p.inBytes == q.inBytes && p.outBytes == q.outBytes)

/-- model.swap has no value to check alone. -/
def chkModelSwap (_ : State) (_ : Cmd) : Check10 := none

/-- model.swap: from here on steps of both models are held. -/
def runModelSwap (s : State) (c : Cmd) : State × Res :=
  let old := s.modelId (c.p 0 4)
  let new := s.modelId (c.p 4 4)
  let named (h : Nat) : Bool := s.boat.models.any (fun p => p.2.swapTo.isSome && (p.1 == h || p.2.swapTo == some h))
  match s.model old, s.model new with
  | some a, some b =>
    if old = new then (s, .bad 4)
    else if named old || named new || !a.compatible b then (s, .fail stWrongState)
    else (s.modModel old (fun m => { m with swapTo := some new, swapUid := c.uid }), .going)
  | _, _ => (s, .fail stModelAbsent)

/-- MODEL_SWAP (R274). -/
def execModelSwap (q k : Nat) (s : State) : Host.Outcome State Fault Refusal :=
  s.opcodeRow 0x0304 false chkModelSwap runModelSwap q k

/-- A swap takes effect: contexts rebound, the old handle another name of the new model, the old copies freed. -/
def State.swapNow (s : State) (old new : Nat) (a b : Model) : State :=
  let pin := a.pinned || b.pinned
  let ctxs := (s.ctxs.filter (fun p => (p.2.kind == 0 || p.2.kind == 2) && s.modelId p.2.model == old)).map Prod.fst
  let s1 := ctxs.foldl (fun s i => s.updCtx i (fun x => { x with model := new })) s
  let s2 := s1.modModel new (fun m => { m with waits := m.waits ++ a.waits })
  let s3 := s2.modModel old (fun m => { m with waits := [] })
  let al := s3.boat.aliases
  let s4 := s3.evictNow old
  let s5 : State := { s4 with boat := { s4.boat with
    aliases := aset (al.map (fun p => if p.2 = old then (p.1, new) else p)) old new } }
  let s6 := ((s5.setPin new pin).raise 0x0301 90 0 (old % 2 ^ 32 + new % 2 ^ 32 * 2 ^ 32)).finishUid a.swapUid false stDone 0 0
  (s6.modelIdle new 64).schedule

/-- MODEL_SWAP_EFFECT (R274): no step of the old model is in use any more. A command whose deadline has passed by then swaps nothing
(R63). -/
def execModelSwapEffect (old : Nat) (s : State) : Host.Outcome State Fault Refusal :=
  .next (match s.model old with
    | none => s
    | some a =>
      match a.swapTo with
      | none => s
      | some new =>
        let free (st : Nat) : State := ((s.modModel old (fun m => { m with swapTo := none })).finishUid a.swapUid false st 0 0)
        if a.inUse ≠ 0 then s
        else if s.lateUid a.swapUid then (((free stDeadline).modelIdle old 64).modelIdle new 64).schedule
        else match s.model new with
          | some b => s.swapNow (s.modelId old) new a b
          | none => (free stModelAbsent).schedule)

/-! ### model.info (R275) -/

/-- The check of model.info. -/
def chkModelInfo (s : State) (c : Cmd) : Check10 := firstBad [(!s.destOk (c.p 4 8) 64, 4)]

/-- The record of model.info. -/
def Model.info (m : Model) (h : Nat) : List Byte :=
  let st := match m.state with | .cold => 1 | .warm => 2 | .hot => 3
  let t0 := match m.hotPlacement with | some p => p.hotBytes * m.hotTiles.length | none => 0
  let var := match m.variants, m.section? 9 with | some _, some x => x.size | _, _ => 0
  toLe 4 h ++ toLe 1 st ++ toLe 1 (b2n m.pinned) ++ toLe 1 m.keySlot ++ toLe 1 m.phases.length ++ toLe 8 m.modelId ++
    toLe 4 m.version ++ toLe 4 m.inUse ++ toLe 8 t0 ++ toLe 8 ((if m.warm.isSome then m.len else 0) + var) ++ toLe 8 m.len ++
    toLe 8 m.lastUse ++ toLe 8 0

/-- model.info. -/
def runModelInfo (s : State) (c : Cmd) : State × Res :=
  match s.model (c.p 0 4) with
  | none => (s, .fail stModelAbsent)
  | some m => (s.storeClean (c.p 4 8) (m.info (c.p 0 4)), .done 64)

/-- MODEL_INFO (R275). -/
def execModelInfo (q k : Nat) (s : State) : Host.Outcome State Fault Refusal :=
  s.opcodeRow 0x0306 false chkModelInfo runModelInfo q k

end Sys2Proof.Machine
end

