-- ==== Sys2Proof/Machine/Faults.lean ====
section
/-! DEFINITION. Internal check errors, probes, fences, the die bridge, and the fault commands (R11, R428 to R444). -/

namespace Sys2Proof.Machine

/-! ### Internal check errors (R431, R433, R434, R440) -/

/-- INTERNAL_CHECK_ERROR (R428, R433, R434): the unit is charged where R428 charges its type, fenced and quarantined; a run or
query is reissued, and a step that lost its tile is re-run. -/
def execInternalCheckError (ty n : Nat) (s : State) : Host.Outcome State Fault Refusal :=
  .next (if unitCount ty ≤ n ∨ s.usable ty n = false ∨ s.domOn (unitDomain ty n) = false then s
    else
      let s1 := if ty < 4 then s.charge ty n 4 else s
      if s1.retired ty n then s1
      else
        let s2 := s1.quarantine ty n 4
        match ty with
        | 0 => s2.loseTile n
        | 1 => (s2.reissue 1 n).runsPlace
        | 2 => (s2.reissue 2 n).runsPlace
        | 3 => (s2.reissue 3 n).planPlace
        | _ => s2)

/-! ### Probes (R438, R440, R441) -/

/-- The state code of a unit: 0 usable, 1 quarantined, 2 retired (R441, R444). -/
def UnitState.code : UnitState → Nat
  | .usable => 0 | .quarantined => 1 | .retired => 2

/-- Every fault.probe that waits for a unit's probe completes once the unit has left quarantine (R441). -/
def State.answerProbes (s : State) : State :=
  (s.host.queues.toList.flatMap (fun q => q.cmds.filter (fun c => c.opcode == 0x0C03 && c.phase == .running))).foldl
    (fun s c =>
      let st := (s.unit (c.p 0 1) (c.p 1 2)).state
      if st = .quarantined then s else s.finishUid c.uid false stDone 0 st.code) s

/-- A unit's probe can answer: command packets are accepted, it is quarantined, not by the die bridge, and the bridge carries it
(R438, R498). -/
def State.probing (s : State) (ty n : Nat) : Bool :=
  s.start.stage == .accepting && s.quarantined ty n && !(s.unit ty n).byBridge && !s.fault.bridge.down && decide (n < unitCount ty)

/-- The cause of a failed probe: 7. A T1 channel's probe holds its self-test, whose mismatch has cause 6 (R429, R440). -/
def State.probeCause (s : State) (ty : Nat) : Nat × State :=
  if ty = 4 then (let (k, s1) := s.draw; (6 + k % 2, s1)) else (7, s)

/-- PROBE_RESULT (R440, R441): the unit is restored, or retired. A T1 channel's failed self-test also shows in INTEG.SELFTEST.FAIL
(R188). -/
def execProbeResult (ty n : Nat) (pass : Bool) (s : State) : Host.Outcome State Fault Refusal :=
  .next (if s.probing ty n then
    if pass then (s.restore ty n).answerProbes
    else
      let (c, s1) := s.probeCause ty
      let s2 : State := { s1 with store := { s1.store with testFail := s1.store.testFail || c == 6 } }
      (s2.retire ty n c).answerProbes
  else s)

/-- PROBE_TIMEOUT (R440): 1 ms has passed without a result. -/
def execProbeTimeout (ty n : Nat) (s : State) : Host.Outcome State Fault Refusal :=
  .next (if s.probing ty n && s.since (s.unit ty n).since (us 1000) then (s.retire ty n 7).answerProbes else s)

/-- PATH_COMPARE (R440): where the data path's fence and the cox's table disagree, the unit is fenced; one that the table has
usable is quarantined. -/
def execPathCompare (s : State) : Host.Outcome State Fault Refusal :=
  .next ((List.range 7).foldl (fun s ty => (List.range (unitCount ty)).foldl (fun s n =>
    let u := s.unit ty n
    if u.state = .usable ∧ u.fenced then s.quarantine ty n 0
    else if u.state ≠ .usable ∧ u.fenced = false then s.modUnit ty n (fun u => { u with fenced := true })
    else s) s) s)

/-- FENCE_NOT_CONFIRMED (R440): a retired unit's fence is not confirmed within 1 ms: its domain is switched off, and every
other unit of the domain is retired. -/
def execFenceNotConfirmed (ty n : Nat) (s : State) : Host.Outcome State Fault Refusal :=
  .next (
    let u := s.unit ty n
    let d := unitDomain ty n
    if n < unitCount ty ∧ u.state = .retired ∧ u.confirmed = false ∧ u.cause ≠ 9 ∧ s.since u.since (us 1000) ∧
        s.fault.dead.contains d = false then
      let s1 := s.setDom d false
      let s2 : State := { s1 with fault := { s1.fault with dead := insertSorted s1.fault.dead d }
                                  pwr := { s1.pwr with waking := s1.pwr.waking.filter (fun p => p.1 != d) } }
      let s3 := if d < 64 then (s2.poisonFill (2 * d)).poisonFill (2 * d + 1) else s2
      let s4 := (List.range 7).foldl (fun s t => (List.range (unitCount t)).foldl (fun s m =>
        if unitDomain t m = d then s.retire t m 7 else s) s) (s3.bump (faultCtr 0xB8) 1)
      s4.answerProbes
    else s)

/-! ### The die bridge (R11) -/

/-- Every unit of types 0 to 6, all of them on the compute die. -/
def allUnits : List (Nat × Nat) := (List.range 7).flatMap (fun ty => (List.range (unitCount ty)).map (fun n => (ty, n)))

/-- A safety-relevant result due from the compute die is marked INVALID, and no tile is charged (R11, R413). -/
def State.invalidSafe (s : State) : State :=
  (s.sched.jobs.filter (fun j => s.jobSafe j && j.crewed)).foldl (fun s j =>
    match s.job j.uid with
    | none => s
    | some k =>
      match k.state with
      | .tearing _ => s
      | _ => s.giveVerdict k 2) s

/-- The die-bridge watch has run for 10 µs: domains 77 and 95 are on and the watch started so long ago (R11). -/
def State.watched (s : State) : Bool :=
  s.fault.bridge.watch && s.domOn 77 && s.domOn 95 && s.since s.fault.bridge.watchAt (us 10)

/-- DIE_BRIDGE_SILENCE (R11): no valid token for 10 µs while the watch runs. Every usable compute-die unit is fenced and
treated as quarantined. -/
def execDieBridgeSilence (s : State) : Host.Outcome State Fault Refusal :=
  .next (
    let b := s.fault.bridge
    if s.watched && !b.down && !b.lost then
      let s1 : State := { s with fault := { s.fault with
        bridge := { b with up := false, down := true, since := s.time.half }
        units := s.fault.units.map (fun u => if u.state = .usable then
          { u with state := .quarantined, fenced := true, byBridge := true, since := s.time.half } else u) } }
      (s1.raise 0x0107 95 0 0).invalidSafe
    else s)

/-- DIE_BRIDGE_RESTORED (R11): within 1 ms the bridge carries valid tokens again. The outside says for each of the 445 units
whether it answers its probe: the quarantine of one that does is lifted, whatever it came from, and one that does not stays
quarantined. -/
def execDieBridgeRestored (answers : List Byte) (s : State) : Host.Outcome State Fault Refusal :=
  .next (
    let b := s.fault.bridge
    if b.down && !s.since b.since (us 1000) then
      let before := (List.range 445).filter (fun i =>
        (vget UnitRec.reset s.fault.units i).state == .quarantined && !(vget UnitRec.reset s.fault.units i).byBridge && byteAt answers i != 0)
      let s1 : State := { s with fault := { s.fault with
        bridge := { b with up := true, down := false }
        units := s.fault.units.mapIdx (fun i u =>
          if u.byBridge ∧ u.state = .quarantined then
            if byteAt answers i ≠ 0 then { u with state := .usable, fenced := false, byBridge := false }
            else { u with byBridge := false, since := s.time.half }
          else u) } }
      let s2 := before.foldl (fun s i => match allUnits[i]? with | some (ty, n) => s.restore ty n | none => s) s1
      ((((s2.raise 0x0108 95 0 0).schedule).runsPlace).planPlace).answerProbes
    else s)

/-- Every command in flight that needs the compute die, and every job and query, replies TORN_DOWN (R11). -/
def State.loseDie (s : State) : State :=
  let s1 := (s.sched.jobs.map (fun j => j.ctx)).foldl (fun s c => s.tearNow c 0x0130) s
  let qs := s1.plan.queue ++ s1.plan.units.toList.filterMap id
  let s2 : State := { s1 with plan := { s1.plan with queue := [], units := Vector.replicate 4 none } }
  let s3 := qs.foldl (fun s q => s.dropQuery q stTornDown) s2
  let cmds := s3.host.queues.toList.flatMap (fun q => q.cmds.filter (fun c => c.phase == .running && c.needsCompute))
  let s4 := cmds.foldl (fun s c => s.finishUid c.uid true stTornDown 0 0) s3
  let s5 := s4.boat.loading.foldl State.stopLoad s4
  { s5 with
    boat := { s5.boat with waits := [], models := s5.boat.models.map (fun p => (p.1, { p.2 with waits := [], swapTo := none })) }
    store := { s5.store with converts := [], nvsWrites := [] } }

/-- DIE_BRIDGE_RETRAIN_TIMEOUT (R11): still silent after 1 ms. Every compute-die unit is retired until the next start. -/
def execDieBridgeRetrainTimeout (s : State) : Host.Outcome State Fault Refusal :=
  .next (
    let b := s.fault.bridge
    if b.down && s.since b.since (us 1000) then
      let s1 := allUnits.foldl (fun s x => s.retire x.1 x.2 9) s
      let s2 : State := { s1 with fault := { s1.fault with bridge := { s1.fault.bridge with down := false, lost := true } } }
      s2.loseDie.answerProbes
    else s)

/-! ### The fault commands (R430, R439, R441, R444) -/

/-- A rebuild of the channel waits or runs (R189). -/
def State.rebuilding (s : State) (ty n : Nat) : Bool :=
  (ty == 4 && s.fault.t1Rebuilds.any (fun r => r.chan == n)) || (ty == 5 && s.fault.nvsRebuilds.any (fun r => r.chan == n))

/-- STATE of R189 and R444. -/
def State.unitCode (s : State) (ty n : Nat) : Nat :=
  let st := (s.unit ty n).state.code
  if st = 2 ∧ s.rebuilding ty n then 3 else st

/-- Units of a type in a state. -/
def State.unitsIn (s : State) (ty : Nat) (st : UnitState) : Nat :=
  ((List.range (unitCount ty)).filter (fun n => (s.unit ty n).state == st)).length

/-- The 16-byte entry of a unit (R444). -/
def State.unitEntry (s : State) (ty n : Nat) : List Byte :=
  let u := s.unit ty n
  toLe 1 ty ++ toLe 1 (s.unitCode ty n) ++ toLe 2 n ++ toLe 1 (if ty < 6 then s.level ty n else 0) ++ toLe 1 u.cause ++ toLe 2 u.lifetime ++
    toLe 4 u.count ++ toLe 4 u.lastMs

/-- The 7,184 bytes of fault.status (R444). -/
def State.faultStatus (s : State) : List Byte :=
  let per (st : UnitState) : List Byte := (List.range 7).flatMap (fun ty => toLe 2 (s.unitsIn ty st))
  toLe 2 445 ++ toLe 2 16 ++ per .usable ++ per .quarantined ++ per .retired ++ toLe 2 0 ++ toLe 8 s.elapsed ++ toLe 8 0 ++
    allUnits.flatMap (fun x => s.unitEntry x.1 x.2)

/-- fault.status: dest in a data window or the T1 host region (R68, R444). -/
def chkFaultStatus (s : State) (c : Cmd) : Check10 := firstBad [(!s.destOk (c.p 0 8) 7184, 0)]
/-- fault.status. -/
def runFaultStatus (s : State) (c : Cmd) : State × Res := (s.storeClean (c.p 0 8) s.faultStatus, .done 7184)
/-- FAULT_STATUS (R444). -/
def execFaultStatus (q k : Nat) (s : State) : Host.Outcome State Fault Refusal :=
  s.opcodeRow 0x0C01 false chkFaultStatus runFaultStatus q k

/-- A unit type above 6 or a unit number out of range (R439, R441). -/
def chkUnit (_ : State) (c : Cmd) : Check10 :=
  firstBad [(decide (6 < c.p 0 1), 0), (decide (unitCount (c.p 0 1) ≤ c.p 1 2), 1)]

/-- fault.retire: the fence is confirmed before it replies. -/
def runFaultRetire (s : State) (c : Cmd) : State × Res :=
  let ty := c.p 0 1
  let n := c.p 1 2
  if s.retired ty n then (s, .done 0)
  else (((s.retire ty n 8).modUnit ty n (fun u => { u with confirmed := true })).answerProbes, .done 0)
/-- FAULT_RETIRE (R439). -/
def execFaultRetire (q k : Nat) (s : State) : Host.Outcome State Fault Refusal :=
  s.opcodeRow 0x0C02 false chkUnit runFaultRetire q k

/-- fault.probe: on a quarantined unit it waits for the probe, unless the die bridge is down. -/
def runFaultProbe (s : State) (c : Cmd) : State × Res :=
  let st := (s.unit (c.p 0 1) (c.p 1 2)).state
  if st = .quarantined ∧ s.fault.bridge.down = false then (s, .going) else (s, .done st.code)
/-- FAULT_PROBE (R441). -/
def execFaultProbe (q k : Nat) (s : State) : Host.Outcome State Fault Refusal :=
  s.opcodeRow 0x0C03 false chkUnit runFaultProbe q k

/-- fault.bucket: THRESHOLD 1 to 16, WINDOW 1 to 3,600,000 ms, types 0 to 5 (R430). -/
def chkFaultBucket (_ : State) (c : Cmd) : Check10 :=
  firstBad [(decide (5 < c.p 0 1), 0), (decide (c.p 1 1 < 1 ∨ 16 < c.p 1 1), 1), (decide (c.p 2 4 < 1 ∨ 3600000 < c.p 2 4), 2)]
/-- fault.bucket. -/
def runFaultBucket (s : State) (c : Cmd) : State × Res :=
  ({ s with fault := { s.fault with buckets := vset s.fault.buckets (c.p 0 1) ⟨c.p 1 1, c.p 2 4⟩ } }, .done 0)
/-- FAULT_BUCKET (R430). -/
def execFaultBucket (q k : Nat) (s : State) : Host.Outcome State Fault Refusal :=
  s.opcodeRow 0x0C04 false chkFaultBucket runFaultBucket q k

end Sys2Proof.Machine
end

