-- ==== Sys2Proof/Machine/Store.lean ====
section
/-! DEFINITION. The memory commands, line frames and their replays, the scrubber, the self-test and the rebuilds (R142 to R153,
R173 to R187, R432, R437). -/

namespace Sys2Proof.Machine

/-! ### Running a memory command -/

/-- A memory command whose ranges are held by a quarantined channel or a rebuild waits (R432, R437). -/
def State.memHeld (op : Nat) (check : State → Cmd → Check10) (ranges : Cmd → List (Nat × Nat)) (q k : Nat) (s : State) : Bool :=
  match s.cmd q k with
  | none => false
  | some c => c.phase == .ready && c.opcode == op && (check s c).isNone && (s.gate c).isNone && (ranges c).any (fun r => s.heldRange r.1 r.2)

/-- The meaning of a memory command's row. -/
def State.memRow (op : Nat) (check : State → Cmd → Check10) (body : State → Cmd → State × Res) (q k : Nat) (s : State) :
    Host.Outcome State Fault Refusal :=
  if s.memHeld op check Cmd.ranges q k then .next (s.hold ((s.cmd q k).elim [] Cmd.ranges)) else s.opcodeRow op false check body q k

/-! ### NVS page writes (R146, R147, R152) -/

/-- The command of a write completes when no page of it is in progress and either all are durable or the warning has stopped it: then
it replies REFUSED_SAG with the bytes that stand durably, all of them where every page had started (R152). A missed deadline
leaves the destination undefined (R63), and no model loaded. -/
def State.endWrite (s : State) (uid : Nat) : State :=
  match s.store.nvsWrites.find? (fun w => w.uid == uid) with
  | none => s
  | some w =>
    if w.busy.isEmpty && (w.stop || decide (w.pages ≤ w.started)) then
      let s1 : State := { s with store := { s.store with nvsWrites := s.store.nvsWrites.filter (fun x => x.uid != uid) } }
      let sure := min w.data.length (nvsBaseAddr + 4096 * (w.first + w.started) - w.dst)
      match s.boat.loading.find? (fun l => l.uid == uid) with
      | some l =>
        if w.stop then (s1.stopLoad l).finishUid uid false stSag sure 0
        else if s1.loadLost l then (s1.stopLoad l).finishUid uid false stNoResource 0 0
        else if s1.lateUid uid then (s1.stopLoad l).finishUid uid false stDeadline 0 0
        else ((s1.endLoad l).finishUid uid false stDone 0 (l.handle % 2 ^ 32)).schedule
      | none =>
        if w.stop then s1.finishUid uid false stSag sure 0
        else (if s1.lateUid uid then s1.scramble w.dst w.data.length else s1).finishUid uid false stDone 0 w.data.length
    else s

/-- NVS_PAGE_WRITE_DURABLE (R146, R147, R152): the page holds its new contents, and the command goes on. -/
def execNvsPageWriteDurable (page : Nat) (s : State) : Host.Outcome State Fault Refusal :=
  .next (match s.store.nvsWrites.find? (fun w => w.busy.contains page) with
    | none => s
    | some w => ((s.putPage w page).pumpWrite w.uid).endWrite w.uid)

/-- Every command in flight that has still to write NVS meets the warning (R152). -/
def State.warnCmds (s : State) : State :=
  { s with host := { s.host with queues := s.host.queues.map (fun q =>
      { q with cmds := q.cmds.map (fun c => if c.inFlight then { c with sag := true } else c) }) } }

/-- The sag warning stops every command writing NVS, those dispatched and not yet writing among them; pages already started go on
(R152). -/
def State.stopWrites (s : State) : State :=
  let us := s.store.nvsWrites.map NvsWrite.uid
  us.foldl (fun s u => (s.modWrite u (fun w => { w with stop := true })).endWrite u) s.warnCmds

/-- Supply is lost: the hold-up completes every page write already started (R147, R492). -/
def State.holdUp (s : State) : State :=
  s.store.nvsWrites.foldl (fun s w => w.busy.foldl (fun s p => let (a, b) := w.part p; s.moveTo a b) s) s

/-! ### mem.pull, mem.push, mem.copy, mem.fill (R150 to R153, R182) -/

/-- A range lies wholly in the T1 or the NVS host region. -/
def State.hostRegion (s : State) (a n : Nat) : Bool := s.inT1Host a n || s.inNvsHost a n

/-- Bytes go to their destination: to NVS page by page, elsewhere at once. -/
def State.deliver (s : State) (c : Cmd) (dst : Nat) (b : List PByte) : State × Res :=
  if isNvs dst then
    if c.sag || s.sagging then (s, .fail stSag) else (s.startWrite c.uid dst b, .going)
  else (s.moveTo dst b, .done b.length)

/-- mem.pull: a data window into a host region. -/
def chkMemPull (s : State) (c : Cmd) : Check10 :=
  let n := max 1 (min (c.p 16 4) 67108864)
  firstBad [(!inWindow (c.p 0 8) n, 0), (!s.hostRegion (c.p 8 8) n, 8), (decide (c.p 16 4 = 0 ∨ 67108864 < c.p 16 4), 16)]
/-- mem.pull. -/
def runMemPull (ups : List Upset) (s : State) (c : Cmd) : State × Res :=
  let (s1, b) := s.readWith ups (c.p 0 8) (c.p 16 4)
  s1.deliver c (c.p 8 8) b
/-- MEM_PULL (R150). -/
def execMemPull (q k : Nat) (ups : List Upset) (s : State) : Host.Outcome State Fault Refusal :=
  s.memRow 0x0201 chkMemPull (runMemPull ups) q k

/-- mem.push: a host region into a data window. -/
def chkMemPush (s : State) (c : Cmd) : Check10 :=
  let n := max 1 (min (c.p 16 4) 67108864)
  firstBad [(!s.hostRegion (c.p 0 8) n, 0), (!inWindow (c.p 8 8) n, 8), (decide (c.p 16 4 = 0 ∨ 67108864 < c.p 16 4), 16)]
/-- mem.push: poisoned words that enter the window are counted, and the command replies POISONED (R182). -/
def runMemPush (ups : List Upset) (s : State) (c : Cmd) : State × Res :=
  let (s1, b) := s.readWith ups (c.p 0 8) (c.p 16 4)
  let s2 := s1.moveTo (c.p 8 8) b
  match poisonedWords (c.p 8 8) (b.map some) with
  | [] => (s2, .done b.length)
  | w :: l => ((s2.bump (integCtr 0x38) (l.length + 1)).raise 0x0202 92 0 w, .reply stPoisoned (min (l.length + 1) 0xFFFFFFFF) 0)
/-- MEM_PUSH (R150). -/
def execMemPush (q k : Nat) (ups : List Upset) (s : State) : Host.Outcome State Fault Refusal :=
  s.memRow 0x0202 chkMemPush (runMemPush ups) q k

/-- mem.copy: host region to host region. -/
def chkMemCopy (s : State) (c : Cmd) : Check10 :=
  let n := max 1 (min (c.p 16 8) (2 ^ 41))
  firstBad [(!s.hostRegion (c.p 0 8) n, 0), (!s.hostRegion (c.p 8 8) n, 8), (decide (c.p 16 8 = 0 ∨ 2 ^ 41 < c.p 16 8), 16)]
/-- mem.copy: the source as it stood before the command, poison with the data (R151). -/
def runMemCopy (ups : List Upset) (s : State) (c : Cmd) : State × Res :=
  let (s1, b) := s.readWith ups (c.p 0 8) (c.p 16 8)
  s1.deliver c (c.p 8 8) b
/-- MEM_COPY (R150). -/
def execMemCopy (q k : Nat) (ups : List Upset) (s : State) : Host.Outcome State Fault Refusal :=
  s.memRow 0x0203 chkMemCopy (runMemCopy ups) q k

/-- mem.fill: dst and len multiples of 8. -/
def chkMemFill (s : State) (c : Cmd) : Check10 :=
  let n := max 1 (min (c.p 8 8) (2 ^ 41))
  firstBad [(decide (c.p 0 8 % 8 ≠ 0) || !s.hostRegion (c.p 0 8) n, 0), (decide (c.p 8 8 < 8 ∨ 2 ^ 41 < c.p 8 8 ∨ c.p 8 8 % 8 ≠ 0), 8)]
/-- mem.fill: the pattern repeated. -/
def runMemFill (s : State) (c : Cmd) : State × Res :=
  let b := (List.replicate (c.p 8 8 / 8) ((slice c.params 16 8).map (fun b => PByte.mk b false))).flatten
  s.deliver c (c.p 0 8) b
/-- MEM_FILL (R150). -/
def execMemFill (q k : Nat) (s : State) : Host.Outcome State Fault Refusal := s.memRow 0x0204 chkMemFill runMemFill q k

/-! ### mem.mode (R174, R175) -/

/-- mem.mode: multiples of 16 MiB in the T1 host region. -/
def chkMemMode (s : State) (c : Cmd) : Check10 :=
  firstBad [(decide ((c.p 0 8 - t1Base) % 2 ^ 24 ≠ 0) || !isT1 (c.p 0 8) || !s.inT1Host (c.p 0 8) (c.p 8 8), 0),
    (decide (c.p 8 8 = 0 ∨ c.p 8 8 % 2 ^ 24 ≠ 0), 8), (decide (1 < c.p 16 1), 16)]

/-- Lines of a range of T1 that a rewrite would change: those with a stored error, and those with a word of which some bytes are in the
poison form. -/
def State.unevenLines (s : State) (a n : Nat) : List Nat :=
  let inside (x : Nat) : Bool := decide (a ≤ x ∧ x < a + n)
  let mixed := (s.mem.tag.filter (fun c => inside c.1 && (s.mem.wordMarks (c.1 / 8 * 8)).contains 0)).map (fun c => c.1 / 64 * 64)
  ((s.store.flaws.map Prod.fst ++ s.store.flaky).filter inside ++ mixed).eraseDups

/-- A line read in the mode it holds, to be written in another: a line that cannot be corrected with all eight words poisoned, a
poisoned word poisoned whole, the corrected bytes counted (R175). -/
def State.convertLine (s : State) (l : Nat) : State :=
  let r := s.lineRead l
  (s.rewrite l (if r.bad then LineRead.lost.bytes else r.data)).countT1 l r.corrected (if s.kindOf l = .line then r.corrected else 0)

/-- The next `n` lines of a conversion rewritten in their new mode; after the last the whole range is in it, and the command
completes (R174, R175). -/
def State.convertLines (s : State) (x : Convert) (n : Nat) : State :=
  let s1 := (s.unevenLines (x.base + 64 * x.next) (64 * n)).foldl State.convertLine s
  if x.len ≤ 64 * (x.next + n) then
    let rs := (List.range (x.len / 2 ^ 24)).map (fun i => (x.base - t1Base) / 2 ^ 24 + i)
    ({ s1 with store := { s1.store with
        converts := s1.store.converts.filter (fun y => y.uid != x.uid)
        lineRegions := if x.mode = 1 then insertAll s1.store.lineRegions rs
          else s1.store.lineRegions.filter (fun r => !rs.contains r) } }).finishUid x.uid false stDone 0 x.prev
  else
    { s1 with store := { s1.store with
        converts := s1.store.converts.map (fun y => if y.uid = x.uid then { y with next := y.next + n } else y) } }

/-- A conversion goes on: how many lines it has rewritten since is not fixed, and is a free number; at most up to one that awaits its
copy. -/
def State.convertStep (s : State) (x : Convert) : State :=
  let (k, s1) := s.draw
  let a := x.base + 64 * x.next
  let n := min (1 + k % 262144) (x.len / 64 - x.next)
  if !s1.heldRange a (64 * n) then s1.convertLines x n
  else if s1.heldRange a 64 then s.hold [(a, 64)]
  else s1.convertLines x 1

/-- mem.mode begins: WRONG_STATE while another covers part of the range. -/
def runMemMode (s : State) (c : Cmd) : State × Res :=
  let a := c.p 0 8
  let n := c.p 8 8
  if s.store.converts.any (fun x => decide (x.base < a + n ∧ a < x.base + x.len)) then (s, .fail stWrongState)
  else
    let line := (List.range (n / 2 ^ 24)).map (fun i => s.store.lineRegions.contains ((a - t1Base) / 2 ^ 24 + i))
    let prev := if line.all id then 1 else if line.any id then 2 else 0
    ({ s with store := { s.store with converts := s.store.converts ++ [Convert.mk c.uid a n (c.p 16 1) prev 0] } }, .going)

/-- MEM_MODE (R174, R175): the command begins; each further row of a running one finds more of its lines converted, and the
last completes it, whatever its deadline. -/
def execMemMode (q k : Nat) (s : State) : Host.Outcome State Fault Refusal :=
  match s.cmd q k with
  | none => .next s
  | some c =>
    if c.opcode = 0x0205 ∧ c.phase = .running then
      .next (match s.store.converts.find? (fun x => x.uid == c.uid) with
        | some x => s.convertStep x
        | none => s)
    else s.opcodeRow 0x0205 false chkMemMode runMemMode q k

/-! ### mem.scrub and mem.spillarea (R149, R186) -/

/-- mem.scrub: enable is 0 or 1. -/
def chkMemScrub (_ : State) (c : Cmd) : Check10 := firstBad [(decide (1 < c.p 4 1), 4)]
/-- mem.scrub. -/
def runMemScrub (s : State) (c : Cmd) : State × Res :=
  ({ s with store := { s.store with limitMs := c.p 0 4, scrubEnable := c.p 4 1 == 1 } }, .done s.store.lapMs)
/-- MEM_SCRUB (R186). -/
def execMemScrub (q k : Nat) (s : State) : Host.Outcome State Fault Refusal := s.opcodeRow 0x0206 false chkMemScrub runMemScrub q k

/-- A range lies in the NVS pool (R138). -/
def State.inNvsPool (s : State) (a n : Nat) : Bool :=
  isNvs a && decide (s.tier.nvsBase * 2 ^ 30 ≤ a - nvsBaseAddr ∧ a - nvsBaseAddr + n ≤ min s.tier.nvsLimit 2048 * 2 ^ 30)

/-- mem.spillarea: a 16 KiB-aligned range of the NVS pool of at most 512 GiB; with len 0 the base is not checked. -/
def chkMemSpillarea (s : State) (c : Cmd) : Check10 :=
  let a := c.p 0 8
  let n := c.p 8 8
  if n = 0 then none
  else firstBad [(!isNvs a || decide ((a - nvsBaseAddr) % 16384 ≠ 0), 0), (decide (n % 16384 ≠ 0 ∨ 2 ^ 39 < n), 8), (!s.inNvsPool a n, 0)]
/-- mem.spillarea. -/
def runMemSpillarea (s : State) (c : Cmd) : State × Res :=
  let o := c.p 0 8 - nvsBaseAddr
  let n := c.p 8 8
  if n ≠ 0 ∧ s.boat.nvs.any (fun e => decide (e.first * 4096 < o + n ∧ o < (e.first + e.count) * 4096)) then (s, .fail stNoResource)
  else if !s.boat.slots.isEmpty then (s, .fail stWrongState)
  else ({ s with tier := { s.tier with spillBase := if n = 0 then 0 else o / 16384, spillPages := n / 16384 } }.spillBackground, .done n)
/-- MEM_SPILLAREA (R149). -/
def execMemSpillarea (q k : Nat) (s : State) : Host.Outcome State Fault Refusal :=
  s.opcodeRow 0x0207 false chkMemSpillarea runMemSpillarea q k

/-! ### Line frames and refresh (R142, R143, R431, R432) -/

/-- The unit of the channel that carries a device address. -/
def chanUnit (a : Nat) : Nat × Nat := if isT1 a then (4, t1Chan (a - t1Base)) else (5, nvsChan ((a - nvsBaseAddr) / 4096))

/-- A line as its frame carries it, as it left the stack's correction logic (R142): in byte mode each byte with its own poison form, in
line mode and in NVS by words (R169, R171). -/
def State.lineBytes (s : State) (l : Nat) : List PByte :=
  if isT1 l && s.kindOf l == .byte && !s.isWithdrawn l then (s.lineRead l).bytes else s.peek l 64

/-- The bytes the frame of a line delivers with errors added on the link; none when the check finds a mismatch (R142, R166). The
NVS frames' own check finds every error. -/
def State.frameOf (s : State) (l : Nat) (errs : List Byte) : Option (List PByte) :=
  if errs.all (· == 0) then some (s.lineBytes l)
  else if isT1 l then frameRead (s.kindOf l = .line) (s.lineBytes l) errs
  else none

/-- LINE_FRAME_ARRIVAL (R142, R431, R432): a frame in error is replayed, at most four times; when the fourth replay fails too,
the channel is charged, fenced and quarantined. A good read frame delivers its line, with whatever stored error it met. A write
frame whose errors no check finds stores what it delivers. -/
def execLineFrameArrival (a : Nat) (write : Bool) (errs : List Byte) (ups : List Upset) (s : State) :
    Host.Outcome State Fault Refusal :=
  .next (
    let l := a / 64 * 64
    let (ty, n) := chanUnit l
    if (isT1 l || isNvs l) && s.usable ty n && s.domOn (unitDomain ty n) && !s.fault.bridge.down then
      let k := (alookup s.fault.replays l).getD 0
      match s.frameOf l errs with
      | none =>
        if k < 4 then ({ s with fault := { s.fault with replays := aset s.fault.replays l (k + 1) } }).bump (faultCtr 0x80) 1
        else
          let s1 := ({ s with fault := { s.fault with replays := aerase s.fault.replays l } }).bump (faultCtr 0x88) 1
          (s1.charge ty n 5).quarantine ty n 5
      | some b =>
        let s1 : State := { s with fault := { s.fault with replays := aerase s.fault.replays l } }
        if !write then (s1.readWith ups l 64).1
        else if errs.all (· == 0) then s1
        else s1.storeBytes l b
    else s)

/-- STACK_REFRESH (R143): the stack refreshes its own arrays; nothing of it is visible. -/
def execStackRefresh (_stack : Nat) (s : State) : Host.Outcome State Fault Refusal := .next s

/-! ### NVS patrol (R183) -/

/-- Pages of one NVS stack. -/
def stackPages : Nat := 2 ^ 28

/-- Pages of a stack patrolled in its present pass. -/
def State.patrolled (s : State) (st : Nat) : Nat :=
  (List.range 16).foldl (fun a i => a + (vget ChanRec.reset s.store.chans (256 + 16 * st + i)).scrubbed.length) 0

/-- NVS_PATROL (R183): a page of the pass is read; one with more corrected bytes than the stack's own threshold, `corrected` of them
and its known bad ones, is rewritten, which is a page write. No page write starts while the supply is low. -/
def execNvsPatrol (page corrected : Nat) (s : State) : Host.Outcome State Fault Refusal :=
  .next (
    let st := page % 2
    if 2 ^ 29 ≤ page ∨ s.domOn (86 + st) = false then s
    else
      let s1 := s.modChanRec (256 + nvsChan page) (fun r => { r with scrubbed := insertSorted r.scrubbed page })
      let s2 : State := if s1.patrolled st < stackPages then s1
        else (List.range 16).foldl (fun s i => s.modChanRec (256 + 16 * st + i) (fun r => { r with scrubbed := [] })) s1
      let n := corrected + (s2.badBytes page).length
      if Config.patrolThreshold < n ∧ n ≤ 96 ∧ !s.sagging then
        let s3 := s2.healPage page
        { s3 with tier := { s3.tier with wear := vmod s3.tier.wear st (· + 1) } }
      else s2)

/-! ### The scrubber (R184 to R186) -/

/-- Granules a channel scrubs in a T1 lap: all but those of withdrawn GiB. -/
def State.lapGranules (s : State) : Nat := 2 ^ 22 - s.fault.t1Withdrawn * 2 ^ 14

/-- Granules of a channel that the lap in progress has covered. -/
def State.lapDone (s : State) (c : Nat) : Nat :=
  ((vget ChanRec.reset s.store.chans c).scrubbed.filter (fun g => decide (g < s.lapGranules))).length

/-- The T1 channels a lap covers: those not retired. -/
def State.lapChans (s : State) : List Nat := (List.range 256).filter (fun c => !s.retired 4 c)

/-- A line of T1 read by the scrubber: corrected and written back, or handled as an uncorrectable read; it leaves the repair
list. A line never written is left alone. -/
def State.scrubLine (s : State) (l : Nat) : State :=
  let o := l - t1Base
  if s.isWithdrawn l || !s.store.t1Written.contains (t1Block o) then s
  else
    let s1 := s.noteT1 false l
    let s2 := if (s1.flawOf l).isEmpty then s1 else s1.rewrite l (s1.lineRead l).bytes
    s2.modChanRec (t1Chan o) (fun r => { r with repair := r.repair.filter (· != o / 64) })

/-- A T1 lap ends when every channel has covered its share, not sooner than PACE_S seconds from its start. -/
def State.lapEnd (s : State) : State :=
  if s.lapChans.all (fun c => decide (s.lapGranules ≤ s.lapDone c)) then
    let ms := (s.time.half - s.store.lapStart) / 2000000
    { s with store := { s.store with
        lapMs := ms % 2 ^ 32, lapCount := min (s.store.lapCount + 1) 0xFFFFFFFF, lapStart := s.time.half, lapAlarmed := false
        chans := s.store.chans.mapIdx (fun i r => if i < 256 then { r with scrubbed := [] } else r) } }
  else s

/-- The lap in progress may not be completed yet (R186). -/
def State.tooSoon (s : State) (start : Nat) : Bool := !s.since start (us (s.store.paceS * 1000000))

/-- The T1 offset of the granule a scrub access goes to: the channel's repair list comes first, its oldest line before the others
(R185). -/
def State.scrubGranule (s : State) (o : Nat) : Nat :=
  let l := (vget ChanRec.reset s.store.chans (t1Chan o)).repair
  if l.isEmpty || l.any (fun x => x * 64 / 256 == o / 256) then o / 256 * 256 else l.getLastD 0 * 64 / 256 * 256

/-- The scrubber takes the four lines of a T1 granule (R184, R185): one with a line on the repair list, or the next of the lap. -/
def State.scrubT1 (s : State) (a : Nat) : State :=
  let o := s.scrubGranule (a - t1Base)
  let g := t1Base + o
  let c := t1Chan o
  let r := vget ChanRec.reset s.store.chans c
  let covered (x : ChanRec) : ChanRec := { x with scrubbed := insertSorted x.scrubbed (t1ChanOff o / 256) }
  let done := decide (s.lapGranules ≤ (s.modChanRec c covered).lapDone c)
  if s.heldRange g 256 || s.isWithdrawn g then s
  else if done && s.tooSoon s.store.lapStart && r.repair.isEmpty then s
  else
    let bad := (List.range 4).any (fun i => (s.lineRead (g + 64 * i)).bad)
    let s1 := (List.range 4).foldl (fun s i => s.scrubLine (g + 64 * i)) s
    let s2 : State := if bad then s1 else
      { s1 with store := { s1.store with remapLine := s1.store.remapLine.filter (· != o / 256) } }
    if !r.repair.isEmpty then s2 else (s2.modChanRec c covered).lapEnd

/-- A T0 lap none of whose tiles is still powered gives way to a new one over the tiles now powered (R186). -/
def State.freshT0Lap (s : State) : State :=
  if (List.range 128).any (fun i => vget false s.store.t0Members i && s.domOn (i / 2)) then s
  else
    { s with store := { s.store with t0LapStart := s.time.half, t0Scrubbed := Vector.replicate 128 []
                                     t0Members := Vector.ofFn (fun i : Fin 128 => s.domOn (i.val / 2)) } }

/-- The scrubber takes a line of T0; a lap covers every tile powered ever since it began. -/
def State.scrubT0 (s : State) (a : Nat) : State :=
  let l := a / 64 * 64
  let t := a / t0TileSize
  let mine := insertSorted (vget [] s.store.t0Scrubbed t) (l % t0TileSize / 64)
  let member (i : Nat) : Bool := vget false s.store.t0Members i && s.domOn (i / 2)
  let ends := member t && decide (32768 ≤ mine.length) &&
    (List.range 128).all (fun i => !member i || i == t || decide (32768 ≤ (vget [] s.store.t0Scrubbed i).length))
  if s.domOn (t / 2) = false ∨ (ends && s.tooSoon s.store.t0LapStart) then s
  else
    let s1 := s.noteRead l 64
    let s2 := if (s1.flawOf l).isEmpty then s1 else s1.rewrite l (s1.lineRead l).bytes
    if ends then
      { s2 with store := { s2.store with
          t0LapMs := (s.time.half - s.store.t0LapStart) / 2000000 % 2 ^ 32, t0LapStart := s.time.half
          t0Scrubbed := Vector.replicate 128 [], t0Members := Vector.ofFn (fun i : Fin 128 => s.domOn (i.val / 2)) } }
    else if member t then { s2 with store := { s2.store with t0Scrubbed := vset s2.store.t0Scrubbed t mine } }
    else s2

/-- SCRUB_ACCESS (R185, R186): in idle time, with ENABLE 1, lines of T0 or T1 are read, corrected and written back. -/
def execScrubAccess (a : Nat) (ups : List Upset) (s : State) : Host.Outcome State Fault Refusal :=
  .next (
    if s.store.scrubEnable && decide (s.pwr.state < 2) then
      if isT0 a then (ups.foldl State.strike s).freshT0Lap.scrubT0 a
      else if isT1 a && s.domOn (78 + t1Chan (a - t1Base) % 8) then (ups.foldl State.strike s).scrubT1 a
      else s
    else s)

/-- SCRUB_LAP_ALARM (R72, R186): once in a lap, when its time reaches LIMIT_MS, naming a channel furthest behind. -/
def execScrubLapAlarm (s : State) : Host.Outcome State Fault Refusal :=
  .next (
    let st := s.store
    if st.limitMs ≠ 0 ∧ st.lapAlarmed = false ∧ s.since st.lapStart (us (st.limitMs * 1000)) then
      let least := s.lapChans.foldl (fun a c => min a (s.lapDone c)) (2 ^ 22)
      let behind := s.lapChans.filter (fun c => s.lapDone c == least)
      let (k, s1) := s.draw
      let c := behind.getD (k % max 1 behind.length) 0
      ({ s1 with store := { s1.store with lapAlarmed := true } }).raise 0x0201 (78 + c % 8) c st.limitMs
    else s)

/-! ### The check-logic self-test (R176) -/

/-- Channels of the present rotation still to be tested. -/
def State.untested (s : State) : List Nat := s.store.rotation.filter (fun c => s.usable 4 c && !s.store.tested.contains c)

/-- A rotation begins with the channels neither retired nor quarantined. -/
def State.newRotation (s : State) : State :=
  { s with store := { s.store with rotation := (List.range 256).filter (fun c => s.usable 4 c), tested := [] } }

/-- T1_CHECK_SELFTEST (R176, R429): the next channel of the rotation is tested; a mismatch retires it at once. -/
def execT1CheckSelftest (pass : Bool) (s : State) : Host.Outcome State Fault Refusal :=
  .next (
    let s0 := if s.untested.isEmpty then s.newRotation else s
    let l := s0.untested
    if l.isEmpty ∨ s.fault.bridge.down then s
    else
      let (k, s1) := s0.draw
      let c := l.getD (k % l.length) 0
      let s2 : State := { s1 with store := { s1.store with testChannel := c, tested := insertSorted s1.store.tested c
                                                           testFail := s1.store.testFail || !pass } }
      let s3 := if pass then s2 else s2.retire 4 c 6
      if s3.untested.isEmpty then
        ({ s3 with store := { s3.store with testLaps := min (s3.store.testLaps + 1) 0xFFFFFFFF } }).newRotation
      else s3)

/-! ### Rebuilds (R184, R437) -/

/-- The next number of a rebuild that is not yet copied, by fuel. -/
def Rebuild.skip (r : Rebuild) : Nat → Rebuild
  | 0 => r
  | f + 1 => if r.ahead.contains r.next then Rebuild.skip { r with next := r.next + 1, ahead := r.ahead.filter (· != r.next) } f else r

/-- A number copied: in its turn, or ahead of it. -/
def Rebuild.copied (r : Rebuild) (g : Nat) : Rebuild :=
  let r := { r with front := r.front.filter (· != g) }
  if g = r.next then Rebuild.skip { r with next := g + 1 } (r.ahead.length + 1) else { r with ahead := insertSorted r.ahead g }

/-- The number a rebuild copies when the outside proposes `g`: those that a demand access waits for come first (R184). -/
def Rebuild.choose (r : Rebuild) (g : Nat) : Nat := if r.front.contains g then g else r.front.headD g

/-- Granules of a channel below withdrawn T1. -/
def State.rebuildGranules (s : State) : Nat := 2 ^ 22 - s.fault.t1Withdrawn * 2 ^ 14
/-- Pages of a channel below withdrawn NVS. -/
def State.rebuildPages (s : State) : Nat := (2048 - s.fault.nvsWithdrawn) * 2 ^ 13

/-- A line of a retired channel read, counted, and written at its new home: one that cannot be read with all eight words poisoned, which
LINES_LOST counts (R184). -/
def State.rebuildLine (s : State) (l : Nat) (lost : Bool) : State :=
  let s1 := if lost then s else s.noteT1 false l
  if lost || (s.lineRead l).bad then
    let s2 := s1.rewrite l LineRead.lost.bytes
    { s2 with store := { s2.store with linesLost := min (s2.store.linesLost + 1) 0xFFFFFFFF } }
  else s1.rewrite l (s1.lineRead l).data

/-- REBUILD_GRANULE_COPY (R184): a granule of the channel under rebuild is copied to its remap home, there held in line mode; bit
i of `lost` says that line i could not be read. -/
def execRebuildGranuleCopy (g lost : Nat) (s : State) : Host.Outcome State Fault Refusal :=
  .next (match s.fault.t1Rebuilds with
    | [] => s
    | r :: rest =>
      let n := r.choose g
      if s.fault.bridge.down ∨ s.fault.bridge.lost ∨ n < r.next ∨ s.rebuildGranules ≤ n ∨ r.ahead.contains n then s
      else
        let o := t1OfChan r.chan (256 * n)
        let s1 := (List.range 4).foldl (fun s i => s.rebuildLine (t1Base + o + 64 * i) (bit lost i == 1)) s
        let r1 := r.copied n
        { s1 with
          store := { s1.store with remapLine := insertSorted s1.store.remapLine (o / 256) }
          fault := { s1.fault with t1Rebuilds := if s.rebuildGranules ≤ r1.next then rest else r1 :: rest } })

/-- A page of a retired NVS channel read for its copy: poisoned whole when it cannot be read, its uncorrectable words when only its
code fails (R183, R437). -/
def State.rebuildPage (s : State) (p : Nat) (lost : Bool) : State :=
  if lost then ({ s with mem := s.mem.clear (nvsBaseAddr + 4096 * p) 4096 }).healPage p
  else if (s.badBytes p).isEmpty then s
  else if (s.badWords p).isEmpty then (s.healPage p).countNvsCe p
  else (s.maskPage p).countNvsUe p

/-- NVS_REBUILD_PAGE (R437): a page of the channel under rebuild is copied to its remap home, poisoned whole when it cannot be
read. No page write starts while the supply is low. The stack of its new home is not given. -/
def execNvsRebuildPage (page : Nat) (lost : Bool) (s : State) : Host.Outcome State Fault Refusal :=
  .next (match s.fault.nvsRebuilds with
    | [] => s
    | r :: rest =>
      let i := r.choose (page / 32)
      let p := i * 32 + page % 32
      if s.sagging ∨ s.fault.bridge.down ∨ s.fault.bridge.lost ∨ nvsChan page ≠ r.chan ∨ i < r.next ∨ s.rebuildPages ≤ i ∨
          r.ahead.contains i then s
      else
        let (k, s1) := s.draw
        let s2 := s1.rebuildPage p lost
        let r1 := r.copied i
        { s2 with
          tier := { s2.tier with wear := vmod s2.tier.wear (k % 2) (· + 1) }
          fault := { s2.fault with nvsRebuilds := if s.rebuildPages ≤ r1.next then rest else r1 :: rest } })

end Sys2Proof.Machine
end

