-- ==== Sys2Proof/Machine/Power.lean ====
section
/-! DEFINITION. Power states: gating, state entries and returns, wake sources, the call port and the sag chain (R448 to R462,
R489 to R493). -/

namespace Sys2Proof.Machine

/-- The state with the PWR block changed. -/
def State.modPwr (s : State) (f : PwrSt → PwrSt) : State := { s with pwr := f s.pwr }

/-! ### Gating (R448) -/

/-- An NVS interface has a page write in progress or a rebuild. -/
def State.nvsBusy (s : State) (i : Nat) : Bool :=
  s.store.nvsWrites.any (fun w => w.busy.any (fun p => nvsChan p / 16 == i)) || s.fault.nvsRebuilds.any (fun r => r.chan / 16 == i)

/-- A domain holds nothing that R448 keeps powered. -/
def State.domIdle (s : State) (d : Nat) : Bool :=
  if d < 64 then
    s.pwr.tilesGate && [2 * d, 2 * d + 1].all (fun t => (s.tile t).ctx.isNone && (s.tile t).hot.isEmpty)
  else if d < 76 then (s.domWork d).isEmpty && (if d < 68 then (List.range 4).all (fun i => (vget none s.sweep.pipes (4 * (d - 64) + i)).isNone)
    else if d < 72 then (List.range 2).all (fun i => (vget none s.xf.engines (2 * (d - 68) + i)).isNone)
    else (vget none s.plan.units (d - 72)).isNone)
  else if d = 76 then !s.fuse.enabled
  else if d = 86 ∨ d = 87 then !s.nvsBusy (d - 86)
  else true

/-- A domain switched off; the scratchpads of a tile pair lose what they hold. -/
def State.gateOff (s : State) (d : Nat) : State :=
  let s1 := s.setDom d false
  if d < 64 then (s1.poisonFill (2 * d)).poisonFill (2 * d + 1) else s1

/-- DOMAIN_GATE (R448, R449): a domain that has held no work for IDLE_US is gated. -/
def execDomainGate (d : Nat) (s : State) : Host.Outcome State Fault Refusal :=
  .next (if s.gating && gateable d && s.domOn d && s.domIdle d && s.since (vget 0 s.pwr.lastWork d) (us s.pwr.idleUs) then
    (s.gateOff d).bump (pwrCtr 0x40) 1 else s)

/-- Steps dispatched onto tiles that were powering up run once every tile is on (R448). -/
def State.startWaking (s : State) : State :=
  { s with sched := { s.sched with jobs := s.sched.jobs.map (fun j =>
      if j.state == .waking && j.tiles.all (fun t => s.domOn (t / 2)) then { j with state := .running } else j) } }

/-- DOMAIN_WAKE_COMPLETE (R177, R448): a gated domain is powered, a tile pair's scratchpads in the poison form, and the work
placed on it starts. -/
def execDomainWakeComplete (d : Nat) (s : State) : Host.Outcome State Fault Refusal :=
  .next (if s.pwr.waking.any (fun p => p.1 == d) && !s.fault.dead.contains d then
    let s1 := ((s.setDom d true).touch d).modPwr (fun p => { p with waking := p.waking.filter (fun x => x.1 != d) })
    let s2 := if d < 64 then (s1.poisonFill (2 * d)).poisonFill (2 * d + 1) else s1
    s2.startWaking
  else s)

/-! ### pwr.state (R450, R451) -/

/-- Wake sources allowed for a target state, as a word (R456). -/
def wakeAllowed (target : Nat) : Nat := if target = 1 then 0x1B else if target = 2 then 0x1FF else if target = 3 then 0x1E7 else 0

/-- The first bit of a wake word that check 1 refuses. -/
def badWakeBit (target w : Nat) : Option Nat :=
  (List.range 32).find? (fun i => bit w i == 1 && !(if i = 16 then target == 2 else bit (wakeAllowed target) i == 1))

/-- Check 1 of R451. -/
def chkPwrState (_ : State) (c : Cmd) : Check10 :=
  let t := c.p 0 1
  if 3 < t then badAt 0
  else match badWakeBit t (c.p 1 4) with
    | some i => badAt (1 + i / 8)
    | none => if 2 ≤ t ∧ c.p 1 2 = 0 then badAt 1 else none

/-- The powered domains that a target state switches off, whose agents are asked (R446, R452). -/
def State.askedDomains (s : State) (target w : Nat) : List Nat :=
  (List.range 96).filter (fun d => s.domOn d && (target == 3 || (d != 92 && d != 95 && !(d == 91 && bit w 16 == 1))))

/-- pwr.state. -/
def runPwrState (s : State) (c : Cmd) : State × Res :=
  let t := c.p 0 1
  let w := c.p 1 4
  if t = s.pwr.state then (s, .done t)
  else if t = 0 then ((s.modPwr (fun p => { p with state := 0, wakeEnabled := 0 })).ungate, .done 0)
  else if t = 1 then (s.modPwr (fun p => { p with state := 1, wakeEnabled := bits w 15 0 }), .done 1)
  else if t = 3 ∧ s.time.coarse then (s, .fail stWrongState)
  else if t = 3 ∧ s.sagging then (s, .fail stSag)
  else
    let e : Entry :=
      { uid := c.uid, target := t, wakeWord := w, stage := 0, agents := (s.askedDomains t w).map (fun d => (d, Answer.none))
        fired := none, passed := none }
    (s.modPwr (fun p => { p with entry := some e }), .going)

/-- PWR_STATE (R450, R451). -/
def execPwrState (q k : Nat) (s : State) : Host.Outcome State Fault Refusal := s.opcodeRow 0x0A04 false chkPwrState runPwrState q k

/-! ### Entering Easy and Moored (R452 to R455) -/

/-- An agent refuses (R452). -/
def State.agentRefuses (s : State) (d : Nat) : Bool :=
  if d = 88 then (List.range 4).any (fun c => decide (0 < (s.chain c).joints))
  else if d = 76 then s.fuse.enabled
  else if 78 ≤ d ∧ d ≤ 85 then !s.fault.t1Rebuilds.isEmpty || !s.store.converts.isEmpty
  else if d = 86 ∨ d = 87 then !s.fault.nvsRebuilds.isEmpty
  else false

/-- An agent delays (R452): the command of the entry is apart. A verification is over within its command's one step, so none runs when
the security engine answers. -/
def State.agentDelays (s : State) (d uid : Nat) : Bool :=
  if d = 90 then s.host.queues.toList.any (fun q => q.cmds.any (fun c => c.inFlight && c.uid != uid))
  else if d = 86 ∨ d = 87 then s.nvsBusy (d - 86)
  else if d = 89 then s.safe.umpires.toList.any Umpire.testing
  else false

/-- The state with an agent's answer noted. -/
def State.answer (s : State) (d : Nat) (a : Answer) : State :=
  s.modPwr (fun p => { p with entry := p.entry.map (fun e => { e with agents := e.agents.map (fun x => if x.1 = d then (d, a) else x) }) })

/-- AGENT_ANSWER (R452): the agent of a domain answers as its table has it; one that delayed answers when its reason is gone. -/
def execAgentAnswer (d : Nat) (s : State) : Host.Outcome State Fault Refusal :=
  .next (match s.pwr.entry with
    | none => s
    | some e =>
      match e.agents.find? (fun x => x.1 == d) with
      | some (_, .none) =>
        s.answer d (if s.agentRefuses d then .refuse
          else if s.agentDelays d e.uid then .delay (s.time.half + us (if d = 89 then 20 else 500)) else .accept)
      | some (_, .delay _) => if s.agentRefuses d then s.answer d .refuse else if s.agentDelays d e.uid then s else s.answer d .accept
      | _ => s)

/-- AGENT_DELAY_TIMEOUT (R452): a delaying agent's bound has passed; it counts as refusing. -/
def execAgentDelayTimeout (d : Nat) (s : State) : Host.Outcome State Fault Refusal :=
  .next (match s.pwr.entry with
    | none => s
    | some e =>
      match e.agents.find? (fun x => x.1 == d) with
      | some (_, .delay t) => if t ≤ s.time.half then s.answer d .refuse else s
      | _ => s)

/-- Every agent has answered ACCEPT or REFUSE. -/
def Entry.answered (e : Entry) : Bool := e.agents.all (fun x => x.2 == .accept || x.2 == .refuse)

/-- What abandons an entry at an abort point (R453, R454): [15:8] of its DETAIL and the wake source, in the order of R453. -/
def State.entryStop (s : State) (e : Entry) : Option (Nat × Nat) :=
  let timer := bit e.wakeWord 1 == 1 && decide (s.pwr.timerAt ≤ s.elapsed)
  match e.agents.find? (fun x => x.2 == .refuse) with
  | some (d, _) => some (d, 0)
  | none =>
    match (if e.fired.isNone && timer then some 1 else e.fired) with
    | some w => some (0xFF, w)
    | none =>
      if e.target = 3 ∧ s.sagging then some (0xFE, 0)
      else if bit e.wakeWord 3 = 1 ∧ (List.range 128).any s.readable then some (0xFF, 3)
      else none

/-- An entry abandoned (R454, R455). -/
def State.abandonEntry (s : State) (e : Entry) (cause src : Nat) : State :=
  let s1 := s.modPwr (fun p => { p with entry := none, lastCause := cause, lastPoint := e.stage })
  let s2 := (s1.raise 0x0A05 95 0 (e.stage + cause * 256)).bump (pwrCtr 0x48) 1
  let d := e.stage + 4 + cause * 256 + (if cause = 0xFF then src * 65536 else 0)
  (s2.finishUid e.uid true stDone d s2.pwr.state).schedule

/-- The final reply of a `pwr.state` is written: it is serialising, so it is the first of its queue. -/
def State.replyNow (s : State) (uid : Nat) : State :=
  match s.findUid uid with
  | some (q, _) => s.releaseReplies q 1024
  | none => s

/-- ENTRY_POINT_REACHED (R453 to R455): the stage in progress ends at its abort point. At point 3 the final reply is written. -/
def execEntryPointReached (s : State) : Host.Outcome State Fault Refusal :=
  .next (match s.pwr.entry with
    | none => s
    | some e =>
      if e.passed.isSome || !e.answered then s
      else match s.entryStop e with
        | some (c, w) => s.abandonEntry e c w
        | none =>
          if e.stage < 3 then s.modPwr (fun p => { p with entry := some { e with stage := e.stage + 1 } })
          else
            let s1 := (s.finishUid e.uid true stDone 0 e.target).replyNow e.uid
            s1.modPwr (fun p => { p with entry := some { e with passed := some s.time.half } }))

/-- The switch goes off: its links go down and its queues are empty. -/
def State.switchOff (s : State) : State :=
  let s1 := (List.range 16).foldl (fun s p => s.linkTo p false) s
  s1.modNet (fun n => { n with ports := n.ports.map (fun x => { x with queues := Vector.replicate 8 [], busyUntil := 0 }) })

/-- Easy reached (R446, R455): compute die, cox, stroke engine and safety island off, T1 retained. -/
def State.enterEasy (s : State) (e : Entry) : State :=
  let keep := bit e.wakeWord 16 == 1
  let s1 := s.modPwr (fun p =>
    { p with state := 2, entry := none, wakeEnabled := bits e.wakeWord 15 0, keepSwitch := keep, easyStep := 0, waking := []
             easyEntered := s.time.half })
  let s2 := if keep then s1 else s1.switchOff
  let s3 := (s.askedDomains 2 e.wakeWord).foldl State.gateOff s2
  { s3 with fault := { s3.fault with bridge := { s3.fault.bridge with watch := false } } }

/-- Moored reached (R446, R455, R469, R513): only the always-on domain stays, RAILS_EN falls and the outputs stop. -/
def State.enterMoored (s : State) (e : Entry) : State :=
  let s1 := s.switchOff.modPwr (fun p =>
    { p with state := 3, entry := none, wakeEnabled := bits e.wakeWord 15 0, keepSwitch := false, waking := [], on := Vector.replicate 96 false })
  { s1 with start := { s1.start with railsEn := false }
            clk := { s1.clk with src := false, outs := s1.clk.outs.map (fun o => { o with running := false }) } }

/-- RAILS_OFF (R455): after point 3 the target state is reached; for Moored after the 100 µs in which the port still answers. A
wake source that fired since then starts the return (R454). -/
def execRailsOff (s : State) : Host.Outcome State Fault Refusal :=
  .next (match s.pwr.entry with
    | none => s
    | some e =>
      match e.passed with
      | none => s
      | some t =>
        if e.target = 3 ∧ !s.since t (us 100) then s
        else
          let s1 := if e.target = 3 then s.enterMoored e else s.enterEasy e
          match e.fired with | some w => s1.wake w | none => s1)

/-! ### Wake sources (R456) -/

/-- TIMER_WAKE (R456): the elapsed count has reached PWR.TIMER.AT. -/
def execTimerWake (s : State) : Host.Outcome State Fault Refusal := .next (if s.pwr.timerAt ≤ s.elapsed then s.wake 1 else s)

/-- SAG_RISE (R456): VSYS_SENSE has stood above the warning level plus its hysteresis for 1 ms. -/
def execSagRise (s : State) : Host.Outcome State Fault Refusal := .next (s.wake 2)

/-- LINK_ENERGY (R456): energy on 10GBASE-T1 port 0 to 3. -/
def execLinkEnergy (port : Nat) (s : State) : Host.Outcome State Fault Refusal := .next (if port < 4 then s.wake (5 + port) else s)

/-- The sixteen tokens that match an address, the first token in bit 15 (R462). -/
def callPattern (addr : Nat) : Nat := 0xE000 + addr * 4 + (popCount 10 addr % 2) * 2

/-- CALL_TOKEN (R461, R462): a token arrives, and sixteen in a row that match fire CALL. -/
def execCallToken (b : Bool) (s : State) : Host.Outcome State Fault Refusal :=
  .next (
    let s1 := s.modPwr (fun p => { p with callTokens := (p.callTokens * 2 + b2n b) % 65536, callCount := min 16 (p.callCount + 1) })
    if s1.pwr.callCount = 16 ∧ s1.pwr.callTokens = callPattern s1.pwr.callAddr then (s1.bump (pwrCtr 0x50) 1).wake 0 else s1)

/-! ### The return from Easy (R457) -/

/-- Domains powered, those switched off by a retirement apart. -/
def State.powerUp (s : State) (ds : List Nat) : State :=
  (ds.filter (fun d => !s.fault.dead.contains d)).foldl (fun s d => (s.setDom d true).touch d) s

/-- Hot copies made again on their tiles, which weights each holds left open (R161, R457). -/
def State.restoreHot (s : State) : State :=
  (List.range 128).foldl (fun s t => (s.tile t).hot.foldl (fun s h => s.scramble (t * t0TileSize + h.2.1) h.2.2) s) s

/-- Every umpire not failed has completed a test since an elapsed count (R457, R498). -/
def State.umpiresTested (s : State) (since : Nat) : Bool :=
  s.safe.umpires.toList.all (fun x => x.failed || (decide (0 < x.tests) && decide (since ≤ x.last)))

/-- EASY_RETURN_STAGE (R457): the next step of the return completes. -/
def execEasyReturnStage (s : State) : Host.Outcome State Fault Refusal :=
  .next (
    let at_ (n : Nat) (s : State) : State := s.modPwr (fun p => { p with easyStep := n })
    match s.pwr.easyStep with
    | 1 =>
      let s1 := (at_ 2 s).powerUp [77, 88, 89, 90, 91, 93, 94]
      { s1 with clk := { s1.clk with src := false }
                fault := { s1.fault with bridge := { s1.fault.bridge with watch := true, watchAt := s.time.half } } }
    | 2 => (at_ 3 s).powerUp (List.range' 78 8)
    | 3 =>
      let s1 := (at_ 4 s).modPwr (fun p => { p with state := 0, wakeEnabled := 0, keepSwitch := false })
      let s2 : State := { s1 with store := { s1.store with lapStart := s1.store.lapStart + (s.time.half - s.pwr.easyEntered) } }
      s2.raise 0x0A04 95 0 s.pwr.easySource
    | 4 => ((((((at_ 5 s).powerUp (List.range 77 ++ [86, 87])).restoreHot).startWaking).schedule).runsPlace).planPlace
    | 5 => if s.umpiresTested s.pwr.easyAt then (at_ 6 s).schedule else s
    | _ => s)

/-! ### The sag chain (R491 to R493) -/

/-- SAG_WARN_FALL (R222, R491, R492): VSYS_SENSE below the warning level. In Moored the sense only watches (R460). -/
def execSagWarnFall (s : State) : Host.Outcome State Fault Refusal :=
  .next (
    if s.pwr.state = 3 then s
    else if s.cap.sag = 0 then
      let s1 := (s.modCap (fun c => { c with sag := 1, dipAt := s.time.half, deferred := false })).bump (capCtr 0x60) 1
      (s1.stopWrites.spillBackground).preemptClasses s.cap.preemptFrom
    else s.modCap (fun c => { c with sag := 1 }))

/-- SAG_WARN_RISE (R491): above the warning level plus 20 mV; the timer starts. -/
def execSagWarnRise (s : State) : Host.Outcome State Fault Refusal :=
  .next (if s.cap.sag = 1 ∧ s.pwr.state ≠ 3 then s.modCap (fun c => { c with sag := 2, confirmAt := s.time.half }) else s)

/-- Deferred poison-mask writes made: a page write each (R183, R493). -/
def State.flushDeferred (s : State) : State :=
  let l := s.store.nvsDeferred
  let even := (l.filter (fun p => p % 2 == 0)).length
  { s with store := { s.store with nvsDeferred := [] }
           tier := { s.tier with wear := vmod (vmod s.tier.wear 0 (· + even)) 1 (· + (l.length - even)) } }

/-- SAG_CONFIRMED (R491, R493): 1 ms above; the sag chain ends in order. -/
def execSagConfirmed (s : State) : Host.Outcome State Fault Refusal :=
  .next (if s.cap.sag = 2 ∧ s.since s.cap.confirmAt (us 1000) then
    let (d, s1) := s.roundDiv (s.cap.confirmAt - s.cap.dipAt) 2000
    let s2 := ((s1.modCap (fun c => { c with sag := 0, deferred := false, lastUs := min d 0xFFFFFFFF })).flushDeferred).spillBackground
    s2.schedule.raise 0x0A01 95 0 d
  else s)

end Sys2Proof.Machine
end

