-- ==== Sys2Proof/Machine/Clocks.lean ====
section
/-! DEFINITION. The clock judge, the clock source and the clock outputs (R463 to R470). -/

namespace Sys2Proof.Machine

/-- The state with the CLK block changed. -/
def State.modClk (s : State) (f : ClkSt → ClkSt) : State := { s with clk := f s.clk }

/-- A candidate: 0 crystal, 1 PLL, 2 to 5 the recovered clocks of chains 0 to 3. -/
def State.cand (s : State) (c : Nat) : Candidate := vget ⟨0, false⟩ s.clk.cands c

/-- The judge class of a candidate. -/
def judgeClass (c : Nat) : Nat := min c 2

/-- A window passes (R464): `num / den` is the candidate's frequency over its reference's. -/
def windowPasses (w tol num den n : Nat) : Bool :=
  let bound := w * num * tol / (den * 1000000) + 1
  decide ((n : Int) * den - (w * num : Nat) ≤ (bound * den : Nat)) && decide (((w * num : Nat) : Int) - (n : Int) * den ≤ (bound * den : Nat))

/-- A judge's setting. -/
def State.judgeSet (s : State) (k : Nat) : Judge := vget ⟨4096, 4, 500⟩ s.clk.judges k

/-- A window of a candidate with a count passes against the reference that R464 gives it. -/
def State.windowOk (s : State) (c n : Nat) : Bool :=
  let j := s.judgeSet (judgeClass c)
  if c = 0 then windowPasses j.window j.tolPpm 50 400 n
  else if c = 1 then windowPasses j.window j.tolPpm 125 50 n
  else if s.pllStable then windowPasses j.window j.tolPpm 1 1 n
  else windowPasses j.window (max j.tolPpm 50000) 125 400 n

/-- The crystal is lost (R467): cox and elapsed count on the RC oscillator, the outputs stopped. -/
def State.crystalLost (s : State) : State :=
  let time : TimeSt := { s.time with coarse := true }
  let outs := s.clk.outs.map (fun o => { o with running := false })
  let clk : ClkSt := { s.clk with src := false, xtalLost := true, outs := outs }
  let s1 : State := { s with time := time, clk := clk }
  s1.bump xtalLossCtr 1

/-- A candidate is lost: stable again only after K further passing windows. The loss of a chain's recovered clock is the chain's too
(R355, R356). -/
def State.candLost (s : State) (c : Nat) : State :=
  let was := (s.cand c).stable
  let s1 := s.modClk (fun k => { k with cands := vset k.cands c ⟨0, false⟩ })
  if c = 0 then (if was then s1.crystalLost else s1) else if 2 ≤ c then s1.chainClockLost (c - 2) else s1

/-- JUDGE_WINDOW (R464): a window ends with a count. -/
def execJudgeWindow (c n : Nat) (s : State) : Host.Outcome State Fault Refusal :=
  .next (if 5 < c then s
    else if s.windowOk c n then
      let k := (s.judgeSet (judgeClass c)).k
      s.modClk (fun x => { x with cands := vmod x.cands c (fun y => ⟨min (y.passes + 1) 15, y.stable || decide (k ≤ y.passes + 1)⟩) })
    else s.candLost c)

/-- CLOCK_NO_EDGE (R464): a stable candidate shows no edge for 4 nominal periods. -/
def execClockNoEdge (c : Nat) (s : State) : Host.Outcome State Fault Refusal :=
  .next (if c ≤ 5 ∧ (s.cand c).stable then s.candLost c else s)

/-- The check of clk.source. -/
def chkClkSource (_ : State) (c : Cmd) : Check10 := firstBad [(decide (1 < c.p 0 1), 0)]

/-- clk.source (R465, R467). -/
def runClkSource (s : State) (c : Cmd) : State × Res :=
  let prev := b2n s.clk.src
  if c.p 0 1 = 0 then (s.modClk (fun k => { k with src := false }), .done prev)
  else if !s.pllStable then (s, .fail stWrongState)
  else
    let s1 := s.modClk (fun k => { k with src := true })
    (if s.time.coarse then ({ s1 with time := { s1.time with coarse := false } }).raise 0x0109 95 0 0 else s1, .done prev)

/-- CLK_SOURCE (R465). -/
def execClkSource (q k : Nat) (s : State) : Host.Outcome State Fault Refusal := s.opcodeRow 0x0A06 false chkClkSource runClkSource q k

/-- The checks of clk.out. -/
def chkClkOut (_ : State) (c : Cmd) : Check10 :=
  let f := c.p 1 4
  let d := c.p 5 1
  let r := c.p 6 1
  firstBad [(decide (1 < c.p 0 1), 0), (decide (f ≠ 0 ∧ (f < 25000 ∨ 200000 < f)), 1), (decide (8 < d), 5),
    (decide (if d = 0 then r ≠ 0 else r < 30 ∨ 120 < r), 6)]

/-- clk.out. -/
def runClkOut (s : State) (c : Cmd) : State × Res :=
  let f := c.p 1 4
  if f ≠ 0 ∧ !s.pllStable then (s, .fail stWrongState)
  else (s.modClk (fun k => { k with outs := vset k.outs (c.p 0 1) ⟨f, c.p 5 1, c.p 6 1, decide (f ≠ 0)⟩ }), .done 0)

/-- CLK_OUT (R469). -/
def execClkOut (q k : Nat) (s : State) : Host.Outcome State Fault Refusal := s.opcodeRow 0x0A07 false chkClkOut runClkOut q k

end Sys2Proof.Machine
end

