-- ==== Sys2Proof/Machine/Pool.lean ====
section
/-! DEFINITION. Pooling and channel argmax on a tile's vector unit (R252 to R255). -/

namespace Sys2Proof.Machine

/-! ### The descriptor (R252) -/

/-- OP is 0 max or 1 average: it has windows of its own. -/
def plWindowed (d : List Byte) : Bool := byteAt d 0 < 2
/-- Output rows and columns (R232 with D = 1; one pixel for a global pool; the image for argmax). -/
def plOut (d : List Byte) : Nat × Nat :=
  match byteAt d 0 with
  | 4 => (leAt d 6 2, leAt d 8 2)
  | 2 => (1, 1)
  | 3 => (1, 1)
  | _ => (outSize (leAt d 6 2) (byteAt d 10) (byteAt d 12) 1 (leAt d 16 2) (leAt d 18 2),
          outSize (leAt d 8 2) (byteAt d 11) (byteAt d 13) 1 (leAt d 20 2) (leAt d 22 2))

/-- The pixel a window position reads; none in zero-mode padding and in an image without pixels. -/
def plPixel (d : List Byte) (y x : Int) : Option (Nat × Nat) :=
  if leAt d 6 2 = 0 ∨ leAt d 8 2 = 0 then none else mapPixel (byteAt d 2) (leAt d 6 2) (leAt d 8 2) y x

/-- The positions of the window of output pixel `p`, in row-major order: the pixel each reads. -/
def plWindow (d : List Byte) (p : Nat) : List (Option (Nat × Nat)) :=
  let h := leAt d 6 2
  let w := leAt d 8 2
  if byteAt d 0 = 4 then [some (p / w, p % w)]
  else if plWindowed d then
    let ow := (plOut d).2
    (List.range (byteAt d 10)).flatMap (fun (a : Nat) => (List.range (byteAt d 11)).map (fun (b : Nat) =>
      plPixel d (((p / ow * byteAt d 12 + a : Nat) : Int) - (leAt d 16 2 : Nat)) (((p % ow * byteAt d 13 + b : Nat) : Int) - (leAt d 20 2 : Nat))))
  else (List.range h).flatMap (fun (y : Nat) => (List.range w).map (fun (x : Nat) => some (y, x)))

/-- Number of output pixels. -/
def plCount (d : List Byte) : Nat := (plOut d).1 * (plOut d).2

/-- T0 ranges of a pixel: its channels and its scales. -/
def plRanges (d : List Byte) (px : Nat × Nat) : List (Nat × Nat) :=
  let i := px.1 * leAt d 8 2 + px.2
  let code := byteAt d 1
  (leAt d 24 4 + i * leAt d 28 4, packedBytes code (leAt d 4 2)) ::
    (if isMx code || isIntCode code then [(leAt d 32 4 + i * leAt d 36 2, (leAt d 4 2 + 31) / 32)] else [])

/-- The ranges an operation reads. -/
def plReads (d : List Byte) : List (Nat × Nat) :=
  (((List.range (plCount d)).flatMap (fun p => (plWindow d p).filterMap id)).eraseDups).flatMap (plRanges d)

/-- Bytes of an output pixel. -/
def plOutBytes (d : List Byte) : Nat := if byteAt d 0 = 4 then 8 else pixBytes (byteAt d 50) (leAt d 4 2) (leAt d 44 4)

/-- DESCRIPTOR failures. -/
def plDescBad (d : List Byte) : Bool :=
  decide (4 < byteAt d 0 ∨ 9 < byteAt d 1 ∨ 3 < byteAt d 2 ∨ 4 ≤ byteAt d 3 ∨ leAt d 4 2 = 0 ∨ leAt d 6 2 = 0 ∨ leAt d 8 2 = 0 ∨
      leAt d 14 2 ≠ 0 ∨ leAt d 38 2 ≠ 0) ||
  (if plWindowed d then (slice d 10 4).any (· == 0) else !allZero (slice d 10 4) || !allZero (slice d 16 8)) ||
  (if byteAt d 0 = 4 then decide (leAt d 44 4 % 8 ≠ 0) || !allZero (slice d 48 16) else decide (leAt d 48 2 ≠ 0))

/-- ARITH_FORMAT failures: a bad CONV format or mode; ACC128 is no output of the vector unit. -/
def plFormatBad (d : List Byte) : Bool :=
  byteAt d 0 != 4 && (convBad (slice d 48 16) || byteAt d 50 == 0xA)

/-- The check of a pool descriptor before its first step (R181, R252). -/
def poolFail (base : Nat) (t : Nat) (pd : List PByte) : Fail :=
  let d := vals pd
  match pd.findIdx? PByte.p with
  | some i => some (0x0007, some (base + i / 8 * 8))
  | none =>
    firstFail [failIf (plDescBad d) 0x0009, failIf (plFormatBad d) 0x0001,
      if plDescBad d then none
      else firstFail ((plReads d ++ (List.range (plCount d)).map (fun p => (leAt d 40 4 + p * leAt d 44 4, plOutBytes d))).map
        (fun r => t0Fail t r.1 r.2))]

/-! ### Results (R253, R255) -/

/-- The channels of a pixel as exact values, each with whether it is poisoned. -/
def State.plValues (s : State) (t : Nat) (d : List Byte) (px : Nat × Nat) : List (Val × Bool) :=
  let i := px.1 * leAt d 8 2 + px.2
  let code := byteAt d 1
  let b := t * t0TileSize
  let c := leAt d 4 2
  let sc := if isMx code || isIntCode code then s.peek (b + leAt d 32 4 + i * leAt d 36 2) ((c + 31) / 32) else []
  scaledElems code (s.peek (b + leAt d 24 4 + i * leAt d 28 4) (packedBytes code c)) sc 0 c

/-- The largest value of a window; minus infinity for none. -/
def poolMax (vs : List (Val × Bool)) : Val × Bool :=
  match vs with
  | [] => (.inf true, false)
  | h :: l => (l.foldl (fun a v => a.max v.1) h.1, vs.any Prod.snd)

/-- The average of a window over a divisor; +0 for a divisor of 0. -/
def poolAvg (vs : List (Val × Bool)) (div : Nat) : Val × Bool :=
  if div = 0 then (.fin false 0 0, false)
  else
    let sum := vs.foldl (fun a v => fadd a (fFP32.encode .rne v.1)) 0
    (fFP32.decode (fFP32.encode .rne ((fFP32.decode sum).div (.fin false div 0))), vs.any Prod.snd)

/-- The winning channel of a pixel and its value. -/
def argMax (vs : List (Val × Bool)) : Nat × Val :=
  match vs.map Prod.fst with
  | [] => (0, .nan)
  | h :: l => (l.zipIdx.foldl (fun (a : Nat × Val) x =>
      if a.2.lt x.1 || (x.1.isNan && !a.2.isNan) then (x.2 + 1, x.1) else a) (0, h))

/-- One output pixel of argmax: its word and flags. -/
def argWord (d : List Byte) (vs : List (Val × Bool)) : List PByte × BitVec 9 :=
  let (i, v) := argMax vs
  let wr := bit (byteAt d 3) 1 == 1
  if vs.any Prod.snd then (List.replicate 8 ⟨0, true⟩, fPoisonOut)
  else ((toLe 4 i ++ toLe 4 (if wr then fFP32.encode .rne v else 0)).map (fun b => PByte.mk b false),
    flagIf (wr && v.isNan) fNanOut)

/-- One output pixel of a pool: per channel, its value before conversion, and whether the window reads no pixel with a
divisor of 0. -/
def State.poolPixel (s : State) (t : Nat) (d : List Byte) (p : Nat) : List (Val × Bool) × Bool :=
  let win := plWindow d p
  let px := (win.filterMap id).map (s.plValues t d)
  let avg := byteAt d 0 % 2 == 1
  let pad := if byteAt d 2 = 0 ∧ byteAt d 3 % 2 = 1 then win.length - px.length else 0
  let div := px.length + pad
  ((List.range (leAt d 4 2)).map (fun c =>
    let vs := px.map (fun v => v.getD c (.nan, true))
    if avg then poolAvg vs div else poolMax vs), decide (px.length = 0 ∧ (!avg ∨ div = 0)))

/-- The outputs of a pool operation written and its flags raised. -/
def State.runPool (s : State) (t : Nat) (d : List Byte) : State :=
  let conv := slice d 48 16
  let code := byteAt d 50
  (List.range (plCount d)).foldl (fun s1 p =>
    let a := t * t0TileSize + leAt d 40 4 + p * leAt d 44 4
    if byteAt d 0 = 4 then
      let w := leAt d 8 2
      let (b, f) := argWord d (s.plValues t d (p / w, p % w))
      (s1.storeBytes a b).raiseFlags t f
    else
      let (vs, empty) := s.poolPixel t d p
      let vs := vs.map (fun v => (outExp conv v.1, v.2))
      let (rn, uf) := s.rounds t conv (vs.map Prod.fst)
      let (b, sc, f) := convPixel code rn vs
      ((s1.storeBytes a (pixelBytes code vs.length (leAt d 44 4) b sc)).raiseFlags t (uf ||| f)).bump (ctrId 0x05000050) (b2n empty)) s

/-! ### The rows -/

/-- POOL_RUN (R252): the thread blocks while the vector unit works; a second operation waits for the unit. -/
def execPoolRun (t th ra : Nat) (s : State) : Host.Outcome State Fault Refusal :=
  .next (if s.canIssue t th then
    match s.descOffset t th ra 64 64 with
    | .error s1 => s1
    | .ok o =>
      if (s.tile t).pool.isSome then s
      else
        let base := t * t0TileSize + o
        let pd := s.peek base 64
        match poolFail base t pd with
        | some (7, some ad) => s.poisonUse t th ad
        | some (c, ad) => s.threadFault t th c (ad.getD ((s.tile t).thread th).pc)
        | none =>
          (s.modTile t (fun x => { (x.modThread th (fun y => { y with block := .poolWait })) with pool := some ⟨pd, th⟩ })).noteRead base 64
    else s)

/-- POOL_COMPLETE (R253 to R255): the outputs are written, the flags ORed, and the thread goes on. -/
def execPoolComplete (t : Nat) (s : State) : Host.Outcome State Fault Refusal :=
  .next (match (s.tile t).pool with
    | none => s
    | some o =>
      if s.tileRuns t then
        let d := vals o.desc
        let s1 := (s.runPool t d).modTile t (fun x =>
          let x1 := { x with pool := none }
          if (x1.thread o.thread).block == .poolWait then x1.modThread o.thread Thread.wake else x1)
        s1.noteReads ((plReads d).map (fun r => (t * t0TileSize + r.1, r.2)))
      else s)

end Sys2Proof.Machine
end

