-- ==== Sys2Proof/Machine/Starts.lean ====
section
/-! DEFINITION. Supplies, starts, bring-up and the two cox pairs (R43, R459, R460, R496 to R506, R511 to R513). -/

namespace Sys2Proof.Machine

/-- The state with the start sequence changed. -/
def State.modStart (s : State) (f : StartSt → StartSt) : State := { s with start := f s.start }

/-- The state with the cox pairs changed. -/
def State.modCox (s : State) (f : CoxSt → CoxSt) : State := { s with cox := f s.cox }

/-- Every rail judged valid moves the sequence on to its filter, t = 0 (R496, R497). -/
def State.suppliesIn (s : State) : State :=
  if s.start.stage = .supplies ∧ s.start.rails.toList.all id then s.modStart (fun x => { x with stage := .filter, t0 := s.time.half })
  else s

/-- A start of a cause begins (R499): RAILS_EN stays as it is but at a cold one. -/
def State.startOver (s : State) (cause : Nat) : State :=
  ((s.freshStart cause).modStart (fun x => { x with railsEn := if cause = 1 then x.railsEn else false })).suppliesIn

/-! ### Supplies (R511 to R513) -/

/-- The rails in the order of R509: 2 is VDD_AON and 3 is VDD_18. -/
def railKept (r : Nat) : Bool := r == 2 || r == 3

/-- SUPPLY_VALID (R496, R511): a rail has stood 5 µs above its threshold. -/
def execSupplyValid (r : Nat) (s : State) : Host.Outcome State Fault Refusal :=
  .next (if r < 11 then (s.modStart (fun x => { x with rails := vset x.rails r true })).suppliesIn else s)

/-- NVS page writes in progress when a supply is lost: each page keeps its old contents or has its new ones (R147). -/
def State.tearWrites (s : State) : State :=
  s.store.nvsWrites.foldl (fun s w => w.busy.foldl (fun s p =>
    let (k, s1) := s.draw
    if k % 2 = 1 then (let (a, b) := w.part p; s1.moveTo a b) else s1) s) s

/-- SUPPLY_LOSS (R496, R512, R513): a rail falls below its threshold. Before packets are accepted the sequence begins again;
after that, while RAILS_EN is high, the device resets. VDD_AON's fall is always a cold power-up. -/
def execSupplyLoss (r : Nat) (s : State) : Host.Outcome State Fault Refusal :=
  .next (
    let out (s : State) : State := s.modStart (fun x => { x with rails := vset x.rails r false })
    if 10 < r then s
    else if r = 2 then (out s.tearWrites).startOver 0
    else if s.start.stage ≠ .accepting then (out s).modStart (fun x => { x with stage := .supplies })
    else if s.start.railsEn then (out s.tearWrites).startOver 1
    else out s)

/-- AON_BROWNOUT (R459): the always-on supply browns out in Moored, a cold start with START_CAUSE 2. -/
def execAonBrownout (s : State) : Host.Outcome State Fault Refusal := .next (if s.pwr.state = 3 then s.startOver 2 else s)

/-- SAG_RESET_FALL (R460, R491): VSYS_SENSE below the reset level resets the device, page writes already started made
whole by the hold-up (R490); in Moored it only counts. -/
def execSagResetFall (s : State) : Host.Outcome State Fault Refusal :=
  .next (if s.pwr.state = 3 then s.bump (pwrCtr 0x58) 1 else s.holdUp.startOver 1)

/-- POR_RELEASE (R497, R513): the power-on-reset filter releases, at most 80 µs after t = 0, which for a supply-sag reset is the moment
VSYS_SENSE is back; RAILS_EN is high and the elapsed count runs. -/
def execPorRelease (s : State) : Host.Outcome State Fault Refusal :=
  .next (if s.start.stage = .filter then
    let s1 := s.modStart (fun x => { x with stage := .released, t0 := max x.t0 (s.time.half - us 80), railsEn := true, railsAt := if x.railsEn then x.railsAt else s.time.half })
    { s1 with time := { s1.time with running := true } }
  else s)

/-- START_COMPLETE (R37, R43, R71, R497, R499, R504): the start image is verified, the previous one where it fails, the ROM firmware
where both fail; command packets are accepted and DEVICE_START is written, the first record of the start, and HOST_RESET directly
after it where RESET_N was released before. The probes of R438 have 1 ms from here. The die-bridge watch starts 400 µs after t = 0 (R11). The outside says whether each
slot's image verifies. -/
def execStartComplete (currentOk previousOk : Bool) (s : State) : Host.Outcome State Fault Refusal :=
  .next (if s.start.stage = .released then
    let c := s.cox
    let prev := previousOk && c.previous.version != 0
    let version := if currentOk then c.current.version else if prev then c.previous.version else 0
    let s1 := s.modCox (fun x => { x with version := version, bootFallback := !currentOk && prev, rom := !currentOk && !prev })
    let s2 := s1.modStart (fun x => { x with stage := .accepting, count := min (x.count + 1) 0xFFFF, acceptedAt := s.time.half })
    let now := s.time.half
    let s3 : State := { s2 with
      store := { s2.store with lapStart := now, t0LapStart := now, t0Members := Vector.replicate 128 true }
      fault := { s2.fault with
        bridge := { s2.fault.bridge with watch := true, watchAt := s.start.t0 + us 400 }
        units := s2.fault.units.map (fun u => if u.state = .quarantined then { u with since := now } else u) }
      port := { s2.port with releasedEarly := false } }
    let s4 := s3.raise 0x0101 90 0 s.start.cause
    let s5 := if s.port.releasedEarly then s4.raise 0x0102 92 0 0 else s4
    let s6 := if currentOk then s5 else s5.raise 0x0D02 90 0 (c.current.len % 2 ^ 32)
    if currentOk || prev || c.previous.version == 0 then s6 else s6.raise 0x0D02 90 0 (c.previous.len % 2 ^ 32)
  else s)

/-- A milestone of R498 may be reached: those before it are, every probe of R438 has its answer, every umpire is tested. -/
def State.milestoneReady (s : State) (m : Nat) : Bool :=
  match m with
  | 0 => true
  | 1 => s.reached 0
  | 2 => s.reached 1 && s.fault.units.toList.all (fun u => !(u.recorded && u.state == .quarantined))
  | 3 => s.reached 1 && s.umpiresTested s.start.t0
  | 4 => s.cox.standby == 0
  | _ => false

/-- BRINGUP_MILESTONE (R498): a part of the package is up, and what waited for it goes on. -/
def execBringupMilestone (m : Nat) (s : State) : Host.Outcome State Fault Refusal :=
  .next (if s.start.stage = .accepting ∧ s.milestoneReady m ∧ !s.reached m then
    let s1 := s.modStart (fun x => { x with reached := x.reached + 2 ^ m })
    let s2 : State := if m = 0 then
        { s1 with fault := { s1.fault with bridge := { s1.fault.bridge with up := true } } }
      else if m = 4 then s1.modCox (fun c => { c with standby := 1 })
      else s1
    s2.schedule
  else s)

/-! ### Firmware (R501 to R505) -/

/-- The checks of fw.stage that its parameters' values decide. -/
def chkFwStage (s : State) (c : Cmd) : Check10 := firstBad [(!s.imageOk (c.p 0 8) (c.p 8 4), 0)]

/-- fw.stage, in the order of R502. -/
def runFwStage (s : State) (c : Cmd) : State × Res :=
  let a := c.p 0 8
  let n := c.p 8 4
  let p := s.peek a n
  let b := vals p
  let s1 := s.noteRead a n
  if n < 64 ∨ leAt b 8 8 ≠ n then (s1, .bad 8)
  else if p.any PByte.p then s1.poisonedTable
  else match imgFault b 2 with
    | some d => (s1, .reply stBadParam d 0)
    | none =>
      let v := leAt b 20 4
      if !s.signed b then (s1, .fail stSignature)
      else if v / 2 ^ 24 < s.cox.version / 2 ^ 24 then (s1, .fail stWrongState)
      else if s.cox.standby = 3 then (s1, .fail stNoResource)
      else if s.cox.standby = 0 then (s1, .fail stWrongState)
      else (s1.modCox (fun x => { x with standby := 2, staged := some ⟨v, n⟩ }), .done v)

/-- FW_STAGE (R502). -/
def execFwStage (q k : Nat) (s : State) : Host.Outcome State Fault Refusal := s.opcodeRow 0x0D01 false chkFwStage runFwStage q k

/-- The standby pair becomes active with the firmware it holds (R503 steps 2 to 4): the pair that was active is to be loaded
again, and FW_HANDOVER is raised. -/
def State.takeOver (s : State) (version : Nat) : State :=
  (s.modCox (fun x => { x with active := !x.active, version := version, staged := none, standby := 0, rom := false, reload := true })).raise
    0x0D01 90 0 version

/-- fw.handover has no value to check. -/
def chkFwHandover (_ : State) (_ : Cmd) : Check10 := none

/-- fw.handover. -/
def runFwHandover (s : State) (_ : Cmd) : State × Res :=
  if s.cox.standby = 3 then (s, .fail stNoResource)
  else match s.cox.staged with
    | none => (s, .fail stWrongState)
    | some i =>
      if s.sagging then (s, .fail stSag)
      else (((s.takeOver i.version).modCox (fun x => { x with slotWrite := some i })).bump (coxCtr 0x20) 1, .done (b2n (!s.cox.active)))

/-- FW_HANDOVER (R503). -/
def execFwHandover (q k : Nat) (s : State) : Host.Outcome State Fault Refusal :=
  s.opcodeRow 0x0D02 false chkFwHandover runFwHandover q k

/-- START_IMAGE_SLOT_WRITE (R503 step 5): deferred by a sag warning until the sag chain ends. -/
def execStartImageSlotWrite (s : State) : Host.Outcome State Fault Refusal :=
  .next (match s.cox.slotWrite with
    | none => s
    | some i => if s.sagging then s else s.modCox (fun x => { x with current := i, previous := x.current, slotWrite := none }))

/-- STANDBY_RELOADED (R503 step 6, R505): the former active pair is loaded again and shadows, or has failed its test. -/
def execStandbyReloaded (pass : Bool) (s : State) : Host.Outcome State Fault Refusal :=
  .next (if s.cox.reload then s.modCox (fun x => { x with reload := false, standby := if pass then 1 else 3 }) else s)

/-- COX_LOCKSTEP_FAIL (R505): the standby pair, if shadowing or staged, takes over. -/
def execCoxLockstepFail (s : State) : Host.Outcome State Fault Refusal :=
  .next (if s.cox.standby = 1 ∨ s.cox.standby = 2 then
    let v := match s.cox.staged with | some i => i.version | none => s.cox.version
    let rom := s.cox.rom && s.cox.staged.isNone
    ((s.takeOver v).modCox (fun x => { x with rom := rom })).bump (coxCtr 0x28) 1
  else s)

end Sys2Proof.Machine
end

