-- ==== Sys2Proof/Machine/Regs.lean ====
section
/-! DEFINITION. The control address space: every register and counter of R40, R65, R130, R165, R187, R188, R228, R256, R306, R326,
R352, R379, R399, R421, R445, R471, R472, R495 and R506, read and written by `sys.reg.read` and `sys.reg.write` (R443). -/

namespace Sys2Proof.Machine

/-! ### Counters (R41, R443) -/

/-- An offset lies at one of `n` places of a given stride from a base. -/
def strided (o base stride n : Nat) : Bool := decide (base ≤ o ∧ o < base + stride * n) && (o - base) % stride == 0

/-- A counter of a block, by its offset within the block. -/
def blockCounter (block o : Nat) : Bool :=
  match block with
  | 0 => strided o 0x100 8 7 || strided o 0x140 8 7 || strided o 0x10008 16 128
  | 2 => o == 0x38
  | 3 => strided o 0 8 8
  | 4 => strided o 0xA0 8 5
  | 5 => strided o 0x40 8 3
  | 6 => strided o 8 8 5
  | 7 => strided o 0x40 8 4
  | 8 => strided o 0x400 8 7
  | 9 => decide (o < 0x100 ∧ 0x20 ≤ o % 0x40 ∧ o % 8 = 0) || strided o 0x418 0x20 128
  | 10 => decide (0x100 ≤ o ∧ o < 0x900 ∧ 0x08 ≤ o % 0x80 ∧ o % 0x80 < 0x40 ∧ o % 8 = 0)
  | 11 => strided o 0x100 8 8 || strided o 0x180 8 12
  | 12 => strided o 0x80 8 8
  | 13 => strided o 0x40 8 4
  | 14 => o == 0x40
  | 15 => strided o 0x48 8 4
  | 16 => strided o 0x20 8 2
  | _ => false

/-- A counter ID names a counter (R443). -/
def isCounter (id : Nat) : Bool := blockCounter (id * 8 / 2 ^ 24) (id * 8 % 2 ^ 24)

/-- A counter as a register: COUNT in [31:0], SAT in [32] (R41). -/
def Ctr.reg (c : Ctr) : Nat := c.count.toNat + b2n c.sat * 2 ^ 32

/-! ### Values of registers -/

/-- HOSTPORT modes (R40). -/
def PortMode.code : PortMode → Nat
  | .untrained => 0 | .active => 1 | .powerDown => 2 | .asleep => 3

/-- HOSTPORT and CMDQ registers (R40, R65). -/
def State.portReg (s : State) (o : Nat) : Option Nat :=
  if o = 0 then some (b2n s.port.eventsC0 + b2n s.port.eventsC1 * 2 + b2n s.port.srHint * 4)
  else if o = 8 then
    some ((s.chan 0).mode.code + (s.chan 1).mode.code * 2 ^ 2 + (s.chan 0).fspOp * 2 ^ 4 + (s.chan 1).fspOp * 2 ^ 6 +
      b2n (s.chan 0).lecc * 2 ^ 8 + b2n (s.chan 1).lecc * 2 ^ 9)
  else if strided o 0x10000 16 128 then
    let q := (o - 0x10000) / 16
    let x := s.queue q
    some (x.expectSeq + min x.inFlight 64 * 2 ^ 16 + b2n x.rqFull * 2 ^ 23 + b2n (s.waitSlots q) * 2 ^ 24)
  else none

/-- TIER registers (R165): the endurance consumed in 0.01 percent of 10^8 writes for each of a stack's pages (R148). -/
def State.tierReg (s : State) (o : Nat) : Option Nat :=
  match o with
  | 0x00 => some (s.notRetired 4 + s.fault.t1Withdrawn * 2 ^ 16)
  | 0x08 => some s.tier.reserveGib
  | 0x10 => some (s.tier.coxBase + s.tier.coxLimit * 2 ^ 16)
  | 0x18 => some (s.tier.nvsBase + s.tier.nvsLimit * 2 ^ 16)
  | 0x20 => some (s.tier.spillBase + s.tier.spillPages * 2 ^ 32)
  | 0x28 => some (vget 0 s.tier.wear 0 / (stackPages * 10000) % 2 ^ 16)
  | 0x30 => some (vget 0 s.tier.wear 1 / (stackPages * 10000) % 2 ^ 16)
  | _ => none

/-- Granules scrubbed in the lap by a T1 channel, in thousandths of those it covers. -/
def State.permille (s : State) (c : Nat) : Nat := s.lapDone c * 1000 / max 1 s.lapGranules

/-- INTEG and SCRUB registers (R187, R188). -/
def State.integReg (s : State) (o : Nat) : Option Nat :=
  let st := s.store
  match o with
  | 0x40 => some st.lineMax
  | 0x48 => some (st.testChannel + b2n st.testFail * 2 ^ 8 + st.testLaps * 2 ^ 32)
  | 0x50 => some (st.linesLost + (match s.fault.t1Rebuilds with | r :: _ => r.chan * 2 ^ 32 + 2 ^ 40 | [] => 0))
  | 0x100000 => some (b2n st.scrubEnable + st.paceS * 2 ^ 16 + st.limitMs * 2 ^ 32)
  | 0x100008 => some (st.lapMs + st.lapCount * 2 ^ 32)
  | 0x100010 =>
    let least := s.lapChans.foldl (fun a c => min a (s.permille c)) 1000
    some ((s.time.half - st.lapStart) / 2000000 % 2 ^ 32 + (if s.lapChans.isEmpty then 0 else least) * 2 ^ 32)
  | 0x100018 => some st.t0LapMs
  | _ => none

/-- MODE of a sweep pipeline or a transform engine (R228, R256). -/
def State.unitMode (s : State) (ty n : Nat) (busy : Bool) : Nat :=
  if s.retired ty n then 4 else if s.quarantined ty n then 3 else if !s.domOn (unitDomain ty n) then 0 else 1 + b2n busy

/-- SWEEP registers (R228). -/
def State.sweepReg (s : State) (o : Nat) : Option Nat :=
  if strided o 0 8 16 then
    let w := vget none s.sweep.pipes (o / 8)
    some (s.unitMode 1 (o / 8) w.isSome + (match w with
      | some w => leAt (vals w.run.desc) 8 4 % 2 ^ 20 * 2 ^ 8 + b2n (swBack (vals w.run.desc)) * 2 ^ 28
      | none => 0))
  else match o with
    | 0x80 => some (s.boat.lowWater + b2n s.boat.spillEnable * 2 ^ 32)
    | 0x88 => some (s.freeFrameCount + (s.allPages.filter (fun p => p.2.2.2.state.hasFrame)).length * 2 ^ 32)
    | 0x90 => some ((s.allPages.filter (fun p => p.2.2.2.state.hasSlot)).length + (s.tier.spillPages - s.boat.slots.length) * 2 ^ 32)
    | _ => none

/-- IMG registers (R256). -/
def State.imgReg (s : State) (o : Nat) : Option Nat :=
  if strided o 0 8 8 then
    let r := vget none s.xf.engines (o / 8)
    some (s.unitMode 2 (o / 8) r.isSome + (match r with | some r => r.tile * 2 ^ 8 + r.ctx * 2 ^ 16 | none => 0))
  else none

/-- Save areas that hold a record: those of steps whose records are written (R291, R306). -/
def State.recordsHeld (s : State) : Nat :=
  s.sched.jobs.foldl (fun a j => if j.saved.isEmpty then a else a + j.areas.length) 0

/-- SCHED registers (R306). -/
def State.schedReg (s : State) (o : Nat) : Option Nat :=
  if o = 0 then some (s.recordsHeld + s.sched.sems.length * 2 ^ 16 + b2n s.gapHold * 2 ^ 29) else none

/-- The map version and base that a query's search or re-check reads. -/
def PlanQuery.reads (q : PlanQuery) : Nat × Nat := match q.check with | some c => (c.version, c.base) | none => (q.version, q.base)

/-- PLAN registers (R326). -/
def State.planReg (s : State) (o : Nat) : Option Nat :=
  if strided o 0 8 4 then
    let k := o / 8
    let q := vget none s.plan.units k
    let mode := if s.retired 3 k then 5 else if s.quarantined 3 k then 4 else if !s.domOn (72 + k) then 0 else match q with
      | none => 1
      | some q => if q.check.isSome then 3 else 2
    some (mode + (match q with | some q => q.ctx * 2 ^ 8 + q.lattice % 16 * 2 ^ 28 + q.reads.1 * 2 ^ 32 | none => 0))
  else match o with
    | 0x20 => some (s.plan.version + s.plan.edge * 2 ^ 32)
    | 0x28 => some s.plan.base
    | 0x30 => some ((s.plan.units.toList.filterMap id).filter (fun q => q.reads != (s.plan.version, s.plan.base))).length
    | 0x38 => some s.plan.researchMax
    | _ => none

/-- FUSE registers (R352). -/
def State.fuseReg (s : State) (o : Nat) : Option Nat :=
  let f := s.fuse
  let tracks := s.ctxs.filterMap (fun p => p.2.track)
  if strided o 0x40 8 16 then some (vget 0 f.gates ((o - 0x40) / 8))
  else if decide (0x100 ≤ o ∧ o < 0x340) && o % 8 == 0 then
    let x := s.stream ((o - 0x100) / 16)
    if o % 16 = 0 then some (x.ringBase + x.ringLog2 * 2 ^ 48)
    else some (x.period % 2 ^ 32 + wrap 8 (x.offset.getD 0) * 2 ^ 32 + b2n x.present * 2 ^ 40 + b2n x.lying * 2 ^ 41 + x.latencyUs * 2 ^ 48)
  else match o with
    | 0x00 => some (b2n f.enabled + f.closeUs * 2 ^ 16 + f.drMaxMs * 2 ^ 32)
    | 0x08 => some (f.level + s.leadStream.getD 0xFF * 2 ^ 8 + f.instant % 2 ^ 32 * 2 ^ 32)
    | 0x10 => some (f.alpha + f.beta * 2 ^ 16 + f.maxOut * 2 ^ 32)
    | 0x18 => some (tracks.length + (tracks.filter Track.confirmed).length * 2 ^ 32)
    | _ => none

/-- NET registers (R399). -/
def State.netReg (s : State) (o : Nat) : Option Nat :=
  let n := s.net
  if strided o 0x100 0x80 16 then
    let x := s.nport ((o - 0x100) / 0x80)
    let high := match x.tx with | a :: _ => decide (0xF0000000 < a.pn) | [] => false
    some (x.role + b2n x.slave * 2 ^ 2 + b2n x.link * 2 ^ 3 + b2n (!x.rx.isEmpty) * 2 ^ 4 + b2n high * 2 ^ 5 + x.pvid * 2 ^ 16)
  else match o with
    | 0x00 => some (n.ageS + b2n n.learn * 2 ^ 16)
    | 0x08 => some ((n.used + 1023) / 1024 + n.peakKib * 2 ^ 16)
    | 0x10 => some n.fdb.length
    | _ => none

/-- The bits of a set of umpires. -/
def State.umpireBits (s : State) (f : Umpire → Bool) : Nat := ofBits (s.safe.umpires.toList.map f)

/-- SAFE registers (R421). -/
def State.safeReg (s : State) (o : Nat) : Option Nat :=
  if strided o 0x40 8 8 then
    let x := s.umpire ((o - 0x40) / 8)
    some (x.mode + x.segment * 2 ^ 2 + x.last / 2000000 % 2 ^ 48 * 2 ^ 16)
  else match o with
    | 0x00 => some (b2n s.safe.hiAction + ofBits (s.net.detectors.toList.map Detector.enabled) * 2 ^ 16)
    | 0x08 => some (s.umpireBits Umpire.stale + s.umpireBits Umpire.failed * 2 ^ 8 + s.umpireBits Umpire.testing * 2 ^ 16 +
        b2n (s.safe.umpires.toList.any Umpire.holdReq) * 2 ^ 24)
    | 0x10 => some s.safe.verdictWord
    | _ => none

/-- FAULT registers (R445). -/
def State.faultReg (s : State) (o : Nat) : Option Nat :=
  if strided o 0 8 6 then
    let b := vget ⟨0, 0⟩ s.fault.buckets (o / 8)
    some (b.threshold + b.windowMs * 2 ^ 32)
  else match o with
    | 0x40 => some (s.notRetired 0 + s.notRetired 1 * 2 ^ 8 + s.notRetired 2 * 2 ^ 13 + s.notRetired 3 * 2 ^ 17 + s.notRetired 4 * 2 ^ 20 +
        s.notRetired 5 * 2 ^ 29 + s.notRetired 6 * 2 ^ 35)
    | 0x48 => some (s.notRetired 5 + s.fault.nvsWithdrawn * 2 ^ 16 + b2n (!s.fault.nvsRebuilds.isEmpty) * 2 ^ 27)
    | _ => none

/-- PWR registers (R471). -/
def State.pwrReg (s : State) (o : Nat) : Option Nat :=
  let p := s.pwr
  match o with
  | 0x00 => some (p.state + b2n p.hostIdle * 2 ^ 3 + (match p.entry with | some e => min (e.stage + 1) 4 | none => 0) * 2 ^ 4 +
      p.lastCause * 2 ^ 8 + p.lastPoint * 2 ^ 16)
  | 0x08 => some (p.wakeEnabled % 2 ^ 16 + b2n p.keepSwitch * 2 ^ 16 + p.wakeLast * 2 ^ 24)
  | 0x10 => some p.timerAt
  | 0x18 => some p.callAddr
  | 0x20 => some (p.idleUs + b2n p.tilesGate * 2 ^ 16)
  | 0x28 => some (ofBits ((List.range 64).map s.domOn))
  | 0x30 => some (ofBits ((List.range 33).map (fun i => s.domOn (64 + i))))
  | _ => none

/-- CLK registers (R472). -/
def State.clkReg (s : State) (o : Nat) : Option Nat :=
  let k := s.clk
  match o with
  | 0x00 => some (b2n k.src + b2n (s.cand 0).stable * 2 + b2n (s.cand 1).stable * 4 + b2n s.time.coarse * 8 + b2n k.xtalLost * 16)
  | _ =>
    if strided o 8 8 3 then
      let j := s.judgeSet ((o - 8) / 8)
      some (j.window + j.k * 2 ^ 16 + j.tolPpm * 2 ^ 32)
    else if strided o 0x20 8 2 then
      let c := vget ⟨0, 0, 0, false⟩ k.outs ((o - 0x20) / 8)
      some (c.freqKhz + c.depth * 2 ^ 18 + c.rateKhz * 2 ^ 22 + b2n c.running * 2 ^ 29)
    else none

/-- CAP registers (R495). CAP.POWER.CONTROL is in 0.1 W, whose rounding is left open. -/
def State.capReg (s : State) (o : Nat) : Option (Nat × State) :=
  let c := s.cap
  let lock (i n : Nat) : Nat := ofBits ((List.range n).map (fun d => decide (s.lockOf (i + d) ≠ 0)))
  match o with
  | 0x00 => some (c.limit + c.order * 2 ^ 16, s)
  | 0x08 => some (c.telem + b2n s.binding * 2 ^ 2 + b2n c.unreachable * 2 ^ 3 + b2n c.thermal * 2 ^ 4 + b2n s.sagging * 2 ^ 5 +
      b2n c.unreliable * 2 ^ 6 + s.effective * 2 ^ 16, s)
  | 0x10 =>
    let (p, s1) := s.roundDiv c.control 10
    some (c.estimate + min 65535 (c.measured.getD 65535) * 2 ^ 16 + min 65535 p * 2 ^ 32, s1)
  | 0x18 => some (b2n c.boost, s)
  | 0x20 => some (c.loadline + c.slew * 2 ^ 16 + c.vcore * 2 ^ 32, s)
  | 0x28 => some (c.sagWord, s)
  | 0x30 => some (c.sag + min c.lastUs 0xFFFFFFFF * 2 ^ 32, s)
  | 0x38 => some (lock 0 64, s)
  | 0x40 => some (lock 64 13 + (if lock 0 64 = 0 ∧ lock 64 13 = 0 then 0 else c.lockRating) * 2 ^ 32, s)
  | _ => none

/-- COX registers (R506). -/
def State.coxReg (s : State) (o : Nat) : Option Nat :=
  let c := s.cox
  match o with
  | 0x00 => some (b2n c.active + c.standby * 2 + b2n c.bootFallback * 2 ^ 3 + b2n c.rom * 2 ^ 4)
  | 0x08 => some (match c.staged with | some i => i.version | none => 0)
  | 0x10 => some (c.current.version + c.previous.version * 2 ^ 32)
  | _ => none

/-- A register by its control address, read without clearing anything; none where no register or counter lies. -/
def State.reg (s : State) (a : Nat) : Option (Nat × State) :=
  let o := a - ctrlBase
  let b := o / 2 ^ 24
  let r := o % 2 ^ 24
  let pure (v : Option Nat) : Option (Nat × State) := v.map (fun v => (v % 2 ^ 64, s))
  if a < ctrlBase ∨ a % 8 ≠ 0 ∨ 16 < b then none
  else if isCounter (ctrId o) then some ((s.counter (ctrId o)).reg, s)
  else match b with
    | 0 => pure (s.portReg r)
    | 1 => if r < 0x80000 then s.tileReg (r / 0x1000) (r % 0x1000) else none
    | 2 => pure (s.tierReg r)
    | 3 => pure (s.integReg r)
    | 4 => pure (s.sweepReg r)
    | 5 => pure (s.imgReg r)
    | 6 => pure (s.schedReg r)
    | 7 => pure (s.planReg r)
    | 8 => pure (s.fuseReg r)
    | 9 => pure (s.strokeReg r)
    | 10 => pure (s.netReg r)
    | 11 => pure (s.safeReg r)
    | 12 => pure (s.faultReg r)
    | 13 => pure (s.pwrReg r)
    | 14 => pure (s.clkReg r)
    | 15 => s.capReg r
    | _ => pure (s.coxReg r)

/-- The RC fields of a register cleared, as a read clears them (R443): the counters, INTEG.LINE_MAX and NET.BUF.PEAK_KIB. -/
def State.clearRc (s : State) (a : Nat) : State :=
  let o := a - ctrlBase
  if isCounter (ctrId o) then s.clearCounter (ctrId o)
  else if o = 0x03000040 then { s with store := { s.store with lineMax := 0 } }
  else if o = 0x0A000008 then s.modNet (fun n => { n with peakKib := 0 })
  else s

/-- A register read by `sys.reg.read` (R443). -/
def State.readReg (s : State) (a : Nat) : Nat × State :=
  match s.reg a with
  | some (v, s1) => (v, s1.clearRc a)
  | none => (0, s)

/-! ### Writes -/

/-- A field written: its new value where that is in range, else the old one. -/
def keep (ok : Bool) (new old : Nat) : Nat := if ok then new else old

/-- TIER.T1_RESERVE, COX_POOL or NVS_POOL written (R165): refused where the reserve and the cox pool would meet, the cox pool would
begin below GiB 1, LIMIT would not exceed BASE, or an allocation would lie outside its pool. -/
def State.writePool (s : State) (o v mask : Nat) : State :=
  let t := s.tier
  let two (base limit : Nat) : Nat := mergeBits (base + limit * 2 ^ 16) v mask
  let modTier (f : TierSt → TierSt) : State := { s with tier := f s.tier }
  match o with
  | 0x08 =>
    let g := bits (mergeBits t.reserveGib v mask) 8 0
    if g ≤ 64 ∧ t.coxLimit ≤ 256 - g then modTier (fun t => { t with reserveGib := g }) else s
  | 0x10 =>
    let w := two t.coxBase t.coxLimit
    let lo := bits w 8 0
    let hi := bits w 24 16
    if 1 ≤ lo ∧ lo < hi ∧ hi ≤ 256 - t.reserveGib ∧ s.boat.pool.all (fun e => decide (lo * 65536 ≤ e.first ∧ e.first + e.count ≤ hi * 65536)) then
      (modTier (fun t => { t with coxBase := lo, coxLimit := hi })).spillBackground
    else s
  | 0x18 =>
    let w := two t.nvsBase t.nvsLimit
    let lo := bits w 11 0
    let hi := bits w 27 16
    let inside (first count : Nat) : Bool := decide (lo * 2 ^ 18 ≤ first ∧ first + count ≤ hi * 2 ^ 18)
    if lo < hi ∧ s.boat.nvs.all (fun e => inside e.first e.count) ∧ (t.spillPages = 0 ∨ inside (t.spillBase * 4) (t.spillPages * 4)) then
      modTier (fun t => { t with nvsBase := lo, nvsLimit := hi })
    else s
  | _ => s

/-- FUSE registers written (R352). -/
def State.writeFuse (s : State) (o v mask old : Nat) : State :=
  let w := mergeBits old v mask
  if strided o 0x40 8 16 then s.modFuse (fun f => { f with gates := vset f.gates ((o - 0x40) / 8) (bits w 31 0) })
  else if decide (0x100 ≤ o ∧ o < 0x340) && o % 8 == 0 then
    let i := (o - 0x100) / 16
    if o % 16 = 0 then s.writeSRing i v mask else s.modStream i (fun x => { x with latencyUs := bits w 63 48 })
  else match o with
    | 0x00 => s.modFuse (fun f => { f with closeUs := keep (decide (100 ≤ bits w 31 16)) (bits w 31 16) f.closeUs, drMaxMs := bits w 63 32 })
    | 0x10 => s.modFuse (fun f => { f with alpha := bits w 15 0, beta := bits w 31 16, maxOut := bits w 47 32 })
    | _ => s

/-- CLK registers written (R472). -/
def State.writeClk (s : State) (o v mask old : Nat) : State :=
  let w := mergeBits old v mask
  if o = 0 then s.modClk (fun k => { k with xtalLost := k.xtalLost && (bit mask 4 == 0 || bit v 4 == 1) })
  else if strided o 8 8 3 then
    s.modClk (fun k => { k with judges := vmod k.judges ((o - 8) / 8) (fun j =>
      { j with
        window := keep (decide (256 ≤ bits w 15 0)) (bits w 15 0) j.window
        k := keep (decide (1 ≤ bits w 19 16)) (bits w 19 16) j.k
        tolPpm := keep (decide (1 ≤ bits w 63 32 ∧ bits w 63 32 ≤ 100000)) (bits w 63 32) j.tolPpm }) })
  else s

/-- PWR registers written (R471). -/
def State.writePwr (s : State) (o v mask old : Nat) : State :=
  let w := mergeBits old v mask
  let modPwr (f : PwrSt → PwrSt) : State := { s with pwr := f s.pwr }
  match o with
  | 0x10 => modPwr (fun p => { p with timerAt := w % 2 ^ 64 })
  | 0x18 => modPwr (fun p => { p with callAddr := bits w 9 0 })
  | 0x20 => modPwr (fun p => { p with idleUs := keep (decide (10 ≤ bits w 15 0)) (bits w 15 0) p.idleUs, tilesGate := bit w 16 == 1 })
  | _ => s

/-- CAP registers written (R495). -/
def State.writeCap (s : State) (o v mask old : Nat) : State :=
  let w := mergeBits old v mask
  match o with
  | 0x00 => s.writeLimit v mask
  | 0x18 => s.modCap (fun c => { c with boost := bit w 0 == 1 })
  | 0x20 => s.modCap (fun c => { c with loadline := bits w 15 0, slew := keep (decide (1 ≤ bits w 23 16)) (bits w 23 16) c.slew })
  | 0x28 => s.writeSag v mask
  | _ => s

/-- A register written under a mask (R66, R443): each writable field takes the bits the mask selects where its value is in range;
RO and RC fields, and addresses where no register lies, ignore the write. -/
def State.writeReg (s : State) (a v mask : Nat) : State :=
  let o := a - ctrlBase
  let r := o % 2 ^ 24
  if (s.reg a).isNone || isCounter (ctrId o) then s
  else
    let old := match s.reg a with | some (x, _) => x | none => 0
    let w := mergeBits old v mask
    match o / 2 ^ 24 with
    | 0 =>
      let port : PortSt := { s.port with eventsC0 := bit w 0 == 1, eventsC1 := bit w 1 == 1, srHint := bit w 2 == 1 }
      let s1 : State := { s with port := port }
      if r = 0 then s1.syncIdle else s
    | 1 => if r % 0x1000 = 0x40 then s.modTile (r / 0x1000) (fun x => x.clearArith v mask) else s
    | 2 => s.writePool r v mask
    | 3 =>
      if r = 0x48 then { s with store := { s.store with testFail := s.store.testFail && (bit mask 8 == 0 || bit v 8 == 1) } }
      else if r = 0x100000 then
        { s with store := { s.store with
            scrubEnable := bit w 0 == 1
            paceS := keep (decide (1 ≤ bits w 31 16 ∧ bits w 31 16 ≤ 3600)) (bits w 31 16) s.store.paceS
            limitMs := bits w 63 32 } }
      else s
    | 4 => if r = 0x80 then { s with boat := { s.boat with lowWater := bits w 31 0, spillEnable := bit w 32 == 1 } }.spillBackground else s
    | 7 => if r = 0x38 then { s with plan := { s.plan with researchMax := bits w 2 0 } } else s
    | 8 => s.writeFuse r v mask old
    | 9 => s.strokeWrite r v mask
    | 10 => if r = 0 then s.modNet (fun n => { n with ageS := keep (decide (10 ≤ bits w 15 0)) (bits w 15 0) n.ageS, learn := bit w 16 == 1 }) else s
    | 11 =>
      if r = 0 then { s with safe := { s.safe with hiAction := bit w 0 == 1 } }
      else if r = 0x10 then s.writeVerdict v mask
      else s
    | 13 => s.writePwr r v mask old
    | 14 => s.writeClk r v mask old
    | 15 => s.writeCap r v mask old
    | _ => s

/-! ### The rows -/

/-- REGISTER_WRITE (R443): a register written under a mask. -/
def execRegisterWrite (a v mask : Nat) (s : State) : Host.Outcome State Fault Refusal := .next (s.writeReg a v mask)

/-- TILE_ARITH_STATUS_WRITE (R98, R130). -/
def execTileArithStatusWrite (t v mask : Nat) (s : State) : Host.Outcome State Fault Refusal :=
  .next (s.modTile t (fun x => x.clearArith v mask))

/-- LOOP_SAT_CLEAR (R363, R379): the sticky flags of a loop written with 1. -/
def execLoopSatClear (l v mask : Nat) (s : State) : Host.Outcome State Fault Refusal := .next (s.clearSat l (v &&& mask))

/-- TIER_POOL_WRITE (R165): `a` is the register's offset in the TIER block. -/
def execTierPoolWrite (a v mask : Nat) (s : State) : Host.Outcome State Fault Refusal := .next (s.writePool a v mask)

end Sys2Proof.Machine
end

