-- ==== Sys2Proof/Machine/Sync.lean ====
section
/-! DEFINITION. Fences, barriers, semaphores and the end of a thread (R117, R122 to R125, R155, R296, R297). -/

namespace Sys2Proof.Machine

/-- FENCE_TILE (R124): every operation of a thread is complete for its own tile's threads as it is issued. -/
def execFenceTile (t th : Nat) (s : State) : Host.Outcome State Fault Refusal :=
  .next (if s.canIssue t th then s.modThread t th Thread.next else s)

/-- FENCE_DEV (R124): the thread goes on when its stores, its write-combining lines among them, are acknowledged. -/
def execFenceDev (t th : Nat) (s : State) : Host.Outcome State Fault Refusal :=
  .next (if s.canIssue t th then
    let s1 := s.sendOwn t th
    s1.modThread t th (fun x => if (s1.tile t).unacked th then { x with block := .fence } else x.next)
  else s)

/-- FLUSH (R124): the tile's write-combining lines that overlap the range go home, and the thread waits for them. -/
def execFlush (t th ra rb : Nat) (s : State) : Host.Outcome State Fault Refusal :=
  .next (if s.canIssue t th then
    let h := (s.tile t).thread th
    let a := h.operand ra
    let n := h.operand rb
    if a.2 || n.2 then s.poisonUse t th h.pc
    else
      let s1 := s.sendLines t (fun w => w.hits a.1 n.1)
      let ls := ((s1.tile t).out.filter (fun w => w.hits a.1 n.1)).map (fun w => w.addr / 64)
      s1.modThread t th (fun x => if ls.isEmpty then x.next else { x with block := .flush ls })
  else s)

/-- INVAL (R124): buffered bytes of the range are sent home and its read-cache lines discarded. -/
def execInval (t th ra rb : Nat) (s : State) : Host.Outcome State Fault Refusal :=
  .next (if s.canIssue t th then
    let h := (s.tile t).thread th
    let a := h.operand ra
    let n := h.operand rb
    if a.2 || n.2 then s.poisonUse t th h.pc
    else
      (s.sendLines t (fun w => w.hits a.1 n.1)).modTile t (fun x =>
        { (x.modThread th Thread.next) with cache := x.cache.filter (fun c => !overlaps (c.line * 64) 64 a.1 n.1) })
  else s)

/-- CREW_BARRIER (R117): the thread's stores are sent home, and it waits for its crew. -/
def execCrewBarrier (t th : Nat) (s : State) : Host.Outcome State Fault Refusal :=
  .next (if s.canIssue t th then
    ((s.sendOwn t th).modThread t th (fun x => { x with block := .barrier false })).crewProgress t
  else s)

/-- LAYER_LATE (R155): a crew barrier that also waits for the layer's LOADs. -/
def execLayerLate (t th rd imm : Nat) (s : State) : Host.Outcome State Fault Refusal :=
  .next (if s.canIssue t th then
    ((s.sendOwn t th).modThread t th (fun x => { x with block := .layerLate imm rd false })).crewProgress t
  else s)

/-- SEM_ACQUIRE (R125, R296, R297): a free or broken semaphore is taken; on a taken one the thread waits, and a holder of lower
class is boosted. -/
def execSemAcquire (t th rd ra : Nat) (s : State) : Host.Outcome State Fault Refusal :=
  .next (if s.canIssue t th then
    let h := (s.tile t).thread th
    let i := h.operand ra
    if i.2 then s.poisonUse t th h.pc
    else match s.sem i.1 with
      | none => s.faultPc t th 0x0005
      | some x =>
        let s1 := s.modThread t th (fun h => { h with block := .semAcquire i.1 rd })
        if x.st = 1 then
          let s2 := s1.modSem i.1 (fun x => { x with waiters := x.waiters ++ [(t, th)] })
          (State.boost 4096 s2 i.1 (s2.waiterClass (t, th))).schedule
        else s1.grantSem i.1 (t, th) (if x.st = 2 then 0x800D else stDone)
  else s)

/-- SEM_RELEASE (R125, R296): fence.dev for the thread, then the release. -/
def execSemRelease (t th ra : Nat) (s : State) : Host.Outcome State Fault Refusal :=
  .next (if s.canIssue t th then
    let h := (s.tile t).thread th
    let i := h.operand ra
    if i.2 then s.poisonUse t th h.pc
    else match s.sem i.1 with
      | none => s.faultPc t th 0x0005
      | some _ =>
        let s1 := s.sendOwn t th
        if (s1.tile t).unacked th then s1.modThread t th (fun x => { x with block := .semRelease i.1 })
        else ((s1.modThread t th Thread.next).releaseSem i.1).schedule
  else s)

/-- THREAD_EXIT (R114, R135): the thread has ended; the last one's tile sends home what its buffer still holds. -/
def execThreadExit (t th : Nat) (s : State) : Host.Outcome State Fault Refusal :=
  .next (if s.canIssue t th then
    let s1 := s.modThread t th (fun x => { x with exited := true })
    if (s1.tile t).threads.toList.all (fun x => !x.started || x.exited) then s1.sendLines t (fun _ => true) else s1
  else s)

/-- A store must follow an earlier one of its tile to the same bytes (R122). -/
def Tile.behind (x : Tile) (i : Nat) (w : OutWrite) : Bool := (x.out.take i).any (fun y => y.hits w.addr w.bytes.length)

/-- WRITE_ACKNOWLEDGED (R117, R122 to R125): a store on its way is performed at its home and acknowledged. A store to a fenced
channel waits; those of a crew being torn down are discarded (R133). -/
def execWriteAcknowledged (t i : Nat) (s : State) : Host.Outcome State Fault Refusal :=
  .next (match (s.tile t).out[i]? with
    | none => s
    | some w =>
      if decide (128 ≤ t) || s.tileTearing t || (s.tile t).behind i w then s
      else if s.heldRange w.addr w.bytes.length then s.hold [(w.addr, w.bytes.length)]
      else
        let s1 := (s.homeStore t w.addr w.bytes).modTile t (fun x => { x with out := x.out.eraseIdx i })
        (s1.crewProgress t).schedule)

end Sys2Proof.Machine
end

