-- ==== Sys2Proof/Machine/Sys.lean ====
section
/-! DEFINITION. The system family, and the reading of command packets with every opcode's own checks (R53, R54, R56, R66 to R68, R73,
R189, R443, R475). -/

namespace Sys2Proof.Machine

/-! ### sys.ping, sys.queue.sync -/

/-- An opcode without a value to check. -/
def chkNone (_ : State) (_ : Cmd) : Check10 := none

/-- sys.ping. -/
def runSysPing (s : State) (c : Cmd) : State × Res := (s, .done (c.p 0 8))

/-- SYS_PING (R66). -/
def execSysPing (q k : Nat) (s : State) : Host.Outcome State Fault Refusal := s.opcodeRow 0x0101 false chkNone runSysPing q k

/-- sys.queue.sync: the value EXPECT_SEQ held before, kept with the command since it was read. -/
def runSysQueueSync (s : State) (c : Cmd) : State × Res := (s, .done (c.p 0 4))

/-- SYS_QUEUE_SYNC (R56). -/
def execSysQueueSync (q k : Nat) (s : State) : Host.Outcome State Fault Refusal :=
  s.opcodeRow 0x0107 false chkNone runSysQueueSync q k

/-! ### Registers and counters (R443) -/

/-- An address that names no register is refused. -/
def chkSysReg (s : State) (c : Cmd) : Check10 := firstBad [((s.reg (c.p 0 8)).isNone, 0)]

/-- sys.reg.read. -/
def runSysRegRead (s : State) (c : Cmd) : State × Res :=
  let (v, s1) := s.readReg (c.p 0 8)
  (s1, .done v)

/-- SYS_REG_READ (R443). -/
def execSysRegRead (q k : Nat) (s : State) : Host.Outcome State Fault Refusal :=
  s.opcodeRow 0x0102 false chkSysReg runSysRegRead q k

/-- sys.reg.write: RESULT is the register read back, its RC fields kept. -/
def runSysRegWrite (s : State) (c : Cmd) : State × Res :=
  let s1 := s.writeReg (c.p 0 8) (c.p 8 8) (c.p 16 8)
  match s1.reg (c.p 0 8) with
  | some (v, s2) => (s2, .done v)
  | none => (s1, .done 0)

/-- SYS_REG_WRITE (R443). -/
def execSysRegWrite (q k : Nat) (s : State) : Host.Outcome State Fault Refusal :=
  s.opcodeRow 0x0103 false chkSysReg runSysRegWrite q k

/-- The checks of sys.counter.read. -/
def chkSysCounterRead (_ : State) (c : Cmd) : Check10 := firstBad [(!isCounter (c.p 0 4), 0), (decide (1 < c.p 4 1), 4)]

/-- sys.counter.read: COUNT in [31:0], SAT in [63]. -/
def runSysCounterRead (s : State) (c : Cmd) : State × Res :=
  let x := s.counter (c.p 0 4)
  (if c.p 4 1 = 1 then s.clearCounter (c.p 0 4) else s, .done (x.count.toNat + b2n x.sat * 2 ^ 63))

/-- SYS_COUNTER_READ (R443). -/
def execSysCounterRead (q k : Nat) (s : State) : Host.Outcome State Fault Refusal :=
  s.opcodeRow 0x0105 false chkSysCounterRead runSysCounterRead q k

/-! ### sys.event.mask (R73) -/

/-- A code not listed, of class 2 or 3, or an enable above 1 is refused. -/
def chkSysEventMask (_ : State) (c : Cmd) : Check10 :=
  firstBad [(!eventCodes.contains (c.p 0 2) || decide (2 ≤ eventClass (c.p 0 2)), 0), (decide (1 < c.p 2 1), 2)]

/-- sys.event.mask. -/
def runSysEventMask (s : State) (c : Cmd) : State × Res :=
  let code := c.p 0 2
  let prev := b2n (!s.host.masked.contains code)
  let masked := if c.p 2 1 = 1 then s.host.masked.filter (· != code) else insertSorted s.host.masked code
  ({ s with host := { s.host with masked := masked } }, .done prev)

/-- SYS_EVENT_MASK (R73). -/
def execSysEventMask (q k : Nat) (s : State) : Host.Outcome State Fault Refusal :=
  s.opcodeRow 0x0106 false chkSysEventMask runSysEventMask q k

/-! ### sys.status (R68, R189, R475) -/

/-- The entry of a channel in the integrity table: type 4 for T1, 5 for NVS (R189). -/
def State.integEntry (s : State) (ty n : Nat) : List Byte :=
  let r := vget ChanRec.reset s.store.chans (if ty = 4 then n else 256 + n)
  let sat (v : Nat) : Nat := min v 0xFFFFFFFF
  let share := if ty = 4 then s.permille n else s.patrolled (n / 16) * 1000 / stackPages
  toLe 4 (sat r.ce) ++ toLe 4 (sat r.ue) ++ toLe 1 (if ty = 4 then r.lineMax else 0) ++ toLe 1 (s.unitCode ty n) ++
    toLe 2 (if ty = 4 then r.repair.length else 0) ++ toLe 4 share

/-- The 4,608 bytes of table 0x0007. -/
def State.integTable (s : State) : List Byte :=
  (List.range 256).flatMap (s.integEntry 4) ++ (List.range 32).flatMap (s.integEntry 5)

/-- The 1,120 bytes of table 0x0019: class, band, operating point (R475). -/
def voltageTable : List Byte :=
  (List.range 5).flatMap (fun c => (List.range 7).flatMap (fun b => (List.range 16).flatMap (fun n => toLe 2 (Config.voltage c b n))))

/-- The bytes of a table of R68; none for a table not listed. -/
def State.statusTable (s : State) (table : Nat) : Option (List Byte) :=
  if table = 0x0007 then some s.integTable else if table = 0x0019 then some voltageTable else none

/-- The length of a table. -/
def statusLen (table : Nat) : Nat := if table = 0x0019 then 1120 else 4608

/-- The checks of sys.status. -/
def chkSysStatus (s : State) (c : Cmd) : Check10 :=
  firstBad [(decide (c.p 0 2 ≠ 0x0007 ∧ c.p 0 2 ≠ 0x0019), 0), (!s.destOk (c.p 2 8) (statusLen (c.p 0 2)), 2)]

/-- sys.status. -/
def runSysStatus (s : State) (c : Cmd) : State × Res :=
  match s.statusTable (c.p 0 2) with
  | some l => (s.storeClean (c.p 2 8) l, .done (statusLen (c.p 0 2)))
  | none => (s, .bad 0)

/-- SYS_STATUS (R68). -/
def execSysStatus (q k : Nat) (s : State) : Host.Outcome State Fault Refusal := s.opcodeRow 0x0104 false chkSysStatus runSysStatus q k

/-! ### COMMAND_READ (R31, R39, R46 to R57) -/

/-- Check 10 of R54: each opcode's own parameters, as its chapter states; none under the ROM firmware for the families it
refuses. -/
def paramCheck (s : State) (c : Cmd) : Check10 :=
  if s.romRefuses c then none
  else match c.opcode with
    | 0x0102 => chkSysReg s c | 0x0103 => chkSysReg s c | 0x0104 => chkSysStatus s c | 0x0105 => chkSysCounterRead s c
    | 0x0106 => chkSysEventMask s c
    | 0x0201 => chkMemPull s c | 0x0202 => chkMemPush s c | 0x0203 => chkMemCopy s c | 0x0204 => chkMemFill s c
    | 0x0205 => chkMemMode s c | 0x0206 => chkMemScrub s c | 0x0207 => chkMemSpillarea s c
    | 0x0301 => chkModelLoad s c | 0x0302 => chkModelEvict s c | 0x0303 => chkModelPin s c | 0x0304 => chkModelSwap s c
    | 0x0305 => chkModelTier s c | 0x0306 => chkModelInfo s c
    | 0x0401 => chkJobSubmit s c | 0x0402 => chkJobCancel s c | 0x0403 => chkSchedClient s c | 0x0404 => chkSchedStats s c
    | 0x0405 => chkSemAlloc s c | 0x0406 => chkSemFree s c
    | 0x0501 => chkCtxOpen s c | 0x0502 => chkCtxClose s c | 0x0503 => chkKvAppend s c | 0x0504 => chkKvTrim s c
    | 0x0505 => chkKvMove s c | 0x0506 => chkKvFetch s c | 0x0507 => chkKvStats s c
    | 0x0601 => chkPlanLattice s c | 0x0602 => chkPlanMap s c | 0x0603 => chkPlanQuery s c | 0x0604 => chkPlanCancel s c
    | 0x0701 => chkFuseStream s c | 0x0702 => chkFuseXform s c | 0x0703 => chkFuseLink s c | 0x0704 => chkFuseTracks s c
    | 0x0705 => chkFuseOut s c | 0x0706 => chkFuseEnable s c
    | 0x0801 => chkStrokeChain s c | 0x0802 => chkStrokeLoop s c | 0x0803 => chkStrokeProfile s c | 0x0804 => chkStrokeLimit s c
    | 0x0805 => chkLoop s c | 0x0806 => chkStrokeEnable s c | 0x0807 => chkStrokeTune s c | 0x0808 => chkStrokeFf s c
    | 0x0901 => chkSafeJob s c | 0x0902 => chkSafeFrozen s c | 0x0903 => chkSafeSelftest s c
    | 0x0A01 => chkPwrCap s c | 0x0A02 => chkPwrSag s c | 0x0A03 => chkPwrHint s c | 0x0A04 => chkPwrState s c
    | 0x0A05 => chkPwrLock s c | 0x0A06 => chkClkSource s c | 0x0A07 => chkClkOut s c
    | 0x0B01 => chkNetPort s c | 0x0B02 => chkNetVlan s c | 0x0B03 => chkNetShaper s c | 0x0B04 => chkNetFilter s c
    | 0x0B05 => chkNetTemplate s c | 0x0B06 => chkNetKey s c
    | 0x0C01 => chkFaultStatus s c | 0x0C02 => chkUnit s c | 0x0C03 => chkUnit s c | 0x0C04 => chkFaultBucket s c
    | 0x0D01 => chkFwStage s c | 0x0D02 => chkFwHandover s c | 0x0D03 => chkSecKey s c | 0x0D04 => chkImage s c
    | _ => none

/-- The continuation packets a command occupies read, each word with the error it meets; the head packet has been read
(R31, R39, R51). -/
def State.readSlots (s : State) (q : Nat) : State :=
  let s := s.latchHead q
  let h := (s.queue q).sqHead
  (List.range (s.headSlots q - 1)).foldl (fun s i => s.readSlot q (h + 1 + i)) s

/-- One command read from a queue, whose turn then passes to the next (R53, R54); the queue's next head packet, when it is
covered, is read at once (R51). -/
def State.readTurn (s : State) (q : Nat) : State :=
  let s1 := (s.readSlots q).readCommand paramCheck q
  { s1 with host := { s1.host with turn := (q + 1) % 128 } }.latchHead q

/-- COMMAND_READ (R53, R54): the next queue with a complete unread command, unless reading has stopped. -/
def execCommandRead (ups : List Upset) (s : State) : Host.Outcome State Fault Refusal :=
  .next (if s.readingStopped then s
    else match s.nextQueue with
      | none => s
      | some q => (ups.foldl State.strikeSram s).readTurn q)

end Sys2Proof.Machine
end

