-- ==== Sys2Proof/Machine/Dispatch.lean ====
section
/-! DEFINITION. The meaning of every command and event: one arm for each constructor of `Instr`. -/

namespace Sys2Proof.Machine

def exec (i : Instr) (s : State) : Host.Outcome State Fault Refusal :=
  match i with
  | .hostRead ch a bl32 ups => Sys2Proof.Machine.execHostRead ch a bl32 ups s
  | .evLostRead ch => Sys2Proof.Machine.execEvLostRead ch s
  | .hostWrite ch a beats mask link => Sys2Proof.Machine.execHostWrite ch a beats mask link s
  | .modeRegisterWrite ch mr v => Sys2Proof.Machine.execModeRegisterWrite ch mr v s
  | .modeRegisterRead ch mr => Sys2Proof.Machine.execModeRegisterRead ch mr s
  | .linkTraining ch kind result => Sys2Proof.Machine.execLinkTraining ch kind result s
  | .zqCalibration ch => Sys2Proof.Machine.execZqCalibration ch s
  | .postPackageRepair ch => Sys2Proof.Machine.execPostPackageRepair ch s
  | .refresh ch kind => Sys2Proof.Machine.execRefresh ch kind s
  | .powerDownEntry ch => Sys2Proof.Machine.execPowerDownEntry ch s
  | .powerDownExit ch => Sys2Proof.Machine.execPowerDownExit ch s
  | .selfRefreshEntry ch pd => Sys2Proof.Machine.execSelfRefreshEntry ch pd s
  | .selfRefreshExit ch => Sys2Proof.Machine.execSelfRefreshExit ch s
  | .deepSleepEntry ch => Sys2Proof.Machine.execDeepSleepEntry ch s
  | .deepSleepExit ch => Sys2Proof.Machine.execDeepSleepExit ch s
  | .resetNAssert => Sys2Proof.Machine.execResetNAssert s
  | .resetNRelease => Sys2Proof.Machine.execResetNRelease s
  | .sqTailWrite q v => Sys2Proof.Machine.execSqTailWrite q v s
  | .rqHeadWrite q v => Sys2Proof.Machine.execRqHeadWrite q v s
  | .evHeadWrite ch v => Sys2Proof.Machine.execEvHeadWrite ch v s
  | .commandRead ups => Sys2Proof.Machine.execCommandRead ups s
  | .commandDispatch q => Sys2Proof.Machine.execCommandDispatch q s
  | .commandComplete q => Sys2Proof.Machine.execCommandComplete q s
  | .deadlinePassed q k => Sys2Proof.Machine.execDeadlinePassed q k s
  | .sysPing q k => Sys2Proof.Machine.execSysPing q k s
  | .sysRegRead q k => Sys2Proof.Machine.execSysRegRead q k s
  | .sysRegWrite q k => Sys2Proof.Machine.execSysRegWrite q k s
  | .registerWrite a v mask => Sys2Proof.Machine.execRegisterWrite a v mask s
  | .tileArithStatusWrite t v mask => Sys2Proof.Machine.execTileArithStatusWrite t v mask s
  | .loopSatClear l v mask => Sys2Proof.Machine.execLoopSatClear l v mask s
  | .capLimitWrite v mask => Sys2Proof.Machine.execCapLimitWrite v mask s
  | .capSagWrite v mask => Sys2Proof.Machine.execCapSagWrite v mask s
  | .tierPoolWrite a v mask => Sys2Proof.Machine.execTierPoolWrite a v mask s
  | .fuseSRingWrite idx v mask => Sys2Proof.Machine.execFuseSRingWrite idx v mask s
  | .safeVerdictWrite v mask => Sys2Proof.Machine.execSafeVerdictWrite v mask s
  | .sysStatus q k => Sys2Proof.Machine.execSysStatus q k s
  | .sysCounterRead q k => Sys2Proof.Machine.execSysCounterRead q k s
  | .sysEventMask q k => Sys2Proof.Machine.execSysEventMask q k s
  | .sysQueueSync q k => Sys2Proof.Machine.execSysQueueSync q k s
  | .memPull q k ups => Sys2Proof.Machine.execMemPull q k ups s
  | .memPush q k ups => Sys2Proof.Machine.execMemPush q k ups s
  | .memCopy q k ups => Sys2Proof.Machine.execMemCopy q k ups s
  | .memFill q k => Sys2Proof.Machine.execMemFill q k s
  | .memMode q k => Sys2Proof.Machine.execMemMode q k s
  | .memScrub q k => Sys2Proof.Machine.execMemScrub q k s
  | .memSpillarea q k => Sys2Proof.Machine.execMemSpillarea q k s
  | .modelLoad q k => Sys2Proof.Machine.execModelLoad q k s
  | .modelEvict q k => Sys2Proof.Machine.execModelEvict q k s
  | .modelPin q k => Sys2Proof.Machine.execModelPin q k s
  | .modelSwap q k => Sys2Proof.Machine.execModelSwap q k s
  | .modelSwapEffect old => Sys2Proof.Machine.execModelSwapEffect old s
  | .modelTier q k => Sys2Proof.Machine.execModelTier q k s
  | .modelInfo q k => Sys2Proof.Machine.execModelInfo q k s
  | .jobSubmit q k => Sys2Proof.Machine.execJobSubmit q k s
  | .jobCancel q k => Sys2Proof.Machine.execJobCancel q k s
  | .schedClient q k => Sys2Proof.Machine.execSchedClient q k s
  | .schedStats q k => Sys2Proof.Machine.execSchedStats q k s
  | .semAlloc q k => Sys2Proof.Machine.execSemAlloc q k s
  | .semFree q k => Sys2Proof.Machine.execSemFree q k s
  | .ctxOpen q k => Sys2Proof.Machine.execCtxOpen q k s
  | .ctxClose q k => Sys2Proof.Machine.execCtxClose q k s
  | .kvAppend q k => Sys2Proof.Machine.execKvAppend q k s
  | .kvTrim q k => Sys2Proof.Machine.execKvTrim q k s
  | .kvMove q k => Sys2Proof.Machine.execKvMove q k s
  | .kvFetch q k => Sys2Proof.Machine.execKvFetch q k s
  | .kvStats q k => Sys2Proof.Machine.execKvStats q k s
  | .planLattice q k => Sys2Proof.Machine.execPlanLattice q k s
  | .planMap q k => Sys2Proof.Machine.execPlanMap q k s
  | .planQuery q k => Sys2Proof.Machine.execPlanQuery q k s
  | .planCancel q k => Sys2Proof.Machine.execPlanCancel q k s
  | .planSearchEnd u cut => Sys2Proof.Machine.execPlanSearchEnd u cut s
  | .fuseStream q k => Sys2Proof.Machine.execFuseStream q k s
  | .fuseXform q k => Sys2Proof.Machine.execFuseXform q k s
  | .fuseLink q k => Sys2Proof.Machine.execFuseLink q k s
  | .fuseTracks q k => Sys2Proof.Machine.execFuseTracks q k s
  | .fuseOut q k => Sys2Proof.Machine.execFuseOut q k s
  | .fuseEnable q k => Sys2Proof.Machine.execFuseEnable q k s
  | .strokeChain q k => Sys2Proof.Machine.execStrokeChain q k s
  | .strokeLoop q k => Sys2Proof.Machine.execStrokeLoop q k s
  | .strokeProfile q k => Sys2Proof.Machine.execStrokeProfile q k s
  | .strokeLimit q k => Sys2Proof.Machine.execStrokeLimit q k s
  | .strokeTarget q k => Sys2Proof.Machine.execStrokeTarget q k s
  | .strokeEnable q k => Sys2Proof.Machine.execStrokeEnable q k s
  | .strokeTune q k => Sys2Proof.Machine.execStrokeTune q k s
  | .strokeFf q k => Sys2Proof.Machine.execStrokeFf q k s
  | .safeJob q k => Sys2Proof.Machine.execSafeJob q k s
  | .safeFrozen q k => Sys2Proof.Machine.execSafeFrozen q k s
  | .safeSelftest q k => Sys2Proof.Machine.execSafeSelftest q k s
  | .pwrCap q k => Sys2Proof.Machine.execPwrCap q k s
  | .pwrSag q k => Sys2Proof.Machine.execPwrSag q k s
  | .pwrHint q k => Sys2Proof.Machine.execPwrHint q k s
  | .pwrState q k => Sys2Proof.Machine.execPwrState q k s
  | .pwrLock q k => Sys2Proof.Machine.execPwrLock q k s
  | .clkSource q k => Sys2Proof.Machine.execClkSource q k s
  | .clkOut q k => Sys2Proof.Machine.execClkOut q k s
  | .netPort q k => Sys2Proof.Machine.execNetPort q k s
  | .netVlan q k => Sys2Proof.Machine.execNetVlan q k s
  | .netShaper q k => Sys2Proof.Machine.execNetShaper q k s
  | .netFilter q k => Sys2Proof.Machine.execNetFilter q k s
  | .netTemplate q k => Sys2Proof.Machine.execNetTemplate q k s
  | .netKey q k => Sys2Proof.Machine.execNetKey q k s
  | .faultStatus q k => Sys2Proof.Machine.execFaultStatus q k s
  | .faultRetire q k => Sys2Proof.Machine.execFaultRetire q k s
  | .faultProbe q k => Sys2Proof.Machine.execFaultProbe q k s
  | .faultBucket q k => Sys2Proof.Machine.execFaultBucket q k s
  | .fwStage q k => Sys2Proof.Machine.execFwStage q k s
  | .fwHandover q k => Sys2Proof.Machine.execFwHandover q k s
  | .startImageSlotWrite => Sys2Proof.Machine.execStartImageSlotWrite s
  | .standbyReloaded pass => Sys2Proof.Machine.execStandbyReloaded pass s
  | .secKey q k => Sys2Proof.Machine.execSecKey q k s
  | .secVerify q k => Sys2Proof.Machine.execSecVerify q k s
  | .aluReg t th mod rd ra rb => Sys2Proof.Machine.execAluReg t th mod rd ra rb s
  | .aluImm t th mod rd ra imm => Sys2Proof.Machine.execAluImm t th mod rd ra imm s
  | .compare t th mod ra rb => Sys2Proof.Machine.execCompare t th mod ra rb s
  | .branch t th mod imm => Sys2Proof.Machine.execBranch t th mod imm s
  | .load t th mod rd ra imm ups => Sys2Proof.Machine.execLoad t th mod rd ra imm ups s
  | .store t th mod ra rb imm => Sys2Proof.Machine.execStore t th mod ra rb imm s
  | .atomic t th mod rd ra rb => Sys2Proof.Machine.execAtomic t th mod rd ra rb s
  | .vectorLoad t th rd ra imm => Sys2Proof.Machine.execVectorLoad t th rd ra imm s
  | .vectorStore t th rd ra imm => Sys2Proof.Machine.execVectorStore t th rd ra imm s
  | .vectorOp t th mod rd ra rb => Sys2Proof.Machine.execVectorOp t th mod rd ra rb s
  | .prefixScan t th mod rd ra rb => Sys2Proof.Machine.execPrefixScan t th mod rd ra rb s
  | .arrRun t th ra rb => Sys2Proof.Machine.execArrRun t th ra rb s
  | .arrConv t th ra rb => Sys2Proof.Machine.execArrConv t th ra rb s
  | .arrWait t th rb => Sys2Proof.Machine.execArrWait t th rb s
  | .arrayReductionDone t a => Sys2Proof.Machine.execArrayReductionDone t a s
  | .outputConversionDone t a => Sys2Proof.Machine.execOutputConversionDone t a s
  | .sweepRun t th ra => Sys2Proof.Machine.execSweepRun t th ra s
  | .sweepWait t th => Sys2Proof.Machine.execSweepWait t th s
  | .sweepComplete p => Sys2Proof.Machine.execSweepComplete p s
  | .kvGraceExpired p list page => Sys2Proof.Machine.execKvGraceExpired p list page s
  | .kvFetchComplete ctx list page => Sys2Proof.Machine.execKvFetchComplete ctx list page s
  | .kvSpillDurable ctx list page => Sys2Proof.Machine.execKvSpillDurable ctx list page s
  | .xfRun t th ra => Sys2Proof.Machine.execXfRun t th ra s
  | .xfWait t th => Sys2Proof.Machine.execXfWait t th s
  | .xfRunComplete e => Sys2Proof.Machine.execXfRunComplete e s
  | .poolRun t th ra => Sys2Proof.Machine.execPoolRun t th ra s
  | .poolComplete t => Sys2Proof.Machine.execPoolComplete t s
  | .bowStart t th ra rb => Sys2Proof.Machine.execBowStart t th ra rb s
  | .bowWait t th rb => Sys2Proof.Machine.execBowWait t th rb s
  | .bowDescriptor t e ups => Sys2Proof.Machine.execBowDescriptor t e ups s
  | .fillComplete t slot => Sys2Proof.Machine.execFillComplete t slot s
  | .drainComplete t slot => Sys2Proof.Machine.execDrainComplete t slot s
  | .bufWait t th rd imm => Sys2Proof.Machine.execBufWait t th rd imm s
  | .bufPost t th imm => Sys2Proof.Machine.execBufPost t th imm s
  | .bufRelease t th imm => Sys2Proof.Machine.execBufRelease t th imm s
  | .stepDone t th => Sys2Proof.Machine.execStepDone t th s
  | .fenceTile t th => Sys2Proof.Machine.execFenceTile t th s
  | .fenceDev t th => Sys2Proof.Machine.execFenceDev t th s
  | .flush t th ra rb => Sys2Proof.Machine.execFlush t th ra rb s
  | .inval t th ra rb => Sys2Proof.Machine.execInval t th ra rb s
  | .crewBarrier t th => Sys2Proof.Machine.execCrewBarrier t th s
  | .layerLate t th rd imm => Sys2Proof.Machine.execLayerLate t th rd imm s
  | .fetchDeadline t slot => Sys2Proof.Machine.execFetchDeadline t slot s
  | .semAcquire t th rd ra => Sys2Proof.Machine.execSemAcquire t th rd ra s
  | .semRelease t th ra => Sys2Proof.Machine.execSemRelease t th ra s
  | .boostExpired sem => Sys2Proof.Machine.execBoostExpired sem s
  | .threadExit t th => Sys2Proof.Machine.execThreadExit t th s
  | .stepEnd ctx => Sys2Proof.Machine.execStepEnd ctx s
  | .spillDrainComplete ctx => Sys2Proof.Machine.execSpillDrainComplete ctx s
  | .spillSaveComplete ctx => Sys2Proof.Machine.execSpillSaveComplete ctx s
  | .resumeIssue ctx => Sys2Proof.Machine.execResumeIssue ctx s
  | .teardownComplete ctx => Sys2Proof.Machine.execTeardownComplete ctx s
  | .lineFrameArrival a write errs ups => Sys2Proof.Machine.execLineFrameArrival a write errs ups s
  | .stackRefresh stack => Sys2Proof.Machine.execStackRefresh stack s
  | .nvsPageWriteDurable page => Sys2Proof.Machine.execNvsPageWriteDurable page s
  | .nvsPatrol page corrected => Sys2Proof.Machine.execNvsPatrol page corrected s
  | .scrubAccess a ups => Sys2Proof.Machine.execScrubAccess a ups s
  | .scrubLapAlarm => Sys2Proof.Machine.execScrubLapAlarm s
  | .t1CheckSelftest pass => Sys2Proof.Machine.execT1CheckSelftest pass s
  | .rebuildGranuleCopy g lost => Sys2Proof.Machine.execRebuildGranuleCopy g lost s
  | .nvsRebuildPage page lost => Sys2Proof.Machine.execNvsRebuildPage page lost s
  | .inputSlotReady idx => Sys2Proof.Machine.execInputSlotReady idx s
  | .coastedInstant => Sys2Proof.Machine.execCoastedInstant s
  | .instantClose => Sys2Proof.Machine.execInstantClose s
  | .degradedRecord => Sys2Proof.Machine.execDegradedRecord s
  | .sampleInstant c => Sys2Proof.Machine.execSampleInstant c s
  | .chainFrameReturn c frame => Sys2Proof.Machine.execChainFrameReturn c frame s
  | .feedbackCutoff c => Sys2Proof.Machine.execFeedbackCutoff c s
  | .chainClockLost c => Sys2Proof.Machine.execChainClockLost c s
  | .ffCommit c => Sys2Proof.Machine.execFfCommit c s
  | .frameReceive port frame bad => Sys2Proof.Machine.execFrameReceive port frame bad s
  | .frameTransmit port => Sys2Proof.Machine.execFrameTransmit port s
  | .portLink port up => Sys2Proof.Machine.execPortLink port up s
  | .fdbAgeOut idx => Sys2Proof.Machine.execFdbAgeOut idx s
  | .checkRecord t a => Sys2Proof.Machine.execCheckRecord t a s
  | .checkRecordTimeout t a => Sys2Proof.Machine.execCheckRecordTimeout t a s
  | .goldenCompare ctx => Sys2Proof.Machine.execGoldenCompare ctx s
  | .tileTestDone ctx fails => Sys2Proof.Machine.execTileTestDone ctx fails s
  | .segmentStart u => Sys2Proof.Machine.execSegmentStart u s
  | .segmentEnd u pass => Sys2Proof.Machine.execSegmentEnd u pass s
  | .testDeferral u => Sys2Proof.Machine.execTestDeferral u s
  | .checkerTestOverdue u => Sys2Proof.Machine.execCheckerTestOverdue u s
  | .gapHoldElapsed u => Sys2Proof.Machine.execGapHoldElapsed u s
  | .internalCheckError ty n => Sys2Proof.Machine.execInternalCheckError ty n s
  | .probeResult ty n pass => Sys2Proof.Machine.execProbeResult ty n pass s
  | .probeTimeout ty n => Sys2Proof.Machine.execProbeTimeout ty n s
  | .pathCompare => Sys2Proof.Machine.execPathCompare s
  | .fenceNotConfirmed ty n => Sys2Proof.Machine.execFenceNotConfirmed ty n s
  | .dieBridgeSilence => Sys2Proof.Machine.execDieBridgeSilence s
  | .dieBridgeRestored answers => Sys2Proof.Machine.execDieBridgeRestored answers s
  | .dieBridgeRetrainTimeout => Sys2Proof.Machine.execDieBridgeRetrainTimeout s
  | .domainGate d => Sys2Proof.Machine.execDomainGate d s
  | .agentAnswer d => Sys2Proof.Machine.execAgentAnswer d s
  | .agentDelayTimeout d => Sys2Proof.Machine.execAgentDelayTimeout d s
  | .entryPointReached => Sys2Proof.Machine.execEntryPointReached s
  | .railsOff => Sys2Proof.Machine.execRailsOff s
  | .timerWake => Sys2Proof.Machine.execTimerWake s
  | .sagRise => Sys2Proof.Machine.execSagRise s
  | .linkEnergy port => Sys2Proof.Machine.execLinkEnergy port s
  | .callToken b => Sys2Proof.Machine.execCallToken b s
  | .easyReturnStage => Sys2Proof.Machine.execEasyReturnStage s
  | .judgeWindow c n => Sys2Proof.Machine.execJudgeWindow c n s
  | .clockNoEdge c => Sys2Proof.Machine.execClockNoEdge c s
  | .capControlTick est meas => Sys2Proof.Machine.execCapControlTick est meas s
  | .telemetryLost => Sys2Proof.Machine.execTelemetryLost s
  | .mismatchTimer => Sys2Proof.Machine.execMismatchTimer s
  | .agreementTimer => Sys2Proof.Machine.execAgreementTimer s
  | .unreliableTimer => Sys2Proof.Machine.execUnreliableTimer s
  | .thermalLimit temp => Sys2Proof.Machine.execThermalLimit temp s
  | .temperatureBandChange d temp => Sys2Proof.Machine.execTemperatureBandChange d temp s
  | .hintIntervalBegin idx => Sys2Proof.Machine.execHintIntervalBegin idx s
  | .hintLapse idx => Sys2Proof.Machine.execHintLapse idx s
  | .ratingSlip d => Sys2Proof.Machine.execRatingSlip d s
  | .ratingSlipReport => Sys2Proof.Machine.execRatingSlipReport s
  | .sagWarnFall => Sys2Proof.Machine.execSagWarnFall s
  | .sagWarnRise => Sys2Proof.Machine.execSagWarnRise s
  | .sagConfirmed => Sys2Proof.Machine.execSagConfirmed s
  | .sagResetFall => Sys2Proof.Machine.execSagResetFall s
  | .supplyValid r => Sys2Proof.Machine.execSupplyValid r s
  | .supplyLoss r => Sys2Proof.Machine.execSupplyLoss r s
  | .aonBrownout => Sys2Proof.Machine.execAonBrownout s
  | .porRelease => Sys2Proof.Machine.execPorRelease s
  | .startComplete currentOk previousOk => Sys2Proof.Machine.execStartComplete currentOk previousOk s
  | .bringupMilestone m => Sys2Proof.Machine.execBringupMilestone m s
  | .coxLockstepFail => Sys2Proof.Machine.execCoxLockstepFail s
  | .domainWakeComplete d => Sys2Proof.Machine.execDomainWakeComplete d s
  | .writeAcknowledged t idx => Sys2Proof.Machine.execWriteAcknowledged t idx s

end Sys2Proof.Machine
end

