-- ==== Sys2Proof/Machine/Tick.lean ====
section
/-! DEFINITION. The passage of time: one cycle of the clock that drives the elapsed count (R466). -/

namespace Sys2Proof.Machine

/-- Half nanoseconds in one cycle of the clock that drives the elapsed count: 2.5 ns on the RC oscillator, 1 ns on the
PLL, 20 ns on the crystal while the PLL is off: in Moored, and in Easy with no clock output running (R466). -/
def State.cycle (s : State) : Nat :=
  if s.time.coarse then 5
  else if s.pwr.state = 3 ∨ (s.pwr.state = 2 ∧ !s.clk.outs.toList.any ClkOut.running) then 40
  else 2

/-- One cycle with no command: only the elapsed count moves, when it runs. -/
def State.tick (s : State) : State :=
  if s.time.running then { s with time := { s.time with half := s.time.half + s.cycle } } else s

end Sys2Proof.Machine
end

