-- ==== Sys2Proof/Safety.lean ====
section
/-! DEFINITION. The terms statements use: a step that stops, a command that is running, a thread that may issue, and the
invariants of the state. -/

namespace Sys2Proof.Machine

/-- A step stopped: it answered a fault or a refusal. -/
def stopped (o : Host.Outcome State Fault Refusal) : Bool :=
  match o with
  | .next _ => false
  | _ => true

/-- `c` is command `k` of queue `q`: dispatched, of the opcode, its deadline not passed, and nothing refuses it before its
opcode's own rules (R11, R60, R63, R145, R208, R504). -/
def State.runs (s : State) (op q k : Nat) (c : Cmd) : Prop :=
  s.cmd q k = some c ∧ c.phase = .ready ∧ c.opcode = op ∧ s.gate c = none ∧ s.isLate c = false

/-- The state in which a command has completed with a status, a DETAIL and a RESULT (R58, R60). -/
def State.completed (s : State) (c : Cmd) (status detail result : Nat) : State := s.finishUid c.uid true status detail result

/-- The memory is in its canonical form. -/
def State.memoryOk (s : State) : Prop := s.mem.wf = true

end Sys2Proof.Machine
end

