-- ==== Sys2Proof/WellFormed.lean ====
section
/-! DEFINITION. Which terms of `Instr` name something the TZ8 has: each operand below the number of things it counts. -/

namespace Sys2Proof

/-- Each bounded operand of a command or event, with the number it must be below: channels, queues, tiles, threads,
register numbers, slots, semaphores, contexts, ports, units and domains as R6, R25, R112, R129, R208, R267, R296, R380
and R428 count them. -/
def Instr.limits : Instr → List (Nat × Nat)
  | .hostRead ch a _ _ => [(ch, 2), (a.row, 65536), (a.col, 1024)]
  | .evLostRead ch => [(ch, 2)]
  | .hostWrite ch a _ _ link => [(ch, 2), (a.row, 65536), (a.col, 1024), (link, 3)]
  | .modeRegisterWrite ch mr v => [(ch, 2), (mr, 256), (v, 256)]
  | .modeRegisterRead ch mr => [(ch, 2), (mr, 256)]
  | .linkTraining ch kind _ => [(ch, 2), (kind, 5)]
  | .zqCalibration ch => [(ch, 2)]
  | .postPackageRepair ch => [(ch, 2)]
  | .refresh ch _ => [(ch, 2)]
  | .powerDownEntry ch => [(ch, 2)]
  | .powerDownExit ch => [(ch, 2)]
  | .selfRefreshEntry ch _ => [(ch, 2)]
  | .selfRefreshExit ch => [(ch, 2)]
  | .deepSleepEntry ch => [(ch, 2)]
  | .deepSleepExit ch => [(ch, 2)]
  | .resetNAssert => []
  | .resetNRelease => []
  | .sqTailWrite q v => [(q, 128), (v, 4294967296)]
  | .rqHeadWrite q v => [(q, 128), (v, 4294967296)]
  | .evHeadWrite ch v => [(ch, 2), (v, 4294967296)]
  | .commandRead _ => []
  | .commandDispatch q => [(q, 128)]
  | .commandComplete q => [(q, 128)]
  | .deadlinePassed q _ => [(q, 128)]
  | .sysPing q _ => [(q, 128)]
  | .sysRegRead q _ => [(q, 128)]
  | .sysRegWrite q _ => [(q, 128)]
  | .registerWrite _ _ _ => []
  | .tileArithStatusWrite t _ _ => [(t, 128)]
  | .loopSatClear l _ _ => [(l, 128)]
  | .capLimitWrite _ _ => []
  | .capSagWrite _ _ => []
  | .tierPoolWrite _ _ _ => []
  | .fuseSRingWrite i _ _ => [(i, 36)]
  | .safeVerdictWrite _ _ => []
  | .sysStatus q _ => [(q, 128)]
  | .sysCounterRead q _ => [(q, 128)]
  | .sysEventMask q _ => [(q, 128)]
  | .sysQueueSync q _ => [(q, 128)]
  | .memPull q _ _ => [(q, 128)]
  | .memPush q _ _ => [(q, 128)]
  | .memCopy q _ _ => [(q, 128)]
  | .memFill q _ => [(q, 128)]
  | .memMode q _ => [(q, 128)]
  | .memScrub q _ => [(q, 128)]
  | .memSpillarea q _ => [(q, 128)]
  | .modelLoad q _ => [(q, 128)]
  | .modelEvict q _ => [(q, 128)]
  | .modelPin q _ => [(q, 128)]
  | .modelSwap q _ => [(q, 128)]
  | .modelSwapEffect _ => []
  | .modelTier q _ => [(q, 128)]
  | .modelInfo q _ => [(q, 128)]
  | .jobSubmit q _ => [(q, 128)]
  | .jobCancel q _ => [(q, 128)]
  | .schedClient q _ => [(q, 128)]
  | .schedStats q _ => [(q, 128)]
  | .semAlloc q _ => [(q, 128)]
  | .semFree q _ => [(q, 128)]
  | .ctxOpen q _ => [(q, 128)]
  | .ctxClose q _ => [(q, 128)]
  | .kvAppend q _ => [(q, 128)]
  | .kvTrim q _ => [(q, 128)]
  | .kvMove q _ => [(q, 128)]
  | .kvFetch q _ => [(q, 128)]
  | .kvStats q _ => [(q, 128)]
  | .planLattice q _ => [(q, 128)]
  | .planMap q _ => [(q, 128)]
  | .planQuery q _ => [(q, 128)]
  | .planCancel q _ => [(q, 128)]
  | .planSearchEnd u _ => [(u, 4)]
  | .fuseStream q _ => [(q, 128)]
  | .fuseXform q _ => [(q, 128)]
  | .fuseLink q _ => [(q, 128)]
  | .fuseTracks q _ => [(q, 128)]
  | .fuseOut q _ => [(q, 128)]
  | .fuseEnable q _ => [(q, 128)]
  | .strokeChain q _ => [(q, 128)]
  | .strokeLoop q _ => [(q, 128)]
  | .strokeProfile q _ => [(q, 128)]
  | .strokeLimit q _ => [(q, 128)]
  | .strokeTarget q _ => [(q, 128)]
  | .strokeEnable q _ => [(q, 128)]
  | .strokeTune q _ => [(q, 128)]
  | .strokeFf q _ => [(q, 128)]
  | .safeJob q _ => [(q, 128)]
  | .safeFrozen q _ => [(q, 128)]
  | .safeSelftest q _ => [(q, 128)]
  | .pwrCap q _ => [(q, 128)]
  | .pwrSag q _ => [(q, 128)]
  | .pwrHint q _ => [(q, 128)]
  | .pwrState q _ => [(q, 128)]
  | .pwrLock q _ => [(q, 128)]
  | .clkSource q _ => [(q, 128)]
  | .clkOut q _ => [(q, 128)]
  | .netPort q _ => [(q, 128)]
  | .netVlan q _ => [(q, 128)]
  | .netShaper q _ => [(q, 128)]
  | .netFilter q _ => [(q, 128)]
  | .netTemplate q _ => [(q, 128)]
  | .netKey q _ => [(q, 128)]
  | .faultStatus q _ => [(q, 128)]
  | .faultRetire q _ => [(q, 128)]
  | .faultProbe q _ => [(q, 128)]
  | .faultBucket q _ => [(q, 128)]
  | .fwStage q _ => [(q, 128)]
  | .fwHandover q _ => [(q, 128)]
  | .startImageSlotWrite => []
  | .standbyReloaded _ => []
  | .secKey q _ => [(q, 128)]
  | .secVerify q _ => [(q, 128)]
  | .aluReg t th mod rd ra rb => [(t, 128), (th, 128), (mod, 64), (rd, 32), (ra, 32), (rb, 32)]
  | .aluImm t th mod rd ra imm => [(t, 128), (th, 128), (mod, 64), (rd, 32), (ra, 32), (imm, 4294967296)]
  | .compare t th mod ra rb => [(t, 128), (th, 128), (mod, 64), (ra, 32), (rb, 32)]
  | .branch t th mod imm => [(t, 128), (th, 128), (mod, 64), (imm, 4294967296)]
  | .load t th mod rd ra imm _ => [(t, 128), (th, 128), (mod, 64), (rd, 32), (ra, 32), (imm, 4294967296)]
  | .store t th mod ra rb imm => [(t, 128), (th, 128), (mod, 64), (ra, 32), (rb, 32), (imm, 4294967296)]
  | .atomic t th mod rd ra rb => [(t, 128), (th, 128), (mod, 64), (rd, 32), (ra, 32), (rb, 32)]
  | .vectorLoad t th rd ra imm => [(t, 128), (th, 128), (rd, 32), (ra, 32), (imm, 4294967296)]
  | .vectorStore t th rd ra imm => [(t, 128), (th, 128), (rd, 32), (ra, 32), (imm, 4294967296)]
  | .vectorOp t th mod rd ra rb => [(t, 128), (th, 128), (mod, 64), (rd, 32), (ra, 32), (rb, 32)]
  | .prefixScan t th mod rd ra rb => [(t, 128), (th, 128), (mod, 64), (rd, 32), (ra, 32), (rb, 32)]
  | .arrRun t th ra rb => [(t, 128), (th, 128), (ra, 32), (rb, 32)]
  | .arrConv t th ra rb => [(t, 128), (th, 128), (ra, 32), (rb, 32)]
  | .arrWait t th rb => [(t, 128), (th, 128), (rb, 32)]
  | .arrayReductionDone t a => [(t, 128), (a, 4)]
  | .outputConversionDone t a => [(t, 128), (a, 4)]
  | .sweepRun t th ra => [(t, 128), (th, 128), (ra, 32)]
  | .sweepWait t th => [(t, 128), (th, 128)]
  | .sweepComplete p => [(p, 16)]
  | .kvGraceExpired p _ _ => [(p, 16)]
  | .kvFetchComplete ctx _ _ => [(ctx, 1048576)]
  | .kvSpillDurable ctx _ _ => [(ctx, 1048576)]
  | .xfRun t th ra => [(t, 128), (th, 128), (ra, 32)]
  | .xfWait t th => [(t, 128), (th, 128)]
  | .xfRunComplete e => [(e, 8)]
  | .poolRun t th ra => [(t, 128), (th, 128), (ra, 32)]
  | .poolComplete t => [(t, 128)]
  | .bowStart t th ra rb => [(t, 128), (th, 128), (ra, 32), (rb, 32)]
  | .bowWait t th rb => [(t, 128), (th, 128), (rb, 32)]
  | .bowDescriptor t e _ => [(t, 128), (e, 2)]
  | .fillComplete t slot => [(t, 128), (slot, 64)]
  | .drainComplete t slot => [(t, 128), (slot, 64)]
  | .bufWait t th rd imm => [(t, 128), (th, 128), (rd, 32), (imm, 4294967296)]
  | .bufPost t th imm => [(t, 128), (th, 128), (imm, 4294967296)]
  | .bufRelease t th imm => [(t, 128), (th, 128), (imm, 4294967296)]
  | .stepDone t th => [(t, 128), (th, 128)]
  | .fenceTile t th => [(t, 128), (th, 128)]
  | .fenceDev t th => [(t, 128), (th, 128)]
  | .flush t th ra rb => [(t, 128), (th, 128), (ra, 32), (rb, 32)]
  | .inval t th ra rb => [(t, 128), (th, 128), (ra, 32), (rb, 32)]
  | .crewBarrier t th => [(t, 128), (th, 128)]
  | .layerLate t th rd imm => [(t, 128), (th, 128), (rd, 32), (imm, 4294967296)]
  | .fetchDeadline t slot => [(t, 128), (slot, 64)]
  | .semAcquire t th rd ra => [(t, 128), (th, 128), (rd, 32), (ra, 32)]
  | .semRelease t th ra => [(t, 128), (th, 128), (ra, 32)]
  | .boostExpired sem => [(sem, 4096)]
  | .threadExit t th => [(t, 128), (th, 128)]
  | .stepEnd ctx => [(ctx, 1048576)]
  | .spillDrainComplete ctx => [(ctx, 1048576)]
  | .spillSaveComplete ctx => [(ctx, 1048576)]
  | .resumeIssue ctx => [(ctx, 1048576)]
  | .teardownComplete ctx => [(ctx, 1048576)]
  | .lineFrameArrival a _ _ _ => [(a, 281474976710656)]
  | .stackRefresh stack => [(stack, 32)]
  | .nvsPageWriteDurable _ => []
  | .nvsPatrol _ _ => []
  | .scrubAccess a _ => [(a, 281474976710656)]
  | .scrubLapAlarm => []
  | .t1CheckSelftest _ => []
  | .rebuildGranuleCopy _ _ => []
  | .nvsRebuildPage _ _ => []
  | .inputSlotReady i => [(i, 36)]
  | .coastedInstant => []
  | .instantClose => []
  | .degradedRecord => []
  | .sampleInstant c => [(c, 4)]
  | .chainFrameReturn c _ => [(c, 4)]
  | .feedbackCutoff c => [(c.chain, 4)]
  | .chainClockLost c => [(c, 4)]
  | .ffCommit c => [(c, 4)]
  | .frameReceive port _ _ => [(port, 16)]
  | .frameTransmit port => [(port, 16)]
  | .portLink port _ => [(port, 16)]
  | .fdbAgeOut i => [(i, 8192)]
  | .checkRecord t a => [(t, 128), (a, 4)]
  | .checkRecordTimeout t a => [(t, 128), (a, 4)]
  | .goldenCompare ctx => [(ctx, 1048576)]
  | .tileTestDone ctx _ => [(ctx, 1048576)]
  | .segmentStart u => [(u, 8)]
  | .segmentEnd u _ => [(u, 8)]
  | .testDeferral u => [(u, 8)]
  | .checkerTestOverdue u => [(u, 8)]
  | .gapHoldElapsed u => [(u, 8)]
  | .internalCheckError ty _ => [(ty, 7)]
  | .probeResult ty _ _ => [(ty, 7)]
  | .probeTimeout ty _ => [(ty, 7)]
  | .pathCompare => []
  | .fenceNotConfirmed ty _ => [(ty, 7)]
  | .dieBridgeSilence => []
  | .dieBridgeRestored _ => []
  | .dieBridgeRetrainTimeout => []
  | .domainGate d => [(d, 97)]
  | .agentAnswer d => [(d, 97)]
  | .agentDelayTimeout d => [(d, 97)]
  | .entryPointReached => []
  | .railsOff => []
  | .timerWake => []
  | .sagRise => []
  | .linkEnergy port => [(port, 16)]
  | .callToken _ => []
  | .easyReturnStage => []
  | .judgeWindow c _ => [(c, 6)]
  | .clockNoEdge c => [(c, 6)]
  | .capControlTick _ _ => []
  | .telemetryLost => []
  | .mismatchTimer => []
  | .agreementTimer => []
  | .unreliableTimer => []
  | .thermalLimit _ => []
  | .temperatureBandChange d _ => [(d, 97)]
  | .hintIntervalBegin i => [(i, 4)]
  | .hintLapse i => [(i, 4)]
  | .ratingSlip d => [(d, 97)]
  | .ratingSlipReport => []
  | .sagWarnFall => []
  | .sagWarnRise => []
  | .sagConfirmed => []
  | .sagResetFall => []
  | .supplyValid r => [(r, 11)]
  | .supplyLoss r => [(r, 11)]
  | .aonBrownout => []
  | .porRelease => []
  | .startComplete _ _ => []
  | .bringupMilestone m => [(m, 5)]
  | .coxLockstepFail => []
  | .domainWakeComplete d => [(d, 97)]
  | .writeAcknowledged t _ => [(t, 128)]

/-- A command or event is well formed: every bounded operand is in its range. -/
def Instr.wf (i : Instr) : Bool := i.limits.all (fun p => decide (p.1 < p.2))

end Sys2Proof
end

