-- ==== Sys2Proof/Certificates/Slice0/Obligations.lean ====
section
/-! DEFINITION. The statements for the provers: what each row of the command table does, what it leaves, and what every step
keeps. -/

section

open Sys2Proof Sys2Proof.Machine

/-! ### The step -/

/-- O1. A step takes the command at the front of the queue and answers what `exec` answers on it with the queue's rest
(the block model's queue; no rule of the spec names it). -/
def Obligations.StepRunsFrontCommand : Prop :=
  ∀ (c : Instr) (rest : List Instr) (s : State),
    step { s with pending := c :: rest } = exec c { s with pending := rest }

/-- O2. With nothing waiting a step is one cycle of the clock that drives the elapsed count, when it runs, and nothing else changes:
2.5 ns on the RC oscillator, 20 ns on the crystal while the PLL is off (in Moored, and in Easy with no clock output running), else
1 ns on the PLL (R466; that an idle step is one such cycle is the model's choice, log entry 2). -/
def Obligations.IdleStepOnlyCounts : Prop :=
  ∀ s : State, s.pending = [] →
    step s = .next { s with time := { s.time with half := s.time.half +
      (if s.time.running = false then 0
        else if s.time.coarse = true then 5
        else if s.pwr.state = 3 ∨ (s.pwr.state = 2 ∧ s.clk.outs.toList.all (fun o => o.running == false) = true) then 40
        else 2) } }

/-- O3. Completing a command sets its phase to its status, DETAIL and RESULT at the present elapsed count and changes
nothing else: no other command, no other queue, no other part of the state (R60). -/
def Obligations.CompletionTouchesOneCommand : Prop :=
  ∀ (s : State) (q k : Nat) (c : Cmd) (st de re : Nat), q < 128 → s.cmd q k = some c → s.findUid c.uid = some (q, k) →
    s.isLate c = false → de < 2 ^ 32 → re < 2 ^ 64 →
      (s.completed c st de re).cmd q k = some { c with phase := .done st de re s.elapsed } ∧
      (∀ q' k', (q', k') ≠ (q, k) → (s.completed c st de re).cmd q' k' = s.cmd q' k') ∧
      (∀ q', { (s.completed c st de re).queue q' with cmds := (s.queue q').cmds } = s.queue q') ∧
      { s.completed c st de re with host := { (s.completed c st de re).host with queues := s.host.queues } } = s

/-! ### The opcodes -/

/-- O4. The system opcodes complete (R56, R66, R68, R73, R443, R475). -/
def Obligations.SystemOpcodesComplete : Prop :=
  (∀ (s : State) (q k : Nat) (c : Cmd), s.runs 0x0101 q k c →
    exec (.sysPing q k) s = .next (s.completed c 0 0 (c.p 0 8))) ∧
  (∀ (s t : State) (q k v : Nat) (c : Cmd), s.runs 0x0102 q k c → s.reg (c.p 0 8) = some (v, t) →
    exec (.sysRegRead q k) s = .next ((t.clearRc (c.p 0 8)).completed c 0 0 v)) ∧
  (∀ (s t : State) (q k v : Nat) (c : Cmd), s.runs 0x0103 q k c → (s.reg (c.p 0 8)).isSome = true →
    (s.writeReg (c.p 0 8) (c.p 8 8) (c.p 16 8)).reg (c.p 0 8) = some (v, t) →
    exec (.sysRegWrite q k) s = .next (t.completed c 0 0 v)) ∧
  (∀ (s : State) (q k : Nat) (c : Cmd), s.runs 0x0104 q k c → c.p 0 2 = 0x0019 → s.destOk (c.p 2 8) 1120 = true →
    exec (.sysStatus q k) s = .next ((s.storeClean (c.p 2 8) voltageTable).completed c 0 0 1120)) ∧
  (∀ (s : State) (q k : Nat) (c : Cmd), s.runs 0x0104 q k c → c.p 0 2 = 0x0007 → s.destOk (c.p 2 8) 4608 = true →
    exec (.sysStatus q k) s = .next ((s.storeClean (c.p 2 8) s.integTable).completed c 0 0 4608)) ∧
  (∀ (s : State) (q k : Nat) (c : Cmd), s.runs 0x0105 q k c → isCounter (c.p 0 4) = true → c.p 4 1 ≤ 1 →
    exec (.sysCounterRead q k) s =
      .next ((if c.p 4 1 = 1 then s.clearCounter (c.p 0 4) else s).completed c 0 0
        ((s.counter (c.p 0 4)).count.toNat + (if (s.counter (c.p 0 4)).sat then 2 ^ 63 else 0)))) ∧
  (∀ (s : State) (q k : Nat) (c : Cmd), s.runs 0x0106 q k c → c.p 0 2 ∈ eventCodes → eventClass (c.p 0 2) < 2 → c.p 2 1 ≤ 1 →
    ∃ t : State, exec (.sysEventMask q k) s = .next (t.completed c 0 0 (if c.p 0 2 ∈ s.host.masked then 0 else 1)) ∧
      { t with host := { t.host with masked := s.host.masked } } = s ∧
      (∀ code, code ∈ t.host.masked ↔ (if code = c.p 0 2 then c.p 2 1 = 0 else code ∈ s.host.masked))) ∧
  (∀ (s : State) (q k : Nat) (c : Cmd), s.runs 0x0107 q k c →
    exec (.sysQueueSync q k) s = .next (s.completed c 0 0 (c.p 0 4)))

/-- O5. A running memory opcode whose parameters pass its checks and whose ranges nothing holds completes or goes on (R149 to R153,
R174, R182, R186): `mem.pull`, `mem.copy` and `mem.fill` store their bytes in T1 at once and reply DONE with the count, begin
page writes in NVS and go on, and reply REFUSED_SAG for NVS while the supply is below the warning level; `mem.push` stores into the
window, and replies POISONED with the count of poisoned words where there are any; `mem.mode` begins unless another covers part of
its range, and a later row of it takes its conversion on; `mem.scrub` sets the limit and the enable and replies the last lap's
time; `mem.spillarea` sets or takes away the spill area while no page has a slot in it. -/
def Obligations.MemoryOpcodesComplete : Prop :=
  (∀ (s : State) (q k : Nat) (ups : List Upset) (c : Cmd) (r : State × List PByte), s.runs 0x0201 q k c → chkMemPull s c = none →
    s.heldRange (c.p 0 8) (c.p 16 4) = false → s.heldRange (c.p 8 8) (c.p 16 4) = false →
    r = s.readWith ups (c.p 0 8) (c.p 16 4) →
    exec (.memPull q k ups) s = .next
      (if isNvs (c.p 8 8) = false then (r.1.storeBytes (c.p 8 8) r.2).completed c 0 0 r.2.length
        else if c.sag = true ∨ r.1.sagging = true then r.1.completed c 0x8009 0 0
        else (r.1.startWrite c.uid (c.p 8 8) r.2).modCmd q k (fun c => { c with phase := .running }))) ∧
  (∀ (s u : State) (q k : Nat) (ups : List Upset) (c : Cmd) (r : State × List PByte), s.runs 0x0202 q k c → chkMemPush s c = none →
    s.heldRange (c.p 0 8) (c.p 16 4) = false → s.heldRange (c.p 8 8) (c.p 16 4) = false →
    r = s.readWith ups (c.p 0 8) (c.p 16 4) → u = r.1.storeBytes (c.p 8 8) r.2 →
    exec (.memPush q k ups) s = .next
      (match poisonedWords (c.p 8 8) (r.2.map some) with
        | [] => u.completed c 0 0 r.2.length
        | w :: l => ((u.bump (integCtr 0x38) (l.length + 1)).raise 0x0202 92 0 w).completed c 0x8006
            (min (l.length + 1) 0xFFFFFFFF) 0)) ∧
  (∀ (s : State) (q k : Nat) (ups : List Upset) (c : Cmd) (r : State × List PByte), s.runs 0x0203 q k c → chkMemCopy s c = none →
    s.heldRange (c.p 0 8) (c.p 16 8) = false → s.heldRange (c.p 8 8) (c.p 16 8) = false →
    r = s.readWith ups (c.p 0 8) (c.p 16 8) →
    exec (.memCopy q k ups) s = .next
      (if isNvs (c.p 8 8) = false then (r.1.storeBytes (c.p 8 8) r.2).completed c 0 0 r.2.length
        else if c.sag = true ∨ r.1.sagging = true then r.1.completed c 0x8009 0 0
        else (r.1.startWrite c.uid (c.p 8 8) r.2).modCmd q k (fun c => { c with phase := .running }))) ∧
  (∀ (s : State) (q k : Nat) (c : Cmd) (b : List PByte), s.runs 0x0204 q k c → chkMemFill s c = none →
    s.heldRange (c.p 0 8) (c.p 8 8) = false →
    b = (List.replicate (c.p 8 8 / 8) ((slice c.params 16 8).map (fun x => PByte.mk x false))).flatten →
    exec (.memFill q k) s = .next
      (if isNvs (c.p 0 8) = false then (s.storeBytes (c.p 0 8) b).completed c 0 0 b.length
        else if c.sag = true ∨ s.sagging = true then s.completed c 0x8009 0 0
        else (s.startWrite c.uid (c.p 0 8) b).modCmd q k (fun c => { c with phase := .running }))) ∧
  (∀ (s : State) (q k : Nat) (c : Cmd), s.runs 0x0205 q k c → chkMemMode s c = none →
    ∃ prev : Nat, exec (.memMode q k) s = .next
      (if s.store.converts.any (fun x => decide (x.base < c.p 0 8 + c.p 8 8 ∧ c.p 0 8 < x.base + x.len)) = true
        then s.completed c 0x8016 0 0
        else State.modCmd { s with store := { s.store with converts :=
          s.store.converts ++ [⟨c.uid, c.p 0 8, c.p 8 8, c.p 16 1, prev, 0⟩] } } q k (fun c => { c with phase := .running })) ∧
      (prev = 1 ↔ ∀ i, i < c.p 8 8 / 2 ^ 24 → (c.p 0 8 - t1Base) / 2 ^ 24 + i ∈ s.store.lineRegions) ∧
      (prev = 0 ↔ ∀ i, i < c.p 8 8 / 2 ^ 24 → (c.p 0 8 - t1Base) / 2 ^ 24 + i ∉ s.store.lineRegions)) ∧
  (∀ (s : State) (q k : Nat) (c : Cmd) (x : Convert), s.cmd q k = some c → c.opcode = 0x0205 → c.phase = .running →
    s.store.converts.find? (fun x => x.uid == c.uid) = some x →
    exec (.memMode q k) s = .next (s.convertStep x)) ∧
  (∀ (s : State) (q k : Nat) (c : Cmd), s.runs 0x0206 q k c → c.p 4 1 ≤ 1 →
    exec (.memScrub q k) s = .next
      (State.completed { s with store := { s.store with limitMs := c.p 0 4, scrubEnable := c.p 4 1 == 1 } } c 0 0 s.store.lapMs)) ∧
  (∀ (s : State) (q k : Nat) (c : Cmd), s.runs 0x0207 q k c → s.boat.slots = [] → c.p 8 8 = 0 →
    exec (.memSpillarea q k) s = .next
      ((State.spillBackground { s with tier := { s.tier with spillBase := 0, spillPages := 0 } }).completed c 0 0 0)) ∧
  (∀ (s : State) (q k : Nat) (c : Cmd), s.runs 0x0207 q k c → s.boat.slots = [] → c.p 8 8 ≠ 0 →
    (c.p 0 8 - nvsBaseAddr) % 16384 = 0 → c.p 8 8 % 16384 = 0 → c.p 8 8 ≤ 2 ^ 39 → isNvs (c.p 0 8) = true →
    s.inNvsPool (c.p 0 8) (c.p 8 8) = true →
    s.boat.nvs.all (fun e => decide ((e.first + e.count) * 4096 ≤ c.p 0 8 - nvsBaseAddr ∨
      c.p 0 8 - nvsBaseAddr + c.p 8 8 ≤ e.first * 4096)) = true →
    exec (.memSpillarea q k) s = .next
      ((State.spillBackground { s with tier := { s.tier with
        spillBase := (c.p 0 8 - nvsBaseAddr) / 16384, spillPages := c.p 8 8 / 16384 } }).completed c 0 0 (c.p 8 8)))

/-- O6. A running model opcode that its rules let pass completes or goes on (R162, R163, R209, R272 to R275): `model.load` of an image
that passes every check takes room for it and begins to write its home copy, or replies why there is none; `model.evict` and
`model.tier` act at once on a model that nothing uses and wait for one that is in use; `model.pin` sets or clears the pin and
replies what it was; `model.swap` of two compatible models begins, and its effect comes once no step of the old model is in use,
or, its deadline past by then, it swaps nothing; `model.info` stores its 64 bytes. -/
def Obligations.ModelOpcodesComplete : Prop :=
  (∀ (s r : State) (q k : Nat) (c : Cmd) (b : List Byte), s.runs 0x0301 q k c → s.imageOk (c.p 0 8) (c.p 8 8) = true →
    c.p 16 1 ≤ 2 → r = s.noteRead (c.p 0 8) (c.p 8 8) → b = vals (r.peek (c.p 0 8) (c.p 8 8)) →
    r.lenOk c = true → (r.peek (c.p 0 8) (c.p 8 8)).any PByte.p = false → imgFault b 1 = none → r.signed b = true →
    contentFault b = none → (c.p 16 1 = 0 → (imgPlacements b).any (fun p => p.hot) = true) → c.sag = false → r.sagging = false →
    exec (.modelLoad q k) s = .next
      (match r.loadImage c.uid b (c.p 16 1) with
        | (s', .going) => s'.modCmd q k (fun c => { c with phase := .running })
        | (s', .reply st de re) => s'.completed c st de re)) ∧
  (∀ (s : State) (q k : Nat) (c : Cmd) (m : Model), s.runs 0x0302 q k c → s.model (c.p 0 4) = some m → m.pinned = false →
    exec (.modelEvict q k) s = .next
      (if s.modelBusy (c.p 0 4) m = false then (s.evictNow (c.p 0 4)).completed c 0 0 0
        else (s.modModel (c.p 0 4) (fun m => { m with waits := m.waits ++ [(some c.uid, 3)] })).modCmd q k
          (fun c => { c with phase := .running }))) ∧
  (∀ (s : State) (q k : Nat) (c : Cmd) (m : Model), s.runs 0x0303 q k c → s.model (c.p 0 4) = some m → c.p 4 1 ≤ 1 →
    exec (.modelPin q k) s = .next
      (((s.setPin (c.p 0 4) (c.p 4 1 == 1)).spillBackground).completed c 0 0 (if m.pinned then 1 else 0))) ∧
  (∀ (s : State) (q k old new : Nat) (c : Cmd) (a b : Model), s.runs 0x0304 q k c → old = s.modelId (c.p 0 4) →
    new = s.modelId (c.p 4 4) → s.model old = some a → s.model new = some b → old ≠ new → a.compatible b = true →
    (∀ p ∈ s.boat.models, ∀ h, p.2.swapTo = some h → p.1 ≠ old ∧ p.1 ≠ new ∧ h ≠ old ∧ h ≠ new) →
    exec (.modelSwap q k) s = .next
      ((s.modModel old (fun m => { m with swapTo := some new, swapUid := c.uid })).modCmd q k
        (fun c => { c with phase := .running }))) ∧
  (∀ (s u : State) (old new : Nat) (a b : Model), s.model old = some a → a.swapTo = some new → a.inUse = 0 → s.model new = some b →
    u = (s.modModel old (fun m => { m with swapTo := none })).finishUid a.swapUid false 0x8005 0 0 →
    exec (.modelSwapEffect old) s = .next
      (if s.lateUid a.swapUid = false then s.swapNow (s.modelId old) new a b
        else ((u.modelIdle old 64).modelIdle new 64).schedule)) ∧
  (∀ (s : State) (q k : Nat) (c : Cmd) (m : Model), s.runs 0x0305 q k c → s.model (c.p 0 4) = some m → c.p 4 1 ≤ 2 →
    (c.p 4 1 = 0 → m.hotPlacement.isSome = true) → (m.pinned = true → c.p 4 1 ≤ m.state.tier) →
    exec (.modelTier q k) s = .next
      (if m.state.tier = c.p 4 1 then s.completed c 0 0 (c.p 4 1)
        else if s.modelBusy (c.p 0 4) m = true then
          (s.modModel (c.p 0 4) (fun m => { m with waits := m.waits ++ [(some c.uid, c.p 4 1)] })).modCmd q k
            (fun c => { c with phase := .running })
        else ((s.tierNow (c.p 0 4) (c.p 4 1)).1.schedule).completed c (s.tierNow (c.p 0 4) (c.p 4 1)).2 0 (c.p 4 1))) ∧
  (∀ (s : State) (q k : Nat) (c : Cmd) (m : Model), s.runs 0x0306 q k c → s.model (c.p 0 4) = some m → s.destOk (c.p 4 8) 64 = true →
    exec (.modelInfo q k) s = .next ((s.storeClean (c.p 4 8) (m.info (c.p 0 4))).completed c 0 0 64))

/-- O7. A running job, client or semaphore opcode that its rules let pass completes or goes on (R276, R279, R281, R296, R305):
`job.submit` enters its job, ready at once when its context has no other; `job.cancel` marks the job, and ends it at once when it is
ready or spilled; `sched.client` registers a client or gives it a new class and weight, its accounts kept; `sched.stats` stores a
record for each client it names and, when asked, clears their accounts; `sem.alloc` takes the lowest run that is free, and
`sem.free` frees a client's own semaphores that none holds or waits for. -/
def Obligations.JobOpcodesComplete : Prop :=
  (∀ (s u : State) (q k id : Nat) (c : Cmd) (x : Ctx) (m : Model), s.runs 0x0401 q k c → chkJobSubmit s c = none → c.ctx = some id →
    s.ctx id = some x → s.model (c.p 0 4) = some m → s.jobRefusal c x m = none → s.tablesBad id = false →
    u = { s with sched := { s.sched with jobs := s.sched.jobs ++ [jobOfCmd c s id] } } →
    exec (.jobSubmit q k) s = .next
      (((if (s.jobOf id).isNone = true then u.makeReady c.uid else u).schedule).modCmd q k (fun c => { c with phase := .running }))) ∧
  (∀ (s s1 u : State) (q k id : Nat) (c : Cmd) (x : Ctx) (j : Job), s.runs 0x0402 q k c → c.ctx = some id → s.ctx id = some x →
    s.jobOf id = some j → x.torn = false → (∀ cause, j.state ≠ .tearing cause) →
    s1 = s.modJob j.uid (fun j => { j with cancelled := true, detailHi := j.detailHi ||| 1 }) →
    u = (if j.state = .spilled ∨ j.counted = true then ((s1.undefineOut j).dropStep j).leaveStep j.ctx else s1.dropStep j) →
    exec (.jobCancel q k) s = .next
      (State.completed
        (if j.state = .spilled ∨ j.state = .ready then
          (match u.job j.uid with | some i => (u.finishJob i false).schedule | none => u) else s1) c 0 0 j.ended)) ∧
  (∀ (s : State) (q k : Nat) (c : Cmd) (x : Client), s.runs 0x0403 q k c → c.p 0 1 ≤ 4 → c.p 1 2 ≠ 0 →
    x = (match s.client c.client with
      | some y => { y with cls := c.p 0 1, weight := c.p 1 2 }
      | none => Client.reset (c.p 0 1) (c.p 1 2)) →
    exec (.schedClient q k) s = .next
      ((State.schedule { s with sched := { s.sched with clients := aset s.sched.clients c.client x } }).completed c 0 0 0)) ∧
  (∀ (s u : State) (q k : Nat) (c : Cmd) (b : List Byte), s.runs 0x0404 q k c → s.statsOf c ≠ [] →
    s.destOk (c.p 2 8) (208 * (s.statsOf c).length) = true → c.p 10 1 ≤ 1 →
    b = ((s.statsOf c).map (fun p => p.2.bytes p.1)).flatten → u = s.storeClean (c.p 2 8) b →
    exec (.schedStats q k) s = .next
      ((if c.p 10 1 = 1 then (s.statsOf c).foldl (fun w p => w.modClient p.1 (fun y =>
          { Client.reset y.cls y.weight with vt := y.vt, readies := y.readies, readySafe := y.readySafe })) u else u).completed c 0 0
        b.length)) ∧
  (∀ (s : State) (q k n : Nat) (c : Cmd) (e : Ext), s.runs 0x0405 q k c → n = c.p 0 2 → 1 ≤ n → n ≤ 4096 →
    (gaps (s.sched.sems.map (fun p => ⟨p.1, 1⟩)) 0 4096).find? (fun e => decide (n ≤ e.count)) = some e →
    exec (.semAlloc q k) s = .next
      (State.completed
        { s with sched := { s.sched with sems := (List.range n).foldl (fun l i => aset l (e.first + i) ⟨c.client, 1, none, []⟩) s.sched.sems } } c 0 0 e.first)) ∧
  (∀ (s : State) (q k : Nat) (c : Cmd), s.runs 0x0406 q k c → c.p 4 2 ≠ 0 → c.p 0 4 + c.p 4 2 ≤ 4096 →
    (∀ i, c.p 0 4 ≤ i → i < c.p 0 4 + c.p 4 2 → ∃ x, s.sem i = some x ∧ x.client = c.client ∧ x.holder = none ∧ x.waiters = []) →
    exec (.semFree q k) s = .next
      (State.completed
        { s with sched := { s.sched with sems := s.sched.sems.filter (fun p => !decide (c.p 0 4 ≤ p.1 ∧ p.1 < c.p 0 4 + c.p 4 2)) } } c 0 0 0))

/-- O8. A running context or page opcode that its rules let pass completes or goes on (R209, R210, R216, R226, R227, R282): `ctx.open`
enters a context of kind 0, 2 or 4 at the lowest ID that is free; `ctx.close` of one without a step breaks its semaphores, frees
its frames and takes it out; `kv.append` and `kv.trim` change the lists, or wait for the step of their context where R216 says so;
`kv.move` starts what its pages need and waits while any is on its way; `kv.fetch` starts a fetch of each page that can have a
frame and replies how many are readable; `kv.stats` stores its record. -/
def Obligations.ContextOpcodesComplete : Prop :=
  (∀ (s : State) (q k id : Nat) (c : Cmd), s.runs 0x0501 q k c → c.p 0 1 = 4 → c.p 1 4 = 0 → s.freeCtxId = some id →
    exec (.ctxOpen q k) s = .next ((s.putCtx id (Ctx.fresh 4 0 0 false c.client false none)).completed c 0 0 id)) ∧
  (∀ (s : State) (q k id : Nat) (c : Cmd) (m : Model), s.runs 0x0501 q k c → c.p 0 1 = 2 → s.model (c.p 1 4) = some m →
    s.freeCtxId = some id →
    exec (.ctxOpen q k) s = .next
      (((s.ctxSeed m).2.2.putCtx id (Ctx.fresh 2 (s.modelId (c.p 1 4)) (s.ctxSeed m).1 (s.ctxSeed m).2.1 c.client false none)).completed
        c 0 0 id)) ∧
  (∀ (s s1 : State) (q k id f : Nat) (c : Cmd) (m : Model) (z : SeqShape), s.runs 0x0501 q k c → c.p 0 1 = 0 →
    s.model (c.p 1 4) = some m → m.seq = some z → s.sagging = false → s.freeCtxId = some id →
    s.allocFrames (max 1 (ceilDiv (32 * z.scales.length) 16384)) = some (f, s1) →
    exec (.ctxOpen q k) s = .next
      (((s1.ctxSeed m).2.2.putCtx id (Ctx.fresh 0 (s.modelId (c.p 1 4)) (s1.ctxSeed m).1 (s1.ctxSeed m).2.1 c.client m.pinned
        (some (z.empty f)))).completed c 0 0 id)) ∧
  (∀ (s : State) (q k id : Nat) (c : Cmd) (x : Ctx), s.runs 0x0502 q k c → c.ctx = some id → s.ctx id = some x → x.kind ≠ 1 →
    x.kind ≠ 3 → x.step = false → s.namedElsewhere c.uid id = false → (x.torn = true ∨ s.tablesBad id = false) →
    exec (.ctxClose q k) s = .next
      (((((State.breakSems { s with sched := { s.sched with boosts := s.sched.boosts.filter (fun b => b.ctx != id) } } id).freeSeq
        id).dropCtx id).schedule).completed c 0 0 0)) ∧
  (∀ (s : State) (q k id n len w : Nat) (c : Cmd) (z : SeqCtx) (mine : List KvList), s.runs 0x0503 q k c → c.ctx = some id →
    (s.ctx id).bind Ctx.seq = some z → s.tablesBad id = false → n = c.p 12 2 * z.heads → c.p 12 2 ≠ 0 →
    c.p 10 2 + c.p 12 2 ≤ z.layers → s.destOk (c.p 0 8) 1 = true → w = n * c.p 8 2 * 4 * headD z.headDim →
    s.destOk (c.p 0 8) w = true → s.namesWithdrawn (c.p 0 8) w = false →
    mine = (z.lists.drop (c.p 10 2 * z.heads)).take n → len = (match mine with | l :: _ => l.len | [] => 0) →
    (∀ l ∈ mine, l.len = len) →
    exec (.kvAppend q k) s = .next
      (if s.ctxStep id = true ∧ (∃ l ∈ mine, l.len < l.vis) ∧ c.p 8 2 ≠ 0 then
        State.modCmd { s with boat := { s.boat with waits := s.boat.waits ++ [⟨c.uid, id, 0, [], [], []⟩] } } q k
          (fun c => { c with phase := .running })
      else match s.appendAll id (c.p 10 2 * z.heads) n (c.p 8 2) (c.p 0 8) (headD z.headDim) with
        | .ok s1 => (((s1.noteRead (c.p 0 8) w).syncCtx id).spillBackground).completed c 0 0 (len + c.p 8 2)
        | .error e => s.completed c e 0 0)) ∧
  (∀ (s : State) (q k id : Nat) (c : Cmd) (z : SeqCtx), s.runs 0x0504 q k c → c.ctx = some id →
    (s.ctx id).bind Ctx.seq = some z → s.tablesBad id = false →
    z.lists.all (fun l => decide (c.p 0 4 + c.p 4 4 ≤ l.len - l.first)) = true →
    exec (.kvTrim q k) s = .next
      (if s.ctxStep id = true ∧ (∃ l ∈ z.lists, l.len - c.p 4 4 < l.vis ∧ 0 < c.p 4 4 ∧ (l.len - c.p 4 4) % tppOf z.headDim ≠ 0) then
        State.modCmd { s with boat := { s.boat with waits := s.boat.waits ++ [⟨c.uid, id, 0, [], [], []⟩] } } q k
          (fun c => { c with phase := .running })
      else match s.trimAll id z (c.p 0 4) (c.p 4 4) with
        | .ok s1 => (s1.syncCtx id).completed c 0 0 (match s1.kvList id 0 with | some l => l.len - l.first | none => 0)
        | .error e => s.completed c e 0 0)) ∧
  (∀ (s u : State) (q k id : Nat) (c : Cmd) (z : SeqCtx) (w : KvWait) (out flying : List (Nat × Nat)), s.runs 0x0505 q k c →
    c.ctx = some id → c.p 8 1 = 1 → (s.ctx id).bind Ctx.seq = some z → s.tablesBad id = false →
    out = z.rangePages (c.p 0 4) (c.p 4 4) (fun p => p.state == .spilled) →
    flying = z.rangePages (c.p 0 4) (c.p 4 4) (fun p => p.state == .fetching) → s.fetchAll id out = .ok u →
    w = ⟨c.uid, id, 1, out, [], flying⟩ →
    exec (.kvMove q k) s = .next
      (if (u.syncCtx id).kvPending w = true then
        State.modCmd { u.syncCtx id with boat := { (u.syncCtx id).boat with waits := (u.syncCtx id).boat.waits ++ [w] } } q k
          (fun c => { c with phase := .running })
      else (u.syncCtx id).completed c 0 0 out.length)) ∧
  (∀ (s u : State) (q k id : Nat) (c : Cmd) (z : SeqCtx) (w : KvWait) (dirty clean flying : List (Nat × Nat)), s.runs 0x0505 q k c →
    c.ctx = some id → c.p 8 1 = 2 → (s.ctx id).bind Ctx.seq = some z → s.tablesBad id = false → z.headDim < 2 →
    s.tier.spillPages ≠ 0 → s.sagging = false → dirty = z.rangePages (c.p 0 4) (c.p 4 4) (fun p => p.state == .resident) →
    clean = z.rangePages (c.p 0 4) (c.p 4 4) (fun p => p.state == .clean) →
    flying = z.rangePages (c.p 0 4) (c.p 4 4) (fun p => p.state == .spilling && !p.durable) →
    dirty.length ≤ s.tier.spillPages - s.boat.slots.length → w = ⟨c.uid, id, 2, dirty ++ clean, clean, flying⟩ →
    u = (clean.foldl (fun s x => s.leaveT1 id x.1 x.2) (dirty.foldl (fun s x => (s.startSpill id x.1 x.2).getD s) s)).syncCtx id →
    exec (.kvMove q k) s = .next
      (if u.kvPending w = true then
        State.modCmd { u with boat := { u.boat with waits := u.boat.waits ++ [w] } } q k (fun c => { c with phase := .running })
      else u.completed c 0 0 (dirty ++ clean).length)) ∧
  (∀ (s s1 : State) (q k id : Nat) (c : Cmd) (z : SeqCtx), s.runs 0x0506 q k c → c.ctx = some id →
    (s.ctx id).bind Ctx.seq = some z → s.tablesBad id = false →
    s1 = ((z.rangePages (c.p 0 4) (c.p 4 4) (fun p => p.state == .spilled)).foldl State.tryFetch (s, id)).1.syncCtx id →
    exec (.kvFetch q k) s = .next (s1.completed c 0 0
      (match (s1.ctx id).bind Ctx.seq with
        | some z => (z.rangePages (c.p 0 4) (c.p 4 4) (fun p => p.state.readable)).length
        | none => 0))) ∧
  (∀ (s : State) (q k id : Nat) (c : Cmd) (x : Ctx) (z : SeqCtx), s.runs 0x0507 q k c → c.ctx = some id → s.ctx id = some x →
    x.seq = some z → (x.torn = true ∨ s.tablesBad id = false) → s.destOk (c.p 0 8) 64 = true →
    s.destOk (c.p 0 8) z.stats.length = true →
    exec (.kvStats q k) s = .next ((s.storeClean (c.p 0 8) z.stats).completed c 0 0 z.stats.length))

/-- O9. A running planner opcode that its rules let pass completes or goes on, and so does the end of a search (R308 to R312, R314 to
R322): `plan.lattice` removes a lattice no query uses when it names no primitives, and registers its table under the handle it has
or else the lowest free one; `plan.map` installs a newer map and refuses one that is not newer; `plan.query` joins the queue, and a
unit takes what it can; `plan.cancel` ends a waiting query and marks a running one; PLAN_SEARCH_END ends its unit's search or re-check,
and a search without deadline or cancel ends with the best partial path on an empty queue, or begins its re-check on a goal. -/
def Obligations.PlannerOpcodesComplete : Prop :=
  (∀ (s : State) (q k : Nat) (c : Cmd) (x : Lattice), s.runs 0x0601 q k c → c.p 8 2 = 0 →
    s.plan.lattices.find? (fun x => x.addr == c.p 0 8) = some x → s.queries.any (fun q => q.lattice == x.handle) = false →
    exec (.planLattice q k) s = .next
      (State.completed { s with plan := { s.plan with lattices := s.plan.lattices.filter (fun y => y.handle != x.handle) } } c 0 0
        x.handle)) ∧
  (∀ (s : State) (q k h : Nat) (c : Cmd), s.runs 0x0601 q k c → 1 ≤ c.p 8 2 → c.p 8 2 ≤ 4096 → 1 ≤ c.p 10 1 → c.p 10 1 ≤ 6 →
    some h = (match s.plan.lattices.find? (fun x => x.addr == c.p 0 8) with
      | some x => if s.queries.any (fun q => q.lattice == x.handle) = true then none else some x.handle
      | none => lowestFree (s.plan.lattices.map Lattice.handle) 0 16) →
    exec (.planLattice q k) s = .next
      (match s.registerLattice (c.p 0 8) (c.p 8 2) (c.p 10 1) h with
        | (s', .reply st de re) => s'.completed c st de re
        | (s', .going) => s'.modCmd q k (fun c => { c with phase := .running }))) ∧
  (∀ (s : State) (q k : Nat) (c : Cmd), s.runs 0x0602 q k c → c.p 0 8 % 64 = 0 → 1 ≤ c.p 8 2 → c.p 8 2 ≤ 1024 →
    s.inT1Host (c.p 0 8) (mapBytes (c.p 8 2)) = true → s.namesWithdrawn (c.p 0 8) (mapBytes (c.p 8 2)) = false →
    exec (.planMap q k) s = .next
      (if c.p 10 4 ≤ s.plan.version then s.completed c 0x8016 s.plan.version 0
        else State.completed { s with plan := { s.plan with
          version := c.p 10 4, edge := c.p 8 2, base := c.p 0 8, current := true } } c 0 0 (c.p 10 4))) ∧
  (∀ (s r u : State) (q k id : Nat) (c : Cmd) (x : Ctx) (t : Lattice) (l : LatTab) (n : PlanQuery), s.runs 0x0603 q k c →
    c.ctx = some id → s.ctx id = some x → x.kind = 4 → chkPlanQuery s c = none → s.tablesBad id = false →
    s.lattice (c.p 0 2) = some t → r = s.noteRead t.addr 64 → (r.latHead t).any PByte.p = false →
    l = parseLat (vals (r.latHead t)) 0 → r.namesWithdrawn (c.p 30 8) (planRange l) = false → r.plan.current = true →
    r.queries.any (fun q => q.ctx == id) = false → r.notRetired 3 ≠ 0 →
    (c.p 38 1 = 0xFF ∨ (r.retired 3 (c.p 38 1) = false ∧ r.quarantined 3 (c.p 38 1) = false)) →
    n = { uid := c.uid, ctx := id, client := c.client, lattice := c.p 0 2, start := six c.params 2, goal := six c.params 14,
          weight := c.p 26 4, out := c.p 30 8, unit := c.p 38 1, deadline := c.deadline, noDegrade := c.noDegrade, urgent := false,
          version := 0, base := 0, edge := 0, researches := 0, counts := PlanCounts.zero, takenAt := 0, searchAt := 0, cancels := [],
          check := none } →
    u = r.modPlanCtx id (fun p => { p with lattice := c.p 0 2, state := 1 }) →
    exec (.planQuery q k) s = .next
      ((State.planPlace { u with plan := { u.plan with queue := u.plan.queue ++ [n] } }).modCmd q k
        (fun c => { c with phase := .running }))) ∧
  (∀ (s : State) (q k id : Nat) (c : Cmd) (x : Ctx), s.runs 0x0604 q k c → c.ctx = some id → s.ctx id = some x → x.kind = 4 →
    s.tablesBad id = false → s.queries.any (fun q => q.ctx == id) = true →
    exec (.planCancel q k) s = .next
      (match s.plan.queue.find? (fun q => q.ctx == id) with
        | some n => (s.endWaiting n true).completed c 0 0 0
        | none => State.modCmd { s with plan := { s.plan with units := s.plan.units.map (fun o => o.map (fun q =>
            if q.ctx = id then { q with cancels := q.cancels ++ [c.uid] } else q)) } } q k (fun c => { c with phase := .running }))) ∧
  (∀ (s : State) (u cut : Nat) (q : PlanQuery) (x : Lattice) (j : PlanJob), vget none s.plan.units u = some q →
    s.lattice q.lattice = some x → s.usable 3 u = true → s.domOn (72 + u) = true →
    s.heldRange x.addr (s.latTable x).length = false → (s.latHead x).any PByte.p = false →
    j = ⟨parseLat (vals (s.latTable x)) x.prims, x.addr, s.latTable x, q.goal, q.weight, q.base, q.edge⟩ →
    exec (.planSearchEnd u cut) s = .next
      (match q.check with | none => s.endSearch u cut q j | some c => s.endCheck u q j c)) ∧
  (∀ (s : State) (u cut : Nat) (q : PlanQuery) (j : PlanJob) (r : Search) (e : SearchEnd), q.deadline = none → q.cancels = [] →
    s.runSearch j q.start q.counts none = (r, e) → r.lines.any (fun a => s.heldRange (a * 64) 64) = false →
    s.heldRange q.out (planRange j.lat) = false →
    (e = .empty → s.endSearch u cut q j = s.closeQuery q r (r.endBest 0x800A q.version) false) ∧
    (∀ n, e = .selected n → s.endSearch u cut q j = s.beginCheck u q r n) ∧
    (e = .poisoned → s.endSearch u cut q j = s.poisonQuery q r))

/-- O10. A running fusion opcode whose parameters pass its checks completes while the fusion unit is neither retired nor quarantined,
and, but for `fuse.xform` and `fuse.enable`, while fusion is off (R327, R328, R334, R336, R346, R349, R351): `fuse.stream`
configures its stream afresh or takes it away, `fuse.xform` writes its table entry, `fuse.link` names a stream's moving link,
`fuse.tracks` sets the track rules, `fuse.out` sets an empty output ring, and `fuse.enable` stops fusion, starts it where nothing
of R328 offends, or leaves it as it is. -/
def Obligations.FusionOpcodesComplete : Prop :=
  (∀ (s : State) (q k : Nat) (c : Cmd) (x y : Stream), s.runs 0x0701 q k c → chkFuseStream s c = none → s.retired 6 0 = false →
    s.quarantined 6 0 = false → s.fuse.enabled = false → x = s.stream (c.p 0 1) →
    y = { Stream.reset with ringBase := x.ringBase, ringLog2 := x.ringLog2, next := x.next, latencyUs := x.latencyUs } →
    exec (.fuseStream q k) s = .next
      ((s.modStream (c.p 0 1) (fun _ => if c.p 1 1 = 0xFF then y else { y with
        configured := true, kind := c.p 1 1, port := c.p 2 1, transform := c.p 3 1, periodUs := c.p 4 4
        lead := bit (c.p 8 1) 0 == 1, critical := bit (c.p 8 1) 1 == 1 })).completed c 0 0 0)) ∧
  (∀ (s : State) (q k : Nat) (c : Cmd), s.runs 0x0702 q k c → (c.quat.norm2 - 2 ^ 60).natAbs ≤ 2 ^ 40 → s.retired 6 0 = false →
    s.quarantined 6 0 = false →
    exec (.fuseXform q k) s = .next
      (State.completed { s with fuse := { s.fuse with xforms := vset s.fuse.xforms (c.p 0 1) ⟨c.quat, c.v3 17⟩ } } c 0 0 0)) ∧
  (∀ (s : State) (q k : Nat) (c : Cmd), s.runs 0x0703 q k c → (s.stream (c.p 0 1)).moving = true → c.p 1 1 ≤ 3 → c.p 2 1 ≤ 31 →
    c.p 3 4 ≤ 100000 → s.retired 6 0 = false → s.quarantined 6 0 = false → s.fuse.enabled = false →
    exec (.fuseLink q k) s = .next
      ((s.modStream (c.p 0 1) (fun x => { x with link := some (c.p 1 1, c.p 2 1, c.p 3 4), delta := V3.zero, atBound := 0, offBound := 0, boundLie := false })).completed
        c 0 0 0)) ∧
  (∀ (s : State) (q k : Nat) (c : Cmd), s.runs 0x0704 q k c → 1 ≤ c.p 0 1 → c.p 0 1 ≤ c.p 1 1 → c.p 1 1 ≤ 16 → 1 ≤ c.p 2 1 → 1 ≤ c.p 3 4 →
    c.p 3 4 ≤ 3600000 → c.p 7 1 ≤ 1 → s.retired 6 0 = false → s.quarantined 6 0 = false → s.fuse.enabled = false →
    exec (.fuseTracks q k) s = .next
      (State.completed { s with fuse :=
        { s.fuse with m := c.p 0 1, n := c.p 1 1, k := c.p 2 1, maxAgeMs := c.p 3 4, carryLate := c.p 7 1 == 1 } } c 0 0 0)) ∧
  (∀ (s : State) (q k : Nat) (c : Cmd), s.runs 0x0705 q k c → c.p 0 8 % 64 = 0 → 16 ≤ c.p 8 4 → c.p 8 4 ≤ 16777216 →
    s.destOk (c.p 0 8) (64 + 64 * c.p 8 4) = true → s.namesWithdrawn (c.p 0 8) (64 + 64 * c.p 8 4) = false → s.retired 6 0 = false →
    s.quarantined 6 0 = false → s.fuse.enabled = false →
    exec (.fuseOut q k) s = .next
      (((s.storeClean (c.p 0 8) [0, 0, 0, 0]).modFuse (fun x => { x with outAddr := c.p 0 8, outSlots := c.p 8 4, tail := 0 })).completed
        c 0 0 0)) ∧
  (∀ (s : State) (q k : Nat) (c : Cmd), s.runs 0x0706 q k c → s.retired 6 0 = false → s.quarantined 6 0 = false → c.p 0 1 ≤ 1 →
    exec (.fuseEnable q k) s = .next
      (if c.p 0 1 = (if s.fuse.enabled then 1 else 0) then s.completed c 0 0 (c.p 0 1)
        else if c.p 0 1 = 0 then ((s.fuseStop.modFuse (fun f => { f with degraded := false })).touch 76).completed c 0 0 1
        else match s.fuseOffender with
          | some d => s.completed c 0x8016 d 0
          | none => ((s.modFuse FuseSt.begin).wakeDomain 76).completed c 0 0 0))

/-- O11. A running stroke opcode whose parameters pass its checks completes or goes on (R353, R354, R364, R366, R368 to R372, R374,
R375, R378): `stroke.chain` sets, or with no joints stops, a chain all of whose loops are OFF; `stroke.loop` sets the sections of a
loop that is OFF; `stroke.profile`, `stroke.limit`, `stroke.target` of a loop in RUN and `stroke.enable` of a loop that is ready are
staged; `stroke.tune` of a loop in RUN is staged and goes on; `stroke.ff` sets the decay. -/
def Obligations.StrokeOpcodesComplete : Prop :=
  (∀ (s : State) (q k : Nat) (c : Cmd), s.runs 0x0801 q k c → c.p 0 1 ≤ 3 → c.p 1 1 ≤ 5 → c.p 2 1 ≤ 32 →
    badEtherType (c.p 3 2) = false → c.p 5 1 ≤ 3 → (∀ j, j < 32 → (s.loop (32 * c.p 0 1 + j)).state = .off) →
    ∃ t : State, exec (.strokeChain q k) s = .next (t.completed c 0 0 0) ∧
      (t.chain (c.p 0 1)).rate = c.p 1 1 ∧ (t.chain (c.p 0 1)).joints = c.p 2 1 ∧ (t.chain (c.p 0 1)).etherType = c.p 3 2 ∧
      ((t.chain (c.p 0 1)).running = true ↔ 0 < c.p 2 1) ∧ (t.chain (c.p 0 1)).clock = (if c.p 2 1 = 0 then 2 else 0) ∧
      (0 < c.p 2 1 → (t.chain (c.p 0 1)).configured = true ∧ (t.chain (c.p 0 1)).begun = false ∧ (t.chain (c.p 0 1)).first =
        (if (s.chain (c.p 0 1)).begun = true then ((s.chain (c.p 0 1)).cycle + 1) % 2 ^ 64 else (s.chain (c.p 0 1)).first)) ∧
      (t.chain (c.p 0 1)).cycle = (s.chain (c.p 0 1)).cycle ∧
      ((t.chain (c.p 0 1)).allow = true ↔ bit (c.p 5 1) 0 = 1) ∧ ((t.chain (c.p 0 1)).ret = true ↔ bit (c.p 5 1) 1 = 1)) ∧
  (∀ (s : State) (q k : Nat) (c : Cmd), s.runs 0x0802 q k c → chkStrokeLoop s c = none → (s.loop (c.p 0 1)).state = .off →
    ∃ secs : List Section, exec (.strokeLoop q k) s = .next
        ((s.modLoop (c.p 0 1) (fun y => { y with sections := secs, forms := c.p 2 1, satOut := false })).completed c 0 0 0) ∧
      secs.length = c.p 1 1 ∧
      ∀ i, i < c.p 1 1 → ∃ z, secs[i]? = some z ∧ z.x1 = 0 ∧ z.x2 = 0 ∧ z.x3 = 0 ∧ z.y1 = 0 ∧ z.y2 = 0 ∧ z.y3 = 0 ∧
        z.coefs = (List.range 7).map (fun j => sext 32 (c.p (secOff i + 4 * j) 4)) ∧
        z.shifts = (List.range 7).map (fun j => c.p (secOff i + 28 + j) 1)) ∧
  (∀ (s : State) (q k : Nat) (c : Cmd), s.runs 0x0803 q k c → c.p 0 1 ≤ 127 → c.p 1 4 ≠ 0 → c.p 5 4 ≠ 0 → c.p 9 4 ≠ 0 →
    exec (.strokeProfile q k) s = .next
      (((s.modLoop (c.p 0 1) (fun y => { y with profiled := true })).stage (c.p 0 1) (.profile (c.p 1 4) (c.p 5 4) (c.p 9 4))).completed
        c 0 0 0)) ∧
  (∀ (s : State) (q k : Nat) (c : Cmd), s.runs 0x0804 q k c → c.p 0 1 ≤ 127 → c.p 9 1 ≤ 2 →
    exec (.strokeLimit q k) s = .next ((s.stage (c.p 0 1) (.limit (c.p 1 4) (c.p 5 4) (c.p 9 1))).completed c 0 0 0)) ∧
  (∀ (s : State) (q k : Nat) (c : Cmd), s.runs 0x0805 q k c → c.p 0 1 ≤ 127 → (s.loop (c.p 0 1)).state = .run →
    exec (.strokeTarget q k) s = .next ((s.stage (c.p 0 1) (.target (c.p 1 4))).completed c 0 0 0)) ∧
  (∀ (s : State) (q k : Nat) (c : Cmd), s.runs 0x0806 q k c → c.p 0 1 ≤ 127 → c.p 1 1 ≤ 1 →
    (c.p 1 1 = 1 → (s.chain (c.p 0 1 / 32)).running = true ∧ c.p 0 1 % 32 < (s.chain (c.p 0 1 / 32)).joints ∧
      (s.loop (c.p 0 1)).sections ≠ [] ∧ (s.loop (c.p 0 1)).profiled = true) →
    exec (.strokeEnable q k) s = .next
      ((s.stage (c.p 0 1) (.enable (c.p 1 1 == 1))).completed c 0 0 (if (s.loop (c.p 0 1)).state = .off then 0 else 1))) ∧
  (∀ (s : State) (q k : Nat) (c : Cmd), s.runs 0x0807 q k c → chkStrokeTune s c = none → (s.loop (c.p 0 1)).state = .run →
    (s.loop (c.p 0 1)).tune = none →
    exec (.strokeTune q k) s = .next
      ((s.stage (c.p 0 1) (.tune c.uid (c.p 1 4) (c.p 5 4) (c.p 9 1) (c.p 10 8))).modCmd q k (fun c => { c with phase := .running }))) ∧
  (∀ (s : State) (q k : Nat) (c : Cmd), s.runs 0x0808 q k c → c.p 0 1 ≤ 3 →
    exec (.strokeFf q k) s = .next ((s.modChain (c.p 0 1) (fun x => { x with decay := c.p 1 2 })).completed c 0 0 0))

/-- O12. A running safety opcode that its rules let pass completes (R402, R407, R408, R419, R420): `safe.job` with both addresses 0 takes
the mark of a pinned, idle model away, and with a sound pair of ranges copies them into frames and marks the model, or replies
NO_RESOURCE where the frames cannot be had; `safe.frozen` sets a port's detector, its hashes forgotten when it is enabled, and
replies the former setting; `safe.selftest` stores the 128 bytes of the umpires' entries. -/
def Obligations.SafetyOpcodesComplete : Prop :=
  (∀ (s : State) (q k : Nat) (c : Cmd) (m : Model), s.runs 0x0901 q k c → s.model (c.p 0 4) = some m → m.pinned = true → m.inUse = 0 →
    c.p 4 8 = 0 → c.p 12 8 = 0 →
    exec (.safeJob q k) s = .next ((s.unmark (c.p 0 4)).completed c 0 0 0)) ∧
  (∀ (s : State) (q k : Nat) (c : Cmd) (m : Model) (p : PhaseEntry), s.runs 0x0901 q k c → s.model (c.p 0 4) = some m →
    m.pinned = true → m.inUse = 0 → (c.p 4 8 ≠ 0 ∨ c.p 12 8 ≠ 0) → m.safePhase = some p → p.inBytes ≤ 2 ^ 20 → p.outBytes ≤ 2 ^ 20 →
    m.placements.any m.writeGrant = false → s.inT1Host (c.p 4 8) p.inBytes = true → s.inT1Host (c.p 12 8) (p.outBytes + 64) = true →
    trailerOk (vals (s.peek (c.p 12 8 + p.outBytes) 64)) = true → s.namesWithdrawn (c.p 4 8) p.inBytes = false →
    s.namesWithdrawn (c.p 12 8) (p.outBytes + 64) = false →
    exec (.safeJob q k) s = .next
      (match s.mark (c.p 0 4) (c.p 4 8) (c.p 12 8) p.inBytes p.outBytes with
        | (s', .reply st de re) => s'.completed c st de re
        | (s', .going) => s'.modCmd q k (fun c => { c with phase := .running }))) ∧
  (∀ (s : State) (q k : Nat) (c : Cmd) (d : Detector), s.runs 0x0902 q k c → c.p 0 1 ≤ 11 → c.p 1 1 ≤ 1 →
    d = vget ⟨false, []⟩ s.net.detectors (c.p 0 1) →
    exec (.safeFrozen q k) s = .next
      ((s.modNet (fun n => { n with detectors := vset n.detectors (c.p 0 1) ⟨c.p 1 1 == 1, if c.p 1 1 = 1 then [] else d.hashes⟩ })).completed
        c 0 0 (if d.enabled then 1 else 0))) ∧
  (∀ (s : State) (q k : Nat) (c : Cmd), s.runs 0x0903 q k c → s.destOk (c.p 0 8) 128 = true →
    exec (.safeSelftest q k) s = .next
      ((s.storeClean (c.p 0 8) (s.safe.umpires.toList.flatMap Umpire.entry)).completed c 0 0 128))

/-- O13. A running power or clock opcode whose parameters pass its checks completes or goes on (R450, R451, R465, R467, R469, R478,
R480, R487, R489): `pwr.cap` and `pwr.sag` set their limits, `pwr.hint` adds a hint, `pwr.state` answers at once for Row, Paddle
and the present state and begins an entry for Easy and Moored, `pwr.lock` and `clk.out` set a rating or an output while the PLL is
stable, or take one away at any time, and `clk.source` chooses the RC oscillator, or the crystal once the PLL is stable, the
coarse time ending with it. -/
def Obligations.PowerOpcodesComplete : Prop :=
  (∀ (s : State) (q k : Nat) (c : Cmd), s.runs 0x0A01 q k c → 30 ≤ c.p 0 2 → c.p 0 2 ≤ 420 → c.p 2 1 ≤ 5 →
    exec (.pwrCap q k) s = .next
      (State.completed { s with cap := { s.cap with limit := c.p 0 2, order := c.p 2 1 } } c 0 0 s.cap.limit)) ∧
  (∀ (s : State) (q k : Nat) (c : Cmd), s.runs 0x0A02 q k c → chkPwrSag s c = none →
    exec (.pwrSag q k) s = .next
      (State.completed { s with cap := { s.cap with warnMv := c.p 0 2, resetMv := c.p 2 2, sagCap := c.p 4 2 } } c 0 0 0)) ∧
  (∀ (s : State) (q k : Nat) (c : Cmd), s.runs 0x0A03 q k c → c.p 0 4 ≤ 1000000 → 30 ≤ c.p 4 2 → c.p 4 2 ≤ 420 →
    exec (.pwrHint q k) s = .next ((s.addHint (c.decoded + us (c.p 0 4)) (c.p 4 2) c.decoded).completed c 0 0 0)) ∧
  (∀ (s : State) (q k : Nat) (c : Cmd), s.runs 0x0A04 q k c → chkPwrState s c = none → (c.p 0 1 < 2 ∨ c.p 0 1 = s.pwr.state) →
    exec (.pwrState q k) s = .next
      (if c.p 0 1 = s.pwr.state then s.completed c 0 0 (c.p 0 1)
        else if c.p 0 1 = 0 then (State.ungate { s with pwr := { s.pwr with state := 0, wakeEnabled := 0 } }).completed c 0 0 0
        else State.completed { s with pwr := { s.pwr with state := 1, wakeEnabled := bits (c.p 1 4) 15 0 } } c 0 0 1)) ∧
  (∀ (s : State) (q k : Nat) (c : Cmd), s.runs 0x0A04 q k c → chkPwrState s c = none → 2 ≤ c.p 0 1 → c.p 0 1 ≠ s.pwr.state →
    (c.p 0 1 = 3 → s.time.coarse = false ∧ s.sagging = false) →
    ∃ e : Entry, exec (.pwrState q k) s = .next
        (State.modCmd { s with pwr := { s.pwr with entry := some e } } q k (fun c => { c with phase := .running })) ∧
      e.uid = c.uid ∧ e.target = c.p 0 1 ∧ e.wakeWord = c.p 1 4 ∧ e.stage = 0 ∧ e.fired = none ∧ e.passed = none ∧
      e.agents = (s.askedDomains (c.p 0 1) (c.p 1 4)).map (fun d => (d, Answer.none))) ∧
  (∀ (s : State) (q k : Nat) (c : Cmd), s.runs 0x0A05 q k c → (c.p 0 2 = 0 ∨ (50 ≤ c.p 0 2 ∧ c.p 0 2 ≤ 310)) → c.p 2 12 < 2 ^ 77 →
    (c.p 0 2 = 0 ∨ s.pllStable = true) →
    exec (.pwrLock q k) s = .next ((s.lockDomains (c.p 0 2) (c.p 2 12)).setVcore.completed c 0 0 0)) ∧
  (∀ (s u : State) (q k : Nat) (c : Cmd), s.runs 0x0A06 q k c → c.p 0 1 ≤ 1 → (c.p 0 1 = 1 → s.pllStable = true) →
    u = { s with clk := { s.clk with src := c.p 0 1 == 1 } } →
    exec (.clkSource q k) s = .next
      ((if c.p 0 1 = 1 ∧ s.time.coarse = true then
        State.raise { u with time := { s.time with coarse := false } } 0x0109 95 0 0 else u).completed c 0 0 (if s.clk.src then 1 else 0))) ∧
  (∀ (s : State) (q k : Nat) (c : Cmd), s.runs 0x0A07 q k c → chkClkOut s c = none → (c.p 1 4 = 0 ∨ s.pllStable = true) →
    exec (.clkOut q k) s = .next
      (State.completed { s with clk := { s.clk with outs := vset s.clk.outs (c.p 0 1) ⟨c.p 1 4, c.p 5 1, c.p 6 1, decide (c.p 1 4 ≠ 0)⟩ } } c
        0 0 0))

/-- O14. A running switch opcode whose parameters pass its checks completes (R382, R388, R389, R391, R392, R396, R398): `net.port` gives
a port its role, mode and default VID, the keys of a trunk port that stops being one gone and its link down when disabled;
`net.vlan` sets or removes a VLAN while there is room; `net.shaper` sets a class's slope, its credit 0; `net.filter` sets or removes
a filter; `net.template` keeps a template's bytes or empties its slot; `net.key` installs or removes one association of a trunk
port, to send or to receive. -/
def Obligations.NetOpcodesComplete : Prop :=
  (∀ (s u : State) (q k p role : Nat) (c : Cmd), s.runs 0x0B01 q k c → p = c.p 0 1 → p ≤ 11 → role = bits (c.p 1 1) 1 0 → role ≠ 3 →
    bits (c.p 1 1) 6 2 = 0 → 1 ≤ c.p 2 2 → c.p 2 2 ≤ 4094 →
    u = (if role = 0 then s.linkTo p false else s).modPort p (fun x =>
      { x with
        role := role, slave := bit (c.p 1 1) 7 == 1, pvid := c.p 2 2,
        tx := (if x.role = 2 ∧ role ≠ 2 then [] else x.tx), rx := (if x.role = 2 ∧ role ≠ 2 then [] else x.rx) }) →
    exec (.netPort q k) s = .next
      (((if role = 1 then u else u.modNet (fun n => n.stopSamples p)).modNet (fun n => n.join p (c.p 2 2))).completed c 0 0 0)) ∧
  (∀ (s : State) (q k : Nat) (c : Cmd), s.runs 0x0B02 q k c → 1 ≤ c.p 0 2 → c.p 0 2 ≤ 4094 → c.p 2 2 < 4096 → c.p 4 2 &&& c.p 2 2 = c.p 4 2 →
    (c.p 2 2 = 0 ∨ (s.net.vlan (c.p 0 2)).isSome = true ∨ s.net.vlans.length < 256) →
    exec (.netVlan q k) s = .next ((s.modNet (fun n => n.setVlan ⟨c.p 0 2, c.p 2 2, c.p 4 2⟩)).completed c 0 0 0)) ∧
  (∀ (s : State) (q k : Nat) (c : Cmd), s.runs 0x0B03 q k c → c.p 0 1 ≤ 11 → c.p 1 1 ≤ 7 → s.slopeSum (c.p 0 1) (c.p 1 1) (c.p 2 4) ≤ 7500000 →
    exec (.netShaper q k) s = .next
      ((s.modPort (c.p 0 1) (fun x => { x with shapers := vset x.shapers (c.p 1 1) ⟨c.p 2 4, 0, s.time.half⟩ })).completed c 0 0 0)) ∧
  (∀ (s : State) (q k : Nat) (c : Cmd) (f : Filter), s.runs 0x0B04 q k c → chkNetFilter s c = none →
    f = { mac := bits (c.p 2 8) 47 0, vid := bits (c.p 2 8) 59 48, rate := c.p 10 4, burst := c.p 14 4, port := c.p 18 1,
          tokens := c.p 14 4 * 16000000, at_ := s.time.half } →
    exec (.netFilter q k) s = .next
      ((s.modNet (fun n => { n with
        filters := if c.p 10 4 = 0 then aerase n.filters (c.p 0 2) else aset n.filters (c.p 0 2) f })).completed c 0 0 0)) ∧
  (∀ (s : State) (q k : Nat) (c : Cmd) (l : List Byte), s.runs 0x0B05 q k c → c.p 0 1 ≤ 63 → s.inT1Host (c.p 1 8) 128 = true →
    s.namesWithdrawn (c.p 1 8) 128 = false → s.anyPoison (c.p 1 8) 128 = false → l = vals (s.peek (c.p 1 8) 128) →
    (byteAt l 0 = 0xFF ∨ (s.templateOk l = true ∧
      s.net.templates.any (fun x => x.1 != c.p 0 1 && matchKey x.2.bytes == matchKey l) = false)) →
    exec (.netTemplate q k) s = .next
      (((s.noteRead (c.p 1 8) 128).modNet (fun n => n.setTemplate (c.p 0 1)
        (if byteAt l 0 = 0xFF then none else some ⟨l, 0, 0, none, none, []⟩))).completed c 0 0 0)) ∧
  (∀ (s : State) (q k : Nat) (c : Cmd) (a : Assoc) (f : List Assoc → List Assoc), s.runs 0x0B06 q k c → chkNetKey s c = none →
    (s.nport (c.p 0 1)).role = 2 → a = ⟨bits (c.p 1 1) 1 0, bit (c.p 1 1) 3, c.p 2 8, c.p 10 32, 0⟩ →
    f = (fun l => (if bit (c.p 1 1) 4 = 1 then [a] else []) ++ l.filter (fun x => !(x.an == a.an && x.sci == a.sci))) →
    exec (.netKey q k) s = .next
      ((s.modPort (c.p 0 1) (fun x => if bit (c.p 1 1) 2 = 1 then { x with tx := f x.tx } else { x with rx := f x.rx })).completed c 0 0 0))

/-- O15. A running fault opcode whose parameters pass its checks completes or goes on (R430, R439, R441, R444): `fault.status` stores
its 7,184 bytes; `fault.retire` retires a unit, its fence confirmed, or finds it retired; `fault.probe` waits for a quarantined
unit's probe while the die bridge is not down, and replies any other state; `fault.bucket` sets a bucket. -/
def Obligations.FaultOpcodesComplete : Prop :=
  (∀ (s : State) (q k : Nat) (c : Cmd), s.runs 0x0C01 q k c → s.destOk (c.p 0 8) 7184 = true →
    exec (.faultStatus q k) s = .next ((s.storeClean (c.p 0 8) s.faultStatus).completed c 0 0 7184)) ∧
  (∀ (s : State) (q k : Nat) (c : Cmd), s.runs 0x0C02 q k c → chkUnit s c = none →
    exec (.faultRetire q k) s = .next
      ((if s.retired (c.p 0 1) (c.p 1 2) = true then s
        else ((s.retire (c.p 0 1) (c.p 1 2) 8).modUnit (c.p 0 1) (c.p 1 2) (fun u => { u with confirmed := true })).answerProbes).completed
          c 0 0 0)) ∧
  (∀ (s : State) (q k : Nat) (c : Cmd), s.runs 0x0C03 q k c → chkUnit s c = none →
    exec (.faultProbe q k) s = .next
      (if (s.unit (c.p 0 1) (c.p 1 2)).state = .quarantined ∧ s.fault.bridge.down = false then
        s.modCmd q k (fun c => { c with phase := .running })
      else s.completed c 0 0 (s.unit (c.p 0 1) (c.p 1 2)).state.code)) ∧
  (∀ (s : State) (q k : Nat) (c : Cmd), s.runs 0x0C04 q k c → c.p 0 1 ≤ 5 → 1 ≤ c.p 1 1 → c.p 1 1 ≤ 16 → 1 ≤ c.p 2 4 → c.p 2 4 ≤ 3600000 →
    exec (.faultBucket q k) s = .next
      (State.completed { s with fault := { s.fault with buckets := vset s.fault.buckets (c.p 0 1) ⟨c.p 1 1, c.p 2 4⟩ } } c 0 0 0))

/-- O16. A running firmware or key opcode that its rules let pass completes, and so do the two events of a handover (R260, R502, R503,
R505): `fw.stage` of an image that passes every check stages it in a standby pair that is idle or holds another image;
`fw.handover` makes the staged pair the active one; the start image slot is then written once the supply is good, and the former
active pair, loaded again, shadows or has failed; `sec.key` answers as the table of R260 does for bytes without poison; and
`sec.verify` of a sound, signed image replies DONE. -/
def Obligations.FirmwareOpcodesComplete : Prop :=
  (∀ (s : State) (q k : Nat) (c : Cmd) (b : List Byte), s.runs 0x0D01 q k c → s.imageOk (c.p 0 8) (c.p 8 4) = true → 64 ≤ c.p 8 4 →
    b = vals (s.peek (c.p 0 8) (c.p 8 4)) → leAt b 8 8 = c.p 8 4 → (s.peek (c.p 0 8) (c.p 8 4)).any PByte.p = false → imgFault b 2 = none →
    s.signed b = true → s.cox.version / 2 ^ 24 ≤ leAt b 20 4 / 2 ^ 24 → s.cox.standby ≠ 0 → s.cox.standby ≠ 3 →
    exec (.fwStage q k) s = .next
      (((s.noteRead (c.p 0 8) (c.p 8 4)).modCox (fun x => { x with standby := 2, staged := some ⟨leAt b 20 4, c.p 8 4⟩ })).completed c 0 0
        (leAt b 20 4))) ∧
  (∀ (s : State) (q k : Nat) (c : Cmd) (i : FwImage), s.runs 0x0D02 q k c → s.cox.standby ≠ 3 → s.cox.staged = some i →
    s.sagging = false →
    exec (.fwHandover q k) s = .next
      ((((s.takeOver i.version).modCox (fun x => { x with slotWrite := some i })).bump (coxCtr 0x20) 1).completed c 0 0
        (if s.cox.active then 0 else 1))) ∧
  (∀ (s : State) (i : FwImage), s.cox.slotWrite = some i → s.sagging = false →
    exec .startImageSlotWrite s = .next { s with cox := { s.cox with current := i, previous := s.cox.current, slotWrite := none } }) ∧
  (∀ (s : State) (pass : Bool), s.cox.reload = true →
    exec (.standbyReloaded pass) s = .next { s with cox := { s.cox with reload := false, standby := if pass then 1 else 3 } }) ∧
  (∀ (s r : State) (q k x y : Nat) (c : Cmd) (b : List Byte) (f : Option (Nat × Nat × Bool) → State), s.runs 0x0D03 q k c →
    c.p 0 1 ≤ 7 → s.imageOk (c.p 1 8) 97 = true →
    r = s.noteRead (c.p 1 8) 97 → (r.peek (c.p 1 8) 97).any PByte.p = false → b = vals (r.peek (c.p 1 8) 97) →
    x = beNat (slice b 1 48) → y = beNat (slice b 49 48) →
    f = (fun v => { r with boat := { r.boat with keys := vset r.boat.keys (c.p 0 1) v } }) →
    exec (.secKey q k) s = .next
      (if b.all (fun z => z == 0) = true then
        (match vget none r.boat.keys (c.p 0 1) with
          | some (x, y, false) => (f (some (x, y, true))).completed c 0 0 0
          | _ => r.completed c 0x8016 0 0)
      else if byteAt b 0 = 4 ∧ onCurve x y = true then
        (match vget none r.boat.keys (c.p 0 1) with
          | none => (f (some (x, y, false))).completed c 0 0 0
          | some _ => r.completed c 0x8017 0 0)
      else r.completed c 0x8003 0x101 0)) ∧
  (∀ (s r : State) (q k : Nat) (c : Cmd) (b : List Byte), s.runs 0x0D04 q k c → s.imageOk (c.p 0 8) (c.p 8 8) = true →
    r = s.noteRead (c.p 0 8) (c.p 8 8) → r.lenOk c = true → (r.peek (c.p 0 8) (c.p 8 8)).any PByte.p = false →
    b = vals (r.peek (c.p 0 8) (c.p 8 8)) → imgFault b (if leAt b 4 2 = 2 then 2 else 1) = none → r.signed b = true →
    exec (.secVerify q k) s = .next (r.completed c 0 0 0))

/-! ### The host port -/

/-- O17. While a channel serves bursts, a read burst of 16 or 32 beats answers the aligned block that holds its bank, row and column
(R23, R24): the bytes of clean SRAM as they stand, byte 2k of the block on the low lanes of beat k; the fill pattern 0xF1 where
nothing is (R26); the doorbell page and the ID window as their fields stand (R27, R34, R36), a burst that covers EV_LOST clearing it;
stored errors that the read meets are struck first and handled word by word (R39). EV_LOST_READ is the burst on the block of the
event doorbells. -/
def Obligations.HostReadsComplete : Prop :=
  (∀ (s : State) (ch : Nat) (bank : BankAddr) (row col n a : Nat) (bl32 : Bool) (ups : List Upset), s.portServes ch = true →
    n = (if bl32 then 8 else 4) → a = portAddr bank row col →
    exec (.hostRead ch ⟨bank, row, col⟩ bl32 ups) s = .next ((ups.foldl State.strikeSram s).burstRead ch (a - a % (8 * n)) n)) ∧
  (∀ (s : State) (ch : Nat) (bank : BankAddr) (row col n b : Nat) (bl32 : Bool), s.portServes ch = true →
    n = (if bl32 then 8 else 4) → b = portAddr bank row col - portAddr bank row col % (8 * n) →
    ((0x04400000 ≤ b ∧ b < 0x04800000) ∨ (0x04A00000 ≤ b ∧ b < 0x04C00000) ∨ 0x04D11000 ≤ b) →
    ∃ t : State, exec (.hostRead ch ⟨bank, row, col⟩ bl32 []) s = .next t ∧ (t.chan ch).readData = List.replicate (4 * n) 0xF1F1 ∧
      { t with port := s.port } = s) ∧
  (∀ (s : State) (ch : Nat) (bank : BankAddr) (row col n b : Nat) (bl32 : Bool), s.portServes ch = true →
    n = (if bl32 then 8 else 4) → b = portAddr bank row col - portAddr bank row col % (8 * n) → sramBacked b = true →
    (∀ i, i < 8 * n → cellGet s.mem.tag (windowBase ch + b + i) = 0) →
    ∃ t : State, exec (.hostRead ch ⟨bank, row, col⟩ bl32 []) s = .next t ∧
      (t.chan ch).readData = beatsOf (cellGets s.mem.data (windowBase ch + b) (8 * n)) ∧ { t with port := s.port } = s) ∧
  (∀ (s : State) (ch : Nat) (bank : BankAddr) (row col n b : Nat) (bl32 : Bool), s.portServes ch = true →
    n = (if bl32 then 8 else 4) → b = portAddr bank row col - portAddr bank row col % (8 * n) → 0x04D00000 ≤ b → b < 0x04D11000 →
    ∃ t : State, exec (.hostRead ch ⟨bank, row, col⟩ bl32 []) s = .next t ∧
      (t.chan ch).readData = beatsOf ((List.range (2 * n)).flatMap (fun i => s.pageWord ch (b + 4 * i))) ∧
      (t.chan ch).evLost = (if b ≤ 0x04D01000 ∧ 0x04D01000 < b + 8 * n then Ctr.zero else (s.chan ch).evLost) ∧
      { t with port := s.port } = s) ∧
  (∀ (s : State) (ch : Nat), s.portServes ch = true →
    ∃ t : State, exec (.evLostRead ch) s = .next t ∧
      (t.chan ch).readData = beatsOf (toLe 4 (s.chan ch).evHead ++ toLe 4 (s.chan ch).evTail ++ toLe 4 (s.chan ch).evLost.count.toNat ++
        toLe 4 (b2n (s.chan ch).evLost.sat) ++ List.replicate 16 0) ∧
      (t.chan ch).evLost = Ctr.zero ∧ { t with port := s.port } = s)

/-- O18. While a channel serves bursts, a write burst reaches the aligned block that holds its bank, row and column (R23, R24). A
burst without a link error, or with write link ECC disabled, stores exactly the enabled bytes in the data and command windows (R25);
elsewhere it stores nothing: with no byte enabled it does nothing; on a ring of the TZ8 it counts RO_WR and where nothing is it
counts UNBACKED_WR (R26, R27); an ID window field counts RO_WR and the rest of that window takes it uncounted; and a doorbell
written whole acts as its own row does (R34). With write link ECC, a single-bit error is corrected and counted, and an uncorrectable
one stores the fill pattern where the bytes were enabled, writes no doorbell, and raises HOST_LINK_ERROR (R38). A write of SQ_TAIL
submits slots and lets the head be read, a write of RQ_HEAD or EV_HEAD frees records, and a write that would shrink or pass the
other index is ignored and counted (R35, R52). -/
def Obligations.HostWritesComplete : Prop :=
  (∀ (s : State) (ch : Nat) (bank : BankAddr) (row col a mask link : Nat) (beats : List Word16) (data : List Byte), s.memoryOk →
    s.portServes ch = true → (beats.length = 16 ∨ beats.length = 32) → data = bytesOf beats →
    a = portAddr bank row col - portAddr bank row col % data.length → (link = 0 ∨ (s.chan ch).wecc = false) → a < 0x04400000 →
    ∃ t : State, exec (.hostWrite ch ⟨bank, row, col⟩ beats mask link) s = .next t ∧ { t with mem := s.mem } = s ∧
      (∀ i, i < data.length → t.mem.byte (windowBase ch + a + i) =
        if bit mask i = 1 then data.getD i 0 else s.mem.byte (windowBase ch + a + i)) ∧
      (∀ x, (x < windowBase ch + a ∨ windowBase ch + a + data.length ≤ x) → t.mem.byte x = s.mem.byte x)) ∧
  (∀ (s : State) (ch : Nat) (bank : BankAddr) (row col a n mask link : Nat) (beats : List Word16), s.portServes ch = true →
    (beats.length = 16 ∨ beats.length = 32) → n = 2 * beats.length →
    a = portAddr bank row col - portAddr bank row col % n → (link = 0 ∨ (s.chan ch).wecc = false) → 0x04400000 ≤ a →
    (a < 0x04D00000 ∨ 0x04D10000 ≤ a) →
    exec (.hostWrite ch ⟨bank, row, col⟩ beats mask link) s = .next
      (if mask % 2 ^ n = 0 then s
      else if sramBacked a = true then s.bump (portCtr ch 3) 1
      else if 0x04D10000 ≤ a ∧ a < 0x04D11000 then
        (if idFieldTouched (a - 0x04D10000) n mask = true then s.bump (portCtr ch 3) 1 else s)
      else s.bump (portCtr ch 2) 1)) ∧
  (∀ (s : State) (ch : Nat) (bank : BankAddr) (row col a o mask link : Nat) (beats : List Word16) (data : List Byte),
    s.portServes ch = true → (beats.length = 16 ∨ beats.length = 32) → data = bytesOf beats →
    a = portAddr bank row col - portAddr bank row col % data.length → (link = 0 ∨ (s.chan ch).wecc = false) →
    a = 0x04D00000 + o → o < 0x1000 → o % 0x40 = 0 → mask % 2 ^ data.length = 0xF →
    exec (.hostWrite ch ⟨bank, row, col⟩ beats mask link) s = .next (s.sqTailWrite (64 * ch + o / 0x40) (leAt data 0 4))) ∧
  (∀ (s : State) (ch : Nat) (bank : BankAddr) (row col a o mask link : Nat) (beats : List Word16) (data : List Byte),
    s.portServes ch = true → (beats.length = 16 ∨ beats.length = 32) → data = bytesOf beats →
    a = portAddr bank row col - portAddr bank row col % data.length → (link = 0 ∨ (s.chan ch).wecc = false) →
    a = 0x04D00000 + o → o < 0x1000 → o % 0x40 = 0 → mask % 2 ^ data.length = 0xF00 →
    exec (.hostWrite ch ⟨bank, row, col⟩ beats mask link) s = .next (s.rqHeadWrite (64 * ch + o / 0x40) (leAt data 8 4))) ∧
  (∀ (s : State) (ch : Nat) (bank : BankAddr) (row col mask link : Nat) (beats : List Word16) (data : List Byte),
    s.portServes ch = true → (beats.length = 16 ∨ beats.length = 32) → data = bytesOf beats →
    portAddr bank row col - portAddr bank row col % data.length = 0x04D01000 → (link = 0 ∨ (s.chan ch).wecc = false) →
    mask % 2 ^ data.length = 0xF →
    exec (.hostWrite ch ⟨bank, row, col⟩ beats mask link) s = .next (s.evHeadWrite ch (leAt data 0 4))) ∧
  (∀ (s : State) (ch : Nat) (bank : BankAddr) (row col a mask : Nat) (beats : List Word16) (data : List Byte),
    s.portServes ch = true → (beats.length = 16 ∨ beats.length = 32) → data = bytesOf beats →
    a = portAddr bank row col - portAddr bank row col % data.length → (s.chan ch).wecc = true →
    exec (.hostWrite ch ⟨bank, row, col⟩ beats mask 1) s = .next ((s.bump (portCtr ch 0) 1).burstWrite ch a data mask)) ∧
  (∀ (s u : State) (ch : Nat) (bank : BankAddr) (row col a n mask : Nat) (beats : List Word16), s.portServes ch = true →
    (beats.length = 16 ∨ beats.length = 32) → n = 2 * beats.length → a = portAddr bank row col - portAddr bank row col % n →
    (s.chan ch).wecc = true → u = s.bump (portCtr ch 1) 1 →
    exec (.hostWrite ch ⟨bank, row, col⟩ beats mask 2) s = .next
      ((if 0x04D00000 ≤ a ∧ a < 0x04D10000 then u else u.burstWrite ch a (List.replicate n 0xF1) mask).raise 0x0103 92 ch
        (ch + a * 2 ^ 32))) ∧
  (∀ (s u : State) (q v old new : Nat), s.portServes (q / 64) = true → old = (s.queue q).unread →
    new = (v % 1024 + 1024 - (s.queue q).sqHead) % 1024 →
    u = (s.modQueue q (fun x => { x with
      sqTail := v % 1024, cover := x.cover ++ List.replicate (new - old) s.time.half })).latchHead q →
    exec (.sqTailWrite q v) s = .next
      (if new < old then s.bump (discardCtr q) 1 else if u.readable q = true then u.wake 3 else u)) ∧
  (∀ (s : State) (q v : Nat), s.portServes (q / 64) = true →
    exec (.rqHeadWrite q v) s = .next
      (if ((s.queue q).rqTail + 1024 - (s.queue q).rqHead) % 1024 < ((s.queue q).rqTail + 1024 - v % 1024) % 1024 then
        s.bump (discardCtr q) 1
      else s.modQueue q (fun x => { x with rqHead := v % 1024 }))) ∧
  (∀ (s : State) (ch v new : Nat) (c : PortChan), s.portServes ch = true → c = s.chan ch →
    new = (c.evTail + 32768 - v % 32768) % 32768 →
    exec (.evHeadWrite ch v) s = .next
      (if c.evUnread < new then s.bump (portCtr ch 6) 1
      else if c.evUnread = 32767 ∧ new < 32767 then
        (s.modChan ch (fun c => { c with evHead := v % 32768 })).raiseTo ch 0x0105 92 ch
          (c.evLost.count.toNat + b2n c.evLost.sat * 2 ^ 32)
      else s.modChan ch (fun c => { c with evHead := v % 32768 })))

/-- O19. The mode-register, training and calibration rows act on their channel while it answers its command bus, and repair and
refresh commands have no effect (R19 to R21). A mode-register write changes the bits that take a value, in the copy that FSP-WR
selects and nowhere else; MR16 keeps a set-point number it has no copy for out. A read latches the register's value, zero for MR5 to
MR7, 0x19 for MR8, and MR4 with the standard rate and no update flag. -/
def Obligations.PortModesComplete : Prop :=
  (∀ (s : State) (ch mr v : Nat), s.portUp ch = true → mr < 256 →
    exec (.modeRegisterWrite ch mr v) s = .next (s.modChan ch (fun c => c.mrw mr v)) ∧
    ((s.chan ch).fspWr < 3 → (mr = 16 → bits v 1 0 ≠ 3 ∧ bits v 3 2 ≠ 3) →
      ((s.chan ch).mrw mr v).modeReg (s.chan ch).fspWr mr =
        ((s.chan ch).modeReg (s.chan ch).fspWr mr &&& ~~~mrTakes mr) ||| (BitVec.ofNat 8 v &&& mrTakes mr)) ∧
    (∀ f x, (x ≠ mr ∨ (mrShared mr = false ∧ f ≠ (s.chan ch).fspWr)) →
      ((s.chan ch).mrw mr v).modeReg f x = (s.chan ch).modeReg f x)) ∧
  (∀ (s : State) (ch mr : Nat), s.portUp ch = true → mr < 256 →
    exec (.modeRegisterRead ch mr) s = .next (s.modChan ch (fun c => { c with mrrData := c.mrr mr })) ∧
    (mr = 5 ∨ mr = 6 ∨ mr = 7 → (s.chan ch).mrr mr = 0) ∧ (s.chan ch).mrr 8 = 0x19 ∧ (s.chan ch).mrr 4 &&& 0x9F = 0x09) ∧
  (∀ (s : State) (ch kind result : Nat), s.portUp ch = true → kind < 5 →
    ∃ t : State, exec (.linkTraining ch kind result) s = .next t ∧ { t with port := s.port } = s ∧
      (t.chan ch).training = vset (s.chan ch).training kind (BitVec.ofNat 8 result) ∧
      ((t.chan ch).mode = .active ↔ (s.chan ch).mode = .active ∨
        ((s.chan ch).mode = .untrained ∧ ∀ i, i < 4 → vget 0 (t.chan ch).training i ≠ 0))) ∧
  (∀ (s : State) (ch : Nat), s.portUp ch = true →
    exec (.zqCalibration ch) s = .next (s.modChan ch (fun c => { c with zqLatched := true }))) ∧
  (∀ (s : State) (ch : Nat), exec (.postPackageRepair ch) s = .next s) ∧
  (∀ (s : State) (ch kind : Nat), exec (.refresh ch kind) s = .next s)

/-- O20. Power-down, self-refresh and deep sleep take a channel to their mode and back to the mode it had, each exit from
self-refresh or deep sleep fires HOST_ACTIVE, and RESET_N returns the interface to power-up values, keeps the event doorbells, and
its release raises HOST_RESET once packets are accepted (R22, R37, R449, R456). -/
def Obligations.PortSleepComplete : Prop :=
  (∀ (s : State) (ch : Nat), s.portServes ch = true →
    exec (.powerDownEntry ch) s = .next (s.modChan ch (fun c => { c with mode := .powerDown, awake := c.mode, rxLow := true }))) ∧
  (∀ (s : State) (ch : Nat), s.portUp ch = true → (s.chan ch).mode = .powerDown →
    exec (.powerDownExit ch) s = .next (s.modChan ch (fun c => { c with mode := c.awake, rxLow := false }))) ∧
  (∀ (s : State) (ch : Nat) (pd : Bool), s.portServes ch = true →
    ∃ t : State, exec (.selfRefreshEntry ch pd) s = .next t ∧ (t.chan ch).mode = .asleep ∧ (t.chan ch).awake = (s.chan ch).mode ∧
      (t.chan ch).deep = false ∧ (t.chan ch).rxLow = pd ∧ { t with port := s.port, pwr := s.pwr } = s) ∧
  (∀ (s : State) (ch : Nat), s.portUp ch = true → (s.chan ch).mode = .asleep → (s.chan ch).deep = false →
    exec (.selfRefreshExit ch) s = .next
      (((s.modChan ch (fun c => { c with mode := c.awake, rxLow := false, deep := false })).syncIdle).wake 4)) ∧
  (∀ (s : State) (ch : Nat), s.portServes ch = true →
    ∃ t : State, exec (.deepSleepEntry ch) s = .next t ∧ (t.chan ch).mode = .asleep ∧ (t.chan ch).awake = (s.chan ch).mode ∧
      (t.chan ch).deep = true ∧ (t.chan ch).rxLow = true ∧ { t with port := s.port, pwr := s.pwr } = s) ∧
  (∀ (s : State) (ch : Nat), s.portUp ch = true → (s.chan ch).mode = .asleep → (s.chan ch).deep = true →
    exec (.deepSleepExit ch) s = .next
      (((s.modChan ch (fun c => { c with mode := c.awake, rxLow := false, deep := false })).syncIdle).wake 4)) ∧
  (∀ s : State, ∃ t : State, exec .resetNAssert s = .next t ∧ t.port.resetN = false ∧
    ∀ ch, ch < 2 → (t.chan ch).mode = PortChan.reset.mode ∧ (t.chan ch).training = PortChan.reset.training ∧
      (t.chan ch).modeRegs = PortChan.reset.modeRegs ∧ (t.chan ch).evHead = (s.chan ch).evHead ∧ (t.chan ch).evTail = (s.chan ch).evTail ∧
      (t.chan ch).evLost = (s.chan ch).evLost) ∧
  (∀ s : State, s.port.resetN = false → s.start.stage = .accepting →
    exec .resetNRelease s = .next (State.raise { s with port := { s.port with resetN := true } } 0x0102 92 0 0)) ∧
  (∀ s : State, s.port.resetN = false → s.start.stage ≠ .accepting →
    exec .resetNRelease s = .next { s with port := { s.port with resetN := true, releasedEarly := true } })

/-! ### Command flow and registers -/

/-- O21. A queue in its turn has its command read; a head packet that fails its CRC is answered BAD_CRC with its slot and takes one
slot and one SEQ; a queue's first waiting command that may be dispatched becomes ready and in flight, or completes unexecuted with
DEADLINE_MISSED when it is late, and every ACCEPTED reply that is due is written; the replies that are due are written in submission
order, with COMMAND_DONE when asked for; and a deadline that has passed completes a waiting command unexecuted, marks one in
execution, and ends a planner query that waits for a unit (R53, R54, R59 to R63). -/
def Obligations.CommandFlowCompletes : Prop :=
  (∀ (s : State) (q : Nat) (ups : List Upset), s.readingStopped = false → s.nextQueue = some q →
    exec (.commandRead ups) s = .next ((ups.foldl State.strikeSram s).readTurn q)) ∧
  (∀ (s u : State) (q : Nat), q < 128 → u = s.readSlots q → (u.headPacket q).crcOk = false →
    ∃ c : Cmd, ((s.readTurn q).queue q).cmds = (u.queue q).cmds ++ [c] ∧ c.phase = .done 0x8001 (u.queue q).sqHead 0 u.elapsed ∧
      c.opcode = 0xFFFF ∧ c.seq = (u.queue q).expectSeq ∧
      ((s.readTurn q).queue q).sqHead = ((u.queue q).sqHead + 1) % 1024 ∧
      ((s.readTurn q).queue q).expectSeq = ((u.queue q).expectSeq + 1) % 65536 ∧
      (∀ q', q' ≠ q → (s.readTurn q).queue q' = u.queue q') ∧ (s.readTurn q).host.turn = (q + 1) % 128) ∧
  (∀ (s u : State) (q k : Nat) (c : Cmd), s.dispatchable q = some k → s.cmd q k = some c →
    u = s.modCmd q k (fun c => { c with phase := .ready, inFlight := true, sag := s.sagging, ackDue := c.ackReq }) →
    exec (.commandDispatch q) s = .next ((if s.isLate c = true then u.finish q k 0x8005 0 0 else u).releaseAcks q 1024)) ∧
  (∀ (s u : State) (q k : Nat) (c : Cmd), q < 128 → s.dispatchable q = some k → s.cmd q k = some c → s.isLate c = false →
    c.ackReq = true → (s.queue q).cmds.all (fun x => !x.ackDue) = true →
    u = s.modCmd q k (fun c => { c with phase := .ready, inFlight := true, sag := s.sagging, ackDue := c.ackReq }) →
    exec (.commandDispatch q) s = .next
      ((u.writeReply q (replyBytes c.seq c.opcode 0x0001 0 0 s.elapsed)).modCmd q k (fun c => { c with ackDue := false }))) ∧
  (∀ (s : State) (q : Nat), exec (.commandComplete q) s = .next ((s.releaseAcks q 1024).releaseReplies q 1024)) ∧
  (∀ (s u : State) (q st de re el : Nat) (c : Cmd), q < 128 → (s.queue q).cmds = [c] → c.phase = .done st de re el → c.ackDue = false →
    (s.queue q).rqFree ≠ 0 →
    u = (s.writeReply q (replyBytes c.seq c.opcode st de (resultOf st re) el)).modQueue q (fun u => { u with cmds := [] }) →
    exec (.commandComplete q) s = .next
      (if c.eventOnDone = true then u.raise 0x0106 90 q (c.seq + st * 2 ^ 16 + c.opcode * 2 ^ 32) else u)) ∧
  (∀ (s : State) (q k : Nat) (c : Cmd), s.cmd q k = some c → s.isLate c = true → c.phase = .waiting →
    exec (.deadlinePassed q k) s = .next
      (((s.modCmd q k (fun c => { c with inFlight := true, late := true, ackDue := c.ackReq })).finish q k 0x8005 0 0).releaseAcks
        q 1024)) ∧
  (∀ (s u : State) (q k : Nat) (c : Cmd), s.cmd q k = some c → s.isLate c = true → (c.phase = .ready ∨ c.phase = .running) →
    u = s.modCmd q k (fun c => { c with late := true }) →
    exec (.deadlinePassed q k) s = .next
      (match s.plan.queue.find? (fun x => x.uid == c.uid) with
        | some x => u.endWaiting x false
        | none => u))

/-- O22. Writing a register changes the bits the mask selects: `w` is the register's word with them. A field whose new value is out of
range keeps its old one; a counter and an address that names no register ignore the write; a tile's sticky arithmetic bits and a
loop's saturation flags are cleared as each says; the cap, sag and tier words, a stream's ring and the verdict ring take their new
values together (R98, R130, R165, R352, R363, R379, R421, R443, R471, R495). The first clauses are REGISTER_WRITE's own, for the
addresses they name. -/
def Obligations.RegisterWritesComplete : Prop :=
  (∀ (s : State) (a v mask : Nat), (s.reg a = none ∨ isCounter (ctrId (a - ctrlBase)) = true) →
    exec (.registerWrite a v mask) s = .next s) ∧
  (∀ (s s' u : State) (o v mask x w : Nat), s.reg (ctrlBase + o) = some (x, s') → w = mergeBits x v mask →
    ((o = 0 ∧ u = State.syncIdle { s with port := { s.port with
        eventsC0 := bit w 0 == 1, eventsC1 := bit w 1 == 1, srHint := bit w 2 == 1 } }) ∨
     (o = 0x03000048 ∧
        u = { s with store := { s.store with testFail := s.store.testFail && (bit mask 8 == 0 || bit v 8 == 1) } }) ∨
     (o = 0x03100000 ∧ u = { s with store := { s.store with
        scrubEnable := bit w 0 == 1, limitMs := bits w 63 32,
        paceS := if 1 ≤ bits w 31 16 ∧ bits w 31 16 ≤ 3600 then bits w 31 16 else s.store.paceS } }) ∨
     (o = 0x04000080 ∧ u = State.spillBackground
        { s with boat := { s.boat with lowWater := bits w 31 0, spillEnable := bit w 32 == 1 } }) ∨
     (o = 0x07000038 ∧ u = { s with plan := { s.plan with researchMax := bits w 2 0 } }) ∨
     (o = 0x0A000000 ∧ u = s.modNet (fun n => { n with
        ageS := if 10 ≤ bits w 15 0 then bits w 15 0 else n.ageS, learn := bit w 16 == 1 })) ∨
     (o = 0x0B000000 ∧ u = { s with safe := { s.safe with hiAction := bit w 0 == 1 } }) ∨
     (o = 0x0D000010 ∧ u = { s with pwr := { s.pwr with timerAt := w % 2 ^ 64 } }) ∨
     (o = 0x0D000018 ∧ u = { s with pwr := { s.pwr with callAddr := bits w 9 0 } }) ∨
     (o = 0x0D000020 ∧ u = { s with pwr := { s.pwr with
        idleUs := if 10 ≤ bits w 15 0 then bits w 15 0 else s.pwr.idleUs, tilesGate := bit w 16 == 1 } }) ∨
     (o = 0x0E000000 ∧ u = { s with clk := { s.clk with xtalLost := s.clk.xtalLost && (bit mask 4 == 0 || bit v 4 == 1) } }) ∨
     (o = 0x0F000018 ∧ u = { s with cap := { s.cap with boost := bit w 0 == 1 } }) ∨
     (o = 0x0F000020 ∧ u = { s with cap := { s.cap with
        loadline := bits w 15 0, slew := if 1 ≤ bits w 23 16 then bits w 23 16 else s.cap.slew } })) →
    exec (.registerWrite (ctrlBase + o) v mask) s = .next u) ∧
  (∀ (s : State) (t v mask : Nat), t < 128 →
    ∃ u : State, exec (.tileArithStatusWrite t v mask) s = .next u ∧ { u with tiles := s.tiles } = s ∧
      (∀ t', t' ≠ t → u.tile t' = s.tile t') ∧ { u.tile t with arith := (s.tile t).arith } = s.tile t ∧
      (∀ i, i < 9 → (u.tile t).arith.getLsbD i = ((s.tile t).arith.getLsbD i && (v.testBit i || !mask.testBit i)))) ∧
  (∀ (s : State) (l v mask : Nat), l < 128 →
    ∃ u : State, exec (.loopSatClear l v mask) s = .next u ∧ { u with stroke := s.stroke } = s ∧
      (∀ l', l' ≠ l → u.loop l' = s.loop l') ∧
      (u.loop l).satOut = ((s.loop l).satOut && bit (v &&& mask) 16 == 0) ∧
      (u.loop l).sections.length = (s.loop l).sections.length ∧
      (∀ (i : Nat) (z : Section), (s.loop l).sections[i]? = some z →
        (u.loop l).sections[i]? = some { z with sat := z.sat && bit (v &&& mask) (12 + i) == 0 })) ∧
  (∀ (s : State) (v mask w : Nat), w = mergeBits (s.cap.limit + s.cap.order * 2 ^ 16) v mask →
    exec (.capLimitWrite v mask) s = .next { s with cap := { s.cap with
      limit := if 30 ≤ w % 2 ^ 9 ∧ w % 2 ^ 9 ≤ 420 then w % 2 ^ 9 else s.cap.limit,
      order := if w / 2 ^ 16 % 8 ≤ 5 then w / 2 ^ 16 % 8 else s.cap.order } }) ∧
  (∀ (s u : State) (v mask w a r c p : Nat), w = mergeBits s.cap.sagWord v mask → a = w % 2 ^ 11 → r = w / 2 ^ 16 % 2 ^ 11 →
    c = w / 2 ^ 32 % 2 ^ 9 → p = w / 2 ^ 41 % 8 →
    u = (if 800 ≤ a ∧ a ≤ 1050 ∧ 700 ≤ r ∧ r ≤ 950 ∧ r + 50 ≤ a ∧ 30 ≤ c ∧ c ≤ 420 then
      { s with cap := { s.cap with warnMv := a, resetMv := r, sagCap := c } } else s) →
    exec (.capSagWrite v mask) s = .next
      (if 1 ≤ p ∧ p ≤ 5 then { u with cap := { u.cap with preemptFrom := p } } else u)) ∧
  (∀ (s : State) (v mask g : Nat), g = mergeBits s.tier.reserveGib v mask % 2 ^ 9 →
    exec (.tierPoolWrite 0x08 v mask) s = .next
      (if g ≤ 64 ∧ s.tier.coxLimit ≤ 256 - g then { s with tier := { s.tier with reserveGib := g } } else s)) ∧
  (∀ (s : State) (v mask w lo hi : Nat), w = mergeBits (s.tier.coxBase + s.tier.coxLimit * 2 ^ 16) v mask → lo = w % 2 ^ 9 →
    hi = w / 2 ^ 16 % 2 ^ 9 →
    exec (.tierPoolWrite 0x10 v mask) s = .next
      (if 1 ≤ lo ∧ lo < hi ∧ hi ≤ 256 - s.tier.reserveGib ∧
          (∀ e, e ∈ s.boat.pool → lo * 65536 ≤ e.first ∧ e.first + e.count ≤ hi * 65536) then
        State.spillBackground { s with tier := { s.tier with coxBase := lo, coxLimit := hi } } else s)) ∧
  (∀ (s : State) (v mask w lo hi : Nat), w = mergeBits (s.tier.nvsBase + s.tier.nvsLimit * 2 ^ 16) v mask → lo = w % 2 ^ 12 →
    hi = w / 2 ^ 16 % 2 ^ 12 →
    exec (.tierPoolWrite 0x18 v mask) s = .next
      (if lo < hi ∧ (∀ e, e ∈ s.boat.nvs → lo * 2 ^ 18 ≤ e.first ∧ e.first + e.count ≤ hi * 2 ^ 18) ∧
          (s.tier.spillPages = 0 ∨ (lo * 2 ^ 18 ≤ s.tier.spillBase * 4 ∧ s.tier.spillBase * 4 + s.tier.spillPages * 4 ≤ hi * 2 ^ 18)) then
        { s with tier := { s.tier with nvsBase := lo, nvsLimit := hi } } else s)) ∧
  (∀ (s : State) (i v mask w base lg : Nat), i < 36 → w = mergeBits ((s.stream i).ringBase + (s.stream i).ringLog2 * 2 ^ 48) v mask →
    base = w % 2 ^ 48 → lg = w / 2 ^ 48 % 16 →
    exec (.fuseSRingWrite i v mask) s = .next
      (if s.fuse.enabled = false ∧ base % 64 = 0 ∧
          (lg = 0 ∨ (4 ≤ lg ∧ lg ≤ 12 ∧ s.inT1Host base (ringSlotBytes i * 2 ^ lg) = true)) then
        s.modStream i (fun x => { x with ringBase := base, ringLog2 := lg, next := 0 }) else s)) ∧
  (∀ (s u : State) (v mask w base lg : Nat), w = mergeBits s.safe.verdictWord v (mask % 2 ^ 53) → base = w % 2 ^ 48 →
    lg = w / 2 ^ 48 % 32 → u = { s with safe := { s.safe with ringBase := base, ringLog2 := lg, tail := 0 } } →
    exec (.safeVerdictWrite v mask) s = .next
      (if mask % 2 ^ 53 ≠ 0 ∧ base % 64 = 0 ∧ (lg = 0 ∨ (4 ≤ lg ∧ lg ≤ 16 ∧ s.destOk base (64 + 32 * 2 ^ lg) = true)) then
        (if lg = 0 then u else u.putTail base 0) else s))

/-! ### Threads -/

/-- O23. A scalar operation of a thread that may issue writes its result to RD, with the union of its operands' poison, and moves
the program counter by 8; a compare writes the condition flag alone; a branch writes the program counter alone (R180, R181, R267).
A shift by 64 or more writes some value, which the spec does not state, and every other effect is the same. A MOD that R267 does not
list is ILLEGAL, and a conditional branch on a poisoned flag is a use of poison. -/
def Obligations.ScalarInstructionsComplete : Prop :=
  (∀ (s : State) (t th mod rd ra rb : Nat) (x : Thread) (a b r : BitVec 64), s.canIssue t th = true → x = (s.tile t).thread th →
    a = BitVec.ofNat 64 (x.getX ra) → b = BitVec.ofNat 64 (x.getX rb) →
    ((mod = 0 ∧ r = a + b) ∨ (mod = 1 ∧ r = a - b) ∨ (mod = 2 ∧ r = a &&& b) ∨ (mod = 3 ∧ r = a ||| b) ∨ (mod = 4 ∧ r = a ^^^ b) ∨
      (mod = 5 ∧ b.toNat < 64 ∧ r = a <<< b.toNat) ∨ (mod = 6 ∧ b.toNat < 64 ∧ r = a >>> b.toNat) ∨
      (mod = 7 ∧ b.toNat < 64 ∧ r = a.sshiftRight b.toNat) ∨ (mod = 8 ∧ r = a * b) ∨ (mod = 9 ∧ r = if b.slt a then b else a) ∨
      (mod = 10 ∧ r = if a.slt b then b else a)) →
    exec (.aluReg t th mod rd ra rb) s =
      .next (s.modThread t th (fun y => (y.put rd (r.toNat, x.poisonX ra || x.poisonX rb)).next))) ∧
  (∀ (s : State) (t th mod rd ra imm : Nat) (x : Thread) (a b r : BitVec 64), s.canIssue t th = true → x = (s.tile t).thread th →
    a = BitVec.ofNat 64 (x.getX ra) → b = (BitVec.ofNat 32 imm).signExtend 64 →
    ((mod = 0 ∧ r = a + b) ∨ (mod = 1 ∧ r = a - b) ∨ (mod = 2 ∧ r = a &&& b) ∨ (mod = 3 ∧ r = a ||| b) ∨ (mod = 4 ∧ r = a ^^^ b) ∨
      (mod = 5 ∧ b.toNat < 64 ∧ r = a <<< b.toNat) ∨ (mod = 6 ∧ b.toNat < 64 ∧ r = a >>> b.toNat) ∨
      (mod = 7 ∧ b.toNat < 64 ∧ r = a.sshiftRight b.toNat) ∨ (mod = 8 ∧ r = a * b) ∨ (mod = 9 ∧ r = if b.slt a then b else a) ∨
      (mod = 10 ∧ r = if a.slt b then b else a)) →
    exec (.aluImm t th mod rd ra imm) s = .next (s.modThread t th (fun y => (y.put rd (r.toNat, x.poisonX ra)).next))) ∧
  (∀ (s : State) (t th mod rd ra rb : Nat) (x : Thread), s.canIssue t th = true → x = (s.tile t).thread th → 5 ≤ mod → mod ≤ 7 →
    64 ≤ x.getX rb →
    ∃ v : Nat, v < 2 ^ 64 ∧ exec (.aluReg t th mod rd ra rb) s =
      .next (State.modThread { s with free := s.free + 1 } t th (fun y => (y.put rd (v, x.poisonX ra || x.poisonX rb)).next))) ∧
  (∀ (s : State) (t th mod rd ra imm : Nat) (x : Thread), s.canIssue t th = true → x = (s.tile t).thread th → 5 ≤ mod → mod ≤ 7 →
    64 ≤ ((BitVec.ofNat 32 imm).signExtend 64).toNat →
    ∃ v : Nat, v < 2 ^ 64 ∧ exec (.aluImm t th mod rd ra imm) s =
      .next (State.modThread { s with free := s.free + 1 } t th (fun y => (y.put rd (v, x.poisonX ra)).next))) ∧
  (∀ (s : State) (t th mod ra rb : Nat) (x : Thread) (a b : BitVec 64) (c : Bool), s.canIssue t th = true → x = (s.tile t).thread th →
    a = BitVec.ofNat 64 (x.getX ra) → b = BitVec.ofNat 64 (x.getX rb) →
    ((mod = 0 ∧ c = (a == b)) ∨ (mod = 1 ∧ c = (a != b)) ∨ (mod = 2 ∧ c = a.slt b) ∨ (mod = 3 ∧ c = a.ult b) ∨
      (mod = 4 ∧ c = b.sle a) ∨ (mod = 5 ∧ c = b.ule a)) →
    exec (.compare t th mod ra rb) s = .next (s.modThread t th (fun y =>
      { y with pc := y.pc + 8, flag := c && !(x.poisonX ra || x.poisonX rb), flagP := x.poisonX ra || x.poisonX rb }))) ∧
  (∀ (s : State) (t th mod imm d : Nat) (x : Thread), s.canIssue t th = true → x = (s.tile t).thread th → mod < 3 →
    (mod = 0 ∨ x.flagP = false) →
    d = (if mod = 0 ∨ (mod = 1 ∧ x.flag = true) ∨ (mod = 2 ∧ x.flag = false) then
      (((x.pc : Int) + 8 * (BitVec.ofNat 32 imm).toInt) % 2 ^ 64).toNat else x.pc + 8) →
    exec (.branch t th mod imm) s = .next (s.modThread t th (fun y => { y with pc := d }))) ∧
  (∀ (s : State) (t th mod rd ra rb imm : Nat), s.canIssue t th = true →
    (10 < mod → exec (.aluReg t th mod rd ra rb) s = .next (s.faultPc t th 0x0008) ∧
      exec (.aluImm t th mod rd ra imm) s = .next (s.faultPc t th 0x0008)) ∧
    (5 < mod → exec (.compare t th mod ra rb) s = .next (s.faultPc t th 0x0008)) ∧
    (2 < mod → exec (.branch t th mod imm) s = .next (s.faultPc t th 0x0008)) ∧
    (1 ≤ mod ∧ mod ≤ 2 ∧ ((s.tile t).thread th).flagP = true →
      exec (.branch t th mod imm) s = .next (s.poisonUse t th ((s.tile t).thread th).pc)))

/-- O24. A load, a store or an atomic of a thread that may issue, at an address that `access` lets it reach, completes. A load writes RD
from the bytes it finds, extended as MOD says, or from the tile's own register; the access to a held range waits. A store stores RB's
low bytes, poisoned as RB is, or clears bits of TILE.ARITH_STATUS. An atomic writes RD with the old value, poisoned when its word is,
and stores the new value unless the word is poisoned and not wholly replaced. An address that is poisoned, misaligned or out of reach,
and a MOD not listed, take their thread fault (R119 to R123, R130, R180, R181, R267). -/
def Obligations.LoadsAndStoresComplete : Prop :=
  (∀ (s s1 : State) (t th mod rd ra imm a n : Nat) (ups : List Upset) (b : List PByte), s.canIssue t th = true → mod < 16 →
    n = 2 ^ (mod % 4) → s.access t th (((s.tile t).thread th).effAddr ra imm) n n false = .ok a →
    (a < tileBlock t ∨ tileBlock t + 0x1000 ≤ a) → s.loadHeld t a n (bit mod 2 == 1) = false →
    (ups.foldl State.strike s).threadLoad t a n (bit mod 2 == 1) = (s1, b) →
    exec (.load t th mod rd ra imm ups) s =
      .next ((s1.modThread t th (fun x =>
        (x.put rd (extend n (bit mod 3 == 1) (wordsVal b (a % 8) n).1, (wordsVal b (a % 8) n).2)).next)).crewProgress t)) ∧
  (∀ (s : State) (t th mod rd ra imm a n : Nat) (ups : List Upset), s.canIssue t th = true → mod < 16 →
    n = 2 ^ (mod % 4) → s.access t th (((s.tile t).thread th).effAddr ra imm) n n false = .ok a →
    (a < tileBlock t ∨ tileBlock t + 0x1000 ≤ a) → s.loadHeld t a n (bit mod 2 == 1) = true →
    exec (.load t th mod rd ra imm ups) s = .next (s.hold [(a, n)])) ∧
  (∀ (s s1 : State) (t th mod rd ra imm a n o v : Nat) (ups : List Upset), s.canIssue t th = true → mod < 16 →
    n = 2 ^ (mod % 4) → s.access t th (((s.tile t).thread th).effAddr ra imm) n n false = .ok a →
    tileBlock t ≤ a → a < tileBlock t + 0x1000 → o = a - tileBlock t →
    (s.tileReg t (o / 8 * 8) = some (v, s1) ∨ (s.tileReg t (o / 8 * 8) = none ∧ s.draw = (v, s1))) →
    exec (.load t th mod rd ra imm ups) s = .next (s1.modThread t th (fun x =>
      (x.put rd (extend n (bit mod 3 == 1) (v / 2 ^ (8 * (o % 8)) % 2 ^ (8 * n)), false)).next))) ∧
  (∀ (s : State) (t th mod ra rb imm a n : Nat) (x : Thread), s.canIssue t th = true → mod < 4 → n = 2 ^ mod →
    x = (s.tile t).thread th → s.access t th (x.effAddr ra imm) n n true = .ok a → (a < tileBlock t ∨ tileBlock t + 0x1000 ≤ a) →
    exec (.store t th mod ra rb imm) s =
      .next ((s.threadStore t th a ((toLe n (x.getX rb)).map (fun b => PByte.mk (if x.poisonX rb then 0 else b) (x.poisonX rb)))).modThread t
        th Thread.next)) ∧
  (∀ (s s1 : State) (t th mod ra rb imm a n v o : Nat) (x : Thread), s.canIssue t th = true → mod < 4 → n = 2 ^ mod →
    x = (s.tile t).thread th → s.access t th (x.effAddr ra imm) n n true = .ok a → tileBlock t ≤ a → a < tileBlock t + 0x1000 →
    o = 8 * (a % 8) → ((x.poisonX rb = false ∧ v = x.getX rb ∧ s1 = s) ∨ (x.poisonX rb = true ∧ s.draw = (v, s1))) →
    exec (.store t th mod ra rb imm) s = .next (s1.modTile t (fun y =>
      (y.clearArith (v % 2 ^ (8 * n) * 2 ^ o) ((2 ^ (8 * n) - 1) * 2 ^ o)).modThread th Thread.next))) ∧
  (∀ (s s1 s2 s3 : State) (t th mod rd ra rb a n op : Nat) (x : Thread) (old : PVal) (keep bad : Bool) (new : List PByte),
    s.canIssue t th = true → mod < 10 → n = (if mod % 2 = 0 then 4 else 8) → op = mod / 2 → x = (s.tile t).thread th →
    s.access t th (x.operand ra) n n true = .ok a → (isT0 a = true ∨ isT1 a = true) → s.heldRange a n = false →
    s1 = s.settle t (a / 8 * 8) 8 → old = wordsVal (s1.peek (a / 8 * 8) 8) (a % 8) n → keep = (old.2 && !(op == 1 && n == 8)) →
    bad = (x.poisonX rb || (op == 2 && x.poisonX rd)) →
    new = (toLe n (atomicVal op (8 * n) old.1 (x.getX rd) (x.getX rb))).map (fun b => PByte.mk (if bad then 0 else b) bad) →
    s2 = s1.noteRead (a / 8 * 8) 8 → s3 = (if keep then s2 else s2.storeBytes a new) →
    exec (.atomic t th mod rd ra rb) s = .next (((s3.modTile t (fun y => { y with cache := y.cache.map (fun c =>
        if isT1 a ∧ c.line = a / 64 ∧ !keep then { c with bytes := layOver c.bytes (List.replicate (a % 64) none ++ new.map some) }
        else c) })).modThread t th (fun y => (y.put rd old).next)).crewProgress t)) ∧
  (∀ (s : State) (t th mod rd ra rb a n : Nat) (x : Thread), s.canIssue t th = true → mod < 10 → n = (if mod % 2 = 0 then 4 else 8) →
    x = (s.tile t).thread th → s.access t th (x.operand ra) n n true = .ok a →
    ((isT0 a = false ∧ isT1 a = false) →
      exec (.atomic t th mod rd ra rb) s = .next (s.threadFault t th 0x0004 (x.getX ra))) ∧
    ((isT0 a = true ∨ isT1 a = true) ∧ s.heldRange a n = true → exec (.atomic t th mod rd ra rb) s = .next (s.hold [(a, n)]))) ∧
  (∀ (s : State) (t th n ea : Nat) (w : Bool),
    s.access t th (ea, true) n n w = .error (s.poisonUse t th ((s.tile t).thread th).pc) ∧
    (ea % n ≠ 0 → s.access t th (ea, false) n n w = .error (s.threadFault t th 0x0006 ea)) ∧
    (∀ c, ea % n = 0 → s.reach t ea n w = .error c → s.access t th (ea, false) n n w = .error (s.threadFault t th c ea))) ∧
  (∀ (s u : State) (t th mod rd ra imm n : Nat) (ups : List Upset), s.canIssue t th = true → mod < 16 → n = 2 ^ (mod % 4) →
    s.access t th (((s.tile t).thread th).effAddr ra imm) n n false = .error u → exec (.load t th mod rd ra imm ups) s = .next u) ∧
  (∀ (s u : State) (t th mod ra rb imm n : Nat), s.canIssue t th = true → mod < 4 → n = 2 ^ mod →
    s.access t th (((s.tile t).thread th).effAddr ra imm) n n true = .error u → exec (.store t th mod ra rb imm) s = .next u) ∧
  (∀ (s u : State) (t th mod rd ra rb n : Nat), s.canIssue t th = true → mod < 10 → n = (if mod % 2 = 0 then 4 else 8) →
    s.access t th (((s.tile t).thread th).operand ra) n n true = .error u → exec (.atomic t th mod rd ra rb) s = .next u) ∧
  (∀ (s : State) (t th mod rd ra rb imm : Nat) (ups : List Upset), s.canIssue t th = true →
    (16 ≤ mod → exec (.load t th mod rd ra imm ups) s = .next (s.faultPc t th 0x0008)) ∧
    (4 ≤ mod → exec (.store t th mod ra rb imm) s = .next (s.faultPc t th 0x0008)) ∧
    (10 ≤ mod → exec (.atomic t th mod rd ra rb) s = .next (s.faultPc t th 0x0008)))

/-- O25. A vector load, store, operation or prefix scan of a thread that may issue completes: a load writes 64 lanes with their
words' poison, from the parts of memory its 256 bytes reach or from the tile's own registers; a store stores 256 bytes over the parts it
reaches; an operation writes RD from its lanes and raises the flags its lanes name; and a scan writes what `scanHalf` makes of each
half, five levels and then the carry-in (R95 to R97, R110, R111, R116, R120, R130, R180, R267). A load of held parts waits, and an
address that may not be accessed and a MOD not listed take their thread fault. -/
def Obligations.VectorInstructionsComplete : Prop :=
  (∀ (s s1 : State) (t th rd ra imm a : Nat) (l : List (Nat × Nat)) (b : List PByte), s.canIssue t th = true →
    s.access t th (((s.tile t).thread th).effAddr ra imm) 256 64 false = .ok a → (a < tileBlock t ∨ tileBlock t + 0x1000 ≤ a) →
    s.pieces t (((s.tile t).thread th).effAddr ra imm).1 256 false = .ok l → l.any (fun p => s.loadHeld t p.1 p.2 false) = false →
    s.loadPieces t l = (s1, b) →
    ∃ (v : Vector Word32 64) (p : BitVec 32), exec (.vectorLoad t th rd ra imm) s =
        .next ((s1.modThread t th (fun x => (x.putV rd v p).next)).crewProgress t) ∧
      (∀ i, (h : i < 64) → v[i] = BitVec.ofNat 32 (leAt (vals b) (4 * i) 4)) ∧
      (∀ w, w < 32 → p.getLsbD w = ((b.drop (8 * w)).take 8).any PByte.p)) ∧
  (∀ (s : State) (t th rd ra imm a : Nat) (l : List (Nat × Nat)), s.canIssue t th = true →
    s.access t th (((s.tile t).thread th).effAddr ra imm) 256 64 false = .ok a → (a < tileBlock t ∨ tileBlock t + 0x1000 ≤ a) →
    s.pieces t (((s.tile t).thread th).effAddr ra imm).1 256 false = .ok l → l.any (fun p => s.loadHeld t p.1 p.2 false) = true →
    exec (.vectorLoad t th rd ra imm) s = .next (s.hold l)) ∧
  (∀ (s s1 : State) (t th rd ra imm a : Nat) (ws : List Nat), s.canIssue t th = true →
    s.access t th (((s.tile t).thread th).effAddr ra imm) 256 64 false = .ok a → tileBlock t ≤ a → a < tileBlock t + 0x1000 →
    (ws, s1) = (List.range 32).foldl (fun (acc : List Nat × State) i =>
      (acc.1 ++ [(acc.2.readTileReg t (a + 8 * i) 8).1], (acc.2.readTileReg t (a + 8 * i) 8).2)) ([], s) →
    ∃ v : Vector Word32 64, exec (.vectorLoad t th rd ra imm) s = .next (s1.modThread t th (fun x => (x.putV rd v 0).next)) ∧
      (∀ i, (h : i < 64) → v[i] = BitVec.ofNat 32 (ws.getD (i / 2) 0 / 2 ^ (32 * (i % 2))))) ∧
  (∀ (s : State) (t th rd ra imm a : Nat) (x : Thread) (l : List (Nat × Nat)), s.canIssue t th = true → x = (s.tile t).thread th →
    s.access t th (x.effAddr ra imm) 256 64 true = .ok a → s.pieces t (x.effAddr ra imm).1 256 true = .ok l →
    exec (.vectorStore t th rd ra imm) s =
      .next ((s.storePieces t th l (((x.vreg rd).1.toList.zipIdx.map (fun y =>
        (toLe 4 y.1.toNat).map (fun z => PByte.mk z ((x.vreg rd).2.getLsbD (y.2 / 2))))).flatten)).modThread t th Thread.next)) ∧
  (∀ (s u : State) (t th rd ra imm : Nat), s.canIssue t th = true →
    (s.access t th (((s.tile t).thread th).effAddr ra imm) 256 64 false = .error u → exec (.vectorLoad t th rd ra imm) s = .next u) ∧
    (s.access t th (((s.tile t).thread th).effAddr ra imm) 256 64 true = .error u → exec (.vectorStore t th rd ra imm) s = .next u)) ∧
  (∀ (s : State) (t th mod rd ra rb : Nat) (x : Thread), s.canIssue t th = true → mod < 48 → x = (s.tile t).thread th →
    ∃ (v : Vector Word32 64) (p : BitVec 32), exec (.vectorOp t th mod rd ra rb) s =
        .next ((s.modThread t th (fun x => (x.putV rd v p).next)).raiseFlags t (vecFlags (vecOut mod) v p)) ∧
      (∀ i, (h : i < 64) → v[i] = BitVec.ofNat 32 (vecLane mod (x.vreg rd).1[i].toNat (x.vreg ra).1[i].toNat (x.vreg rb).1[i].toNat)) ∧
      p = (x.vreg ra).2 ||| (if vecReadsB mod then (x.vreg rb).2 else 0) ||| (if mod % 16 = 3 then (x.vreg rd).2 else 0)) ∧
  (∀ (s : State) (t th mod rd ra rb : Nat) (x : Thread) (la lb ld : List PVal) (ins : List ScanLane) (out : List PVal),
    s.canIssue t th = true → mod < 4 → x = (s.tile t).thread th →
    la = laneList (x.vreg ra).1 (x.vreg ra).2 → lb = laneList (x.vreg rb).1 (x.vreg rb).2 → ld = laneList (x.vreg rd).1 (x.vreg rd).2 →
    ins = (if mod = 3 then (la.zip ld).map (fun y => ScanLane.mk y.1.1 y.2.1 (y.1.2 || y.2.2)) else la.map (fun y => ScanLane.mk 0 y.1 y.2)) →
    out = scanHalf mod (ins.take 32) (lb.take 32) ++ scanHalf mod (ins.drop 32) (lb.drop 32) →
    ∃ (v : Vector Word32 64) (p : BitVec 32), exec (.prefixScan t th mod rd ra rb) s =
        .next ((s.modThread t th (fun x => (x.putV rd v p).next)).raiseFlags t (vecFlags fFP32 v p)) ∧
      (∀ i, (h : i < 64) → v[i] = BitVec.ofNat 32 (out.getD i (0, false)).1) ∧
      (∀ w, w < 32 → p.getLsbD w = ((out.getD (2 * w) (0, false)).2 || (out.getD (2 * w + 1) (0, false)).2))) ∧
  (∀ (s : State) (t th mod rd ra rb : Nat), s.canIssue t th = true →
    (48 ≤ mod → exec (.vectorOp t th mod rd ra rb) s = .next (s.faultPc t th 0x0008)) ∧
    (4 ≤ mod → exec (.prefixScan t th mod rd ra rb) s = .next (s.faultPc t th 0x0008)))

/-- O26. An array operation whose descriptor is sound is issued while its array reduces nothing, and waits while it does; `arr.wait`
returns when the array has nothing under way and blocks its thread otherwise; the end of a reduction puts the sums that `arrReduce` gives
into the accumulators, counts its steps and its skipped pads, moves a converting operation's sums to the second set, and faults where the
sums may not be had; and the end of a conversion writes the tile that `convTile` gives with its scales, ORs its flags and sends a checked
chain's sums to the umpires (R102, R106, R107, R109, R235, R238, R242, R401). -/
def Obligations.ArrayInstructionsComplete : Prop :=
  (∀ (s : State) (t th ra rb a off n : Nat) (conv : Bool) (x : Thread) (o : ArrOp), s.canIssue t th = true → x = (s.tile t).thread th →
    a = x.getX rb → x.poisonX rb = false → a < 4 → n = (if conv then 128 else 64) →
    s.descOffset t th ra (if conv then 64 else 1) n = .ok off →
    ((s.tile t).arr a).reducing = none →
    o = { conv := conv, desc := s.peek (t * t0TileSize + off) n, thread := th, pc := x.pc } →
    State.arrFail t ((s.tile t).arr a) (t * t0TileSize + off) o = none →
    exec (if conv then .arrConv t th ra rb else .arrRun t th ra rb) s =
      .next ((s.modTile t (fun x => { (x.modThread th Thread.next) with
        arrays := vmod x.arrays a (fun y => { y with reducing := some o }) })).noteRead (t * t0TileSize + off) n)) ∧
  (∀ (s : State) (t th ra rb a off n : Nat) (conv : Bool) (x : Thread), s.canIssue t th = true → x = (s.tile t).thread th →
    a = x.getX rb → x.poisonX rb = false → a < 4 → n = (if conv then 128 else 64) →
    s.descOffset t th ra (if conv then 64 else 1) n = .ok off → ((s.tile t).arr a).reducing ≠ none →
    exec (if conv then .arrConv t th ra rb else .arrRun t th ra rb) s = .next s) ∧
  (∀ (s : State) (t th rb : Nat) (x : Thread), s.canIssue t th = true → x = (s.tile t).thread th → x.poisonX rb = false → x.getX rb < 4 →
    exec (.arrWait t th rb) s = .next (s.modThread t th (fun y =>
      if ((s.tile t).arr (x.getX rb)).reducing = none ∧ ((s.tile t).arr (x.getX rb)).converting = none then { y with pc := y.pc + 8 }
      else { y with block := .arrWait (x.getX rb) }))) ∧
  (∀ (s : State) (t a k skip : Nat) (o : ArrOp) (y z : Arr) (d : List Byte), ((s.tile t).arr a).reducing = some o → s.tileRuns t = true →
    (o.converts = false ∨ ((s.tile t).arr a).converting = none) → s.arrReduce t ((s.tile t).arr a) o = .ok y → d = vals o.desc →
    k = (if o.conv then leAt d 6 2 * byteAt d 32 * byteAt d 33 else leAt d 4 4) →
    skip = (if o.conv then cvSkipped d o.rows * stepsOf o.fmts.1 o.fmts.2 (leAt d 6 2) else 0) →
    z = (if o.converts then { y with
        live := false, converting := some o, outAcc := y.acc, outEb := y.eb.getD 0, outLane := (if y.check then some y.lane else none),
        acc := Vector.replicate 1024 Acc.zero, eb := none, lane := Lane.zero } else y) →
    exec (.arrayReductionDone t a) s =
      .next (((s.modTile t (fun x => (({ x with arrays := vset x.arrays a z }).addSteps (stepsOf o.fmts.1 o.fmts.2 k - skip)).wakeArr
        a)).bump (ctrId 0x05000048) skip).noteReads (o.reads.map (fun r => (t * t0TileSize + r.1, r.2))))) ∧
  (∀ (s : State) (t a e : Nat) (o : ArrOp), ((s.tile t).arr a).reducing = some o → s.tileRuns t = true →
    (o.converts = false ∨ ((s.tile t).arr a).converting = none) → s.arrReduce t ((s.tile t).arr a) o = .error e →
    exec (.arrayReductionDone t a) s = .next (s.threadFault t o.thread e o.pc)) ∧
  (∀ (s s1 s2 s3 s4 : State) (t a : Nat) (o : ArrOp) (y : Arr) (rnds : List Rnd) (uf : BitVec 9) (rows : List (Nat × List PByte))
    (scales : List (Nat × PByte)) (cf : BitVec 9) (used : List Acc), t < 128 → a < 4 → y = (s.tile t).arr a →
    y.converting = some o → s.tileRuns t = true →
    (y.outLane = none ∨ ((s.sched.jobs.flatMap Job.checks).filter (fun c => c.tile == t)).length < 4) →
    s.rounds t o.convDesc (y.outAcc.toList.map (fun x => x.value y.outEb (sext 16 (leAt o.convDesc 4 2)))) = (rnds, uf) →
    convTile o.convDesc o.rows rnds y.outAcc.toList y.outEb = (rows, scales, cf) →
    s1 = rows.foldl (fun s r => s.storeBytes (t * t0TileSize + o.out.1 + r.1 * o.out.2) r.2) s →
    s2 = scales.foldl (fun s r => s.storeBytes (t * t0TileSize + o.out.1 + 32 * o.out.2 + r.1) [r.2]) s1 →
    used = o.rows.flatMap (fun i => (y.outAcc.toList.drop (32 * i)).take 32) →
    s3 = s2.raiseFlags t (cf ||| flagIf (!o.rows.isEmpty) uf ||| flagIf (used.any Acc.lo) fInexLo ||| flagIf (used.any Acc.hi) fInexHi) →
    ((y.outLane = none ∧ s4 = s3) ∨ (s3.tileJob t = none ∧ s4 = s3) ∨
      (∃ l j, y.outLane = some l ∧ s3.tileJob t = some j ∧
        s4 = s3.modJob j.uid (fun j => { j with checks := j.checks ++ [y.checkRecord t a s.time.half l] }))) →
    exec (.outputConversionDone t a) s = .next (s4.modTile t (fun x =>
      ({ x with arrays := vmod x.arrays a (fun y => { y with converting := none, outLane := none }) }).wakeArr a)))

/-- O27. A sweep, an xform run and a pool operation whose descriptors a thread names rightly enter their queues, or the tile's pool
unit; with no room they wait, and with no unit left the context is torn down. Their waits return when nothing of the thread is out. The
end of an xform run and of a pool operation writes its outputs, frees its unit and lets the thread go on, and a run whose reads are held
waits (R191, R192, R244, R247 to R255, R439). -/
def Obligations.UnitInstructionsComplete : Prop :=
  (∀ (s u : State) (t th ra o ctx : Nat), s.canIssue t th = true → s.descOffset t th ra 128 128 = .ok o → (s.tile t).ctx = some ctx →
    u = s.modTile t (fun x => { (x.modThread th Thread.next) with sweepsOut := raiseCount x.sweepsOut th }) →
    exec (.sweepRun t th ra) s = .next
      (if s.notRetired 1 = 0 then s.teardown ctx 0x0130
      else if 16 ≤ runsOut (s.tile t).sweepsOut then s
      else State.runsPlace { u with
        sweep := { u.sweep with queue := u.sweep.queue ++ [⟨t, th, ((s.tile t).thread th).pc, ctx, o, [], false⟩] } })) ∧
  (∀ (s : State) (t th : Nat), s.canIssue t th = true →
    exec (.sweepWait t th) s = .next (s.modThread t th (fun x =>
      if alookup (s.tile t).sweepsOut th = none then { x with pc := x.pc + 8 } else { x with block := .sweepWait }))) ∧
  (∀ (s u : State) (t th ra o ctx : Nat), s.canIssue t th = true → s.descOffset t th ra 128 128 = .ok o → (s.tile t).ctx = some ctx →
    u = s.modTile t (fun x => { (x.modThread th Thread.next) with xfsOut := raiseCount x.xfsOut th }) →
    exec (.xfRun t th ra) s = .next
      (if s.notRetired 2 = 0 then s.teardown ctx 0x0130
      else if 8 ≤ runsOut (s.tile t).xfsOut then s
      else State.runsPlace { u with
        xf := { u.xf with queue := u.xf.queue ++ [⟨t, th, ((s.tile t).thread th).pc, ctx, o, [], false⟩] } })) ∧
  (∀ (s : State) (t th : Nat), s.canIssue t th = true →
    exec (.xfWait t th) s = .next (s.modThread t th (fun x =>
      if alookup (s.tile t).xfsOut th = none then { x with pc := x.pc + 8 } else { x with block := .xfWait }))) ∧
  (∀ (s s1 : State) (e : Nat) (r : Run) (d : List Byte), vget none s.xf.engines e = some r → d = vals r.desc → s.usable 2 e = true →
    s.domOn (68 + e / 2) = true → s.fault.bridge.down = false →
    s1 = (if byteAt d 0 = 0 then s.runSpectrum d else s.runConvolve r.tile d) →
    exec (.xfRunComplete e) s = .next
      (if (xfReads r d).any (fun x => s.heldRange x.1 x.2) = true then s.hold (xfReads r d)
      else (((State.touch { s1 with xf := { s1.xf with engines := vset s1.xf.engines e none } } (68 + e / 2)).xfDone r.tile
        r.thread).runsPlace.noteReads (xfReads r d)))) ∧
  (∀ (s : State) (t th ra o : Nat) (pd : List PByte), s.canIssue t th = true → s.descOffset t th ra 64 64 = .ok o → (s.tile t).pool = none →
    pd = s.peek (t * t0TileSize + o) 64 → poolFail (t * t0TileSize + o) t pd = none →
    exec (.poolRun t th ra) s =
      .next ((s.modTile t (fun x => { (x.modThread th (fun y => { y with block := .poolWait })) with pool := some ⟨pd, th⟩ })).noteRead
        (t * t0TileSize + o) 64)) ∧
  (∀ (s : State) (t th ra o : Nat), s.canIssue t th = true → s.descOffset t th ra 64 64 = .ok o → (s.tile t).pool ≠ none →
    exec (.poolRun t th ra) s = .next s) ∧
  (∀ (s : State) (t : Nat) (o : PoolOp), (s.tile t).pool = some o → s.tileRuns t = true →
    exec (.poolComplete t) s = .next (((s.runPool t (vals o.desc)).modTile t (fun x =>
      if (x.thread o.thread).block = .poolWait then ({ x with pool := none }).modThread o.thread Thread.wake
      else { x with pool := none })).noteReads ((plReads (vals o.desc)).map (fun r => (t * t0TileSize + r.1, r.2)))))

/-- O28. A sweep that a pipeline holds ends, with its result written, when its pages are at hand, and waits while a range it reads is
held; a page whose grace has run out while issue was not stopped is replaced; and a page's fetch or spill that ends changes that page's
state and lets what waits for it go on (R191, R199 to R207, R214, R216, R217, R224, R225, R294). -/
def Obligations.SweepEventsComplete : Prop :=
  (∀ (s u v : State) (p id n : Nat) (w : Sweep) (q : SeqCtx) (l : KvList) (d : List Byte), vget none s.sweep.pipes p = some w →
    s.sweepList w = some (id, n, q, l, d) → p < 16 → s.usable 1 p = true → s.domOn (64 + p / 4) = true → s.fault.bridge.down = false →
    w.ready l (tppOf q.headDim) = true →
    ((swBack d = false ∧ u = (s.finishForward w id n q l d).freePipe p w) ∨
      (swBack d = true ∧ s.finishBackward w id n q l d = .ok v ∧ u = v.freePipe p w) ∨
      (swBack d = true ∧ ∃ e, s.finishBackward w id n q l d = .error e ∧ u = (s.freePipe p w).runFault w.run (e, none))) →
    exec (.sweepComplete p) s = .next
      (if (s.sweepReads w id n q l d).any (fun r => s.heldRange r.1 r.2) = true then s.hold (s.sweepReads w id n q l d)
      else (((((u.syncCtx id).spillBackground).walkAll).runsPlace).noteReads (s.sweepReads w id n q l d)).endKvWaits)) ∧
  (∀ (s : State) (p list page id dl : Nat) (w : Sweep) (q : SeqCtx) (l : KvList) (d : List Byte), vget none s.sweep.pipes p = some w →
    s.sweepList w = some (id, list, q, l, d) → w.wait_ = some (page, dl) → dl ≤ s.time.half → s.mayReplace w = true →
    s.graceRuns w = true →
    exec (.kvGraceExpired p list page) s =
      .next (State.walk { s with sweep := { s.sweep with
        pipes := vset s.sweep.pipes p (some { w with replaced := w.replaced ++ [page], wait_ := none }) } } p)) ∧
  (∀ (s : State) (ctx list page : Nat), (s.page ctx list page).state = .fetching →
    exec (.kvFetchComplete ctx list page) s = .next ((((s.endFetch ctx list page).walkAll).syncCtx ctx).endKvWaits)) ∧
  (∀ (s : State) (ctx list page : Nat), (s.page ctx list page).state = .spilling → (s.page ctx list page).durable = false →
    exec (.kvSpillDurable ctx list page) s =
      .next (((((s.modPage ctx list page (fun p => { p with durable := true })).endSpill ctx list page).walkAll).syncCtx ctx).endKvWaits))

/-- O29. The bow instructions and events complete (R116, R126 to R129, R133, R135, R157, R181, R490): an idle engine starts its stream
once the thread's stores are at home, and a thread waits for an engine that is not idle; `bow.wait` returns when the stream is done; an
engine that is not at rest or at a barrier reads its next descriptor, from the parts it reaches, and stalls beyond its run-ahead or
carries the descriptor out; a fill's rows stand in T0 with its slot FULL, or its slot is EMPTY when it was discarded; a drain's rows are
at home with its slot EMPTY; a transfer whose rows are held waits, and one of a crew being torn down ends without effect. -/
def Obligations.BowsComplete : Prop :=
  (∀ (s u : State) (t th ra rb e : Nat) (x : Thread), s.canIssue t th = true → x = (s.tile t).thread th → x.poisonX ra = false →
    x.poisonX rb = false → e = x.getX rb → e < 2 → u = s.sendOwn t th →
    exec (.bowStart t th ra rb) s = .next
      (if (vget Bow.reset (s.tile t).bows e).state ≠ .idle then s
      else if (u.tile t).unacked th = true then u.modThread t th (fun y => { y with block := .bowStart e (x.getX ra) })
      else (u.modTile t (fun y => (y.startBow e th (x.getX ra)).modThread th Thread.next)).startWaited t)) ∧
  (∀ (s : State) (t th rb e : Nat) (x : Thread), s.canIssue t th = true → x = (s.tile t).thread th → x.poisonX rb = false →
    e = x.getX rb → e < 2 →
    exec (.bowWait t th rb) s = .next (s.modThread t th (fun y =>
      if (s.tile t).bowDone e then { y with pc := y.pc + 8 } else { y with block := .bowWait e }))) ∧
  (∀ (s s1 : State) (t e : Nat) (ups : List Upset) (j : Job) (b : Bow) (l : List (Nat × Nat)) (d : List PByte), s.tileJob t = some j →
    e < 2 → s.usable 0 t = true → s.crewIssues j t = true → b = vget Bow.reset (s.tile t).bows e →
    (b.state = .running ∨ b.state = .stalledSlot ∨ b.state = .stalledAhead) → s.bowPieces t b.next 32 false = .ok l →
    (s1, d) = (if b.state = .running then s.readPieces ups l else (s, s.peekPieces l)) →
    exec (.bowDescriptor t e ups) s = .next
      (if l.any (fun p => s.heldRange p.1 p.2) = true then s.hold l
      else if (s.tile t).completed + 16 < b.step then s1.modBow t e (fun b => { b with state := .stalledAhead })
      else s1.bowExec j t e d)) ∧
  (∀ (s s1 : State) (t slot : Nat) (x : Slot) (a : Access) (rows : List (List (Nat × Nat))), x = vget Slot.reset (s.tile t).slots slot →
    x.state = .filling → slot < 64 → s.tileRuns t = true → s.tileTearing t = false → s.heldBackSlot t slot = false →
    a = accessOf (vals x.desc) → s.outerRows t a false = .ok rows → s1 = rows.foldl State.noteReads (s.hitLayer t slot) →
    exec (.fillComplete t slot) s = .next
      (if rows.any (fun r => r.any (fun p => s.heldRange p.1 p.2)) = true then s.hold rows.flatten
      else if x.discard = true then (s1.setSlot t slot .empty).crewProgress t
      else ((((rows.zipIdx.foldl (fun u r => u.storeBytes (t * t0TileSize + a.t0Row r.2) (s.outerPeek r.1)) s1).setSlot t slot
        .full).wakeBuf t slot (b2n (s.slotPast t slot))).crewProgress t))) ∧
  (∀ (s : State) (t slot : Nat) (x : Slot) (a : Access) (rows : List (List (Nat × Nat))), x = vget Slot.reset (s.tile t).slots slot →
    x.state = .draining → slot < 64 → s.tileRuns t = true → s.tileTearing t = false → s.heldBackSlot t slot = false →
    a = accessOf (vals x.desc) → s.outerRows t a true = .ok rows →
    exec (.drainComplete t slot) s = .next
      (if rows.any (fun r => r.any (fun p => s.heldRange p.1 p.2 || (isNvs p.1 && s.sagging))) = true then s.hold rows.flatten
      else ((((rows.zipIdx.foldl (fun u r =>
        (u.noteRead (t * t0TileSize + a.t0Row r.2) a.bytes).outerStore t r.1 (u.peek (t * t0TileSize + a.t0Row r.2) a.bytes)) s).setSlot t
          slot .empty).wakeBow t (slot / 32)).crewProgress t))) ∧
  (∀ (s : State) (t slot : Nat), slot < 64 → s.tileRuns t = true → s.tileTearing t = true →
    ((vget Slot.reset (s.tile t).slots slot).state = .filling → exec (.fillComplete t slot) s = .next (s.setSlot t slot .empty)) ∧
    ((vget Slot.reset (s.tile t).slots slot).state = .draining → exec (.drainComplete t slot) s = .next (s.setSlot t slot .empty)))

/-- O30. The buffer instructions complete (R128, R129, R155 to R157): a wait on a FULL slot returns 0, one on an EMPTY or FILLING slot
past its layer's deadline returns 1 and any other of those blocks, its layer's deadline started when it is the first; a post of an EMPTY
slot and a release of a FULL one set its state, and a release of a FILLING slot of a layer declared late has the fill discarded;
`step.done` counts a step; and a fetch deadline lets the waits on its slot return 1. In any other state of the slot the instruction is a
PROTOCOL fault, and a slot number of 64 or more is ILLEGAL. -/
def Obligations.BuffersComplete : Prop :=
  (∀ (s : State) (t th rd i : Nat), s.canIssue t th = true → i < 64 →
    exec (.bufWait t th rd i) s = .next
      (match (vget Slot.reset (s.tile t).slots i).state with
        | .full => s.modThread t th (fun h => (h.setX rd 0 false).wake)
        | .posted => s.faultPc t th 0x000A
        | .draining => s.faultPc t th 0x000A
        | .empty => if s.slotPast t i = true then (s.hitLayer t i).modThread t th (fun h => (h.setX rd 1 false).wake)
          else (s.modThread t th (fun h => { h with block := .bufWait i rd s.time.half })).startWaited t
        | .filling => if s.slotPast t i = true then (s.hitLayer t i).modThread t th (fun h => (h.setX rd 1 false).wake)
          else (s.modThread t th (fun h => { h with block := .bufWait i rd s.time.half })).startWaited t)) ∧
  (∀ (s : State) (t th i : Nat), s.canIssue t th = true → i < 64 →
    exec (.bufPost t th i) s = .next
      (if (vget Slot.reset (s.tile t).slots i).state = .empty then (s.setSlot t i .posted).modThread t th Thread.next
      else s.faultPc t th 0x000A)) ∧
  (∀ (s : State) (t th i : Nat), s.canIssue t th = true → i < 64 →
    exec (.bufRelease t th i) s = .next
      (if (vget Slot.reset (s.tile t).slots i).state = .full then (s.setSlot t i .empty).modThread t th Thread.next
      else if s.lateFill t i = true then (s.modSlot t i (fun x => { x with discard := true })).modThread t th Thread.next
      else s.faultPc t th 0x000A)) ∧
  (∀ (s : State) (t th rd i : Nat), s.canIssue t th = true → 64 ≤ i →
    exec (.bufWait t th rd i) s = .next (s.faultPc t th 0x0008) ∧ exec (.bufPost t th i) s = .next (s.faultPc t th 0x0008) ∧
    exec (.bufRelease t th i) s = .next (s.faultPc t th 0x0008)) ∧
  (∀ (s : State) (t th : Nat), s.canIssue t th = true →
    exec (.stepDone t th) s =
      .next (s.modTile t (fun x => { x with completed := x.completed + 1, threads := vmod x.threads th Thread.next }))) ∧
  (∀ (s : State) (t slot : Nat), slot < 64 → s.tileRuns t = true → s.slotPast t slot = true →
    exec (.fetchDeadline t slot) s = .next (((s.hitLayer t slot).wakeBuf t slot 1).crewProgress t))

/-- O31. Fences, flushes, barriers, semaphores and the end of a thread complete (R114, R117, R122 to R125, R133, R135, R155, R296
to R298): a fence that reaches only the tile goes on at once; one that reaches the device, a flush and a release wait for the stores they
name; `inval` sends the range's buffered bytes home and drops its cached lines; a barrier and `layer.late` wait for the crew; a free or
broken semaphore is granted and a taken one waited for; a boost that has lasted 50 µs tears its holder down; the last thread of a tile to
exit sends the buffer's lines home; and a store's acknowledgement performs it, unless its range is held. -/
def Obligations.SyncComplete : Prop :=
  (∀ (s : State) (t th : Nat), s.canIssue t th = true → exec (.fenceTile t th) s = .next (s.modThread t th Thread.next)) ∧
  (∀ (s u : State) (t th : Nat), s.canIssue t th = true → u = s.sendOwn t th →
    exec (.fenceDev t th) s = .next
      (u.modThread t th (fun x => if (u.tile t).unacked th = true then { x with block := .fence } else { x with pc := x.pc + 8 }))) ∧
  (∀ (s u : State) (t th ra rb : Nat) (x : Thread) (ls : List Nat), s.canIssue t th = true → x = (s.tile t).thread th →
    x.poisonX ra = false → x.poisonX rb = false → u = s.sendLines t (fun w => w.hits (x.getX ra) (x.getX rb)) →
    ls = ((u.tile t).out.filter (fun w => w.hits (x.getX ra) (x.getX rb))).map (fun w => w.addr / 64) →
    exec (.flush t th ra rb) s = .next
      (u.modThread t th (fun x => if ls = [] then { x with pc := x.pc + 8 } else { x with block := .flush ls }))) ∧
  (∀ (s : State) (t th ra rb : Nat) (x : Thread), s.canIssue t th = true → x = (s.tile t).thread th → x.poisonX ra = false →
    x.poisonX rb = false →
    exec (.inval t th ra rb) s = .next ((s.sendLines t (fun w => w.hits (x.getX ra) (x.getX rb))).modTile t (fun y =>
      { (y.modThread th Thread.next) with cache := y.cache.filter (fun c =>
        !decide (c.line * 64 < x.getX ra + x.getX rb ∧ x.getX ra < c.line * 64 + 64)) }))) ∧
  (∀ (s : State) (t th : Nat), s.canIssue t th = true →
    exec (.crewBarrier t th) s =
      .next (((s.sendOwn t th).modThread t th (fun x => { x with block := .barrier false })).crewProgress t)) ∧
  (∀ (s : State) (t th rd imm : Nat), s.canIssue t th = true →
    exec (.layerLate t th rd imm) s =
      .next (((s.sendOwn t th).modThread t th (fun x => { x with block := .layerLate imm rd false })).crewProgress t)) ∧
  (∀ (s : State) (t th rd ra i : Nat) (x : Thread) (m : Sem), s.canIssue t th = true → x = (s.tile t).thread th → x.poisonX ra = false →
    i = x.getX ra → s.sem i = some m → m.st ≠ 1 →
    exec (.semAcquire t th rd ra) s =
      .next ((s.modThread t th (fun h => { h with block := .semAcquire i rd })).grantSem i (t, th) (if m.st = 2 then 0x800D else 0))) ∧
  (∀ (s u : State) (t th rd ra i : Nat) (x : Thread) (m : Sem), s.canIssue t th = true → x = (s.tile t).thread th → x.poisonX ra = false →
    i = x.getX ra → s.sem i = some m → m.st = 1 →
    u = (s.modThread t th (fun h => { h with block := .semAcquire i rd })).modSem i (fun y => { y with waiters := y.waiters ++ [(t, th)] }) →
    exec (.semAcquire t th rd ra) s = .next ((State.boost 4096 u i (u.waiterClass (t, th))).schedule)) ∧
  (∀ (s u : State) (t th ra i : Nat) (x : Thread) (m : Sem), s.canIssue t th = true → x = (s.tile t).thread th → x.poisonX ra = false →
    i = x.getX ra → s.sem i = some m → u = s.sendOwn t th →
    exec (.semRelease t th ra) s = .next
      (if (u.tile t).unacked th = true then u.modThread t th (fun y => { y with block := .semRelease i })
      else ((u.modThread t th Thread.next).releaseSem i).schedule)) ∧
  (∀ (s : State) (sem : Nat) (b : Boost), s.sched.boosts.find? (fun b => b.sem == sem && decide (b.since + 100000 ≤ s.time.half)) = some b →
    exec (.boostExpired sem) s = .next (s.teardown b.ctx 0x0120)) ∧
  (∀ (s u : State) (t th : Nat), s.canIssue t th = true → u = s.modThread t th (fun x => { x with exited := true }) →
    exec (.threadExit t th) s = .next
      (if (u.tile t).threads.toList.all (fun x => !x.started || x.exited) = true then u.sendLines t (fun _ => true) else u)) ∧
  (∀ (s : State) (t i : Nat) (w : OutWrite), (s.tile t).out[i]? = some w → t < 128 → s.tileTearing t = false →
    (s.tile t).behind i w = false →
    exec (.writeAcknowledged t i) s = .next
      (if s.heldRange w.addr w.bytes.length = true then s.hold [(w.addr, w.bytes.length)]
      else (((s.homeStore t w.addr w.bytes).modTile t (fun x => { x with out := x.out.eraseIdx i })).crewProgress t).schedule))

/-- O32. A step ends when every tile of its crew has ended its part: that of an ordinary model ends, that of a safety-relevant model
goes on to its golden pass, and from it to its judgement (R114, R405). A spilling step's stores settle and its records are written, after
which it is spilled; it resumes from them, a tile whose record was lost using poison; and a torn-down crew becomes idle (R133, R181,
R291, R293 to R295). -/
def Obligations.StepEventsComplete : Prop :=
  (∀ (s : State) (ctx : Nat) (j : Job) (m : Model) (p : Placement), s.jobOf ctx = some j → j.issues = true →
    j.tiles.all (fun t => (s.tile t).partEnded) = true → s.model j.model = some m → s.placementOf j j.placement = some p → m.safe = none →
    j.inGolden = false → exec (.stepEnd ctx) s = .next ((s.countAbandoned j).endStep j false)) ∧
  (∀ (s u : State) (ctx : Nat) (j k : Job) (m : Model) (p : Placement), s.jobOf ctx = some j → j.issues = true →
    j.tiles.all (fun t => (s.tile t).partEnded) = true → s.model j.model = some m → s.placementOf j j.placement = some p → m.safe ≠ none →
    j.inGolden = false →
    u = (s.countAbandoned j).modJob j.uid (fun j =>
      { j with state := .golden, inGolden := true, goldenFlags := some 0, arrived := [], layerArrived := [] }) → u.job j.uid = some k →
    exec (.stepEnd ctx) s = .next (u.beginPass k m p k.tiles)) ∧
  (∀ (s : State) (ctx : Nat) (j : Job) (m : Model) (p : Placement), s.jobOf ctx = some j → j.issues = true →
    j.tiles.all (fun t => (s.tile t).partEnded) = true → s.model j.model = some m → s.placementOf j j.placement = some p →
    j.inGolden = true →
    exec (.stepEnd ctx) s = .next ((((s.countAbandoned j).modJob j.uid (fun j => { j with state := .judging }))).tryVerdict j.uid)) ∧
  (∀ (s : State) (ctx : Nat) (j : Job), s.jobOf ctx = some j → j.state = .draining → j.tiles.all (fun t => (s.tile t).drained) = true →
    exec (.spillDrainComplete ctx) s =
      .next ((j.tiles.foldl State.settleStores s).modJob j.uid (fun j => { j with state := .saving }))) ∧
  (∀ (s s1 : State) (ctx : Nat) (j : Job) (p : Placement), s.jobOf ctx = some j → j.state = .saving →
    s.placementOf j j.placement = some p → s1 = (j.tiles.zip j.areas).foldl (fun s x => s.saveTile j p x.1 x.2) s →
    exec (.spillSaveComplete ctx) s =
      .next ((((s1.dissolve j.tiles j.ctx).modJob j.uid (fun k =>
        { k with state := .spilled, saved := j.tiles.map s1.tile, tiles := [], readyAt := s.time.half })).schedule))) ∧
  (∀ (s s1 : State) (ctx : Nat) (j : Job) (p : Placement), s.jobOf ctx = some j → j.state = .resuming →
    j.tiles.all (fun t => s.domOn (t / 2)) = true → s.placementOf j j.placement = some p →
    s1 = (j.tiles.zip (j.areas.zip j.saved)).foldl (fun u x => u.restoreTile p x.1 x.2.1 x.2.2 (s.time.half - j.stoppedAt)) s →
    exec (.resumeIssue ctx) s = .next ((((s1.countLost j).freeAreas j).modJob j.uid (fun k =>
      { k with
        state := if k.inGolden then .golden else .running, pausedHalf := k.pausedHalf + (s.time.half - j.stoppedAt),
        arrived := s.savedArrivals j.areas })).resumeLost
      ((j.tiles.zip j.areas).filter (fun x => recordLost (s.areaRecord x.2))))) ∧
  (∀ (s : State) (ctx cause : Nat) (j : Job), s.jobOf ctx = some j → j.state = .tearing cause →
    exec (.teardownComplete ctx) s = .next ((s.tearNow ctx (s.tearCause j cause)).schedule))

/-- O33. A frame of a usable channel that delivers its line ends the replays of that line: a read frame reads it, with the stored errors it
meets, and a write frame with errors that its check does not find stores what it delivers. A frame whose check finds an error is replayed,
at most four times; when the fourth replay fails too, its channel is charged, fenced and quarantined (R142, R166, R431, R432). -/
def Obligations.LineFramesComplete : Prop :=
  (∀ (s u : State) (a l ty n : Nat) (write : Bool) (errs : List Byte) (ups : List Upset) (b : List PByte), l = a / 64 * 64 →
    (isT1 l || isNvs l) = true → chanUnit l = (ty, n) → s.usable ty n = true → s.domOn (unitDomain ty n) = true →
    s.fault.bridge.down = false → s.frameOf l errs = some b →
    u = { s with fault := { s.fault with replays := aerase s.fault.replays l } } →
    exec (.lineFrameArrival a write errs ups) s = .next
      (if write = false then (u.readWith ups l 64).1 else if errs.all (fun x => x == 0) = true then u else u.storeBytes l b)) ∧
  (∀ (s : State) (a l ty n k : Nat) (write : Bool) (errs : List Byte) (ups : List Upset), l = a / 64 * 64 →
    (isT1 l || isNvs l) = true → chanUnit l = (ty, n) → s.usable ty n = true → s.domOn (unitDomain ty n) = true →
    s.fault.bridge.down = false → k = (alookup s.fault.replays l).getD 0 → s.frameOf l errs = none →
    exec (.lineFrameArrival a write errs ups) s = .next
      (if k < 4 then State.bump { s with fault := { s.fault with replays := aset s.fault.replays l (k + 1) } } (faultCtr 0x80) 1
      else ((State.bump { s with fault := { s.fault with replays := aerase s.fault.replays l } } (faultCtr 0x88) 1).charge
        ty n 5).quarantine ty n 5))

/-- O34. The stack's refresh shows nothing; a page write becomes durable, and its command goes on; and the patrol reads a page of a powered
stack, counts it in its pass, and rewrites it, which is a page write, where its corrected bytes are above the stack's threshold and at most
96 and the supply is not low (R143, R146, R147, R152, R183). -/
def Obligations.StackEventsComplete : Prop :=
  (∀ (s : State) (stack : Nat), exec (.stackRefresh stack) s = .next s) ∧
  (∀ (s : State) (page : Nat) (w : NvsWrite), s.store.nvsWrites.find? (fun w => w.busy.contains page) = some w →
    exec (.nvsPageWriteDurable page) s = .next (((s.putPage w page).pumpWrite w.uid).endWrite w.uid)) ∧
  (∀ (s s1 s2 : State) (page corrected n : Nat), page < 2 ^ 29 → s.domOn (86 + page % 2) = true →
    s1 = s.modChanRec (256 + nvsChan page) (fun r => { r with scrubbed := insertSorted r.scrubbed page }) →
    s2 = (if s1.patrolled (page % 2) < 2 ^ 28 then s1
      else (List.range 16).foldl (fun s i => s.modChanRec (256 + 16 * (page % 2) + i) (fun r => { r with scrubbed := [] })) s1) →
    n = corrected + (s2.badBytes page).length →
    exec (.nvsPatrol page corrected) s = .next
      (if Config.patrolThreshold < n ∧ n ≤ 96 ∧ s.sagging = false then
        { s2.healPage page with
          tier := { (s2.healPage page).tier with wear := vmod (s2.healPage page).tier.wear (page % 2) (fun x => x + 1) } }
      else s2))

/-- O35. While ENABLE is 1 in Row or Paddle, the scrubber reads and corrects the words of T0 and of a powered stack it visits; its lap
alarm, when the lap's time reaches LIMIT_MS, names a channel furthest behind; and the check-logic self-test takes the next channel of its
rotation, the spec not saying which, retires it on a mismatch, sets FAIL then, and begins a new rotation after the last (R72, R176, R185,
R186, R429). -/
def Obligations.ScrubbingCompletes : Prop :=
  (∀ (s : State) (a : Nat) (ups : List Upset), s.store.scrubEnable = true → s.pwr.state < 2 → isT0 a = true →
    exec (.scrubAccess a ups) s = .next ((ups.foldl State.strike s).freshT0Lap.scrubT0 a)) ∧
  (∀ (s : State) (a : Nat) (ups : List Upset), s.store.scrubEnable = true → s.pwr.state < 2 → isT0 a = false → isT1 a = true →
    s.domOn (78 + t1Chan (a - t1Base) % 8) = true →
    exec (.scrubAccess a ups) s = .next ((ups.foldl State.strike s).scrubT1 a)) ∧
  (∀ s : State, s.store.limitMs ≠ 0 → s.store.lapAlarmed = false → s.since s.store.lapStart (us (s.store.limitMs * 1000)) = true →
    s.lapChans ≠ [] → (∀ c ∈ s.lapChans, s.lapDone c ≤ 2 ^ 22) →
    ∃ c : Nat, c ∈ s.lapChans ∧ (∀ d ∈ s.lapChans, s.lapDone c ≤ s.lapDone d) ∧
      exec .scrubLapAlarm s =
        .next (State.raise { s.draw.2 with store := { s.draw.2.store with lapAlarmed := true } } 0x0201 (78 + c % 8) c s.store.limitMs)) ∧
  (∀ (s s0 : State) (pass : Bool), s.fault.bridge.down = false → s0 = (if s.untested = [] then s.newRotation else s) → s0.untested ≠ [] →
    ∃ (u v : State) (c : Nat), c ∈ s0.untested ∧
      u = { s0 with free := s0.free + 1, store := { s0.store with
        testChannel := c, tested := insertSorted s0.store.tested c, testFail := s0.store.testFail || !pass } } ∧
      v = (if pass = true then u else u.retire 4 c 6) ∧
      exec (.t1CheckSelftest pass) s = .next
        (if v.untested.isEmpty = true then
          State.newRotation { v with store := { v.store with testLaps := min (v.store.testLaps + 1) 0xFFFFFFFF } } else v))

/-- O36. The granule of the channel under rebuild that a demand access waits for, or else the one proposed, is copied to its remap home,
line by line, and is held there in line mode; a line that cannot be read arrives with all its words poisoned, and is counted in LINES_LOST;
one that can be read arrives with its data. A page of the NVS channel under rebuild is copied likewise while the supply is good, which is a
page write, of a stack that the spec does not name (R184, R437). -/
def Obligations.RebuildsComplete : Prop :=
  (∀ (s s1 : State) (g n lost o : Nat) (r : Rebuild) (rest : List Rebuild), s.fault.t1Rebuilds = r :: rest → s.fault.bridge.down = false →
    s.fault.bridge.lost = false → n = r.choose g → r.next ≤ n → n < s.rebuildGranules → r.ahead.contains n = false →
    o = t1OfChan r.chan (256 * n) →
    s1 = (List.range 4).foldl (fun s i => s.rebuildLine (t1Base + o + 64 * i) (bit lost i == 1)) s →
    exec (.rebuildGranuleCopy g lost) s = .next { s1 with
      store := { s1.store with remapLine := insertSorted s1.store.remapLine (o / 256) },
      fault := { s1.fault with t1Rebuilds := if s.rebuildGranules ≤ (r.copied n).next then rest else r.copied n :: rest } }) ∧
  (∀ (s u v : State) (l : Nat), u = s.rewrite l LineRead.lost.bytes → v = s.noteT1 false l →
    s.rebuildLine l true = { u with store := { u.store with linesLost := min (u.store.linesLost + 1) 0xFFFFFFFF } } ∧
    ((s.lineRead l).bad = false → s.rebuildLine l false = v.rewrite l (v.lineRead l).data)) ∧
  (∀ (s : State) (page i p : Nat) (lost : Bool) (r : Rebuild) (rest : List Rebuild), s.fault.nvsRebuilds = r :: rest → s.sagging = false →
    s.fault.bridge.down = false → s.fault.bridge.lost = false → nvsChan page = r.chan → i = r.choose (page / 32) → p = i * 32 + page % 32 →
    r.next ≤ i → i < s.rebuildPages → r.ahead.contains i = false →
    ∃ (k : Nat) (u : State), u = State.rebuildPage { s with free := s.free + 1 } p lost ∧
      exec (.nvsRebuildPage page lost) s = .next { u with
        tier := { u.tier with wear := vmod u.tier.wear (k % 2) (fun x => x + 1) },
        fault := { u.fault with nvsRebuilds := if s.rebuildPages ≤ (r.copied i).next then rest else r.copied i :: rest } })

/-- O37. A ready slot of an enabled stream is read, its READY field written 0 and its frame, or its ego sample, taken; the lead's silence
makes a coasted instant one period on; the oldest instant closes when its due streams are paired or at its deadline; the slot and the
closing wait while their memory is held; and, while the engine is away, the cox writes a level-4 record for the oldest instant, or for the
next the lead would have formed, unless the record's place is held, which is counted (R11, R329 to R332, R337 to R339, R342, R348). -/
def Obligations.FusionEventsComplete : Prop :=
  (∀ (s s1 : State) (i a n : Nat) (x : Stream) (pd : List PByte), x = s.stream i → a = x.ringBase + x.next * ringSlotBytes i →
    n = ringSlotBytes i → pd = s.peek a n → s.fuse.enabled = true → x.configured = true → x.ringLog2 ≠ 0 → i < 36 → s.fuseRuns = true →
    s.heldRange a n = false → (pd.take 4).any (fun b => b.p || b.v != 0) = true →
    s1 = ((s.noteRead a (if i < 32 then 64 + 64 * min (byteAt (vals pd) 5) 63 else 64)).storeClean a (toLe 4 0)).modStream i
      (fun y => { y with next := (y.next + 1) % 2 ^ y.ringLog2 }) →
    exec (.inputSlotReady i) s = .next
      (if i < 32 then (s1.takeFrame_ i pd).2.takeObs i (s1.takeFrame_ i pd).1 else s1.takeEgo i pd)) ∧
  (∀ (s : State) (i a n : Nat) (x : Stream), x = s.stream i → a = x.ringBase + x.next * ringSlotBytes i →
    n = ringSlotBytes i → s.fuse.enabled = true → x.configured = true → x.ringLog2 ≠ 0 → i < 36 → s.fuseRuns = true →
    s.heldRange a n = true → exec (.inputSlotReady i) s = .next (s.hold [(a, n)])) ∧
  (∀ s : State, s.fuse.enabled = true → s.fuse.started = true → s.fuseRuns = true →
    2 * s.fuse.tLast + 3 * (s.leadPeriod : Int) < 2 * (s.elapsed : Int) →
    exec .coastedInstant s = .next { s with fuse := { s.fuse with
      instants := s.fuse.instants ++ [⟨s.fuse.nextInstant, s.fuse.tLast + s.leadPeriod, true⟩],
      nextInstant := s.fuse.nextInstant + 1, tLast := s.fuse.tLast + s.leadPeriod } }) ∧
  (∀ (s : State) (k : Instant) (rest : List Instant), s.fuse.instants = k :: rest → s.fuse.enabled = true → s.fuseRuns = true →
    ((∀ i ∈ s.dueList k.n, (s.pairedAt k.n i).isSome = true) ∨ s.closeDeadline k ≤ (s.elapsed : Int)) →
    exec .instantClose s = .next
      (if s.heldRange s.fuse.outAddr (64 + 64 * s.fuse.outSlots) = true then s.hold [(s.fuse.outAddr, 64 + 64 * s.fuse.outSlots)]
      else s.closeInstant k)) ∧
  (∀ (s u v : State) (k : Instant), s.fuseAway = true → s.fuse.started = true →
    ((∃ rest, s.fuse.instants = k :: rest) ∨
      (s.fuse.instants = [] ∧ k = ⟨s.fuse.nextInstant, s.fuse.tLast + s.leadPeriod, true⟩)) → k.t ≤ (s.elapsed : Int) →
    u = (s.modFuse (fun f => { f with
      nextInstant := max f.nextInstant (k.n + 1), tLast := if f.instants.isEmpty then k.t else f.tLast, instants := f.instants.drop 1,
      closedCoasts := if k.coasted then k.t :: f.closedCoasts else f.closedCoasts, falls := [] })).setLevel 4 →
    v = (if isT1 u.fuse.outAddr = true ∧ u.heldRange u.fuse.outAddr 64 = true then
        u.modFuse (fun f => { f with lostSince := min (f.lostSince + 1) 0xFFFFFFFF })
      else u.writeRecord ⟨4, 1 + 4 * b2n k.coasted, k.n, 0, streamMask (u.dueList k.n), 0, 0, 0, 0⟩ []) →
    exec .degradedRecord s = .next (v.afterClose k.n [] []))

/-- O38. A running chain whose byte clock can have reached its next cycle starts it: the old cycle is cut off, the recovered clock is taken
up again where it may be, lateness and feed-forward are decided, the loops act, and its frame is sent. A returned frame's words are taken
before its cutoff, the frame that straddled it and the present one's check sequence are judged, and any other frame is counted. The cut-off
takes the words that have arrived and closes the cycle. The loss of a chain's clock moves it to the internal clock, or stops it with its
loops taking their fault action. A feed-forward frame that has crossed the bridge becomes the pending one when it is in good order, and is
counted otherwise, a poisoned one with an event; one that finds the bridge down or lost is dropped (R10, R354 to R356, R359 to R361, R365,
R373, R374). -/
def Obligations.ChainEventsComplete : Prop :=
  (∀ (s s1 s2 s3 s4 : State) (c : Nat) (back : Bool), (s.chain c).running = true → s.domOn 88 = true → s.cycleDue c = true →
    s1 = s.cutoff c → back = ((s1.chain c).clock == 1 && (s1.chain c).ret && (vget ⟨0, false⟩ s1.clk.cands (2 + c)).stable) →
    s2 = s1.modChain c (fun x => { x with
      cycle := if x.begun then (x.cycle + 1) % 2 ^ 64 else x.first, begun := true, cycleT := s1.time.half, returned := false, cut := false,
      clock := if back then 0 else x.clock }) →
    s3 = (s2.lateCycle c).modChain c (fun x => x.decideFf (x.cycle + 1)) →
    s4 = ((s3.chain c).loopIds c).foldl (fun s l => s.loopInstant c l) s3 →
    exec (.sampleInstant c) s = .next (s4.modChain c (fun x => { x with sent := s4.chainFrame c }))) ∧
  (∀ (s : State) (c n : Nat) (ch : Chain) (frame : List Byte), c < 4 → s.domOn 88 = true → ch = s.chain c → ch.straddle = some n →
    ch.matches c n frame = true →
    exec (.chainFrameReturn c frame) s = .next ((s.modChain c (fun x => { x with
      straddle := none, returned := x.returned || decide (n = ch.cycle) })).checkFcs c frame)) ∧
  (∀ (s u : State) (c : Nat) (ch : Chain) (frame : List Byte), c < 4 → s.domOn 88 = true → ch = s.chain c →
    (∀ n, ch.straddle = some n → ch.matches c n frame = false) → u = s.modChain c (fun x => { x with returned := true }) →
    exec (.chainFrameReturn c frame) s = .next
      (if ch.matches c ch.cycle frame = true ∧ ch.running = true ∧ ch.begun = true ∧ ch.returned = false then
        (if ch.cut = true then u else u.takeWords c frame).checkFcs c frame
      else s.bump (chainCtr c 0) 1)) ∧
  (∀ (s u : State) (c : Nat) (part : List Byte), (s.chain c).running = true → (s.chain c).begun = true → (s.chain c).cut = false →
    u = (if (s.chain c).matches c (s.chain c).cycle part = true ∧ (s.chain c).returned = false then
      (s.modChain c (fun x => { x with straddle := some (s.chain c).cycle })).takeWords c part else s) →
    exec (.feedbackCutoff ⟨c, part⟩) s = .next (u.cutoff c)) ∧
  (∀ (s u : State) (c : Nat), (s.chain c).running = true → (s.chain c).clock = 0 → (s.chain c).allow = true →
    u = { s with clk := { s.clk with cands := vset s.clk.cands (2 + c) ⟨0, false⟩ } } →
    exec (.chainClockLost c) s = .next (((u.modChain c (fun x => { x with clock := 1 })).bump (chainCtr c 3) 1).raise 0x0803 88 c
      (s.chain c).cycle)) ∧
  (∀ (s u v w : State) (c : Nat), (s.chain c).running = true → (s.chain c).clock = 0 → (s.chain c).allow = false →
    u = { s with clk := { s.clk with cands := vset s.clk.cands (2 + c) ⟨0, false⟩ } } →
    v = (if (s.chain c).cut = true then u else u.sendPositions c) →
    w = v.modChain c (fun x => { x with running := false, clock := 2, cut := true }) →
    exec (.chainClockLost c) s = .next (((s.chain c).loopIds c).foldl (fun z l =>
      ((if (z.loop l).state = .off then z else z.loopFault l (z.loop l).action 3).dropEnables l).applyAllStaged c l) w)) ∧
  (∀ (s u : State) (c seq : Nat) (f : Crossing) (rest : List Crossing) (m : List Byte) (fresh poison : Bool), s.stroke.crossing = f :: rest →
    f.chain = c → u = { s with stroke := { s.stroke with crossing := rest } } → m = f.bytes.map PByte.v → poison = f.bytes.any PByte.p →
    seq = leAt m 0 4 →
    fresh = (match (s.chain c).seq with
      | none => true
      | some l => decide (1 ≤ (seq + 2 ^ 32 - l) % 2 ^ 32 ∧ (seq + 2 ^ 32 - l) % 2 ^ 32 < 2 ^ 31)) →
    exec (.ffCommit c) s = .next
      (if s.fault.bridge.down = true ∨ s.fault.bridge.lost = true then u
      else if crc32c (m.take 252) = leAt m 252 4 ∧ leAt m 256 8 = seq ∧ (slice m 4 4).all (fun x => x == 0) = true ∧
          (slice m 18 14).all (fun x => x == 0) = true ∧ (slice m 160 92).all (fun x => x == 0) = true ∧ 1 ≤ leAt m 16 2 ∧ fresh = true ∧
          poison = false ∧ ((s.chain c).ffClient = 256 ∨ (s.chain c).ffClient = f.client) then
        u.modChain c (fun x => { x with
          seq := some seq,
          pendingFf := some ⟨seq, leAt m 8 8, leAt m 16 2, (List.range 32).map (fun j => sext 32 (leAt m (32 + 4 * j) 4))⟩ })
      else if poison = true then (((u.bump (chainCtr c 1) 1).bump (integCtr 0x38) 1).raise 0x0802 88 c (s.chain c).cycle)
      else u.bump (chainCtr c 1) 1))

/-- O39. A frame longer than 9,216 bytes, its FCS included, is dropped and counted; one with a bad FCS goes to the cut-through path, or on
a joint port is counted; a frame in good order is dropped where it is shorter than its header, else it is taken out of its MACsec
protection, or dropped there, and bridged; on a joint port it is not the switch's. An idle port sends the head of its highest eligible
queue, if there is one; a link change of a port that is not disabled is reported, and its loss counted; an old entry of the table ages out
(R381 to R385, R392, R395). -/
def Obligations.SwitchEventsComplete : Prop :=
  (∀ (s : State) (port : Nat) (frame : List Byte) (bad : Bool), s.netOn = true → port ≤ 15 → (s.nport port).live = true →
    (9216 < frame.length + 4 → exec (.frameReceive port frame bad) s = .next (s.bump (netCtr port 0x10) 1)) ∧
    (frame.length + 4 ≤ 9216 → 12 ≤ port →
      exec (.frameReceive port frame bad) s = .next (if bad = true then s.bump (netCtr port 0x08) 1 else s)) ∧
    (frame.length + 4 ≤ 9216 → port < 12 → bad = true → exec (.frameReceive port frame bad) s = .next (s.badFrame port frame)) ∧
    (frame.length + 4 ≤ 9216 → port < 12 → bad = false →
      exec (.frameReceive port frame bad) s = .next
        (if frame.length < 14 then s
        else match s.unprotect port frame with
          | (s1, none) => s1
          | (s1, some f) => s1.bridge port (frame.length + 4) f))) ∧
  (∀ (s : State) (port : Nat), s.netOn = true → port < 12 → (s.nport port).live = true → (s.nport port).busyUntil ≤ s.time.half →
    exec (.frameTransmit port) s = .next
      (match (s.nport port).nextFrame s.time.half with
        | some (q, f) => (s.sendFrame port q f false).modPort port (fun x => { x with queues := vmod x.queues q (fun l => l.drop 1) })
        | none => s)) ∧
  (∀ (s : State) (port : Nat), s.netOn = true → port < 16 →
    ((s.nport port).role ≠ 0 → (s.nport port).link = false →
      exec (.portLink port true) s = .next ((s.modPort port (fun x => { x with link := true })).raise 0x0B01 91 port 1)) ∧
    ((s.nport port).link = true →
      exec (.portLink port false) s =
        .next ((((s.modPort port (fun x => { x with link := false })).modNet (fun n => (n.stopSamples port).forget port)).bump
          (netCtr port 0x38) 1).raise 0x0B01 91 port 0))) ∧
  (∀ (s : State) (i : Nat) (e : FdbEntry), s.netOn = true → s.net.fdb[i]? = some e → s.since e.seen (us (s.net.ageS * 1000000)) = true →
    exec (.fdbAgeOut i) s = .next { s with net := { s.net with fdb := s.net.fdb.eraseIdx i } })

/-- O40. A check record that reaches the comparator is judged; one that does not come within 2 µs is a disagreement charged to its
tile; the golden comparison passes on the expected signature with no poisoned output and otherwise is a disagreement that sends the crew to
its tile tests; the tiles of the crew that fail those are charged, and where none does the mismatch is reported as not located (R404, R408,
R409, R412). -/
def Obligations.ChecksComplete : Prop :=
  (∀ (s : State) (t a i : Nat) (j : Job) (c : Check), s.checkOf t a = some (j, i, c) → s.fault.bridge.down = false →
    s.fault.bridge.lost = false →
    exec (.checkRecord t a) s = .next (s.judge j i c) ∧
    (s.since c.at_ (us 2) = true →
      exec (.checkRecordTimeout t a) s =
        .next ((((s.modJob j.uid (fun j => { j with checks := j.checks.eraseIdx i })).judged j.uid [t] 0).disagree j.uid t
          true).tryVerdict j.uid))) ∧
  (∀ (s u : State) (ctx : Nat) (j : Job) (m : Model) (k : SafeMark), s.jobOf ctx = some j → j.state = .judging →
    j.goldenArea.isSome = true → s.fault.bridge.down = false → s.fault.bridge.lost = false → s.model j.model = some m →
    m.safe = some k → u = (s.freeGolden j).judged j.uid j.tiles (if s.goldenSame j k = true then 0 else 8) →
    exec (.goldenCompare ctx) s = .next
      (if s.goldenSame j k = true then u.tryVerdict j.uid
      else (u.modJob j.uid (fun j => { j with mismatch := true, state := .testing })).bump (safeCtr 0x100) 1)) ∧
  (∀ (s u v : State) (ctx : Nat) (fails : List Byte) (bad : List Nat) (j : Job), s.jobOf ctx = some j → j.state = .testing →
    bad = (fails.map BitVec.toNat).filter (fun t => j.tiles.contains t) →
    u = s.modJob j.uid (fun j => { j with
      state := .judging, charged := (j.charged ++ bad).eraseDups, vflags := if bad.isEmpty = true then j.vflags ||| 64 else j.vflags }) →
    v = (if bad.isEmpty = true then (u.bump (safeCtr 0x128) 1).raise 0x0902 89 0xFFFF (j.client + j.frame * 65536) else u) →
    exec (.tileTestDone ctx fails) s = .next (v.tryVerdict j.uid))

/-- O41. A segment of a self-test starts where no safety-relevant step runs or is about to; it passes on to the next, completes the
test after the sixteenth, or fails its umpire; a late test asks for a gap and then is overdue, with its stale bit set; and a gap
hold ends once its gap has passed (R302, R415 to R418). -/
def Obligations.SelfTestsComplete : Prop :=
  (∀ (s : State) (u : Nat), u < 8 → (s.umpire u).failed = false → (s.umpire u).testing = false → s.testsRun = true →
    s.safeOn u = false → s.soonReady = false →
    exec (.segmentStart u) s = .next (s.modUmpire u (fun x => { x with testing := true }))) ∧
  (∀ (s : State) (u : Nat), (s.umpire u).testing = true →
    exec (.segmentEnd u false) s = .next ((s.segmentFail u).schedule) ∧
    ((s.umpire u).segment < 15 → (s.umpire u).holdReq = false →
      exec (.segmentEnd u true) s =
        .next ((s.modUmpire u (fun x => { x with testing := false, segment := x.segment + 1 })).schedule)) ∧
    ((s.umpire u).segment < 15 → (s.umpire u).holdReq = true →
      exec (.segmentEnd u true) s =
        .next (((s.modUmpire u (fun x => { x with testing := false, segment := x.segment + 1 })).askGap u).schedule)) ∧
    (15 ≤ (s.umpire u).segment →
      exec (.segmentEnd u true) s =
        .next (((s.modUmpire u (fun x => { x with
          testing := false, segment := 0, tests := min (x.tests + 1) 0xFFFFFFFF, last := s.time.half, stale := false, holdReq := false })).dropGap u).schedule))) ∧
  (∀ (s : State) (u : Nat), u < 8 → (s.umpire u).failed = false → (s.umpire u).testing = false → s.testsRun = true →
    s.since (s.intervalFrom u) (us 90000) = true →
    exec (.testDeferral u) s = .next ((s.modUmpire u (fun x => { x with holdReq := true })).askGap u)) ∧
  (∀ (s : State) (u : Nat), u < 8 → (s.umpire u).failed = false → (s.umpire u).stale = false → s.pwr.state < 2 → 6 ≤ s.pwr.easyStep →
    s.domOn 89 = true → s.since (s.intervalFrom u) (us 100000) = true →
    exec (.checkerTestOverdue u) s =
      .next (((s.modUmpire u (fun x => { x with stale := true })).raise 0x0901 89 0 u).bump (safeCtr 0x130) 1)) ∧
  (∀ (s : State) (u u' t n : Nat), s.sched.gaps.find? (fun g => g.1 == u) = some (u', some t, n) → s.since t n = true →
    s.safeRuns = false → exec (.gapHoldElapsed u) s = .next ((s.dropGap u).schedule))

/-- O42. A checking error charges its unit, fences and quarantines it where the charge has not retired it, and what it ran is run again; a
probe's answer restores or retires its unit, a T1 channel's failed self-test being shown in FAIL too, and its silence for 1 ms retires it;
where the data path's fences and the cox's table disagree the unit is fenced, and one that the table has usable is quarantined; and a fence
not confirmed in 1 ms takes its whole domain (R188, R428, R433, R434, R440, R441). Whether a T1 channel's failed probe was its self-test is
a free value (log entry 50). -/
def Obligations.UnitFaultsComplete : Prop :=
  (∀ (s s1 : State) (ty n : Nat), n < unitCount ty → s.usable ty n = true → s.domOn (unitDomain ty n) = true →
    s1 = (if ty < 4 then s.charge ty n 4 else s) →
    (s1.retired ty n = true → exec (.internalCheckError ty n) s = .next s1) ∧
    (s1.retired ty n = false → ty = 0 → exec (.internalCheckError ty n) s = .next ((s1.quarantine 0 n 4).loseTile n)) ∧
    (s1.retired ty n = false → ty = 1 ∨ ty = 2 →
      exec (.internalCheckError ty n) s = .next (((s1.quarantine ty n 4).reissue ty n).runsPlace)) ∧
    (s1.retired ty n = false → ty = 3 → exec (.internalCheckError ty n) s = .next (((s1.quarantine 3 n 4).reissue 3 n).planPlace)) ∧
    (s1.retired ty n = false → 3 < ty → exec (.internalCheckError ty n) s = .next (s1.quarantine ty n 4))) ∧
  (∀ (s : State) (ty n : Nat), s.probing ty n = true → exec (.probeResult ty n true) s = .next ((s.restore ty n).answerProbes)) ∧
  (∀ (s : State) (ty n : Nat), s.probing ty n = true → ty ≠ 4 →
    exec (.probeResult ty n false) s = .next ((s.retire ty n 7).answerProbes)) ∧
  (∀ (s : State) (n : Nat), s.probing 4 n = true →
    ∃ c : Nat, (c = 6 ∨ c = 7) ∧ exec (.probeResult 4 n false) s = .next ((State.retire { s with
      free := s.free + 1, store := { s.store with testFail := s.store.testFail || c == 6 } } 4 n c).answerProbes)) ∧
  (∀ (s : State) (ty n : Nat), s.probing ty n = true → s.since (s.unit ty n).since (us 1000) = true →
    exec (.probeTimeout ty n) s = .next ((s.retire ty n 7).answerProbes)) ∧
  (∀ (s : State), exec .pathCompare s = .next
    ((allUnits.foldl (fun (s : State) x =>
      if (s.unit x.1 x.2).state = .usable then (if (s.unit x.1 x.2).fenced = true then s.quarantine x.1 x.2 0 else s)
      else if (s.unit x.1 x.2).fenced = true then s else s.modUnit x.1 x.2 (fun u => { u with fenced := true })) s))) ∧
  (∀ (s : State) (ty n d : Nat), d = unitDomain ty n → n < unitCount ty → (s.unit ty n).state = .retired →
    (s.unit ty n).confirmed = false → (s.unit ty n).cause ≠ 9 → s.since (s.unit ty n).since (us 1000) = true →
    s.fault.dead.contains d = false → d < 96 →
    ∃ u : State, u.domOn d = false ∧ d ∈ u.fault.dead ∧ u.pwr.waking.any (fun p => p.1 == d) = false ∧
      (d < 64 → ∃ v : State, u = (v.poisonFill (2 * d)).poisonFill (2 * d + 1)) ∧
      exec (.fenceNotConfirmed ty n) s =
        .next (((List.range 7).foldl (fun (w : State) (t : Nat) => (List.range (unitCount t)).foldl (fun (w : State) (m : Nat) =>
          if unitDomain t m = d then w.retire t m 7 else w) w) (u.bump (faultCtr 0xB8) 1)).answerProbes))

/-- O43. A die bridge silent while it is watched quarantines every usable compute-die unit and is reported; restored within 1 ms, the units
that it had quarantined and that answer are usable again, one that does not answer stays quarantined, and a unit quarantined before that
answers is restored, and what waited for them goes on; and silent for 1 ms more, it is lost until the next start (R11). -/
def Obligations.DieBridgeCompletes : Prop :=
  (∀ s : State, s.watched = true → s.fault.bridge.down = false → s.fault.bridge.lost = false →
    exec .dieBridgeSilence s = .next ((State.raise { s with fault := { s.fault with
        bridge := { s.fault.bridge with up := false, down := true, since := s.time.half },
        units := s.fault.units.map (fun x => if x.state = .usable then
          { x with state := .quarantined, fenced := true, byBridge := true, since := s.time.half } else x) } } 0x0107 95 0 0).invalidSafe)) ∧
  (∀ s : State, s.watched = true ↔ (s.fault.bridge.watch = true ∧ s.domOn 77 = true ∧ s.domOn 95 = true ∧
    s.since s.fault.bridge.watchAt (us 10) = true)) ∧
  (∀ (s u : State) (answers : List Byte), s.fault.bridge.down = true → s.since s.fault.bridge.since (us 1000) = false →
    u = { s with fault := { s.fault with
      bridge := { s.fault.bridge with up := true, down := false },
      units := s.fault.units.mapIdx (fun i x =>
        if x.byBridge = true ∧ x.state = .quarantined then
          if byteAt answers i ≠ 0 then { x with state := .usable, fenced := false, byBridge := false }
          else { x with byBridge := false, since := s.time.half }
        else x) } } →
    exec (.dieBridgeRestored answers) s = .next
      ((((((((List.range 445).filter (fun i => (vget UnitRec.reset s.fault.units i).state == .quarantined &&
        !(vget UnitRec.reset s.fault.units i).byBridge && byteAt answers i != 0)).foldl
        (fun (s : State) (i : Nat) => match allUnits[i]? with | some (ty, n) => s.restore ty n | none => s) u).raise
          0x0108 95 0 0).schedule).runsPlace).planPlace).answerProbes)) ∧
  (∀ s : State, s.fault.bridge.down = true → s.since s.fault.bridge.since (us 1000) = true →
    ∃ t u : State, exec .dieBridgeRetrainTimeout s = .next t ∧ t = u.loseDie.answerProbes ∧ u.fault.bridge.down = false ∧
      u.fault.bridge.lost = true ∧ (∀ ty n, ty < 7 → n < unitCount ty → u.retired ty n = true))

/-- O44. A domain without work for IDLE_US is gated; a waking one is powered, tile pairs with their scratchpads poisoned, and the
work placed on it starts (R177, R448, R449). -/
def Obligations.DomainsComplete : Prop :=
  (∀ (s : State) (d : Nat), s.gating = true → gateable d = true → s.domOn d = true → s.domIdle d = true →
    s.since (vget 0 s.pwr.lastWork d) (us s.pwr.idleUs) = true →
    exec (.domainGate d) s = .next ((s.gateOff d).bump (pwrCtr 0x40) 1)) ∧
  (∀ (s s1 : State) (d : Nat), s.pwr.waking.any (fun p => p.1 == d) = true → s.fault.dead.contains d = false →
    s1 = ((s.setDom d true).touch d).modPwr (fun p => { p with waking := p.waking.filter (fun x => x.1 != d) }) →
    (d < 64 → exec (.domainWakeComplete d) s = .next (((s1.poisonFill (2 * d)).poisonFill (2 * d + 1)).startWaking)) ∧
    (64 ≤ d → exec (.domainWakeComplete d) s = .next s1.startWaking))

/-- O45. Each agent asked answers by its own reasons, one that delays accepting once its reason is gone, and a delay that lasts too long is
a refusal; an entry's stages follow each other while nothing stops it, its command completing at the third point; and the rails then fall,
a wake source that fired meanwhile starting the return (R452 to R456). -/
def Obligations.EntriesComplete : Prop :=
  (∀ (s : State) (e : Entry) (d d' : Nat) (a : Answer), s.pwr.entry = some e → e.agents.find? (fun x => x.1 == d) = some (d', a) →
    exec (.agentAnswer d) s = .next
      (match a with
        | .none => s.answer d (if s.agentRefuses d = true then .refuse
          else if s.agentDelays d e.uid = true then .delay (s.time.half + us (if d = 89 then 20 else 500)) else .accept)
        | .delay _ => if s.agentRefuses d = true then s.answer d .refuse
          else if s.agentDelays d e.uid = true then s else s.answer d .accept
        | _ => s)) ∧
  (∀ (s : State) (e : Entry) (d d' t : Nat), s.pwr.entry = some e → e.agents.find? (fun x => x.1 == d) = some (d', .delay t) →
    t ≤ s.time.half → exec (.agentDelayTimeout d) s = .next (s.answer d .refuse)) ∧
  (∀ (s : State) (e : Entry), s.pwr.entry = some e → e.passed = none → e.answered = true →
    (∀ c w, s.entryStop e = some (c, w) → exec .entryPointReached s = .next (s.abandonEntry e c w)) ∧
    (s.entryStop e = none → e.stage < 3 →
      exec .entryPointReached s = .next (s.modPwr (fun p => { p with entry := some { e with stage := e.stage + 1 } }))) ∧
    (s.entryStop e = none → 3 ≤ e.stage →
      exec .entryPointReached s =
        .next (((s.finishUid e.uid true 0 0 e.target).replyNow e.uid).modPwr (fun p =>
          { p with entry := some { e with passed := some s.time.half } })))) ∧
  (∀ (s u : State) (e : Entry) (t : Nat), s.pwr.entry = some e → e.passed = some t → (e.target = 3 → s.since t (us 100) = true) →
    u = (if e.target = 3 then s.enterMoored e else s.enterEasy e) →
    exec .railsOff s = .next (match e.fired with | some w => u.wake w | none => u))

/-- O46. The sources of a wake fire as R456 lists them, the call token pattern after sixteen matching tokens; and the return from Easy goes
on stage by stage: the cox, the stroke engine and the safety island powered with the watch of the bridge started, T1 powered, Row with the
time in Easy taken out of the scrub lap and its event, the compute die powered with what waits going on, and the umpires' tests done, once
they are (R186, R456, R457, R461, R462). -/
def Obligations.WakesComplete : Prop :=
  (∀ s : State, s.pwr.timerAt ≤ s.elapsed → exec .timerWake s = .next (s.wake 1)) ∧
  (∀ s : State, exec .sagRise s = .next (s.wake 2)) ∧
  (∀ (s : State) (port : Nat), port < 4 → exec (.linkEnergy port) s = .next (s.wake (5 + port))) ∧
  (∀ (s s1 : State) (b : Bool), s1 = s.modPwr (fun p =>
      { p with callTokens := (p.callTokens * 2 + b2n b) % 65536, callCount := min 16 (p.callCount + 1) }) →
    exec (.callToken b) s = .next
      (if s1.pwr.callCount = 16 ∧ s1.pwr.callTokens = callPattern s1.pwr.callAddr then (s1.bump (pwrCtr 0x50) 1).wake 0 else s1)) ∧
  (∀ (s u : State), s.pwr.easyStep = 1 → u = (s.modPwr (fun p => { p with easyStep := 2 })).powerUp [77, 88, 89, 90, 91, 93, 94] →
    exec .easyReturnStage s = .next { u with
      clk := { u.clk with src := false },
      fault := { u.fault with bridge := { u.fault.bridge with watch := true, watchAt := s.time.half } } }) ∧
  (∀ s : State, s.pwr.easyStep = 2 →
    exec .easyReturnStage s = .next ((s.modPwr (fun p => { p with easyStep := 3 })).powerUp [78, 79, 80, 81, 82, 83, 84, 85])) ∧
  (∀ s : State, s.pwr.easyStep = 3 →
    exec .easyReturnStage s = .next (State.raise { s with
      pwr := { s.pwr with easyStep := 4, state := 0, wakeEnabled := 0, keepSwitch := false },
      store := { s.store with lapStart := s.store.lapStart + (s.time.half - s.pwr.easyEntered) } } 0x0A04 95 0 s.pwr.easySource)) ∧
  (∀ s : State, s.pwr.easyStep = 4 → exec .easyReturnStage s =
    .next (((((((s.modPwr (fun p => { p with easyStep := 5 })).powerUp (List.range 77 ++ [86, 87])).restoreHot).startWaking).schedule).runsPlace).planPlace)) ∧
  (∀ s : State, s.pwr.easyStep = 5 → exec .easyReturnStage s =
    .next (if s.umpiresTested s.pwr.easyAt = true then (s.modPwr (fun p => { p with easyStep := 6 })).schedule else s))

/-- O47. A judge's window that passes counts towards a candidate's stability; one that fails, or a stable candidate's missing edge, clears
its count and loses it: the crystal's loss, if it was stable, moves the elapsed count to the RC oscillator, stops the outputs and is
counted, and a recovered clock's loss is its chain's (R355, R356, R464, R467). -/
def Obligations.ClockEventsComplete : Prop :=
  (∀ (s : State) (c n : Nat), c ≤ 5 → s.windowOk c n = true →
    exec (.judgeWindow c n) s = .next { s with clk := { s.clk with
      cands := vmod s.clk.cands c (fun y =>
        ⟨min (y.passes + 1) 15, y.stable || decide ((s.judgeSet (judgeClass c)).k ≤ y.passes + 1)⟩) } }) ∧
  (∀ (s u v : State) (c n : Nat), c ≤ 5 → u = { s with clk := { s.clk with cands := vset s.clk.cands c ⟨0, false⟩ } } →
    v = (if c = 0 ∧ (s.cand 0).stable = true then State.bump { u with
          time := { u.time with coarse := true },
          clk := { u.clk with src := false, xtalLost := true, outs := u.clk.outs.map (fun o => { o with running := false }) } } xtalLossCtr 1
        else if 2 ≤ c then u.chainClockLost (c - 2) else u) →
    (s.windowOk c n = false → exec (.judgeWindow c n) s = .next v) ∧
    ((s.cand c).stable = true → exec (.clockNoEdge c) s = .next v))

/-- O48. Every 100 µs the estimate and the reading make a new P_ctl, the controller throttles above the effective cap, and undoes and
boosts below it, by a number of notches that the spec leaves open (log entry 70), and VDD_CORE is set within its limits from 400 µs after
acceptance on; the telemetry states follow each other as R485 lists them; and the temperatures set the thermal limit and the voltage bands
(R474, R476, R481 to R485, R510). -/
def Obligations.PowerControlCompletes : Prop :=
  (∀ (s u v w : State) (est meas : Nat), u = s.measure est meas →
    v = (if u.cap.thermal = true then u.working.foldl State.lowerDomain u else u) → w = { v with free := v.free + 1 } →
    ∃ (k b : Nat) (x : State),
      x = (if w.effective * 100 < w.cap.control then State.notches State.throttleOne (k + 1) w
        else if w.cap.control < w.effective * 100 ∧ w.cap.thermal = false then
          State.notches State.boostOne b (State.notches State.undoOne k { w with free := w.free + 1 })
        else w) ∧
      exec (.capControlTick est meas) s = .next
        ((x.modCap (fun c => { c with unreachable := decide (x.effective * 100 < c.control) && x.atFloor })).setVcore)) ∧
  (∀ s : State, s.start.stage = .accepting → s.since s.start.acceptedAt (us 400) = true →
    ∃ (v n : Nat), 580 ≤ v ∧ v ≤ 950 ∧ s.setVcore = { s with free := n, cap := { s.cap with vcore := v } }) ∧
  (∀ s : State, ¬(s.start.stage = .accepting ∧ s.since s.start.acceptedAt (us 400) = true) → s.setVcore = s) ∧
  (∀ s : State, s.cap.telem ≠ 3 → s.since s.cap.readAt (us 1000) = true →
    ∃ u : State, u = s.modCap (fun c => { c with telem := 3, measured := none, valid := none, disagree := none, agree := none }) ∧
      exec .telemetryLost s = .next (u.mismatchEvent.bump (capCtr 0x58) 1)) ∧
  (∀ (s : State) (t : Nat), s.cap.telem = 0 → s.cap.disagree = some t → s.since t (us 5000) = true →
    exec .mismatchTimer s =
      .next (((s.modCap (fun c => { c with telem := 1, mismatchFrom := t })).mismatchEvent).bump (capCtr 0x50) 1)) ∧
  (∀ (s : State) (t : Nat), s.cap.telem ≠ 0 → s.cap.telem ≠ 3 → s.cap.agree = some t → s.since t (us 100000) = true →
    exec .agreementTimer s = .next { s with cap := { s.cap with telem := 0, unreliable := false } }) ∧
  (∀ (s : State) (t : Nat), s.cap.telem = 3 → s.cap.valid = some t → s.since t (us 100000) = true →
    exec .agreementTimer s = .next { s with cap := { s.cap with telem := if s.cap.unreliable then 2 else 0 } }) ∧
  (∀ s : State, s.cap.telem = 1 → s.since s.cap.mismatchFrom (us 1000000) = true →
    exec .unreliableTimer s = .next { s with cap := { s.cap with telem := 2, unreliable := true } }) ∧
  (∀ (s : State) (temp : Int), exec (.thermalLimit temp) s = .next
    (if maxJunction - 2 ≤ temp then { s with cap := { s.cap with thermal := true } }
    else if temp ≤ maxJunction - 5 then { s with cap := { s.cap with thermal := false } } else s)) ∧
  (∀ (s : State) (d : Nat) (temp : Int), d < 77 →
    exec (.temperatureBandChange d temp) s = .next
      (if nextBand (vget 0 s.cap.bands d) temp = vget 0 s.cap.bands d then s
      else (s.modCap (fun c => { c with bands := vset c.bands d (nextBand (vget 0 s.cap.bands d) temp) })).setVcore))

/-- O49. A hint begins 50 µs ahead of its time, or at its decode if that is later, and lapses a millisecond after it; a locked domain's
slips are counted, and each millisecond every domain that slipped in it is reported with its count, which starts again (R478, R479,
R488). -/
def Obligations.HintsAndSlipsComplete : Prop :=
  (∀ (s : State) (i : Nat) (h : Hint), s.cap.hints[i]? = some h → h.begun = false → max (h.at_ - us 50) h.from_ ≤ s.time.half →
    exec (.hintIntervalBegin i) s =
      .next ((s.modCap (fun c => { c with hints := lmod c.hints i (fun h => { h with begun := true }) })).setVcore)) ∧
  (∀ (s : State) (i : Nat) (h : Hint), s.cap.hints[i]? = some h → s.since h.at_ (us 1000) = true →
    exec (.hintLapse i) s = .next ((s.modCap (fun c => { c with hints := c.hints.eraseIdx i })).setVcore)) ∧
  (∀ (s : State) (d : Nat), d < 77 → s.lockOf d ≠ 0 → s.domOn d = true →
    exec (.ratingSlip d) s =
      .next ((s.modCap (fun c => { c with slips := vmod c.slips d (fun n => n + 1) })).bump (capCtr 0x48) 1)) ∧
  (∀ s : State, ∃ t : State, exec .ratingSlipReport s = .next t ∧ (∀ d, d < 77 → vget 0 t.cap.slips d = 0) ∧
    t = ((List.range 77).filter (fun d => vget 0 s.cap.slips d != 0)).foldl (fun (u : State) (d : Nat) =>
      (u.modCap (fun c => { c with slips := vset c.slips d 0 })).raise 0x0A03 d 0 (vget 0 s.cap.slips d)) s)

/-- O50. A falling supply starts the sag chain once and is counted, its rise starts the confirmation, a millisecond later the chain
ends in order, and below the reset level the machine starts again, in Moored only counting (R222, R460, R490 to R493). -/
def Obligations.SagEventsComplete : Prop :=
  (∀ s : State, s.pwr.state ≠ 3 → s.cap.sag = 0 →
    exec .sagWarnFall s =
      .next ((((((s.modCap (fun c => { c with sag := 1, dipAt := s.time.half, deferred := false })).bump (capCtr 0x60)
        1)).stopWrites.spillBackground).preemptClasses s.cap.preemptFrom))) ∧
  (∀ s : State, s.pwr.state ≠ 3 → s.cap.sag ≠ 0 → exec .sagWarnFall s = .next { s with cap := { s.cap with sag := 1 } }) ∧
  (∀ s : State, s.pwr.state = 3 → exec .sagWarnFall s = .next s) ∧
  (∀ s : State, s.pwr.state ≠ 3 → s.cap.sag = 1 →
    exec .sagWarnRise s = .next { s with cap := { s.cap with sag := 2, confirmAt := s.time.half } }) ∧
  (∀ (s s1 : State) (d : Nat), s.cap.sag = 2 → s.since s.cap.confirmAt (us 1000) = true →
    (d, s1) = s.roundDiv (s.cap.confirmAt - s.cap.dipAt) 2000 →
    exec .sagConfirmed s =
      .next (((((s1.modCap (fun c =>
        { c with sag := 0, deferred := false, lastUs := min d 0xFFFFFFFF })).flushDeferred).spillBackground).schedule).raise 0x0A01 95 0 d)) ∧
  (∀ s : State, s.pwr.state ≠ 3 → exec .sagResetFall s = .next (s.holdUp.startOver 1)) ∧
  (∀ s : State, s.pwr.state = 3 → exec .sagResetFall s = .next (s.bump (pwrCtr 0x58) 1))

/-- O51. The start follows its steps: the rails judged valid, the filter's release with RAILS_EN high and the elapsed count running, the
start image taken, command packets accepted, DEVICE_START and the records after it written, and the milestones; the loss of a rail sets it
back or resets the machine; and the standby pair takes over from a pair that failed (R11, R37, R43, R459, R496 to R499, R504, R505, R511 to
R513). -/
def Obligations.StartEventsComplete : Prop :=
  (∀ (s : State) (r : Nat), r < 11 →
    exec (.supplyValid r) s = .next ((s.modStart (fun x => { x with rails := vset x.rails r true })).suppliesIn)) ∧
  (∀ (s : State) (r : Nat), r < 11 →
    exec (.supplyLoss r) s = .next
      (if r = 2 then (s.tearWrites.modStart (fun x => { x with rails := vset x.rails r false })).startOver 0
      else if s.start.stage ≠ .accepting then s.modStart (fun x => { x with rails := vset x.rails r false, stage := .supplies })
      else if s.start.railsEn = true then (s.tearWrites.modStart (fun x => { x with rails := vset x.rails r false })).startOver 1
      else s.modStart (fun x => { x with rails := vset x.rails r false }))) ∧
  (∀ s : State, exec .aonBrownout s = .next (if s.pwr.state = 3 then s.startOver 2 else s)) ∧
  (∀ s : State, s.start.stage = .filter →
    exec .porRelease s = .next { s with
      start := { s.start with
        stage := .released, t0 := max s.start.t0 (s.time.half - us 80), railsEn := true,
        railsAt := if s.start.railsEn = true then s.start.railsAt else s.time.half },
      time := { s.time with running := true } }) ∧
  (∀ (s u v : State) (a b : Bool), s.start.stage = .released →
    u = { s with
      cox := { s.cox with
        version := if a = true then s.cox.current.version else if b = true ∧ s.cox.previous.version ≠ 0 then s.cox.previous.version else 0,
        bootFallback := !a && (b && s.cox.previous.version != 0), rom := !a && !(b && s.cox.previous.version != 0) },
      start := { s.start with stage := .accepting, count := min (s.start.count + 1) 0xFFFF, acceptedAt := s.time.half },
      store := { s.store with lapStart := s.time.half, t0LapStart := s.time.half, t0Members := Vector.replicate 128 true },
      fault := { s.fault with bridge := { s.fault.bridge with watch := true, watchAt := s.start.t0 + us 400 } },
      port := { s.port with releasedEarly := false } } →
    v = (if s.port.releasedEarly = true then (u.raise 0x0101 90 0 s.start.cause).raise 0x0102 92 0 0 else u.raise 0x0101 90 0 s.start.cause) →
    exec (.startComplete a b) s = .next
      (if a = true then v
      else if b = true ∨ s.cox.previous.version = 0 then v.raise 0x0D02 90 0 (s.cox.current.len % 2 ^ 32)
      else (v.raise 0x0D02 90 0 (s.cox.current.len % 2 ^ 32)).raise 0x0D02 90 0 (s.cox.previous.len % 2 ^ 32))) ∧
  (∀ (s : State) (m : Nat), s.start.stage = .accepting → s.milestoneReady m = true → s.reached m = false →
    exec (.bringupMilestone m) s = .next (State.schedule { s with
      start := { s.start with reached := s.start.reached + 2 ^ m },
      fault := { s.fault with bridge := { s.fault.bridge with up := s.fault.bridge.up || m == 0 } },
      cox := { s.cox with standby := if m = 4 then 1 else s.cox.standby } })) ∧
  (∀ (s : State) (v : Nat), (s.cox.standby = 1 ∨ s.cox.standby = 2) → v = (match s.cox.staged with | some i => i.version | none => s.cox.version) →
    exec .coxLockstepFail s = .next (State.bump ((s.takeOver v).modCox (fun x => { x with rom := s.cox.rom && s.cox.staged.isNone })) (coxCtr 0x28) 1))

/-! ### The instruction words -/

/-- O52. Every instruction of a thread whose operands are in their ranges has a 64-bit word that decodes to it and to nothing else, no
bit of an operand dropped; every word that R267 lists decodes to an instruction whose own word decodes to it too; and any other word is
taken as the row whose effect is the thread fault of cause ILLEGAL, the row being the model's choice (log entry 12) (R267). -/
def Obligations.ThreadWordsRoundTrip : Prop :=
  (∀ (i : Instr) (t th w : Nat), i.wf = true → threadWordOf i = some (t, th, w) →
    w < 2 ^ 64 ∧ bits w 25 23 = 0 ∧ threadInstrOf t th w = some i) ∧
  (∀ (i j : Instr) (t th w : Nat), i.wf = true → j.wf = true → threadWordOf i = some (t, th, w) → threadWordOf j = some (t, th, w) →
    i = j) ∧
  (∀ (t th w : Nat) (i : Instr), t < 128 → th < 128 → w < 2 ^ 64 → listedInstrOf t th w = some i →
    threadInstrOf t th w = some i ∧ i.wf = true ∧
      ∃ w' : Nat, threadWordOf i = some (t, th, w') ∧ bits w' 7 0 = bits w 7 0 ∧ threadInstrOf t th w' = some i) ∧
  (∀ t th w : Nat, (bits w 25 23 ≠ 0 ∨ bits w 7 0 = 0 ∨ (0x0A < bits w 7 0 ∧ bits w 7 0 < 0x10) ∨ 0x12 < bits w 7 0) →
    threadInstrOf t th w = some (illegalInstr t th)) ∧
  (∀ (s : State) (t th : Nat), s.canIssue t th = true →
    exec (illegalInstr t th) s = .next (s.threadFault t th 0x0008 (((s.tile t).thread th).pc)))

/-! ### Reset and what every step keeps -/

/-- O53. After power is applied memory lists nothing and is in its canonical form, no command waits, the elapsed count stands at 0 with COARSE 1, the power
state is Row with wake sources disabled, every queue is empty and both event rings are enabled, the switch's ports are disabled, the
telemetry state is AGREE, and no start has been counted (R29, R34, R40, R382, R485, R491, R499). -/
def Obligations.ResetState : Prop :=
  State.reset.memoryOk ∧ State.reset.mem = Memory.empty ∧ State.reset.pending = [] ∧
    State.reset.time = { half := 0, running := false, coarse := true } ∧
    State.reset.pwr.state = 0 ∧ State.reset.pwr.wakeEnabled = 0 ∧ State.reset.pwr.entry = none ∧
    (∀ q, q < 128 → State.reset.queue q =
      { sqTail := 0, sqHead := 0, rqHead := 0, rqTail := 0, expectSeq := 0, cover := [], cmds := [], head := none }) ∧
    (∀ ch, ch < 2 → (State.reset.chan ch).evHead = 0 ∧ (State.reset.chan ch).evTail = 0 ∧ (State.reset.chan ch).evLost = Ctr.zero) ∧
    State.reset.port.eventsC0 = true ∧ State.reset.port.eventsC1 = true ∧ State.reset.host.number = 0 ∧ State.reset.host.masked = [] ∧
    (∀ p, p < 12 → (State.reset.nport p).role = 0) ∧ State.reset.net.vlans = [] ∧ State.reset.net.filters = [] ∧
    State.reset.cap.telem = 0 ∧ State.reset.cap.unreliable = false ∧ State.reset.cap.sag = 0 ∧
    State.reset.start.stage = .supplies ∧ State.reset.start.count = 0 ∧ State.reset.counters = [] ∧ State.reset.store.t1Written = []

/-- O54. Whatever command runs, memory keeps its canonical form: addresses strictly rising, no entry equal to what an unlisted address
reads as; so equal memories are equal data. The form is the model's own (log entry 3). -/
def Obligations.MemoryStaysCanonical : Prop :=
  ∀ s t : State, s.memoryOk → step s = .next t → t.memoryOk

/-! ### Frames -/

/-- O55. A store to a tile's own scratchpad changes no stored byte or mark of memory outside the bytes it stores to, and what is read of a
word outside those, where its line holds no stored error, is as before; a store elsewhere changes memory only later; and a report written to
host-window SRAM changes no byte outside it (R30, R116, R119, R120, R123, R475). -/
def Obligations.StoresTouchOnlyTheirBytes : Prop :=
  (∀ (s u : State) (t th mod ra rb imm a x : Nat), s.memoryOk → s.canIssue t th = true → mod < 4 →
    s.access t th (((s.tile t).thread th).effAddr ra imm) (2 ^ mod) (2 ^ mod) true = .ok a →
    (a < tileBlock t ∨ tileBlock t + 0x1000 ≤ a) → exec (.store t th mod ra rb imm) s = .next u →
    (isT0 a = true → a / t0TileSize = t →
      ((x < a ∨ a + 2 ^ mod ≤ x) → u.mem.byte x = s.mem.byte x ∧ u.mem.mark x = s.mem.mark x) ∧
      ((x / 8 * 8 + 8 ≤ a ∨ a + 2 ^ mod ≤ x / 8 * 8) → s.flawOf (x / 64 * 64) = [] → u.readPByte x = s.readPByte x)) ∧
    (¬(isT0 a = true ∧ a / t0TileSize = t) → u.mem = s.mem)) ∧
  (∀ (s u : State) (t th rd ra imm a x : Nat) (l : List (Nat × Nat)), s.memoryOk → s.canIssue t th = true →
    s.access t th (((s.tile t).thread th).effAddr ra imm) 256 64 true = .ok a →
    s.pieces t (((s.tile t).thread th).effAddr ra imm).1 256 true = .ok l → exec (.vectorStore t th rd ra imm) s = .next u →
    ((∀ p ∈ l, isT0 p.1 = true → p.1 / t0TileSize = t → x < p.1 ∨ p.1 + p.2 ≤ x) →
      u.mem.byte x = s.mem.byte x ∧ u.mem.mark x = s.mem.mark x) ∧
    ((∀ p ∈ l, ¬(isT0 p.1 = true ∧ p.1 / t0TileSize = t)) → u.mem = s.mem)) ∧
  (∀ (s u : State) (q k x : Nat) (c : Cmd), s.memoryOk → s.runs 0x0104 q k c → c.p 0 2 = 0x0019 → s.destOk (c.p 2 8) 1120 = true →
    (∀ i, i < 1120 → s.kindOf (c.p 2 8 + i) = .sram) → isT1 (c.p 2 8) = false → exec (.sysStatus q k) s = .next u →
    (x < c.p 2 8 ∨ c.p 2 8 + 1120 ≤ x) → u.mem.byte x = s.mem.byte x)

/-- O56. An instruction of a thread on scalar registers changes its destination register, the condition flag where it compares, and the
program counter; no other register, thread, tile or part of the state, and no byte of memory (R112, R267). -/
def Obligations.RegisterInstructionsFrame : Prop :=
  ∀ (s u : State) (t th mod rd ra rb imm : Nat) (i : Instr), s.canIssue t th = true →
    ((i = .aluReg t th mod rd ra rb ∧ mod < 11) ∨ (i = .aluImm t th mod rd ra imm ∧ mod < 11) ∨ (i = .compare t th mod ra rb ∧ mod < 6) ∨
      (i = .branch t th mod imm ∧ mod < 3 ∧ (mod = 0 ∨ ((s.tile t).thread th).flagP = false))) →
    exec i s = .next u →
    { u with tiles := s.tiles, free := s.free } = s ∧
    (∀ t', t' ≠ t → u.tile t' = s.tile t') ∧
    { u.tile t with threads := (s.tile t).threads } = s.tile t ∧
    (∀ th', th' ≠ th → (u.tile t).thread th' = (s.tile t).thread th') ∧
    { (u.tile t).thread th with
      x := ((s.tile t).thread th).x, xp := ((s.tile t).thread th).xp, pc := ((s.tile t).thread th).pc,
      flag := ((s.tile t).thread th).flag, flagP := ((s.tile t).thread th).flagP } = (s.tile t).thread th ∧
    (∀ r, r < 32 → r ≠ rd ∨ r = 0 ∨ i = .compare t th mod ra rb ∨ i = .branch t th mod imm →
      ((u.tile t).thread th).getX r = ((s.tile t).thread th).getX r ∧
      ((u.tile t).thread th).poisonX r = ((s.tile t).thread th).poisonX r) ∧
    (i ≠ .compare t th mod ra rb →
      ((u.tile t).thread th).flag = ((s.tile t).thread th).flag ∧ ((u.tile t).thread th).flagP = ((s.tile t).thread th).flagP)

/-! ### Rules of the spec -/

/-- O57. The planner's heuristic is the sum of R315 over the dimensions of GOAL_MASK with the wrapped distance where a dimension wraps,
its key adds W times it in 1/2^16, both saturated to 32 bits, and an entry put into the queue leaves it in the order of R315. -/
def Obligations.PlannerKeysAndOrder : Prop :=
  (∀ (l : LatTab) (goal st : List Nat),
    l.h goal st = min 0xFFFFFFFF (((List.range 6).map (fun (d : Nat) =>
      if bit l.goal d = 1 then
        l.coef.getD d 0 *
          (if bit l.wrap d = 1 then
            min ((st.getD d 0 : Int) - (goal.getD d 0 : Int)).natAbs
              (l.size.getD d 0 - ((st.getD d 0 : Int) - (goal.getD d 0 : Int)).natAbs)
          else ((st.getD d 0 : Int) - (goal.getD d 0 : Int)).natAbs)
      else 0)).sum)) ∧
  (∀ w g h : Nat, planKey w g h = min 0xFFFFFFFF (g + w * h / 2 ^ 16)) ∧
  (∀ (q : List QEntry) (e : QEntry),
    q.Pairwise (fun a b => a.f < b.f ∨ (a.f = b.f ∧ (a.g < b.g ∨ (a.g = b.g ∧ a.idx ≤ b.idx)))) →
    (putEntry q e).Pairwise (fun a b => a.f < b.f ∨ (a.f = b.f ∧ (a.g < b.g ∨ (a.g = b.g ∧ a.idx ≤ b.idx)))) ∧
    (putEntry q e).Perm (e :: q))

/-- O58. A load or a store of 1, 2, 4 or 8 bytes at an address that its size does not divide, and a vector load or store of 256 bytes
at one that 64 does not divide, raises a thread fault of cause ALIGN (6) with that address, and no aligned access does: it reaches
its address, or raises the cause the address itself has (R120). -/
def Obligations.AccessesAreAligned : Prop :=
  (∀ (s : State) (t th mod rd ra imm a n : Nat) (ups : List Upset), s.canIssue t th = true → mod < 16 → n ∈ [1, 2, 4, 8] → n = 2 ^ (mod % 4) →
    ((s.tile t).thread th).effAddr ra imm = (a, false) →
    (a % n ≠ 0 → exec (.load t th mod rd ra imm ups) s = .next (s.threadFault t th 0x0006 a)) ∧
    (a % n = 0 → ∀ v, s.access t th (a, false) n n false = .error v → ∃ c, s.reach t a n false = .error c ∧ v = s.threadFault t th c a)) ∧
  (∀ (s : State) (t th mod ra rb imm a n : Nat), s.canIssue t th = true → mod < 4 → n ∈ [1, 2, 4, 8] → n = 2 ^ mod →
    ((s.tile t).thread th).effAddr ra imm = (a, false) →
    (a % n ≠ 0 → exec (.store t th mod ra rb imm) s = .next (s.threadFault t th 0x0006 a)) ∧
    (a % n = 0 → ∀ v, s.access t th (a, false) n n true = .error v → ∃ c, s.reach t a n true = .error c ∧ v = s.threadFault t th c a)) ∧
  (∀ (s : State) (t th rd ra imm a : Nat), s.canIssue t th = true → ((s.tile t).thread th).effAddr ra imm = (a, false) →
    (a % 64 ≠ 0 → exec (.vectorLoad t th rd ra imm) s = .next (s.threadFault t th 0x0006 a) ∧
      exec (.vectorStore t th rd ra imm) s = .next (s.threadFault t th 0x0006 a)) ∧
    (a % 64 = 0 → ∀ (v : State) (w : Bool), s.access t th (a, false) 256 64 w = .error v →
      ∃ c, s.reach t a 256 w = .error c ∧ v = s.threadFault t th c a))

/-- O59. Every start (a cold power-up, a reset after supply sag, a brown-out in Moored, a return from Moored) leaves both arrays of the
host window reading 0x00 throughout, with command packets not yet accepted (R29). -/
def Obligations.StartsClearTheWindow : Prop :=
  (∀ (s : State) (cause a : Nat), isSram a = true →
    (s.startOver cause).mem.byte a = 0 ∧ (s.startOver cause).mem.mark a = 0 ∧ (s.startOver cause).start.stage ≠ .accepting) ∧
  (∀ (s : State) (src a : Nat), isSram a = true →
    (s.mooredReturn src).mem.byte a = 0 ∧ (s.mooredReturn src).mem.mark a = 0 ∧ (s.mooredReturn src).start.stage ≠ .accepting) ∧
  (∀ s : State, ∃ u : State, exec (.supplyLoss 2) s = .next (u.startOver 0)) ∧
  (∀ s : State, s.pwr.state ≠ 3 → ∃ u : State, exec .sagResetFall s = .next (u.startOver 1)) ∧
  (∀ s : State, s.pwr.state = 3 → exec .aonBrownout s = .next (s.startOver 2)) ∧
  (∀ s : State, s.pwr.state = 3 → s.pwr.entry = none → bit s.pwr.wakeEnabled 2 ≠ 0 → exec .sagRise s = .next (s.mooredReturn 2))

/-- O60. After command packets are accepted a rail that falls while RAILS_EN is high resets the device, with START_CAUSE 1 when VDD_AON
stayed valid and 0 otherwise, and the fall of VDD_AON is a cold power-up at any time (R512; that the rail stayed low for 2 µs is the
event itself). -/
def Obligations.RailFallsReset : Prop :=
  (∀ (s : State) (r : Nat), r < 11 → r ≠ 2 → s.start.stage = .accepting → s.start.railsEn = true →
    ∃ t : State, exec (.supplyLoss r) s = .next t ∧ t.start.cause = 1 ∧ t.start.stage ≠ .accepting ∧ t.pending = s.pending) ∧
  (∀ s : State, ∃ t : State, exec (.supplyLoss 2) s = .next t ∧ t.start.cause = 0 ∧ t.start.stage ≠ .accepting ∧
    t.time = { half := 0, running := false, coarse := true } ∧ t.pending = s.pending)

end
end

