-- ==== Sys2Proof/Laws/Checks.lean ====
section
/-! SUPPORT. The byte-mode code: clean bytes, single-bit errors and the poison form. -/

namespace Sys2Proof.Laws

open Sys2Proof.Machine

/-- A byte with its own check bits reads clean (R168). -/
theorem readByte_clean : ∀ d, d < 256 → readByte d (checkBits d) = .clean d := by decide +kernel

/-- A byte with one of its data bits inverted is corrected (R168). -/
theorem readByte_data_bit : ∀ d, d < 256 → ∀ i, i < 8 → readByte (d ^^^ 2 ^ i) (checkBits d) = .corrected d := by decide +kernel

/-- A byte with one of its check bits inverted is corrected (R168). -/
theorem readByte_check_bit : ∀ d, d < 256 → ∀ i, i < 5 → readByte d (checkBits d ^^^ 2 ^ i) = .corrected d := by decide +kernel

/-- The poison form reads as poison, and no byte's own check bits are those of the poison form (R169). -/
theorem readByte_poison : readByte 0 poisonCheck = .poison ∧ ∀ d, d < 256 → checkBits d ≠ poisonCheck ∨ d ≠ 0 := by decide +kernel

end Sys2Proof.Laws
end

