-- ==== Sys2Proof/Laws/Fields.lean ====
section
/-! SUPPORT. Bit fields of numbers: of a register written under a mask and of the words of a thread. -/

namespace Sys2Proof.Laws

open Sys2Proof.Machine

/-- A bit of a field. -/
theorem testBit_bits (x hi lo j : Nat) : (bits x hi lo).testBit j = (decide (j < hi + 1 - lo) && x.testBit (lo + j)) := by
  simp [bits, Nat.testBit_mod_two_pow, Nat.testBit_div_two_pow, Nat.add_comm]

/-- A bit of a register written under a mask. -/
theorem testBit_mergeBits (old v m j : Nat) : (mergeBits old v m).testBit j = if m.testBit j then v.testBit j else old.testBit j := by
  simp only [mergeBits, Nat.testBit_or, Nat.testBit_xor, Nat.testBit_and]
  cases m.testBit j <;> cases old.testBit j <;> simp

/-- A field of a register written whole is that of the value written. -/
theorem bits_mergeBits (old v hi lo k : Nat) (h : hi < k) : bits (mergeBits old v (2 ^ k - 1)) hi lo = bits v hi lo := by
  apply Nat.eq_of_testBit_eq; intro j
  rw [testBit_bits, testBit_bits, testBit_mergeBits]
  by_cases hj : j < hi + 1 - lo
  · rw [Nat.testBit_two_pow_sub_one]; simp [show lo + j < k by omega]
  · simp [hj]

/-- The low bits of a register written whole are those of the value written. -/
theorem mergeBits_mod (old v k n : Nat) (h : n ≤ k) : mergeBits old v (2 ^ k - 1) % 2 ^ n = v % 2 ^ n := by
  apply Nat.eq_of_testBit_eq; intro j
  rw [Nat.testBit_mod_two_pow, Nat.testBit_mod_two_pow, testBit_mergeBits, Nat.testBit_two_pow_sub_one]
  by_cases hj : j < n
  · simp [show j < k by omega]
  · simp [hj]

/-- A bit of a register written whole is that of the value written. -/
theorem bit_mergeBits (old v i k : Nat) (h : i < k) : bit (mergeBits old v (2 ^ k - 1)) i = bit v i := by
  have := bits_mergeBits old v i i k h
  simpa [bits, bit] using this

/-- A bit of the number that a list of bits spells. -/
theorem testBit_ofBits : ∀ (l : List Bool) (i : Nat), (ofBits l).testBit i = l.getD i false
  | [], i => by simp [ofBits]
  | b :: t, 0 => by simp only [ofBits, Nat.testBit_zero]; cases b <;> simp [b2n]
  | b :: t, i + 1 => by
    simp only [ofBits, Nat.testBit_succ, List.getD_cons_succ, ← testBit_ofBits t i]
    congr 1; cases b <;> simp only [b2n] <;> simp; omega

/-- The number of little-endian bytes. -/
theorem toLe_length (n v : Nat) : (toLe n v).length = n := by
  induction n generalizing v with
  | zero => rfl
  | succ n ih => simp [toLe, ih]

/-- Each field of an instruction word whose fields are in their ranges (R267). -/
theorem threadFields_bits {op rd ra rb mod imm : Nat} (h1 : op < 256) (h2 : rd < 32) (h3 : ra < 32) (h4 : rb < 32) (h5 : mod < 64) (h6 : imm < 4294967296) :
    threadFields op rd ra rb mod imm < 2 ^ 64 ∧ bits (threadFields op rd ra rb mod imm) 25 23 = 0 ∧
    bits (threadFields op rd ra rb mod imm) 7 0 = op ∧ bits (threadFields op rd ra rb mod imm) 12 8 = rd ∧
    bits (threadFields op rd ra rb mod imm) 17 13 = ra ∧ bits (threadFields op rd ra rb mod imm) 22 18 = rb ∧
    bits (threadFields op rd ra rb mod imm) 31 26 = mod ∧ bits (threadFields op rd ra rb mod imm) 63 32 = imm := by
  simp only [threadFields, bits]
  norm_num
  omega

/-- The instruction listed for a word whose fields are in their ranges (R267). -/
theorem listedInstrOf_fields {op rd ra rb mod imm : Nat} (t th : Nat) (h1 : op < 256) (h2 : rd < 32) (h3 : ra < 32) (h4 : rb < 32) (h5 : mod < 64) (h6 : imm < 4294967296) :
    listedInstrOf t th (threadFields op rd ra rb mod imm) = (match (generalizing := false) op with
    | 0x01 => some (.aluReg t th mod rd ra rb)
    | 0x02 => some (.aluImm t th mod rd ra imm)
    | 0x03 => some (.compare t th mod ra rb)
    | 0x04 => some (.branch t th mod imm)
    | 0x05 => some (.load t th mod rd ra imm [])
    | 0x06 => some (.store t th mod ra rb imm)
    | 0x07 => some (.atomic t th mod rd ra rb)
    | 0x08 => if mod = 0 then some (.vectorLoad t th rd ra imm) else if mod = 1 then some (.vectorStore t th rd ra imm) else none
    | 0x09 => some (.vectorOp t th mod rd ra rb)
    | 0x0A => some (.prefixScan t th mod rd ra rb)
    | 0x10 => unitInstr t th mod ra rb
    | 0x11 => bowInstr t th mod rd ra rb imm
    | 0x12 => syncInstr t th mod rd ra rb imm
    | _ => none) := by
  obtain ⟨_, a0, a1, a2, a3, a4, a5, a6⟩ := threadFields_bits h1 h2 h3 h4 h5 h6
  unfold listedInstrOf
  rw [a0, a1, a2, a3, a4, a5, a6, if_neg (by omega)] <;> rfl

/-- A word that R267 lists is the instruction listed for it. -/
theorem threadInstrOf_of_listed {t th w : Nat} {i : Instr} (h : listedInstrOf t th w = some i) : threadInstrOf t th w = some i := by
  unfold threadInstrOf; rw [h]; rfl

end Sys2Proof.Laws
end

