-- ==== Sys2Proof/Laws/Memory.lean ====
section
/-! SUPPORT. Memory: reading after writing, and that every operation on it keeps its canonical form. -/

namespace Sys2Proof.Laws

open Sys2Proof Sys2Proof.Machine

/-! ### Lists of cells -/

/-- The canonical form as a proposition: addresses rise strictly, and no entry is 0. -/
theorem cellsWf_iff (l : List Host.Cell) :
    cellsWf l = true ↔ l.Pairwise (fun x y => x.1 < y.1) ∧ ∀ c ∈ l, c.2 ≠ 0 := by
  induction l with
  | nil => simp [cellsWf]
  | cons c t ih =>
    cases t with
    | nil => simp [cellsWf]
    | cons d u =>
      obtain ⟨k, v⟩ := c; obtain ⟨k', v'⟩ := d
      simp only [cellsWf, Bool.and_eq_true, ih]
      simp only [List.pairwise_cons, List.mem_cons, forall_eq_or_imp, bne_iff_ne, decide_eq_true_eq]
      constructor
      · rintro ⟨⟨hv, hk⟩, ⟨hu, hp⟩, hw, ha⟩
        exact ⟨⟨⟨hk, fun x hx => lt_trans hk (hu x hx)⟩, hu, hp⟩, hv, hw, ha⟩
      · rintro ⟨⟨⟨hk, -⟩, hu, hp⟩, hv, hw, ha⟩
        exact ⟨⟨hv, hk⟩, ⟨hu, hp⟩, hw, ha⟩

/-- An address below every listed one reads 0. -/
theorem cellGet_below {l : List Host.Cell} {a : Nat} (h : ∀ c ∈ l, a < c.1) : cellGet l a = 0 := by
  cases l with
  | nil => rfl
  | cons c t =>
    have := h c (by simp)
    simp [cellGet, Nat.ne_of_lt this, this]

/-- Reading after one byte is written. -/
theorem cellGet_cellPut {l : List Host.Cell} (h : cellsWf l = true) (a x : Nat) (b : Byte) :
    cellGet (cellPut l a b) x = if x = a then b else cellGet l x := by
  rw [cellsWf_iff] at h
  induction l with
  | nil =>
    by_cases hb : b = 0
    · subst hb; simp [cellPut, cellGet]
    · simp only [cellPut, if_neg hb, cellGet]; split <;> simp
  | cons c t ih =>
    obtain ⟨k, v⟩ := c
    have ht := ih ⟨(List.pairwise_cons.1 h.1).2, fun c hc => h.2 c (by simp [hc])⟩
    have hk : ∀ c ∈ t, k < c.1 := (List.pairwise_cons.1 h.1).1
    simp only [cellPut]
    by_cases hak : a = k
    · rw [if_pos hak]
      by_cases hb : b = 0
      · rw [if_pos hb]
        by_cases hx : x = k
        · simp [hx, hak, hb, cellGet_below hk]
        · simp only [cellGet, hx, hak, if_false]
          by_cases h2 : x < k
          · rw [if_pos h2]; exact cellGet_below (fun c hc => by have := hk c hc; omega)
          · rw [if_neg h2]
      · rw [if_neg hb]; simp only [cellGet, hak]; split <;> simp
    · rw [if_neg hak]
      by_cases h1 : a < k
      · rw [if_pos h1]
        by_cases hb : b = 0
        · rw [if_pos hb]
          by_cases hx : x = a
          · simp only [cellGet, hx, hak, h1, hb, if_true, if_false]
          · simp [hx]
        · rw [if_neg hb]
          simp only [cellGet]
          by_cases hx : x = a
          · simp [hx]
          · simp only [hx, if_false]
            by_cases h2 : x < a
            · have h3 : x ≠ k := by omega
              have h4 : x < k := by omega
              simp [h2, h3, h4]
            · simp [h2]
      · rw [if_neg h1]
        simp only [cellGet, ht]
        by_cases hx : x = a
        · simp [hx, hak, h1]
        · simp [hx]

theorem mem_cellPut {l : List Host.Cell} {a : Nat} {b : Byte} {c : Host.Cell} (h : c ∈ cellPut l a b) : c ∈ l ∨ (c = (a, b) ∧ b ≠ 0) := by
  induction l with
  | nil =>
    by_cases hb : b = 0
    · rw [cellPut, if_pos hb] at h; simp at h
    · rw [cellPut, if_neg hb, List.mem_singleton] at h; exact .inr ⟨h, hb⟩
  | cons d t ih =>
    obtain ⟨k, v⟩ := d
    simp only [cellPut] at h
    grind

/-- Writing one byte keeps the canonical form. -/
theorem cellsWf_cellPut {l : List Host.Cell} (h : cellsWf l = true) (a : Nat) (b : Byte) : cellsWf (cellPut l a b) = true := by
  rw [cellsWf_iff] at h ⊢
  refine ⟨?_, fun c hc => ?_⟩
  · induction l with
    | nil => simp only [cellPut]; split <;> simp
    | cons d t ih =>
      obtain ⟨k, v⟩ := d
      have hk := List.pairwise_cons.1 h.1
      have ht := ih ⟨hk.2, fun c hc => h.2 c (by simp [hc])⟩
      simp only [cellPut]
      split
      · subst_vars
        split
        · exact hk.2
        · exact List.pairwise_cons.2 ⟨hk.1, hk.2⟩
      · split
        · split
          · exact h.1
          · refine List.pairwise_cons.2 ⟨fun c hc => ?_, h.1⟩
            rcases List.mem_cons.1 hc with rfl | hc
            · simpa
            · have := hk.1 c hc; simp only at this ⊢; omega
        · refine List.pairwise_cons.2 ⟨fun c hc => ?_, ht⟩
          rcases mem_cellPut hc with hc | ⟨rfl, -⟩
          · exact hk.1 c hc
          · simp only at *; omega
  · rcases mem_cellPut hc with hc | ⟨rfl, hb⟩
    · exact h.2 c hc
    · exact hb

/-- Filtering cells by their addresses keeps the canonical form. -/
theorem cellsWf_filter {l : List Host.Cell} (h : cellsWf l = true) (p : Host.Cell → Bool) : cellsWf (l.filter p) = true := by
  rw [cellsWf_iff] at h ⊢
  exact ⟨h.1.filter p, fun c hc => h.2 c (List.mem_of_mem_filter hc)⟩

theorem cellsWf_cellClear {l : List Host.Cell} (h : cellsWf l = true) (a n : Nat) : cellsWf (cellClear l a n) = true :=
  cellsWf_filter h _

/-- What cells hold after a filter on addresses. -/
theorem cellGet_filter {l : List Host.Cell} (h : cellsWf l = true) (p : Nat → Bool) (x : Nat) :
    cellGet (l.filter (fun c => p c.1)) x = if p x then cellGet l x else 0 := by
  rw [cellsWf_iff] at h
  induction l with
  | nil => simp [cellGet]
  | cons c t ih =>
    obtain ⟨k, v⟩ := c
    have hk := List.pairwise_cons.1 h.1
    have ht := ih ⟨hk.2, fun c hc => h.2 c (by simp [hc])⟩
    have hk' : ∀ c ∈ t, k < c.1 := hk.1
    by_cases hp : p k
    · simp only [List.filter_cons, hp, if_true, cellGet, ht]
      by_cases hx : x = k
      · simp [hx, hp]
      · simp only [hx, if_false]; split <;> simp
    · rw [List.filter_cons, if_neg (by simpa using hp), ht]
      simp only [cellGet]
      by_cases hx : x = k
      · simp [hx, hp]
      · simp only [hx, if_false]
        by_cases h2 : x < k
        · rw [cellGet_below (fun c hc => by have := hk' c hc; omega), if_pos h2]
        · rw [if_neg h2]

/-- Reading after a range is cleared. -/
theorem cellGet_cellClear {l : List Host.Cell} (h : cellsWf l = true) (a n x : Nat) :
    cellGet (cellClear l a n) x = if a ≤ x ∧ x < a + n then 0 else cellGet l x := by
  have := cellGet_filter h (fun k => !(a ≤ k && k < a + n)) x
  simp only [cellClear, this]
  by_cases hx : a ≤ x ∧ x < a + n <;> simp [hx]

theorem cellsWf_cellPuts {l : List Host.Cell} (h : cellsWf l = true) (a : Nat) (b : List Byte) : cellsWf (cellPuts l a b) = true := by
  induction b generalizing l a with
  | nil => exact h
  | cons x t ih => exact ih (cellsWf_cellPut h a x) (a + 1)

/-- Reading after bytes are stored. -/
theorem cellGet_cellPuts {l : List Host.Cell} (h : cellsWf l = true) (a : Nat) (b : List Byte) (x : Nat) :
    cellGet (cellPuts l a b) x = if a ≤ x ∧ x < a + b.length then b.getD (x - a) 0 else cellGet l x := by
  induction b generalizing l a with
  | nil => simp only [cellPuts, List.length_nil]; rw [if_neg (by omega)]
  | cons y t ih =>
    simp only [cellPuts, ih (cellsWf_cellPut h a y), cellGet_cellPut h, List.length_cons]
    by_cases hx : x = a
    · subst hx; rw [if_neg (by omega), if_pos (by omega)]; simp
    · by_cases h1 : a + 1 ≤ x ∧ x < a + 1 + t.length
      · rw [if_pos h1, if_pos (by omega)]
        obtain ⟨d, rfl⟩ : ∃ d, x = a + 1 + d := ⟨x - (a + 1), by omega⟩
        simp [show a + 1 + d - (a + 1) = d by omega, show a + 1 + d - a = d + 1 by omega]
      · rw [if_neg h1, if_neg (by omega : ¬(a ≤ x ∧ _)), if_neg hx]

/-- Bytes read one by one. -/
theorem cellGets_eq (l : List Host.Cell) (a n : Nat) : cellGets l a n = (List.range n).map (fun i => cellGet l (a + i)) := by
  induction n generalizing a with
  | zero => rfl
  | succ n ih =>
    rw [cellGets, ih, List.range_succ_eq_map]
    simp only [List.map_cons, List.map_map, Nat.add_zero, List.cons.injEq, true_and]
    refine List.map_congr_left (fun i _ => ?_)
    simp [Nat.add_right_comm, Nat.add_assoc]

/-- Replacing values by others that are not 0 keeps the canonical form. -/
theorem cellsWf_map {l : List Host.Cell} (h : cellsWf l = true) (f : Host.Cell → Host.Cell) (hk : ∀ c, (f c).1 = c.1)
    (hv : ∀ c, c.2 ≠ 0 → (f c).2 ≠ 0) : cellsWf (l.map f) = true := by
  rw [cellsWf_iff] at h ⊢
  refine ⟨List.pairwise_map.2 (h.1.imp (fun hab => by simpa [hk] using hab)), fun c hc => ?_⟩
  obtain ⟨d, hd, rfl⟩ := List.mem_map.1 hc
  exact hv d (h.2 d hd)

/-! ### Memory -/

theorem wf_iff {m : Memory} : m.wf = true ↔ cellsWf m.data = true ∧ cellsWf m.tag = true := by simp [Memory.wf]

theorem wf_clear {m : Memory} (h : m.wf = true) (a n : Nat) : (m.clear a n).wf = true := by
  rw [wf_iff] at h ⊢; exact ⟨cellsWf_cellClear h.1 a n, cellsWf_cellClear h.2 a n⟩

theorem wf_put {m : Memory} (h : m.wf = true) (a : Nat) (b k : Byte) : (m.put a b k).wf = true := by
  rw [wf_iff] at h ⊢; exact ⟨cellsWf_cellPut h.1 a b, cellsWf_cellPut h.2 a k⟩

theorem wf_puts {m : Memory} (h : m.wf = true) (a : Nat) (l : List (Option (Byte × Byte))) : (m.puts a l).wf = true := by
  induction l generalizing m a with
  | nil => exact h
  | cons x t ih =>
    cases x with
    | none => exact ih h (a + 1)
    | some x => exact ih (wf_put h a x.1 x.2) (a + 1)

theorem wf_poisonWords {m : Memory} (h : m.wf = true) (ws : List Nat) : (m.poisonWords ws).wf = true := by
  unfold Memory.poisonWords
  induction ws generalizing m with
  | nil => exact h
  | cons w t ih => exact ih (wf_clear h w 8)

theorem wf_putWord {m : Memory} (h : m.wf = true) (k : StoreKind) (w : Nat) (bs : List (Option PByte)) :
    (m.putWord k w bs).wf = true := by
  unfold Memory.putWord
  dsimp only
  split
  · exact wf_puts h _ _
  · split <;> exact wf_puts h _ _
  · split
    · exact h
    · exact wf_puts h _ _

theorem wf_putList {m : Memory} (h : m.wf = true) (kind : Nat → StoreKind) (f a : Nat) (l : List (Option PByte)) :
    (Memory.putList kind f m a l).wf = true := by
  induction f generalizing m a l with
  | zero => exact h
  | succ f ih =>
    unfold Memory.putList
    split
    · exact h
    · exact ih (wf_putWord h _ _ _) _ _

/-- A fold of operations that keep the canonical form keeps it. -/
theorem wf_foldl {α : Type} {m : Memory} (h : m.wf = true) (l : List α) (f : Memory → α → Memory)
    (hf : ∀ m x, m.wf = true → (f m x).wf = true) : (l.foldl f m).wf = true := by
  induction l generalizing m with
  | nil => exact h
  | cons x t ih => exact ih (hf m x h)

theorem wf_putSram {s : State} (h : s.mem.wf = true) (a : Nat) (l : List Byte) : (s.putSram a l).mem.wf = true := by
  rw [wf_iff] at h ⊢; exact ⟨cellsWf_cellPuts h.1 a l, cellsWf_cellPuts h.2 a _⟩

theorem wf_writeRing {s : State} (h : s.mem.wf = true) (ch : Nat) (r : List Byte) : (s.writeRing ch r).mem.wf = true := by
  unfold State.writeRing
  dsimp only
  split
  · exact h
  · exact wf_putSram h _ _

/-- Raising an event keeps the canonical form. -/
theorem wf_raise {s : State} (h : s.mem.wf = true) (code source unit detail : Nat) : (s.raise code source unit detail).mem.wf = true := by
  have h1 : ∀ (b : Bool) (t : State) (ch : Nat) (r : List Byte), t.mem.wf = true → (if b then t.writeRing ch r else t).mem.wf = true := by
    intro b t ch r ht; cases b
    · exact ht
    · exact wf_writeRing ht ch r
  unfold State.raise
  split
  · refine h1 _ _ _ _ (h1 _ _ _ _ ?_); exact h
  · exact h

theorem wf_raiseTo {s : State} (h : s.mem.wf = true) (ch code source unit detail : Nat) :
    (s.raiseTo ch code source unit detail).mem.wf = true := by
  unfold State.raiseTo
  split
  · dsimp only
    split
    · refine wf_writeRing ?_ _ _; exact h
    · exact h
  · exact h

/-- Counting keeps the canonical form. -/
theorem wf_bump {s : State} (h : s.mem.wf = true) (id n : Nat) : (s.bump id n).mem.wf = true := by
  unfold State.bump
  dsimp only
  split
  · exact h
  · split
    · refine wf_raise ?_ _ _ _ _; exact h
    · exact h

/-! ### Stores keep the canonical form -/

/-- A fold over states of operations that keep the canonical form keeps it. -/
theorem wf_foldlState {α : Type} {s : State} (h : s.mem.wf = true) (l : List α) (f : State → α → State)
    (hf : ∀ s x, s.mem.wf = true → (f s x).mem.wf = true) : (l.foldl f s).mem.wf = true := by
  induction l generalizing s with
  | nil => exact h
  | cons x t ih => exact ih (hf s x h)

theorem wf_putLine {m : Memory} (h : m.wf = true) (l : Nat) (b : List PByte) : (m.putLine l b).wf = true := wf_puts h _ _

@[simp] theorem steady_mem (s : State) (l : Nat) : (s.steady l).mem = s.mem := by unfold State.steady; split <;> rfl

theorem wf_rewrite {s : State} (h : s.mem.wf = true) (l : Nat) (b : List PByte) : (s.rewrite l b).mem.wf = true := by
  unfold State.rewrite; rw [steady_mem]; exact wf_putLine h l b

theorem wf_countT1 {s : State} (h : s.mem.wf = true) (l n lm : Nat) : (s.countT1 l n lm).mem.wf = true := by
  unfold State.countT1
  split
  · exact h
  · refine wf_bump ?_ _ _; exact h

theorem wf_countNvsCe {s : State} (h : s.mem.wf = true) (p : Nat) : (s.countNvsCe p).mem.wf = true := by
  unfold State.countNvsCe; exact wf_bump (s := s) h _ _

theorem wf_countNvsUe {s : State} (h : s.mem.wf = true) (p : Nat) : (s.countNvsUe p).mem.wf = true := by
  unfold State.countNvsUe; refine wf_bump ?_ _ _; exact h

theorem wf_maskPage {s : State} (h : s.mem.wf = true) (p : Nat) : (s.maskPage p).mem.wf = true := wf_poisonWords h _

theorem wf_mergeLine {s : State} (h : s.mem.wf = true) (l : Nat) (en : Nat → Bool) : (s.mergeLine l en).mem.wf = true := by
  have h1 : (s.steady l).mem.wf = true := by rw [steady_mem]; exact h
  unfold State.mergeLine
  dsimp only
  split
  · exact h1
  · split
    · exact h1
    · split
      · exact h1
      · exact wf_countT1 (wf_rewrite h1 _ _) _ _ _

theorem wf_mergePage {s : State} (h : s.mem.wf = true) (p : Nat) (w : Bool) : (s.mergePage p w).mem.wf = true := by
  have h1 : (s.steady (nvsBaseAddr + 4096 * p)).mem.wf = true := by rw [steady_mem]; exact h
  unfold State.mergePage
  dsimp only
  split
  · exact h1
  · split
    · exact h1
    · split
      · refine wf_countNvsCe ?_ p; exact h1
      · exact wf_countNvsUe (wf_maskPage h1 p) p

/-- A store's preparation keeps the canonical form. -/
theorem wf_premerge {s : State} (h : s.mem.wf = true) (a : Nat) (l : List (Option PByte)) : (s.premerge a l).mem.wf = true := by
  unfold State.premerge
  split
  · exact h
  · dsimp only
    split
    · exact wf_foldlState h _ _ (fun s i hs => wf_mergeLine hs _ _)
    · split
      · exact wf_foldlState h _ _ (fun s i hs => wf_mergePage hs _ _)
      · exact h

@[simp] theorem markWritten_mem (s : State) (a n : Nat) : (s.markWritten a n).mem = s.mem := by
  unfold State.markWritten; split
  · rfl
  · split
    · rfl
    · split <;> rfl

/-- A store keeps the canonical form. -/
theorem wf_storeMasked {s : State} (h : s.mem.wf = true) (a : Nat) (l : List (Option PByte)) : (s.storeMasked a l).mem.wf = true := by
  unfold State.storeMasked
  dsimp only
  split
  · split
    · exact wf_putList (wf_premerge h _ _) _ _ _ _
    · rw [markWritten_mem]; exact wf_putList (wf_premerge h _ _) _ _ _ _
  · exact h

theorem wf_storeBytes {s : State} (h : s.mem.wf = true) (a : Nat) (l : List PByte) : (s.storeBytes a l).mem.wf = true :=
  wf_storeMasked h a _

theorem wf_storeClean {s : State} (h : s.mem.wf = true) (a : Nat) (l : List Byte) : (s.storeClean a l).mem.wf = true :=
  wf_storeBytes h a _

/-! ### Bytes after a store -/

/-- Stored bytes at addresses outside a list of puts are unchanged. -/
theorem byte_puts {m : Memory} (h : m.wf = true) (a : Nat) (l : List (Option (Byte × Byte))) (x : Nat) :
    (m.puts a l).byte x = if a ≤ x ∧ x < a + l.length then ((l.getD (x - a) none).map Prod.fst).getD (m.byte x) else m.byte x := by
  induction l generalizing m a with
  | nil => simp only [Memory.puts, List.length_nil]; rw [if_neg (by omega)]
  | cons y t ih =>
    have shift : ∀ (m' : Memory), (∀ z, z ≠ a → m'.byte z = m.byte z) →
        (if a + 1 ≤ x ∧ x < a + 1 + t.length then ((t.getD (x - (a + 1)) none).map Prod.fst).getD (m'.byte x) else m'.byte x) =
        if x = a then m'.byte a else
          if a ≤ x ∧ x < a + (y :: t).length then (((y :: t).getD (x - a) none).map Prod.fst).getD (m.byte x) else m.byte x := by
      intro m' hm
      by_cases hx : x = a
      · subst hx; rw [if_neg (by omega)]; simp
      · rw [if_neg hx, hm x hx]
        by_cases h1 : a + 1 ≤ x ∧ x < a + 1 + t.length
        · rw [if_pos h1, if_pos (by simp only [List.length_cons]; omega)]
          obtain ⟨d, rfl⟩ : ∃ d, x = a + 1 + d := ⟨x - (a + 1), by omega⟩
          simp [show a + 1 + d - (a + 1) = d by omega, show a + 1 + d - a = d + 1 by omega]
        · rw [if_neg h1, if_neg (by simp only [List.length_cons]; omega)]
    cases y with
    | none =>
      simp only [Memory.puts, ih h, shift m (fun _ _ => rfl)]
      by_cases hx : x = a
      · subst hx; simp
      · simp [hx]
    | some y =>
      obtain ⟨b, k⟩ := y
      have hp : ∀ z, (m.put a b k).byte z = if z = a then b else m.byte z := fun z => cellGet_cellPut (wf_iff.1 h).1 a z b
      simp only [Memory.puts, ih (wf_put h a b k), shift (m.put a b k) (fun z hz => by simp [hp, hz])]
      by_cases hx : x = a
      · subst hx; simp [hp]
      · simp [hx]

/-- A word store touches the stored bytes of its word alone. -/
theorem byte_putWord_outside {m : Memory} (h : m.wf = true) (k : StoreKind) (w : Nat) (bs : List (Option PByte)) (hb : bs.length = 8) (x : Nat)
    (hx : x < w ∨ w + 8 ≤ x) : (m.putWord k w bs).byte x = m.byte x := by
  have hg : ∀ l : List Host.Cell, (cellGets l w 8).length = 8 := fun l => by simp [cellGets_eq]
  have key : ∀ l : List (Option (Byte × Byte)), l.length = 8 → (m.puts w l).byte x = m.byte x := by
    intro l hl; rw [byte_puts h, if_neg (by omega)]
  unfold Memory.putWord
  dsimp only
  split
  · exact key _ (by simp [hb])
  · split
    · exact key _ (by simp)
    · exact key _ (by simp [hb, hg])
  · split
    · rfl
    · exact key _ (by simp [hb, hg])

/-- An SRAM word store writes its enabled bytes and keeps the others. -/
theorem byte_putWord_sram {m : Memory} (h : m.wf = true) (w : Nat) (bs : List (Option PByte)) (hb : bs.length = 8) (i : Nat) (hi : i < 8) :
    (m.putWord .sram w bs).byte (w + i) = ((bs.getD i none).map PByte.v).getD (m.byte (w + i)) := by
  have hg : (cellGets m.data w 8).length = 8 := by simp [cellGets_eq]
  have ho : bs.all Option.isNone = true → bs.getD i none = none := by
    intro ha
    have hm := List.all_eq_true.1 ha bs[i] (List.getElem_mem (by omega))
    rw [List.getD_eq_getElem?_getD, List.getElem?_eq_getElem (by omega)]
    simpa using hm
  unfold Memory.putWord
  dsimp only
  split
  · rename_i ha
    rw [ho ha]; rfl
  rw [byte_puts h, if_pos (by simp [hb, hg]; omega)]
  have h1 : (bs.zip (cellGets m.data w 8))[i]? = some (bs.getD i none, m.byte (w + i)) := by
    rw [List.getElem?_zip_eq_some]
    constructor
    · rw [List.getD_eq_getElem?_getD]; simp [hb, hi]
    · simp [cellGets_eq, hi, Memory.byte]
  simp only [Nat.add_sub_cancel_left, List.getD_eq_getElem?_getD, List.getElem?_map, h1]
  simp

/-- A store of SRAM bytes writes its enabled bytes and keeps every other. -/
theorem byte_putList_sram {m : Memory} (h : m.wf = true) (kind : Nat → StoreKind) (f a : Nat) (l : List (Option PByte))
    (hf : l.length < f) (hk : ∀ i, kind (a + i) = .sram) (x : Nat) :
    (Memory.putList kind f m a l).byte x =
      if a ≤ x ∧ x < a + l.length then ((l.getD (x - a) none).map PByte.v).getD (m.byte x) else m.byte x := by
  induction f generalizing m a l with
  | zero => omega
  | succ f ih =>
    unfold Memory.putList
    cases l with
    | nil => simp
    | cons y t =>
      set l := y :: t with hl
      have hne : l.isEmpty = false := by simp [hl]
      have hlen : 0 < l.length := by simp [hl]
      simp only [hne, Bool.false_eq_true, if_false]
      set o := a % 8 with ho
      set bs := List.replicate o none ++ l.take (8 - o) ++ List.replicate (8 - o - (l.take (8 - o)).length) (none : Option PByte) with hbs
      have hb : bs.length = 8 := by simp [hbs]; omega
      have h0 := hk 0
      simp only [Nat.add_zero] at h0
      rw [ih (wf_putWord h _ _ _) _ _ (by simp; omega) (fun i => by rw [Nat.add_assoc]; exact hk _), h0]
      have hw : ∀ z, (m.putWord .sram (a - o) bs).byte z =
          if a - o ≤ z ∧ z < a - o + 8 then ((bs.getD (z - (a - o)) none).map PByte.v).getD (m.byte z) else m.byte z := by
        intro z
        split
        · have := byte_putWord_sram h (a - o) bs hb (z - (a - o)) (by omega)
          rwa [show a - o + (z - (a - o)) = z by omega] at this
        · exact byte_putWord_outside h _ _ _ hb z (by omega)
      have hbg : ∀ z, bs.getD z none = if o ≤ z ∧ z < 8 then l.getD (z - o) none else none := by
        intro z
        simp only [hbs, List.getD_eq_getElem?_getD, List.getElem?_append, List.length_append, List.length_replicate, List.getElem?_replicate,
          List.length_take, List.getElem?_take]
        by_cases h1 : z < o
        · simp [h1, show ¬ (o ≤ z ∧ z < 8) by omega, show z < o + min (8 - o) l.length by omega]
        · by_cases h2 : z < o + min (8 - o) l.length
          · rw [if_pos h2, if_neg h1, if_pos (by omega), if_pos (by omega)]
          · rw [if_neg h2]
            have : (if o ≤ z ∧ z < 8 then l[z - o]?.getD none else none) = none := by
              split
              · rw [List.getElem?_eq_none (by omega)]; rfl
              · rfl
            rw [this]
            split <;> rfl
      rw [hw x]
      by_cases hx : a + (8 - o) ≤ x
      · rw [if_neg (by omega : ¬(a - o ≤ x ∧ x < a - o + 8))]
        simp only [List.length_drop, List.getD_eq_getElem?_getD, List.getElem?_drop]
        by_cases h2 : x < a + l.length
        · rw [if_pos (by omega), if_pos (by omega)]
          rw [show 8 - o + (x - (a + (8 - o))) = x - a by omega]
        · rw [if_neg (by omega), if_neg (by omega)]
      · rw [if_neg (by omega : ¬(a + (8 - o) ≤ x ∧ _))]
        by_cases h2 : a ≤ x
        · rw [if_pos (by omega : a - o ≤ x ∧ x < a - o + 8), hbg, if_pos (by omega), show x - (a - o) - o = x - a by omega]
          by_cases h3 : x < a + l.length
          · rw [if_pos ⟨h2, h3⟩]
          · rw [if_neg (by omega), List.getD_eq_getElem?_getD, List.getElem?_eq_none (by omega)]; rfl
        · rw [if_neg (by omega : ¬(a ≤ x ∧ _))]
          split
          · rw [hbg, if_neg (by omega)]; rfl
          · rfl

/-- Marks after a list of puts. -/
theorem mark_puts {m : Memory} (h : m.wf = true) (a : Nat) (l : List (Option (Byte × Byte))) (x : Nat) :
    (m.puts a l).mark x = if a ≤ x ∧ x < a + l.length then ((l.getD (x - a) none).map Prod.snd).getD (m.mark x) else m.mark x := by
  induction l generalizing m a with
  | nil => simp only [Memory.puts, List.length_nil]; rw [if_neg (by omega)]
  | cons y t ih =>
    have shift : ∀ (m' : Memory), (∀ z, z ≠ a → m'.mark z = m.mark z) →
        (if a + 1 ≤ x ∧ x < a + 1 + t.length then ((t.getD (x - (a + 1)) none).map Prod.snd).getD (m'.mark x) else m'.mark x) =
        if x = a then m'.mark a else
          if a ≤ x ∧ x < a + (y :: t).length then (((y :: t).getD (x - a) none).map Prod.snd).getD (m.mark x) else m.mark x := by
      intro m' hm
      by_cases hx : x = a
      · subst hx; rw [if_neg (by omega)]; simp
      · rw [if_neg hx, hm x hx]
        by_cases h1 : a + 1 ≤ x ∧ x < a + 1 + t.length
        · rw [if_pos h1, if_pos (by simp only [List.length_cons]; omega)]
          obtain ⟨d, rfl⟩ : ∃ d, x = a + 1 + d := ⟨x - (a + 1), by omega⟩
          simp [show a + 1 + d - (a + 1) = d by omega, show a + 1 + d - a = d + 1 by omega]
        · rw [if_neg h1, if_neg (by simp only [List.length_cons]; omega)]
    cases y with
    | none =>
      simp only [Memory.puts, ih h, shift m (fun _ _ => rfl)]
      by_cases hx : x = a
      · subst hx; simp
      · simp [hx]
    | some y =>
      obtain ⟨b, k⟩ := y
      have hp : ∀ z, (m.put a b k).mark z = if z = a then k else m.mark z := fun z => cellGet_cellPut (wf_iff.1 h).2 a z k
      simp only [Memory.puts, ih (wf_put h a b k), shift (m.put a b k) (fun z hz => by simp [hp, hz])]
      by_cases hx : x = a
      · subst hx; simp [hp]
      · simp [hx]

/-- A word store leaves every byte and mark outside its word. -/
theorem putWord_outside {m : Memory} (h : m.wf = true) (k : StoreKind) (w : Nat) (bs : List (Option PByte)) (hb : bs.length = 8) (x : Nat)
    (hx : x < w ∨ w + 8 ≤ x) : (m.putWord k w bs).byte x = m.byte x ∧ (m.putWord k w bs).mark x = m.mark x := by
  have hg : ∀ l : List Host.Cell, (cellGets l w 8).length = 8 := fun l => by simp [cellGets_eq]
  have key : ∀ l : List (Option (Byte × Byte)), l.length = 8 → (m.puts w l).byte x = m.byte x ∧ (m.puts w l).mark x = m.mark x := by
    intro l hl; rw [byte_puts h, mark_puts h, if_neg (by omega), if_neg (by omega)]; exact ⟨rfl, rfl⟩
  unfold Memory.putWord
  dsimp only
  split
  · exact key _ (by simp [hb])
  · split
    · exact key _ (by simp)
    · exact key _ (by simp [hb, hg])
  · split
    · exact ⟨rfl, rfl⟩
    · exact key _ (by simp [hb, hg])

/-- Bytes stored within one word of a byte-kind store leave every other byte and its mark. -/
theorem putList_byte_outside {m : Memory} (h : m.wf = true) (kind : Nat → StoreKind) (f a : Nat) (l : List (Option PByte))
    (hl : a % 8 + l.length ≤ 8) (hk : kind a = .byte) (x : Nat) (hx : x < a ∨ a + l.length ≤ x) :
    (Memory.putList kind f m a l).byte x = m.byte x ∧ (Memory.putList kind f m a l).mark x = m.mark x := by
  cases f with
  | zero => exact ⟨rfl, rfl⟩
  | succ f =>
    unfold Memory.putList
    split
    · exact ⟨rfl, rfl⟩
    · have hd : l.drop (8 - a % 8) = [] := List.drop_eq_nil_of_le (by omega)
      have ht : l.take (8 - a % 8) = l := List.take_of_length_le (by omega)
      dsimp only
      rw [hd, ht, hk]
      have hn : ∀ (f : Nat) (m : Memory) a, Memory.putList kind f m a [] = m := by intro f m a; cases f <;> rfl
      rw [hn]
      simp only [Memory.putWord]
      rw [byte_puts h, mark_puts h]
      split
      · have hg : (List.map (fun (o : Option PByte) => o.map (fun b => if b.p then ((0, 0) : Byte × Byte) else (b.v, 1)))
            (List.replicate (a % 8) none ++ l ++ List.replicate (8 - a % 8 - l.length) none)).getD (x - (a - a % 8)) none = none := by
          simp only [List.getD_eq_getElem?_getD, List.getElem?_map, List.getElem?_append, List.length_append, List.length_replicate, List.getElem?_replicate]
          rcases hx with hx | hx
          · simp [show x - (a - a % 8) < a % 8 by omega, show x - (a - a % 8) < a % 8 + l.length by omega]
          · simp only [show ¬ x - (a - a % 8) < a % 8 + l.length by omega, if_false]
            split <;> rfl
        rw [hg]; exact ⟨rfl, rfl⟩
      · exact ⟨rfl, rfl⟩

/-- Whole words stored leave every byte outside them and its mark. -/
theorem putList_words_outside {m : Memory} (h : m.wf = true) (kind : Nat → StoreKind) (f a : Nat) (l : List (Option PByte))
    (ha : a % 8 = 0) (hl : l.length % 8 = 0) (x : Nat) (hx : x < a ∨ a + l.length ≤ x) :
    (Memory.putList kind f m a l).byte x = m.byte x ∧ (Memory.putList kind f m a l).mark x = m.mark x := by
  induction f generalizing m a l with
  | zero => exact ⟨rfl, rfl⟩
  | succ f ih =>
    unfold Memory.putList
    split
    · exact ⟨rfl, rfl⟩
    · rename_i hne
      have h0 : 8 ≤ l.length := by
        have : l.length ≠ 0 := by intro h; exact hne (by simpa using h)
        omega
      dsimp only
      rw [ha]
      have hw := putWord_outside h (kind a) (a - 0) (List.replicate 0 none ++ l.take (8 - 0) ++ List.replicate (8 - 0 - (l.take (8 - 0)).length) none)
        (by simp) x (by omega)
      have hi := ih (wf_putWord h (kind a) (a - 0) (List.replicate 0 none ++ l.take (8 - 0) ++ List.replicate (8 - 0 - (l.take (8 - 0)).length) none)) (a + (8 - 0)) (l.drop (8 - 0)) (by omega) (by simp; omega) (by simp; omega)
      exact ⟨hi.1.trans hw.1, hi.2.trans hw.2⟩

/-- Bytes stored into SRAM leave every byte outside them. -/
theorem putList_sram_outside {m : Memory} (h : m.wf = true) (kind : Nat → StoreKind) (f a : Nat) (l : List (Option PByte))
    (hk : ∀ i, i < l.length → kind (a + i) = .sram) (x : Nat) (hx : x < a ∨ a + l.length ≤ x) :
    (Memory.putList kind f m a l).byte x = m.byte x := by
  induction f generalizing m a l with
  | zero => rfl
  | succ f ih =>
    unfold Memory.putList
    split
    · rfl
    · rename_i hne
      have h0 : 0 < l.length := by
        have : l.length ≠ 0 := by intro h; exact hne (by simpa using h)
        omega
      dsimp only
      have hk0 := hk 0 h0
      rw [Nat.add_zero] at hk0
      rw [ih (wf_putWord h _ _ _) _ _ (fun i hi => by rw [Nat.add_assoc]; exact hk _ (by simp at hi; omega)) (by simp; omega), hk0]
      set o := a % 8 with ho
      set bs := List.replicate o none ++ l.take (8 - o) ++ List.replicate (8 - o - (l.take (8 - o)).length) (none : Option PByte) with hbs
      have hb : bs.length = 8 := by simp [hbs]; omega
      by_cases hx2 : x < a - o ∨ a - o + 8 ≤ x
      · exact byte_putWord_outside h _ _ _ hb x hx2
      · have := byte_putWord_sram h (a - o) bs hb (x - (a - o)) (by omega)
        rw [show a - o + (x - (a - o)) = x by omega] at this
        rw [this]
        have hg : bs.getD (x - (a - o)) none = none := by
          simp only [hbs, List.getD_eq_getElem?_getD, List.getElem?_append, List.length_append, List.length_replicate, List.getElem?_replicate, List.length_take, List.getElem?_take]
          rcases hx with hx | hx
          · simp [show x - (a - o) < o by omega, show x - (a - o) < o + min (8 - o) l.length by omega]
          · simp only [show ¬ x - (a - o) < o + min (8 - o) l.length by omega, if_false]
            split <;> rfl
        rw [hg]; rfl

end Sys2Proof.Laws
end

