-- ==== Sys2Proof/Laws/PerInstr.lean ====
section
/-! SUPPORT. Statements about every constructor of `Instr`, one lemma each. -/

namespace Sys2Proof.Laws

/-- Well-formedness says exactly that every bounded operand is below its limit. -/
def Operands.Statement (i : Instr) : Prop := i.wf = true ↔ ∀ p ∈ i.limits, p.1 < p.2

theorem instr_wf_iff (i : Instr) : i.wf = true ↔ ∀ p ∈ i.limits, p.1 < p.2 := by
  simp [Instr.wf]

theorem Operands.hostRead (ch : Nat) (a : BurstAddr) (bl32 : Bool) (ups : List Upset) : Operands.Statement (.hostRead ch a bl32 ups) := instr_wf_iff _
theorem Operands.evLostRead (ch : Nat) : Operands.Statement (.evLostRead ch) := instr_wf_iff _
theorem Operands.hostWrite (ch : Nat) (a : BurstAddr) (beats : List Word16) (mask : Nat) (link : Nat) : Operands.Statement (.hostWrite ch a beats mask link) := instr_wf_iff _
theorem Operands.modeRegisterWrite (ch : Nat) (mr : Nat) (v : Nat) : Operands.Statement (.modeRegisterWrite ch mr v) := instr_wf_iff _
theorem Operands.modeRegisterRead (ch : Nat) (mr : Nat) : Operands.Statement (.modeRegisterRead ch mr) := instr_wf_iff _
theorem Operands.linkTraining (ch : Nat) (kind : Nat) (result : Nat) : Operands.Statement (.linkTraining ch kind result) := instr_wf_iff _
theorem Operands.zqCalibration (ch : Nat) : Operands.Statement (.zqCalibration ch) := instr_wf_iff _
theorem Operands.postPackageRepair (ch : Nat) : Operands.Statement (.postPackageRepair ch) := instr_wf_iff _
theorem Operands.refresh (ch : Nat) (kind : Nat) : Operands.Statement (.refresh ch kind) := instr_wf_iff _
theorem Operands.powerDownEntry (ch : Nat) : Operands.Statement (.powerDownEntry ch) := instr_wf_iff _
theorem Operands.powerDownExit (ch : Nat) : Operands.Statement (.powerDownExit ch) := instr_wf_iff _
theorem Operands.selfRefreshEntry (ch : Nat) (pd : Bool) : Operands.Statement (.selfRefreshEntry ch pd) := instr_wf_iff _
theorem Operands.selfRefreshExit (ch : Nat) : Operands.Statement (.selfRefreshExit ch) := instr_wf_iff _
theorem Operands.deepSleepEntry (ch : Nat) : Operands.Statement (.deepSleepEntry ch) := instr_wf_iff _
theorem Operands.deepSleepExit (ch : Nat) : Operands.Statement (.deepSleepExit ch) := instr_wf_iff _
theorem Operands.resetNAssert : Operands.Statement (.resetNAssert) := instr_wf_iff _
theorem Operands.resetNRelease : Operands.Statement (.resetNRelease) := instr_wf_iff _
theorem Operands.sqTailWrite (q : Nat) (v : Nat) : Operands.Statement (.sqTailWrite q v) := instr_wf_iff _
theorem Operands.rqHeadWrite (q : Nat) (v : Nat) : Operands.Statement (.rqHeadWrite q v) := instr_wf_iff _
theorem Operands.evHeadWrite (ch : Nat) (v : Nat) : Operands.Statement (.evHeadWrite ch v) := instr_wf_iff _
theorem Operands.commandRead (ups : List Upset) : Operands.Statement (.commandRead ups) := instr_wf_iff _
theorem Operands.commandDispatch (q : Nat) : Operands.Statement (.commandDispatch q) := instr_wf_iff _
theorem Operands.commandComplete (q : Nat) : Operands.Statement (.commandComplete q) := instr_wf_iff _
theorem Operands.deadlinePassed (q : Nat) (k : Nat) : Operands.Statement (.deadlinePassed q k) := instr_wf_iff _
theorem Operands.sysPing (q : Nat) (k : Nat) : Operands.Statement (.sysPing q k) := instr_wf_iff _
theorem Operands.sysRegRead (q : Nat) (k : Nat) : Operands.Statement (.sysRegRead q k) := instr_wf_iff _
theorem Operands.sysRegWrite (q : Nat) (k : Nat) : Operands.Statement (.sysRegWrite q k) := instr_wf_iff _
theorem Operands.registerWrite (a : Nat) (v : Nat) (mask : Nat) : Operands.Statement (.registerWrite a v mask) := instr_wf_iff _
theorem Operands.tileArithStatusWrite (t : Nat) (v : Nat) (mask : Nat) : Operands.Statement (.tileArithStatusWrite t v mask) := instr_wf_iff _
theorem Operands.loopSatClear (l : Nat) (v : Nat) (mask : Nat) : Operands.Statement (.loopSatClear l v mask) := instr_wf_iff _
theorem Operands.capLimitWrite (v : Nat) (mask : Nat) : Operands.Statement (.capLimitWrite v mask) := instr_wf_iff _
theorem Operands.capSagWrite (v : Nat) (mask : Nat) : Operands.Statement (.capSagWrite v mask) := instr_wf_iff _
theorem Operands.tierPoolWrite (a : Nat) (v : Nat) (mask : Nat) : Operands.Statement (.tierPoolWrite a v mask) := instr_wf_iff _
theorem Operands.fuseSRingWrite (i : Nat) (v : Nat) (mask : Nat) : Operands.Statement (.fuseSRingWrite i v mask) := instr_wf_iff _
theorem Operands.safeVerdictWrite (v : Nat) (mask : Nat) : Operands.Statement (.safeVerdictWrite v mask) := instr_wf_iff _
theorem Operands.sysStatus (q : Nat) (k : Nat) : Operands.Statement (.sysStatus q k) := instr_wf_iff _
theorem Operands.sysCounterRead (q : Nat) (k : Nat) : Operands.Statement (.sysCounterRead q k) := instr_wf_iff _
theorem Operands.sysEventMask (q : Nat) (k : Nat) : Operands.Statement (.sysEventMask q k) := instr_wf_iff _
theorem Operands.sysQueueSync (q : Nat) (k : Nat) : Operands.Statement (.sysQueueSync q k) := instr_wf_iff _
theorem Operands.memPull (q : Nat) (k : Nat) (ups : List Upset) : Operands.Statement (.memPull q k ups) := instr_wf_iff _
theorem Operands.memPush (q : Nat) (k : Nat) (ups : List Upset) : Operands.Statement (.memPush q k ups) := instr_wf_iff _
theorem Operands.memCopy (q : Nat) (k : Nat) (ups : List Upset) : Operands.Statement (.memCopy q k ups) := instr_wf_iff _
theorem Operands.memFill (q : Nat) (k : Nat) : Operands.Statement (.memFill q k) := instr_wf_iff _
theorem Operands.memMode (q : Nat) (k : Nat) : Operands.Statement (.memMode q k) := instr_wf_iff _
theorem Operands.memScrub (q : Nat) (k : Nat) : Operands.Statement (.memScrub q k) := instr_wf_iff _
theorem Operands.memSpillarea (q : Nat) (k : Nat) : Operands.Statement (.memSpillarea q k) := instr_wf_iff _
theorem Operands.modelLoad (q : Nat) (k : Nat) : Operands.Statement (.modelLoad q k) := instr_wf_iff _
theorem Operands.modelEvict (q : Nat) (k : Nat) : Operands.Statement (.modelEvict q k) := instr_wf_iff _
theorem Operands.modelPin (q : Nat) (k : Nat) : Operands.Statement (.modelPin q k) := instr_wf_iff _
theorem Operands.modelSwap (q : Nat) (k : Nat) : Operands.Statement (.modelSwap q k) := instr_wf_iff _
theorem Operands.modelSwapEffect (old : Nat) : Operands.Statement (.modelSwapEffect old) := instr_wf_iff _
theorem Operands.modelTier (q : Nat) (k : Nat) : Operands.Statement (.modelTier q k) := instr_wf_iff _
theorem Operands.modelInfo (q : Nat) (k : Nat) : Operands.Statement (.modelInfo q k) := instr_wf_iff _
theorem Operands.jobSubmit (q : Nat) (k : Nat) : Operands.Statement (.jobSubmit q k) := instr_wf_iff _
theorem Operands.jobCancel (q : Nat) (k : Nat) : Operands.Statement (.jobCancel q k) := instr_wf_iff _
theorem Operands.schedClient (q : Nat) (k : Nat) : Operands.Statement (.schedClient q k) := instr_wf_iff _
theorem Operands.schedStats (q : Nat) (k : Nat) : Operands.Statement (.schedStats q k) := instr_wf_iff _
theorem Operands.semAlloc (q : Nat) (k : Nat) : Operands.Statement (.semAlloc q k) := instr_wf_iff _
theorem Operands.semFree (q : Nat) (k : Nat) : Operands.Statement (.semFree q k) := instr_wf_iff _
theorem Operands.ctxOpen (q : Nat) (k : Nat) : Operands.Statement (.ctxOpen q k) := instr_wf_iff _
theorem Operands.ctxClose (q : Nat) (k : Nat) : Operands.Statement (.ctxClose q k) := instr_wf_iff _
theorem Operands.kvAppend (q : Nat) (k : Nat) : Operands.Statement (.kvAppend q k) := instr_wf_iff _
theorem Operands.kvTrim (q : Nat) (k : Nat) : Operands.Statement (.kvTrim q k) := instr_wf_iff _
theorem Operands.kvMove (q : Nat) (k : Nat) : Operands.Statement (.kvMove q k) := instr_wf_iff _
theorem Operands.kvFetch (q : Nat) (k : Nat) : Operands.Statement (.kvFetch q k) := instr_wf_iff _
theorem Operands.kvStats (q : Nat) (k : Nat) : Operands.Statement (.kvStats q k) := instr_wf_iff _
theorem Operands.planLattice (q : Nat) (k : Nat) : Operands.Statement (.planLattice q k) := instr_wf_iff _
theorem Operands.planMap (q : Nat) (k : Nat) : Operands.Statement (.planMap q k) := instr_wf_iff _
theorem Operands.planQuery (q : Nat) (k : Nat) : Operands.Statement (.planQuery q k) := instr_wf_iff _
theorem Operands.planCancel (q : Nat) (k : Nat) : Operands.Statement (.planCancel q k) := instr_wf_iff _
theorem Operands.planSearchEnd (u : Nat) (cut : Nat) : Operands.Statement (.planSearchEnd u cut) := instr_wf_iff _
theorem Operands.fuseStream (q : Nat) (k : Nat) : Operands.Statement (.fuseStream q k) := instr_wf_iff _
theorem Operands.fuseXform (q : Nat) (k : Nat) : Operands.Statement (.fuseXform q k) := instr_wf_iff _
theorem Operands.fuseLink (q : Nat) (k : Nat) : Operands.Statement (.fuseLink q k) := instr_wf_iff _
theorem Operands.fuseTracks (q : Nat) (k : Nat) : Operands.Statement (.fuseTracks q k) := instr_wf_iff _
theorem Operands.fuseOut (q : Nat) (k : Nat) : Operands.Statement (.fuseOut q k) := instr_wf_iff _
theorem Operands.fuseEnable (q : Nat) (k : Nat) : Operands.Statement (.fuseEnable q k) := instr_wf_iff _
theorem Operands.strokeChain (q : Nat) (k : Nat) : Operands.Statement (.strokeChain q k) := instr_wf_iff _
theorem Operands.strokeLoop (q : Nat) (k : Nat) : Operands.Statement (.strokeLoop q k) := instr_wf_iff _
theorem Operands.strokeProfile (q : Nat) (k : Nat) : Operands.Statement (.strokeProfile q k) := instr_wf_iff _
theorem Operands.strokeLimit (q : Nat) (k : Nat) : Operands.Statement (.strokeLimit q k) := instr_wf_iff _
theorem Operands.strokeTarget (q : Nat) (k : Nat) : Operands.Statement (.strokeTarget q k) := instr_wf_iff _
theorem Operands.strokeEnable (q : Nat) (k : Nat) : Operands.Statement (.strokeEnable q k) := instr_wf_iff _
theorem Operands.strokeTune (q : Nat) (k : Nat) : Operands.Statement (.strokeTune q k) := instr_wf_iff _
theorem Operands.strokeFf (q : Nat) (k : Nat) : Operands.Statement (.strokeFf q k) := instr_wf_iff _
theorem Operands.safeJob (q : Nat) (k : Nat) : Operands.Statement (.safeJob q k) := instr_wf_iff _
theorem Operands.safeFrozen (q : Nat) (k : Nat) : Operands.Statement (.safeFrozen q k) := instr_wf_iff _
theorem Operands.safeSelftest (q : Nat) (k : Nat) : Operands.Statement (.safeSelftest q k) := instr_wf_iff _
theorem Operands.pwrCap (q : Nat) (k : Nat) : Operands.Statement (.pwrCap q k) := instr_wf_iff _
theorem Operands.pwrSag (q : Nat) (k : Nat) : Operands.Statement (.pwrSag q k) := instr_wf_iff _
theorem Operands.pwrHint (q : Nat) (k : Nat) : Operands.Statement (.pwrHint q k) := instr_wf_iff _
theorem Operands.pwrState (q : Nat) (k : Nat) : Operands.Statement (.pwrState q k) := instr_wf_iff _
theorem Operands.pwrLock (q : Nat) (k : Nat) : Operands.Statement (.pwrLock q k) := instr_wf_iff _
theorem Operands.clkSource (q : Nat) (k : Nat) : Operands.Statement (.clkSource q k) := instr_wf_iff _
theorem Operands.clkOut (q : Nat) (k : Nat) : Operands.Statement (.clkOut q k) := instr_wf_iff _
theorem Operands.netPort (q : Nat) (k : Nat) : Operands.Statement (.netPort q k) := instr_wf_iff _
theorem Operands.netVlan (q : Nat) (k : Nat) : Operands.Statement (.netVlan q k) := instr_wf_iff _
theorem Operands.netShaper (q : Nat) (k : Nat) : Operands.Statement (.netShaper q k) := instr_wf_iff _
theorem Operands.netFilter (q : Nat) (k : Nat) : Operands.Statement (.netFilter q k) := instr_wf_iff _
theorem Operands.netTemplate (q : Nat) (k : Nat) : Operands.Statement (.netTemplate q k) := instr_wf_iff _
theorem Operands.netKey (q : Nat) (k : Nat) : Operands.Statement (.netKey q k) := instr_wf_iff _
theorem Operands.faultStatus (q : Nat) (k : Nat) : Operands.Statement (.faultStatus q k) := instr_wf_iff _
theorem Operands.faultRetire (q : Nat) (k : Nat) : Operands.Statement (.faultRetire q k) := instr_wf_iff _
theorem Operands.faultProbe (q : Nat) (k : Nat) : Operands.Statement (.faultProbe q k) := instr_wf_iff _
theorem Operands.faultBucket (q : Nat) (k : Nat) : Operands.Statement (.faultBucket q k) := instr_wf_iff _
theorem Operands.fwStage (q : Nat) (k : Nat) : Operands.Statement (.fwStage q k) := instr_wf_iff _
theorem Operands.fwHandover (q : Nat) (k : Nat) : Operands.Statement (.fwHandover q k) := instr_wf_iff _
theorem Operands.startImageSlotWrite : Operands.Statement (.startImageSlotWrite) := instr_wf_iff _
theorem Operands.standbyReloaded (pass : Bool) : Operands.Statement (.standbyReloaded pass) := instr_wf_iff _
theorem Operands.secKey (q : Nat) (k : Nat) : Operands.Statement (.secKey q k) := instr_wf_iff _
theorem Operands.secVerify (q : Nat) (k : Nat) : Operands.Statement (.secVerify q k) := instr_wf_iff _
theorem Operands.aluReg (t : Nat) (th : Nat) (mod : Nat) (rd : Nat) (ra : Nat) (rb : Nat) : Operands.Statement (.aluReg t th mod rd ra rb) := instr_wf_iff _
theorem Operands.aluImm (t : Nat) (th : Nat) (mod : Nat) (rd : Nat) (ra : Nat) (imm : Nat) : Operands.Statement (.aluImm t th mod rd ra imm) := instr_wf_iff _
theorem Operands.compare (t : Nat) (th : Nat) (mod : Nat) (ra : Nat) (rb : Nat) : Operands.Statement (.compare t th mod ra rb) := instr_wf_iff _
theorem Operands.branch (t : Nat) (th : Nat) (mod : Nat) (imm : Nat) : Operands.Statement (.branch t th mod imm) := instr_wf_iff _
theorem Operands.load (t : Nat) (th : Nat) (mod : Nat) (rd : Nat) (ra : Nat) (imm : Nat) (ups : List Upset) : Operands.Statement (.load t th mod rd ra imm ups) := instr_wf_iff _
theorem Operands.store (t : Nat) (th : Nat) (mod : Nat) (ra : Nat) (rb : Nat) (imm : Nat) : Operands.Statement (.store t th mod ra rb imm) := instr_wf_iff _
theorem Operands.atomic (t : Nat) (th : Nat) (mod : Nat) (rd : Nat) (ra : Nat) (rb : Nat) : Operands.Statement (.atomic t th mod rd ra rb) := instr_wf_iff _
theorem Operands.vectorLoad (t : Nat) (th : Nat) (rd : Nat) (ra : Nat) (imm : Nat) : Operands.Statement (.vectorLoad t th rd ra imm) := instr_wf_iff _
theorem Operands.vectorStore (t : Nat) (th : Nat) (rd : Nat) (ra : Nat) (imm : Nat) : Operands.Statement (.vectorStore t th rd ra imm) := instr_wf_iff _
theorem Operands.vectorOp (t : Nat) (th : Nat) (mod : Nat) (rd : Nat) (ra : Nat) (rb : Nat) : Operands.Statement (.vectorOp t th mod rd ra rb) := instr_wf_iff _
theorem Operands.prefixScan (t : Nat) (th : Nat) (mod : Nat) (rd : Nat) (ra : Nat) (rb : Nat) : Operands.Statement (.prefixScan t th mod rd ra rb) := instr_wf_iff _
theorem Operands.arrRun (t : Nat) (th : Nat) (ra : Nat) (rb : Nat) : Operands.Statement (.arrRun t th ra rb) := instr_wf_iff _
theorem Operands.arrConv (t : Nat) (th : Nat) (ra : Nat) (rb : Nat) : Operands.Statement (.arrConv t th ra rb) := instr_wf_iff _
theorem Operands.arrWait (t : Nat) (th : Nat) (rb : Nat) : Operands.Statement (.arrWait t th rb) := instr_wf_iff _
theorem Operands.arrayReductionDone (t : Nat) (a : Nat) : Operands.Statement (.arrayReductionDone t a) := instr_wf_iff _
theorem Operands.outputConversionDone (t : Nat) (a : Nat) : Operands.Statement (.outputConversionDone t a) := instr_wf_iff _
theorem Operands.sweepRun (t : Nat) (th : Nat) (ra : Nat) : Operands.Statement (.sweepRun t th ra) := instr_wf_iff _
theorem Operands.sweepWait (t : Nat) (th : Nat) : Operands.Statement (.sweepWait t th) := instr_wf_iff _
theorem Operands.sweepComplete (p : Nat) : Operands.Statement (.sweepComplete p) := instr_wf_iff _
theorem Operands.kvGraceExpired (p : Nat) (list : Nat) (page : Nat) : Operands.Statement (.kvGraceExpired p list page) := instr_wf_iff _
theorem Operands.kvFetchComplete (ctx : Nat) (list : Nat) (page : Nat) : Operands.Statement (.kvFetchComplete ctx list page) := instr_wf_iff _
theorem Operands.kvSpillDurable (ctx : Nat) (list : Nat) (page : Nat) : Operands.Statement (.kvSpillDurable ctx list page) := instr_wf_iff _
theorem Operands.xfRun (t : Nat) (th : Nat) (ra : Nat) : Operands.Statement (.xfRun t th ra) := instr_wf_iff _
theorem Operands.xfWait (t : Nat) (th : Nat) : Operands.Statement (.xfWait t th) := instr_wf_iff _
theorem Operands.xfRunComplete (e : Nat) : Operands.Statement (.xfRunComplete e) := instr_wf_iff _
theorem Operands.poolRun (t : Nat) (th : Nat) (ra : Nat) : Operands.Statement (.poolRun t th ra) := instr_wf_iff _
theorem Operands.poolComplete (t : Nat) : Operands.Statement (.poolComplete t) := instr_wf_iff _
theorem Operands.bowStart (t : Nat) (th : Nat) (ra : Nat) (rb : Nat) : Operands.Statement (.bowStart t th ra rb) := instr_wf_iff _
theorem Operands.bowWait (t : Nat) (th : Nat) (rb : Nat) : Operands.Statement (.bowWait t th rb) := instr_wf_iff _
theorem Operands.bowDescriptor (t : Nat) (e : Nat) (ups : List Upset) : Operands.Statement (.bowDescriptor t e ups) := instr_wf_iff _
theorem Operands.fillComplete (t : Nat) (slot : Nat) : Operands.Statement (.fillComplete t slot) := instr_wf_iff _
theorem Operands.drainComplete (t : Nat) (slot : Nat) : Operands.Statement (.drainComplete t slot) := instr_wf_iff _
theorem Operands.bufWait (t : Nat) (th : Nat) (rd : Nat) (imm : Nat) : Operands.Statement (.bufWait t th rd imm) := instr_wf_iff _
theorem Operands.bufPost (t : Nat) (th : Nat) (imm : Nat) : Operands.Statement (.bufPost t th imm) := instr_wf_iff _
theorem Operands.bufRelease (t : Nat) (th : Nat) (imm : Nat) : Operands.Statement (.bufRelease t th imm) := instr_wf_iff _
theorem Operands.stepDone (t : Nat) (th : Nat) : Operands.Statement (.stepDone t th) := instr_wf_iff _
theorem Operands.fenceTile (t : Nat) (th : Nat) : Operands.Statement (.fenceTile t th) := instr_wf_iff _
theorem Operands.fenceDev (t : Nat) (th : Nat) : Operands.Statement (.fenceDev t th) := instr_wf_iff _
theorem Operands.flush (t : Nat) (th : Nat) (ra : Nat) (rb : Nat) : Operands.Statement (.flush t th ra rb) := instr_wf_iff _
theorem Operands.inval (t : Nat) (th : Nat) (ra : Nat) (rb : Nat) : Operands.Statement (.inval t th ra rb) := instr_wf_iff _
theorem Operands.crewBarrier (t : Nat) (th : Nat) : Operands.Statement (.crewBarrier t th) := instr_wf_iff _
theorem Operands.layerLate (t : Nat) (th : Nat) (rd : Nat) (imm : Nat) : Operands.Statement (.layerLate t th rd imm) := instr_wf_iff _
theorem Operands.fetchDeadline (t : Nat) (slot : Nat) : Operands.Statement (.fetchDeadline t slot) := instr_wf_iff _
theorem Operands.semAcquire (t : Nat) (th : Nat) (rd : Nat) (ra : Nat) : Operands.Statement (.semAcquire t th rd ra) := instr_wf_iff _
theorem Operands.semRelease (t : Nat) (th : Nat) (ra : Nat) : Operands.Statement (.semRelease t th ra) := instr_wf_iff _
theorem Operands.boostExpired (sem : Nat) : Operands.Statement (.boostExpired sem) := instr_wf_iff _
theorem Operands.threadExit (t : Nat) (th : Nat) : Operands.Statement (.threadExit t th) := instr_wf_iff _
theorem Operands.stepEnd (ctx : Nat) : Operands.Statement (.stepEnd ctx) := instr_wf_iff _
theorem Operands.spillDrainComplete (ctx : Nat) : Operands.Statement (.spillDrainComplete ctx) := instr_wf_iff _
theorem Operands.spillSaveComplete (ctx : Nat) : Operands.Statement (.spillSaveComplete ctx) := instr_wf_iff _
theorem Operands.resumeIssue (ctx : Nat) : Operands.Statement (.resumeIssue ctx) := instr_wf_iff _
theorem Operands.teardownComplete (ctx : Nat) : Operands.Statement (.teardownComplete ctx) := instr_wf_iff _
theorem Operands.lineFrameArrival (a : Nat) (write : Bool) (errs : List Byte) (ups : List Upset) : Operands.Statement (.lineFrameArrival a write errs ups) := instr_wf_iff _
theorem Operands.stackRefresh (stack : Nat) : Operands.Statement (.stackRefresh stack) := instr_wf_iff _
theorem Operands.nvsPageWriteDurable (page : Nat) : Operands.Statement (.nvsPageWriteDurable page) := instr_wf_iff _
theorem Operands.nvsPatrol (page : Nat) (corrected : Nat) : Operands.Statement (.nvsPatrol page corrected) := instr_wf_iff _
theorem Operands.scrubAccess (a : Nat) (ups : List Upset) : Operands.Statement (.scrubAccess a ups) := instr_wf_iff _
theorem Operands.scrubLapAlarm : Operands.Statement (.scrubLapAlarm) := instr_wf_iff _
theorem Operands.t1CheckSelftest (pass : Bool) : Operands.Statement (.t1CheckSelftest pass) := instr_wf_iff _
theorem Operands.rebuildGranuleCopy (g : Nat) (lost : Nat) : Operands.Statement (.rebuildGranuleCopy g lost) := instr_wf_iff _
theorem Operands.nvsRebuildPage (page : Nat) (lost : Bool) : Operands.Statement (.nvsRebuildPage page lost) := instr_wf_iff _
theorem Operands.inputSlotReady (i : Nat) : Operands.Statement (.inputSlotReady i) := instr_wf_iff _
theorem Operands.coastedInstant : Operands.Statement (.coastedInstant) := instr_wf_iff _
theorem Operands.instantClose : Operands.Statement (.instantClose) := instr_wf_iff _
theorem Operands.degradedRecord : Operands.Statement (.degradedRecord) := instr_wf_iff _
theorem Operands.sampleInstant (c : Nat) : Operands.Statement (.sampleInstant c) := instr_wf_iff _
theorem Operands.chainFrameReturn (c : Nat) (frame : List Byte) : Operands.Statement (.chainFrameReturn c frame) := instr_wf_iff _
theorem Operands.feedbackCutoff (c : ChainCut) : Operands.Statement (.feedbackCutoff c) := instr_wf_iff _
theorem Operands.chainClockLost (c : Nat) : Operands.Statement (.chainClockLost c) := instr_wf_iff _
theorem Operands.ffCommit (c : Nat) : Operands.Statement (.ffCommit c) := instr_wf_iff _
theorem Operands.frameReceive (port : Nat) (frame : List Byte) (bad : Bool) : Operands.Statement (.frameReceive port frame bad) := instr_wf_iff _
theorem Operands.frameTransmit (port : Nat) : Operands.Statement (.frameTransmit port) := instr_wf_iff _
theorem Operands.portLink (port : Nat) (up : Bool) : Operands.Statement (.portLink port up) := instr_wf_iff _
theorem Operands.fdbAgeOut (i : Nat) : Operands.Statement (.fdbAgeOut i) := instr_wf_iff _
theorem Operands.checkRecord (t : Nat) (a : Nat) : Operands.Statement (.checkRecord t a) := instr_wf_iff _
theorem Operands.checkRecordTimeout (t : Nat) (a : Nat) : Operands.Statement (.checkRecordTimeout t a) := instr_wf_iff _
theorem Operands.goldenCompare (ctx : Nat) : Operands.Statement (.goldenCompare ctx) := instr_wf_iff _
theorem Operands.tileTestDone (ctx : Nat) (fails : List Byte) : Operands.Statement (.tileTestDone ctx fails) := instr_wf_iff _
theorem Operands.segmentStart (u : Nat) : Operands.Statement (.segmentStart u) := instr_wf_iff _
theorem Operands.segmentEnd (u : Nat) (pass : Bool) : Operands.Statement (.segmentEnd u pass) := instr_wf_iff _
theorem Operands.testDeferral (u : Nat) : Operands.Statement (.testDeferral u) := instr_wf_iff _
theorem Operands.checkerTestOverdue (u : Nat) : Operands.Statement (.checkerTestOverdue u) := instr_wf_iff _
theorem Operands.gapHoldElapsed (u : Nat) : Operands.Statement (.gapHoldElapsed u) := instr_wf_iff _
theorem Operands.internalCheckError (ty : Nat) (n : Nat) : Operands.Statement (.internalCheckError ty n) := instr_wf_iff _
theorem Operands.probeResult (ty : Nat) (n : Nat) (pass : Bool) : Operands.Statement (.probeResult ty n pass) := instr_wf_iff _
theorem Operands.probeTimeout (ty : Nat) (n : Nat) : Operands.Statement (.probeTimeout ty n) := instr_wf_iff _
theorem Operands.pathCompare : Operands.Statement (.pathCompare) := instr_wf_iff _
theorem Operands.fenceNotConfirmed (ty : Nat) (n : Nat) : Operands.Statement (.fenceNotConfirmed ty n) := instr_wf_iff _
theorem Operands.dieBridgeSilence : Operands.Statement (.dieBridgeSilence) := instr_wf_iff _
theorem Operands.dieBridgeRestored (answers : List Byte) : Operands.Statement (.dieBridgeRestored answers) := instr_wf_iff _
theorem Operands.dieBridgeRetrainTimeout : Operands.Statement (.dieBridgeRetrainTimeout) := instr_wf_iff _
theorem Operands.domainGate (d : Nat) : Operands.Statement (.domainGate d) := instr_wf_iff _
theorem Operands.agentAnswer (d : Nat) : Operands.Statement (.agentAnswer d) := instr_wf_iff _
theorem Operands.agentDelayTimeout (d : Nat) : Operands.Statement (.agentDelayTimeout d) := instr_wf_iff _
theorem Operands.entryPointReached : Operands.Statement (.entryPointReached) := instr_wf_iff _
theorem Operands.railsOff : Operands.Statement (.railsOff) := instr_wf_iff _
theorem Operands.timerWake : Operands.Statement (.timerWake) := instr_wf_iff _
theorem Operands.sagRise : Operands.Statement (.sagRise) := instr_wf_iff _
theorem Operands.linkEnergy (port : Nat) : Operands.Statement (.linkEnergy port) := instr_wf_iff _
theorem Operands.callToken (b : Bool) : Operands.Statement (.callToken b) := instr_wf_iff _
theorem Operands.easyReturnStage : Operands.Statement (.easyReturnStage) := instr_wf_iff _
theorem Operands.judgeWindow (c : Nat) (n : Nat) : Operands.Statement (.judgeWindow c n) := instr_wf_iff _
theorem Operands.clockNoEdge (c : Nat) : Operands.Statement (.clockNoEdge c) := instr_wf_iff _
theorem Operands.capControlTick (est : Nat) (meas : Nat) : Operands.Statement (.capControlTick est meas) := instr_wf_iff _
theorem Operands.telemetryLost : Operands.Statement (.telemetryLost) := instr_wf_iff _
theorem Operands.mismatchTimer : Operands.Statement (.mismatchTimer) := instr_wf_iff _
theorem Operands.agreementTimer : Operands.Statement (.agreementTimer) := instr_wf_iff _
theorem Operands.unreliableTimer : Operands.Statement (.unreliableTimer) := instr_wf_iff _
theorem Operands.thermalLimit (temp : Int) : Operands.Statement (.thermalLimit temp) := instr_wf_iff _
theorem Operands.temperatureBandChange (d : Nat) (temp : Int) : Operands.Statement (.temperatureBandChange d temp) := instr_wf_iff _
theorem Operands.hintIntervalBegin (i : Nat) : Operands.Statement (.hintIntervalBegin i) := instr_wf_iff _
theorem Operands.hintLapse (i : Nat) : Operands.Statement (.hintLapse i) := instr_wf_iff _
theorem Operands.ratingSlip (d : Nat) : Operands.Statement (.ratingSlip d) := instr_wf_iff _
theorem Operands.ratingSlipReport : Operands.Statement (.ratingSlipReport) := instr_wf_iff _
theorem Operands.sagWarnFall : Operands.Statement (.sagWarnFall) := instr_wf_iff _
theorem Operands.sagWarnRise : Operands.Statement (.sagWarnRise) := instr_wf_iff _
theorem Operands.sagConfirmed : Operands.Statement (.sagConfirmed) := instr_wf_iff _
theorem Operands.sagResetFall : Operands.Statement (.sagResetFall) := instr_wf_iff _
theorem Operands.supplyValid (r : Nat) : Operands.Statement (.supplyValid r) := instr_wf_iff _
theorem Operands.supplyLoss (r : Nat) : Operands.Statement (.supplyLoss r) := instr_wf_iff _
theorem Operands.aonBrownout : Operands.Statement (.aonBrownout) := instr_wf_iff _
theorem Operands.porRelease : Operands.Statement (.porRelease) := instr_wf_iff _
theorem Operands.startComplete (currentOk : Bool) (previousOk : Bool) : Operands.Statement (.startComplete currentOk previousOk) := instr_wf_iff _
theorem Operands.bringupMilestone (m : Nat) : Operands.Statement (.bringupMilestone m) := instr_wf_iff _
theorem Operands.coxLockstepFail : Operands.Statement (.coxLockstepFail) := instr_wf_iff _
theorem Operands.domainWakeComplete (d : Nat) : Operands.Statement (.domainWakeComplete d) := instr_wf_iff _
theorem Operands.writeAcknowledged (t : Nat) (i : Nat) : Operands.Statement (.writeAcknowledged t i) := instr_wf_iff _

end Sys2Proof.Laws
end

