-- ==== Sys2Proof/Laws/Run.lean ====
section
/-! SUPPORT. What executing a command can do: the laws of `State.opcodeRow` and of completing a command. -/

namespace Sys2Proof.Laws

open Sys2Proof.Machine

/-- A command its gate lets through is not one the ROM firmware refuses. -/
theorem gate_none_rom {s : State} {c : Cmd} (h : s.gate c = none) : s.romRefuses c = false := by
  unfold State.gate at h
  cases hr : s.romRefuses c with
  | false => rfl
  | true => simp only [hr] at h; split at h <;> simp at h

/-- A running command whose checks pass and whose body replies: the body's state, with the command completed. -/
theorem opcodeRow_reply {s s' : State} {op q k st de re : Nat} {c : Cmd} {cheap : Bool} {check : State → Cmd → Check10}
    {body : State → Cmd → State × Res} (h : s.runs op q k c) (hc : check s c = none) (hb : body s c = (s', .reply st de re)) :
    s.opcodeRow op cheap check body q k = .next (s'.completed c st de re) := by
  obtain ⟨h1, h2, h3, h4, h5⟩ := h
  simp [State.opcodeRow, State.runCmd, h1, h2, h3, gate_none_rom h4, hc, h4, hb, h5, State.completed]

/-- A running command whose checks pass and whose body goes on: the body's state, with the command marked as running. -/
theorem opcodeRow_going {s s' : State} {op q k : Nat} {c : Cmd} {cheap : Bool} {check : State → Cmd → Check10}
    {body : State → Cmd → State × Res} (h : s.runs op q k c) (hc : check s c = none) (hb : body s c = (s', .going)) :
    s.opcodeRow op cheap check body q k = .next (s'.modCmd q k (fun c => { c with phase := .running })) := by
  obtain ⟨h1, h2, h3, h4, h5⟩ := h
  simp [State.opcodeRow, State.runCmd, h1, h2, h3, gate_none_rom h4, hc, h4, hb]

/-- A running command that its own checks refuse: nothing but its reply. -/
theorem opcodeRow_refused {s : State} {op q k st de : Nat} {c : Cmd} {cheap : Bool} {check : State → Cmd → Check10}
    {body : State → Cmd → State × Res} (h : s.runs op q k c) (hc : check s c = some (st, de)) :
    s.opcodeRow op cheap check body q k = .next (s.finish q k st de 0) := by
  obtain ⟨h1, h2, h3, h4, h5⟩ := h
  simp [State.opcodeRow, State.runCmd, h1, h2, h3, gate_none_rom h4, hc]

/-- An opcode's row does nothing to a command that is absent, not dispatched or of another opcode. -/
theorem opcodeRow_other {s : State} {op q k : Nat} {cheap : Bool} {check : State → Cmd → Check10}
    {body : State → Cmd → State × Res} (h : ∀ c, s.cmd q k = some c → c.phase ≠ .ready ∨ c.opcode ≠ op) :
    s.opcodeRow op cheap check body q k = .next s := by
  unfold State.opcodeRow State.runCmd
  cases hc : s.cmd q k with
  | none => rfl
  | some c => rcases h c hc with h | h <;> simp [h]

/-- A command with a number of its own, its deadline not passed, completes as it is told. -/
theorem finishUid_eq {s : State} {uid q k st de re : Nat} {c : Cmd} {cheap : Bool} (hf : s.findUid uid = some (q, k))
    (hc : s.cmd q k = some c) (hl : s.isLate c = false) : s.finishUid uid cheap st de re = s.finish q k st de re := by
  have e : (c.late || (match c.deadline with | some d => decide (d ≤ s.time.half) | none => false)) = false := by
    cases hd : c.deadline <;> simpa [State.isLate, hd] using hl
  simp only [State.finishUid, hf, hc]
  cases hd : c.deadline with
  | none => simp_all
  | some d =>
    simp only [hd, Bool.or_eq_false_iff, decide_eq_false_iff_not] at e
    simp [e.1, e.2]

/-- A head packet whose CRC fails: one slot and one SEQ taken, and BAD_CRC answered in its place. -/
theorem readCommand_badCrc {check : State → Cmd → Option (Nat × Nat)} {s : State} {q : Nat}
    (h : (s.headPacket q).crcOk = false) :
    s.readCommand check q =
      ((s.consume q 1).setExpect q ((s.queue q).expectSeq + 1)).reject q
        { s.headCmd q with opcode := 0xFFFF, seq := (s.queue q).expectSeq, flags := 0, ctx := none } stBadCrc (s.queue q).sqHead := by
  unfold State.readCommand
  exact if_pos h

end Sys2Proof.Laws
end

