-- ==== Sys2Proof/Laws/State.lean ====
section
/-! SUPPORT. The laws of the small updates of `State`: what each field holds after each of them, and what tables and lists hold after
one entry of theirs changes. -/

namespace Sys2Proof.Laws

open Sys2Proof.Machine

/-! ### Tables, lists and association lists -/

/-- An entry of a table with one entry set. -/
theorem vget_vset {α : Type} {n : Nat} (d : α) (v : Vector α n) (i j : Nat) (a : α) :
    vget d (vset v i a) j = if j = i ∧ i < n then a else vget d v j := by
  unfold vget vset
  by_cases hi : i < n
  · by_cases hj : j < n
    · simp [hi, hj, Vector.getElem_set, eq_comm]
    · have : ¬(j = i) := fun h => hj (h ▸ hi)
      simp [hi, hj, this]
  · simp [hi]

/-- An entry of a table with one entry changed. -/
theorem vget_vmod {α : Type} {n : Nat} (d : α) (v : Vector α n) (i j : Nat) (f : α → α) :
    vget d (vmod v i f) j = if j = i ∧ i < n then f (vget d v j) else vget d v j := by
  unfold vget vmod
  by_cases hi : i < n
  · by_cases hj : j < n
    · by_cases h : j = i
      · subst h; simp [hi]
      · simp [hi, hj, h, Ne.symm h]
    · have : ¬(j = i) := fun h => hj (h ▸ hi)
      simp [hi, hj, this]
  · simp [hi]

@[simp] theorem vget_vmod_self {α : Type} {n : Nat} (d : α) (v : Vector α n) (i : Nat) (f : α → α) (h : i < n) :
    vget d (vmod v i f) i = f (vget d v i) := by simp [vget_vmod, h]

@[simp] theorem vget_vmod_ne {α : Type} {n : Nat} (d : α) (v : Vector α n) (i j : Nat) (f : α → α) (h : j ≠ i) :
    vget d (vmod v i f) j = vget d v j := by simp [vget_vmod, h]

/-- An entry of a list with one entry changed. -/
theorem getElem?_lmod {α : Type} (l : List α) (i j : Nat) (f : α → α) :
    (lmod l i f)[j]? = if j = i then l[j]?.map f else l[j]? := by
  induction l generalizing i j with
  | nil => simp [lmod]
  | cons a t ih => cases i <;> cases j <;> simp [lmod, ih]

@[simp] theorem length_lmod {α : Type} (l : List α) (i : Nat) (f : α → α) : (lmod l i f).length = l.length := by
  induction l generalizing i with
  | nil => rfl
  | cons a t ih => cases i <;> simp [lmod, ih]

/-! ### Fields after an update -/

section
variable (s : State)

@[simp] theorem modChan_port (ch : Nat) (f : PortChan → PortChan) : (s.modChan ch f).port = { s.port with chans := vmod s.port.chans ch f } := rfl
@[simp] theorem modChan_time (ch : Nat) (f : PortChan → PortChan) : (s.modChan ch f).time = s.time := rfl
@[simp] theorem modChan_host (ch : Nat) (f : PortChan → PortChan) : (s.modChan ch f).host = s.host := rfl
@[simp] theorem modChan_mem (ch : Nat) (f : PortChan → PortChan) : (s.modChan ch f).mem = s.mem := rfl
@[simp] theorem modChan_counters (ch : Nat) (f : PortChan → PortChan) : (s.modChan ch f).counters = s.counters := rfl
@[simp] theorem modChan_fault (ch : Nat) (f : PortChan → PortChan) : (s.modChan ch f).fault = s.fault := rfl
@[simp] theorem modChan_store (ch : Nat) (f : PortChan → PortChan) : (s.modChan ch f).store = s.store := rfl
@[simp] theorem modChan_tier (ch : Nat) (f : PortChan → PortChan) : (s.modChan ch f).tier = s.tier := rfl
@[simp] theorem modChan_pwr (ch : Nat) (f : PortChan → PortChan) : (s.modChan ch f).pwr = s.pwr := rfl
@[simp] theorem modChan_clk (ch : Nat) (f : PortChan → PortChan) : (s.modChan ch f).clk = s.clk := rfl
@[simp] theorem modChan_start (ch : Nat) (f : PortChan → PortChan) : (s.modChan ch f).start = s.start := rfl
@[simp] theorem modChan_cox (ch : Nat) (f : PortChan → PortChan) : (s.modChan ch f).cox = s.cox := rfl
@[simp] theorem modChan_tiles (ch : Nat) (f : PortChan → PortChan) : (s.modChan ch f).tiles = s.tiles := rfl
@[simp] theorem modChan_ctxs (ch : Nat) (f : PortChan → PortChan) : (s.modChan ch f).ctxs = s.ctxs := rfl
@[simp] theorem modChan_boat (ch : Nat) (f : PortChan → PortChan) : (s.modChan ch f).boat = s.boat := rfl
@[simp] theorem modChan_sched (ch : Nat) (f : PortChan → PortChan) : (s.modChan ch f).sched = s.sched := rfl
@[simp] theorem modChan_sweep (ch : Nat) (f : PortChan → PortChan) : (s.modChan ch f).sweep = s.sweep := rfl
@[simp] theorem modChan_xf (ch : Nat) (f : PortChan → PortChan) : (s.modChan ch f).xf = s.xf := rfl
@[simp] theorem modChan_plan (ch : Nat) (f : PortChan → PortChan) : (s.modChan ch f).plan = s.plan := rfl
@[simp] theorem modChan_fuse (ch : Nat) (f : PortChan → PortChan) : (s.modChan ch f).fuse = s.fuse := rfl
@[simp] theorem modChan_stroke (ch : Nat) (f : PortChan → PortChan) : (s.modChan ch f).stroke = s.stroke := rfl
@[simp] theorem modChan_net (ch : Nat) (f : PortChan → PortChan) : (s.modChan ch f).net = s.net := rfl
@[simp] theorem modChan_safe (ch : Nat) (f : PortChan → PortChan) : (s.modChan ch f).safe = s.safe := rfl
@[simp] theorem modChan_cap (ch : Nat) (f : PortChan → PortChan) : (s.modChan ch f).cap = s.cap := rfl
@[simp] theorem modChan_free (ch : Nat) (f : PortChan → PortChan) : (s.modChan ch f).free = s.free := rfl
@[simp] theorem modChan_pending (ch : Nat) (f : PortChan → PortChan) : (s.modChan ch f).pending = s.pending := rfl

@[simp] theorem modQueue_host (q : Nat) (f : Queue → Queue) : (s.modQueue q f).host = { s.host with queues := vmod s.host.queues q f } := rfl
@[simp] theorem modQueue_time (q : Nat) (f : Queue → Queue) : (s.modQueue q f).time = s.time := rfl
@[simp] theorem modQueue_port (q : Nat) (f : Queue → Queue) : (s.modQueue q f).port = s.port := rfl
@[simp] theorem modQueue_mem (q : Nat) (f : Queue → Queue) : (s.modQueue q f).mem = s.mem := rfl
@[simp] theorem modQueue_counters (q : Nat) (f : Queue → Queue) : (s.modQueue q f).counters = s.counters := rfl
@[simp] theorem modQueue_fault (q : Nat) (f : Queue → Queue) : (s.modQueue q f).fault = s.fault := rfl
@[simp] theorem modQueue_store (q : Nat) (f : Queue → Queue) : (s.modQueue q f).store = s.store := rfl
@[simp] theorem modQueue_tier (q : Nat) (f : Queue → Queue) : (s.modQueue q f).tier = s.tier := rfl
@[simp] theorem modQueue_pwr (q : Nat) (f : Queue → Queue) : (s.modQueue q f).pwr = s.pwr := rfl
@[simp] theorem modQueue_clk (q : Nat) (f : Queue → Queue) : (s.modQueue q f).clk = s.clk := rfl
@[simp] theorem modQueue_start (q : Nat) (f : Queue → Queue) : (s.modQueue q f).start = s.start := rfl
@[simp] theorem modQueue_cox (q : Nat) (f : Queue → Queue) : (s.modQueue q f).cox = s.cox := rfl
@[simp] theorem modQueue_tiles (q : Nat) (f : Queue → Queue) : (s.modQueue q f).tiles = s.tiles := rfl
@[simp] theorem modQueue_ctxs (q : Nat) (f : Queue → Queue) : (s.modQueue q f).ctxs = s.ctxs := rfl
@[simp] theorem modQueue_boat (q : Nat) (f : Queue → Queue) : (s.modQueue q f).boat = s.boat := rfl
@[simp] theorem modQueue_sched (q : Nat) (f : Queue → Queue) : (s.modQueue q f).sched = s.sched := rfl
@[simp] theorem modQueue_sweep (q : Nat) (f : Queue → Queue) : (s.modQueue q f).sweep = s.sweep := rfl
@[simp] theorem modQueue_xf (q : Nat) (f : Queue → Queue) : (s.modQueue q f).xf = s.xf := rfl
@[simp] theorem modQueue_plan (q : Nat) (f : Queue → Queue) : (s.modQueue q f).plan = s.plan := rfl
@[simp] theorem modQueue_fuse (q : Nat) (f : Queue → Queue) : (s.modQueue q f).fuse = s.fuse := rfl
@[simp] theorem modQueue_stroke (q : Nat) (f : Queue → Queue) : (s.modQueue q f).stroke = s.stroke := rfl
@[simp] theorem modQueue_net (q : Nat) (f : Queue → Queue) : (s.modQueue q f).net = s.net := rfl
@[simp] theorem modQueue_safe (q : Nat) (f : Queue → Queue) : (s.modQueue q f).safe = s.safe := rfl
@[simp] theorem modQueue_cap (q : Nat) (f : Queue → Queue) : (s.modQueue q f).cap = s.cap := rfl
@[simp] theorem modQueue_free (q : Nat) (f : Queue → Queue) : (s.modQueue q f).free = s.free := rfl
@[simp] theorem modQueue_pending (q : Nat) (f : Queue → Queue) : (s.modQueue q f).pending = s.pending := rfl

@[simp] theorem modCmd_host (q k : Nat) (f : Cmd → Cmd) :
    (s.modCmd q k f).host = { s.host with queues := vmod s.host.queues q (fun u => { u with cmds := lmod u.cmds k f }) } := rfl
@[simp] theorem modCmd_time (q k : Nat) (f : Cmd → Cmd) : (s.modCmd q k f).time = s.time := rfl
@[simp] theorem modCmd_port (q k : Nat) (f : Cmd → Cmd) : (s.modCmd q k f).port = s.port := rfl
@[simp] theorem modCmd_mem (q k : Nat) (f : Cmd → Cmd) : (s.modCmd q k f).mem = s.mem := rfl
@[simp] theorem modCmd_counters (q k : Nat) (f : Cmd → Cmd) : (s.modCmd q k f).counters = s.counters := rfl
@[simp] theorem modCmd_fault (q k : Nat) (f : Cmd → Cmd) : (s.modCmd q k f).fault = s.fault := rfl
@[simp] theorem modCmd_store (q k : Nat) (f : Cmd → Cmd) : (s.modCmd q k f).store = s.store := rfl
@[simp] theorem modCmd_tier (q k : Nat) (f : Cmd → Cmd) : (s.modCmd q k f).tier = s.tier := rfl
@[simp] theorem modCmd_pwr (q k : Nat) (f : Cmd → Cmd) : (s.modCmd q k f).pwr = s.pwr := rfl
@[simp] theorem modCmd_clk (q k : Nat) (f : Cmd → Cmd) : (s.modCmd q k f).clk = s.clk := rfl
@[simp] theorem modCmd_start (q k : Nat) (f : Cmd → Cmd) : (s.modCmd q k f).start = s.start := rfl
@[simp] theorem modCmd_cox (q k : Nat) (f : Cmd → Cmd) : (s.modCmd q k f).cox = s.cox := rfl
@[simp] theorem modCmd_tiles (q k : Nat) (f : Cmd → Cmd) : (s.modCmd q k f).tiles = s.tiles := rfl
@[simp] theorem modCmd_ctxs (q k : Nat) (f : Cmd → Cmd) : (s.modCmd q k f).ctxs = s.ctxs := rfl
@[simp] theorem modCmd_boat (q k : Nat) (f : Cmd → Cmd) : (s.modCmd q k f).boat = s.boat := rfl
@[simp] theorem modCmd_sched (q k : Nat) (f : Cmd → Cmd) : (s.modCmd q k f).sched = s.sched := rfl
@[simp] theorem modCmd_sweep (q k : Nat) (f : Cmd → Cmd) : (s.modCmd q k f).sweep = s.sweep := rfl
@[simp] theorem modCmd_xf (q k : Nat) (f : Cmd → Cmd) : (s.modCmd q k f).xf = s.xf := rfl
@[simp] theorem modCmd_plan (q k : Nat) (f : Cmd → Cmd) : (s.modCmd q k f).plan = s.plan := rfl
@[simp] theorem modCmd_fuse (q k : Nat) (f : Cmd → Cmd) : (s.modCmd q k f).fuse = s.fuse := rfl
@[simp] theorem modCmd_stroke (q k : Nat) (f : Cmd → Cmd) : (s.modCmd q k f).stroke = s.stroke := rfl
@[simp] theorem modCmd_net (q k : Nat) (f : Cmd → Cmd) : (s.modCmd q k f).net = s.net := rfl
@[simp] theorem modCmd_safe (q k : Nat) (f : Cmd → Cmd) : (s.modCmd q k f).safe = s.safe := rfl
@[simp] theorem modCmd_cap (q k : Nat) (f : Cmd → Cmd) : (s.modCmd q k f).cap = s.cap := rfl
@[simp] theorem modCmd_free (q k : Nat) (f : Cmd → Cmd) : (s.modCmd q k f).free = s.free := rfl
@[simp] theorem modCmd_pending (q k : Nat) (f : Cmd → Cmd) : (s.modCmd q k f).pending = s.pending := rfl

@[simp] theorem setExpect_host (q v : Nat) :
    (s.setExpect q v).host = { s.host with queues := vmod s.host.queues q (fun u => { u with expectSeq := v % 65536 }) } := rfl
@[simp] theorem setExpect_time (q v : Nat) : (s.setExpect q v).time = s.time := rfl
@[simp] theorem setExpect_port (q v : Nat) : (s.setExpect q v).port = s.port := rfl
@[simp] theorem setExpect_mem (q v : Nat) : (s.setExpect q v).mem = s.mem := rfl
@[simp] theorem setExpect_counters (q v : Nat) : (s.setExpect q v).counters = s.counters := rfl
@[simp] theorem setExpect_fault (q v : Nat) : (s.setExpect q v).fault = s.fault := rfl
@[simp] theorem setExpect_store (q v : Nat) : (s.setExpect q v).store = s.store := rfl
@[simp] theorem setExpect_tier (q v : Nat) : (s.setExpect q v).tier = s.tier := rfl
@[simp] theorem setExpect_pwr (q v : Nat) : (s.setExpect q v).pwr = s.pwr := rfl
@[simp] theorem setExpect_clk (q v : Nat) : (s.setExpect q v).clk = s.clk := rfl
@[simp] theorem setExpect_start (q v : Nat) : (s.setExpect q v).start = s.start := rfl
@[simp] theorem setExpect_cox (q v : Nat) : (s.setExpect q v).cox = s.cox := rfl
@[simp] theorem setExpect_tiles (q v : Nat) : (s.setExpect q v).tiles = s.tiles := rfl
@[simp] theorem setExpect_ctxs (q v : Nat) : (s.setExpect q v).ctxs = s.ctxs := rfl
@[simp] theorem setExpect_boat (q v : Nat) : (s.setExpect q v).boat = s.boat := rfl
@[simp] theorem setExpect_sched (q v : Nat) : (s.setExpect q v).sched = s.sched := rfl
@[simp] theorem setExpect_sweep (q v : Nat) : (s.setExpect q v).sweep = s.sweep := rfl
@[simp] theorem setExpect_xf (q v : Nat) : (s.setExpect q v).xf = s.xf := rfl
@[simp] theorem setExpect_plan (q v : Nat) : (s.setExpect q v).plan = s.plan := rfl
@[simp] theorem setExpect_fuse (q v : Nat) : (s.setExpect q v).fuse = s.fuse := rfl
@[simp] theorem setExpect_stroke (q v : Nat) : (s.setExpect q v).stroke = s.stroke := rfl
@[simp] theorem setExpect_net (q v : Nat) : (s.setExpect q v).net = s.net := rfl
@[simp] theorem setExpect_safe (q v : Nat) : (s.setExpect q v).safe = s.safe := rfl
@[simp] theorem setExpect_cap (q v : Nat) : (s.setExpect q v).cap = s.cap := rfl
@[simp] theorem setExpect_free (q v : Nat) : (s.setExpect q v).free = s.free := rfl
@[simp] theorem setExpect_pending (q v : Nat) : (s.setExpect q v).pending = s.pending := rfl

@[simp] theorem putSram_mem (a : Nat) (l : List Byte) :
    (s.putSram a l).mem = ⟨cellPuts s.mem.data a l, cellPuts s.mem.tag a (l.map (fun _ => 0))⟩ := rfl
@[simp] theorem putSram_time (a : Nat) (l : List Byte) : (s.putSram a l).time = s.time := rfl
@[simp] theorem putSram_port (a : Nat) (l : List Byte) : (s.putSram a l).port = s.port := rfl
@[simp] theorem putSram_host (a : Nat) (l : List Byte) : (s.putSram a l).host = s.host := rfl
@[simp] theorem putSram_counters (a : Nat) (l : List Byte) : (s.putSram a l).counters = s.counters := rfl
@[simp] theorem putSram_fault (a : Nat) (l : List Byte) : (s.putSram a l).fault = s.fault := rfl
@[simp] theorem putSram_store (a : Nat) (l : List Byte) : (s.putSram a l).store = s.store := rfl
@[simp] theorem putSram_tier (a : Nat) (l : List Byte) : (s.putSram a l).tier = s.tier := rfl
@[simp] theorem putSram_pwr (a : Nat) (l : List Byte) : (s.putSram a l).pwr = s.pwr := rfl
@[simp] theorem putSram_clk (a : Nat) (l : List Byte) : (s.putSram a l).clk = s.clk := rfl
@[simp] theorem putSram_start (a : Nat) (l : List Byte) : (s.putSram a l).start = s.start := rfl
@[simp] theorem putSram_cox (a : Nat) (l : List Byte) : (s.putSram a l).cox = s.cox := rfl
@[simp] theorem putSram_tiles (a : Nat) (l : List Byte) : (s.putSram a l).tiles = s.tiles := rfl
@[simp] theorem putSram_ctxs (a : Nat) (l : List Byte) : (s.putSram a l).ctxs = s.ctxs := rfl
@[simp] theorem putSram_boat (a : Nat) (l : List Byte) : (s.putSram a l).boat = s.boat := rfl
@[simp] theorem putSram_sched (a : Nat) (l : List Byte) : (s.putSram a l).sched = s.sched := rfl
@[simp] theorem putSram_sweep (a : Nat) (l : List Byte) : (s.putSram a l).sweep = s.sweep := rfl
@[simp] theorem putSram_xf (a : Nat) (l : List Byte) : (s.putSram a l).xf = s.xf := rfl
@[simp] theorem putSram_plan (a : Nat) (l : List Byte) : (s.putSram a l).plan = s.plan := rfl
@[simp] theorem putSram_fuse (a : Nat) (l : List Byte) : (s.putSram a l).fuse = s.fuse := rfl
@[simp] theorem putSram_stroke (a : Nat) (l : List Byte) : (s.putSram a l).stroke = s.stroke := rfl
@[simp] theorem putSram_net (a : Nat) (l : List Byte) : (s.putSram a l).net = s.net := rfl
@[simp] theorem putSram_safe (a : Nat) (l : List Byte) : (s.putSram a l).safe = s.safe := rfl
@[simp] theorem putSram_cap (a : Nat) (l : List Byte) : (s.putSram a l).cap = s.cap := rfl
@[simp] theorem putSram_free (a : Nat) (l : List Byte) : (s.putSram a l).free = s.free := rfl
@[simp] theorem putSram_pending (a : Nat) (l : List Byte) : (s.putSram a l).pending = s.pending := rfl

@[simp] theorem setCounter_counters (id : Nat) (c : Ctr) :
    (s.setCounter id c).counters = if c = Ctr.zero then aerase s.counters id else aset s.counters id c := rfl
@[simp] theorem setCounter_time (id : Nat) (c : Ctr) : (s.setCounter id c).time = s.time := rfl
@[simp] theorem setCounter_port (id : Nat) (c : Ctr) : (s.setCounter id c).port = s.port := rfl
@[simp] theorem setCounter_host (id : Nat) (c : Ctr) : (s.setCounter id c).host = s.host := rfl
@[simp] theorem setCounter_mem (id : Nat) (c : Ctr) : (s.setCounter id c).mem = s.mem := rfl
@[simp] theorem setCounter_fault (id : Nat) (c : Ctr) : (s.setCounter id c).fault = s.fault := rfl
@[simp] theorem setCounter_store (id : Nat) (c : Ctr) : (s.setCounter id c).store = s.store := rfl
@[simp] theorem setCounter_tier (id : Nat) (c : Ctr) : (s.setCounter id c).tier = s.tier := rfl
@[simp] theorem setCounter_pwr (id : Nat) (c : Ctr) : (s.setCounter id c).pwr = s.pwr := rfl
@[simp] theorem setCounter_clk (id : Nat) (c : Ctr) : (s.setCounter id c).clk = s.clk := rfl
@[simp] theorem setCounter_start (id : Nat) (c : Ctr) : (s.setCounter id c).start = s.start := rfl
@[simp] theorem setCounter_cox (id : Nat) (c : Ctr) : (s.setCounter id c).cox = s.cox := rfl
@[simp] theorem setCounter_tiles (id : Nat) (c : Ctr) : (s.setCounter id c).tiles = s.tiles := rfl
@[simp] theorem setCounter_ctxs (id : Nat) (c : Ctr) : (s.setCounter id c).ctxs = s.ctxs := rfl
@[simp] theorem setCounter_boat (id : Nat) (c : Ctr) : (s.setCounter id c).boat = s.boat := rfl
@[simp] theorem setCounter_sched (id : Nat) (c : Ctr) : (s.setCounter id c).sched = s.sched := rfl
@[simp] theorem setCounter_sweep (id : Nat) (c : Ctr) : (s.setCounter id c).sweep = s.sweep := rfl
@[simp] theorem setCounter_xf (id : Nat) (c : Ctr) : (s.setCounter id c).xf = s.xf := rfl
@[simp] theorem setCounter_plan (id : Nat) (c : Ctr) : (s.setCounter id c).plan = s.plan := rfl
@[simp] theorem setCounter_fuse (id : Nat) (c : Ctr) : (s.setCounter id c).fuse = s.fuse := rfl
@[simp] theorem setCounter_stroke (id : Nat) (c : Ctr) : (s.setCounter id c).stroke = s.stroke := rfl
@[simp] theorem setCounter_net (id : Nat) (c : Ctr) : (s.setCounter id c).net = s.net := rfl
@[simp] theorem setCounter_safe (id : Nat) (c : Ctr) : (s.setCounter id c).safe = s.safe := rfl
@[simp] theorem setCounter_cap (id : Nat) (c : Ctr) : (s.setCounter id c).cap = s.cap := rfl
@[simp] theorem setCounter_free (id : Nat) (c : Ctr) : (s.setCounter id c).free = s.free := rfl
@[simp] theorem setCounter_pending (id : Nat) (c : Ctr) : (s.setCounter id c).pending = s.pending := rfl

@[simp] theorem modChanRec_store (i : Nat) (f : ChanRec → ChanRec) : (s.modChanRec i f).store = { s.store with chans := vmod s.store.chans i f } := rfl
@[simp] theorem modChanRec_time (i : Nat) (f : ChanRec → ChanRec) : (s.modChanRec i f).time = s.time := rfl
@[simp] theorem modChanRec_port (i : Nat) (f : ChanRec → ChanRec) : (s.modChanRec i f).port = s.port := rfl
@[simp] theorem modChanRec_host (i : Nat) (f : ChanRec → ChanRec) : (s.modChanRec i f).host = s.host := rfl
@[simp] theorem modChanRec_mem (i : Nat) (f : ChanRec → ChanRec) : (s.modChanRec i f).mem = s.mem := rfl
@[simp] theorem modChanRec_counters (i : Nat) (f : ChanRec → ChanRec) : (s.modChanRec i f).counters = s.counters := rfl
@[simp] theorem modChanRec_fault (i : Nat) (f : ChanRec → ChanRec) : (s.modChanRec i f).fault = s.fault := rfl
@[simp] theorem modChanRec_tier (i : Nat) (f : ChanRec → ChanRec) : (s.modChanRec i f).tier = s.tier := rfl
@[simp] theorem modChanRec_pwr (i : Nat) (f : ChanRec → ChanRec) : (s.modChanRec i f).pwr = s.pwr := rfl
@[simp] theorem modChanRec_clk (i : Nat) (f : ChanRec → ChanRec) : (s.modChanRec i f).clk = s.clk := rfl
@[simp] theorem modChanRec_start (i : Nat) (f : ChanRec → ChanRec) : (s.modChanRec i f).start = s.start := rfl
@[simp] theorem modChanRec_cox (i : Nat) (f : ChanRec → ChanRec) : (s.modChanRec i f).cox = s.cox := rfl
@[simp] theorem modChanRec_tiles (i : Nat) (f : ChanRec → ChanRec) : (s.modChanRec i f).tiles = s.tiles := rfl
@[simp] theorem modChanRec_ctxs (i : Nat) (f : ChanRec → ChanRec) : (s.modChanRec i f).ctxs = s.ctxs := rfl
@[simp] theorem modChanRec_boat (i : Nat) (f : ChanRec → ChanRec) : (s.modChanRec i f).boat = s.boat := rfl
@[simp] theorem modChanRec_sched (i : Nat) (f : ChanRec → ChanRec) : (s.modChanRec i f).sched = s.sched := rfl
@[simp] theorem modChanRec_sweep (i : Nat) (f : ChanRec → ChanRec) : (s.modChanRec i f).sweep = s.sweep := rfl
@[simp] theorem modChanRec_xf (i : Nat) (f : ChanRec → ChanRec) : (s.modChanRec i f).xf = s.xf := rfl
@[simp] theorem modChanRec_plan (i : Nat) (f : ChanRec → ChanRec) : (s.modChanRec i f).plan = s.plan := rfl
@[simp] theorem modChanRec_fuse (i : Nat) (f : ChanRec → ChanRec) : (s.modChanRec i f).fuse = s.fuse := rfl
@[simp] theorem modChanRec_stroke (i : Nat) (f : ChanRec → ChanRec) : (s.modChanRec i f).stroke = s.stroke := rfl
@[simp] theorem modChanRec_net (i : Nat) (f : ChanRec → ChanRec) : (s.modChanRec i f).net = s.net := rfl
@[simp] theorem modChanRec_safe (i : Nat) (f : ChanRec → ChanRec) : (s.modChanRec i f).safe = s.safe := rfl
@[simp] theorem modChanRec_cap (i : Nat) (f : ChanRec → ChanRec) : (s.modChanRec i f).cap = s.cap := rfl
@[simp] theorem modChanRec_free (i : Nat) (f : ChanRec → ChanRec) : (s.modChanRec i f).free = s.free := rfl
@[simp] theorem modChanRec_pending (i : Nat) (f : ChanRec → ChanRec) : (s.modChanRec i f).pending = s.pending := rfl

@[simp] theorem modPwr_pwr (f : PwrSt → PwrSt) : (s.modPwr f).pwr = f s.pwr := rfl
@[simp] theorem modPwr_time (f : PwrSt → PwrSt) : (s.modPwr f).time = s.time := rfl
@[simp] theorem modPwr_port (f : PwrSt → PwrSt) : (s.modPwr f).port = s.port := rfl
@[simp] theorem modPwr_host (f : PwrSt → PwrSt) : (s.modPwr f).host = s.host := rfl
@[simp] theorem modPwr_mem (f : PwrSt → PwrSt) : (s.modPwr f).mem = s.mem := rfl
@[simp] theorem modPwr_counters (f : PwrSt → PwrSt) : (s.modPwr f).counters = s.counters := rfl
@[simp] theorem modPwr_fault (f : PwrSt → PwrSt) : (s.modPwr f).fault = s.fault := rfl
@[simp] theorem modPwr_store (f : PwrSt → PwrSt) : (s.modPwr f).store = s.store := rfl
@[simp] theorem modPwr_tier (f : PwrSt → PwrSt) : (s.modPwr f).tier = s.tier := rfl
@[simp] theorem modPwr_clk (f : PwrSt → PwrSt) : (s.modPwr f).clk = s.clk := rfl
@[simp] theorem modPwr_start (f : PwrSt → PwrSt) : (s.modPwr f).start = s.start := rfl
@[simp] theorem modPwr_cox (f : PwrSt → PwrSt) : (s.modPwr f).cox = s.cox := rfl
@[simp] theorem modPwr_tiles (f : PwrSt → PwrSt) : (s.modPwr f).tiles = s.tiles := rfl
@[simp] theorem modPwr_ctxs (f : PwrSt → PwrSt) : (s.modPwr f).ctxs = s.ctxs := rfl
@[simp] theorem modPwr_boat (f : PwrSt → PwrSt) : (s.modPwr f).boat = s.boat := rfl
@[simp] theorem modPwr_sched (f : PwrSt → PwrSt) : (s.modPwr f).sched = s.sched := rfl
@[simp] theorem modPwr_sweep (f : PwrSt → PwrSt) : (s.modPwr f).sweep = s.sweep := rfl
@[simp] theorem modPwr_xf (f : PwrSt → PwrSt) : (s.modPwr f).xf = s.xf := rfl
@[simp] theorem modPwr_plan (f : PwrSt → PwrSt) : (s.modPwr f).plan = s.plan := rfl
@[simp] theorem modPwr_fuse (f : PwrSt → PwrSt) : (s.modPwr f).fuse = s.fuse := rfl
@[simp] theorem modPwr_stroke (f : PwrSt → PwrSt) : (s.modPwr f).stroke = s.stroke := rfl
@[simp] theorem modPwr_net (f : PwrSt → PwrSt) : (s.modPwr f).net = s.net := rfl
@[simp] theorem modPwr_safe (f : PwrSt → PwrSt) : (s.modPwr f).safe = s.safe := rfl
@[simp] theorem modPwr_cap (f : PwrSt → PwrSt) : (s.modPwr f).cap = s.cap := rfl
@[simp] theorem modPwr_free (f : PwrSt → PwrSt) : (s.modPwr f).free = s.free := rfl
@[simp] theorem modPwr_pending (f : PwrSt → PwrSt) : (s.modPwr f).pending = s.pending := rfl

@[simp] theorem modClk_clk (f : ClkSt → ClkSt) : (s.modClk f).clk = f s.clk := rfl
@[simp] theorem modClk_time (f : ClkSt → ClkSt) : (s.modClk f).time = s.time := rfl
@[simp] theorem modClk_port (f : ClkSt → ClkSt) : (s.modClk f).port = s.port := rfl
@[simp] theorem modClk_host (f : ClkSt → ClkSt) : (s.modClk f).host = s.host := rfl
@[simp] theorem modClk_mem (f : ClkSt → ClkSt) : (s.modClk f).mem = s.mem := rfl
@[simp] theorem modClk_counters (f : ClkSt → ClkSt) : (s.modClk f).counters = s.counters := rfl
@[simp] theorem modClk_fault (f : ClkSt → ClkSt) : (s.modClk f).fault = s.fault := rfl
@[simp] theorem modClk_store (f : ClkSt → ClkSt) : (s.modClk f).store = s.store := rfl
@[simp] theorem modClk_tier (f : ClkSt → ClkSt) : (s.modClk f).tier = s.tier := rfl
@[simp] theorem modClk_pwr (f : ClkSt → ClkSt) : (s.modClk f).pwr = s.pwr := rfl
@[simp] theorem modClk_start (f : ClkSt → ClkSt) : (s.modClk f).start = s.start := rfl
@[simp] theorem modClk_cox (f : ClkSt → ClkSt) : (s.modClk f).cox = s.cox := rfl
@[simp] theorem modClk_tiles (f : ClkSt → ClkSt) : (s.modClk f).tiles = s.tiles := rfl
@[simp] theorem modClk_ctxs (f : ClkSt → ClkSt) : (s.modClk f).ctxs = s.ctxs := rfl
@[simp] theorem modClk_boat (f : ClkSt → ClkSt) : (s.modClk f).boat = s.boat := rfl
@[simp] theorem modClk_sched (f : ClkSt → ClkSt) : (s.modClk f).sched = s.sched := rfl
@[simp] theorem modClk_sweep (f : ClkSt → ClkSt) : (s.modClk f).sweep = s.sweep := rfl
@[simp] theorem modClk_xf (f : ClkSt → ClkSt) : (s.modClk f).xf = s.xf := rfl
@[simp] theorem modClk_plan (f : ClkSt → ClkSt) : (s.modClk f).plan = s.plan := rfl
@[simp] theorem modClk_fuse (f : ClkSt → ClkSt) : (s.modClk f).fuse = s.fuse := rfl
@[simp] theorem modClk_stroke (f : ClkSt → ClkSt) : (s.modClk f).stroke = s.stroke := rfl
@[simp] theorem modClk_net (f : ClkSt → ClkSt) : (s.modClk f).net = s.net := rfl
@[simp] theorem modClk_safe (f : ClkSt → ClkSt) : (s.modClk f).safe = s.safe := rfl
@[simp] theorem modClk_cap (f : ClkSt → ClkSt) : (s.modClk f).cap = s.cap := rfl
@[simp] theorem modClk_free (f : ClkSt → ClkSt) : (s.modClk f).free = s.free := rfl
@[simp] theorem modClk_pending (f : ClkSt → ClkSt) : (s.modClk f).pending = s.pending := rfl

@[simp] theorem modStart_start (f : StartSt → StartSt) : (s.modStart f).start = f s.start := rfl
@[simp] theorem modStart_time (f : StartSt → StartSt) : (s.modStart f).time = s.time := rfl
@[simp] theorem modStart_port (f : StartSt → StartSt) : (s.modStart f).port = s.port := rfl
@[simp] theorem modStart_host (f : StartSt → StartSt) : (s.modStart f).host = s.host := rfl
@[simp] theorem modStart_mem (f : StartSt → StartSt) : (s.modStart f).mem = s.mem := rfl
@[simp] theorem modStart_counters (f : StartSt → StartSt) : (s.modStart f).counters = s.counters := rfl
@[simp] theorem modStart_fault (f : StartSt → StartSt) : (s.modStart f).fault = s.fault := rfl
@[simp] theorem modStart_store (f : StartSt → StartSt) : (s.modStart f).store = s.store := rfl
@[simp] theorem modStart_tier (f : StartSt → StartSt) : (s.modStart f).tier = s.tier := rfl
@[simp] theorem modStart_pwr (f : StartSt → StartSt) : (s.modStart f).pwr = s.pwr := rfl
@[simp] theorem modStart_clk (f : StartSt → StartSt) : (s.modStart f).clk = s.clk := rfl
@[simp] theorem modStart_cox (f : StartSt → StartSt) : (s.modStart f).cox = s.cox := rfl
@[simp] theorem modStart_tiles (f : StartSt → StartSt) : (s.modStart f).tiles = s.tiles := rfl
@[simp] theorem modStart_ctxs (f : StartSt → StartSt) : (s.modStart f).ctxs = s.ctxs := rfl
@[simp] theorem modStart_boat (f : StartSt → StartSt) : (s.modStart f).boat = s.boat := rfl
@[simp] theorem modStart_sched (f : StartSt → StartSt) : (s.modStart f).sched = s.sched := rfl
@[simp] theorem modStart_sweep (f : StartSt → StartSt) : (s.modStart f).sweep = s.sweep := rfl
@[simp] theorem modStart_xf (f : StartSt → StartSt) : (s.modStart f).xf = s.xf := rfl
@[simp] theorem modStart_plan (f : StartSt → StartSt) : (s.modStart f).plan = s.plan := rfl
@[simp] theorem modStart_fuse (f : StartSt → StartSt) : (s.modStart f).fuse = s.fuse := rfl
@[simp] theorem modStart_stroke (f : StartSt → StartSt) : (s.modStart f).stroke = s.stroke := rfl
@[simp] theorem modStart_net (f : StartSt → StartSt) : (s.modStart f).net = s.net := rfl
@[simp] theorem modStart_safe (f : StartSt → StartSt) : (s.modStart f).safe = s.safe := rfl
@[simp] theorem modStart_cap (f : StartSt → StartSt) : (s.modStart f).cap = s.cap := rfl
@[simp] theorem modStart_free (f : StartSt → StartSt) : (s.modStart f).free = s.free := rfl
@[simp] theorem modStart_pending (f : StartSt → StartSt) : (s.modStart f).pending = s.pending := rfl

@[simp] theorem modCox_cox (f : CoxSt → CoxSt) : (s.modCox f).cox = f s.cox := rfl
@[simp] theorem modCox_time (f : CoxSt → CoxSt) : (s.modCox f).time = s.time := rfl
@[simp] theorem modCox_port (f : CoxSt → CoxSt) : (s.modCox f).port = s.port := rfl
@[simp] theorem modCox_host (f : CoxSt → CoxSt) : (s.modCox f).host = s.host := rfl
@[simp] theorem modCox_mem (f : CoxSt → CoxSt) : (s.modCox f).mem = s.mem := rfl
@[simp] theorem modCox_counters (f : CoxSt → CoxSt) : (s.modCox f).counters = s.counters := rfl
@[simp] theorem modCox_fault (f : CoxSt → CoxSt) : (s.modCox f).fault = s.fault := rfl
@[simp] theorem modCox_store (f : CoxSt → CoxSt) : (s.modCox f).store = s.store := rfl
@[simp] theorem modCox_tier (f : CoxSt → CoxSt) : (s.modCox f).tier = s.tier := rfl
@[simp] theorem modCox_pwr (f : CoxSt → CoxSt) : (s.modCox f).pwr = s.pwr := rfl
@[simp] theorem modCox_clk (f : CoxSt → CoxSt) : (s.modCox f).clk = s.clk := rfl
@[simp] theorem modCox_start (f : CoxSt → CoxSt) : (s.modCox f).start = s.start := rfl
@[simp] theorem modCox_tiles (f : CoxSt → CoxSt) : (s.modCox f).tiles = s.tiles := rfl
@[simp] theorem modCox_ctxs (f : CoxSt → CoxSt) : (s.modCox f).ctxs = s.ctxs := rfl
@[simp] theorem modCox_boat (f : CoxSt → CoxSt) : (s.modCox f).boat = s.boat := rfl
@[simp] theorem modCox_sched (f : CoxSt → CoxSt) : (s.modCox f).sched = s.sched := rfl
@[simp] theorem modCox_sweep (f : CoxSt → CoxSt) : (s.modCox f).sweep = s.sweep := rfl
@[simp] theorem modCox_xf (f : CoxSt → CoxSt) : (s.modCox f).xf = s.xf := rfl
@[simp] theorem modCox_plan (f : CoxSt → CoxSt) : (s.modCox f).plan = s.plan := rfl
@[simp] theorem modCox_fuse (f : CoxSt → CoxSt) : (s.modCox f).fuse = s.fuse := rfl
@[simp] theorem modCox_stroke (f : CoxSt → CoxSt) : (s.modCox f).stroke = s.stroke := rfl
@[simp] theorem modCox_net (f : CoxSt → CoxSt) : (s.modCox f).net = s.net := rfl
@[simp] theorem modCox_safe (f : CoxSt → CoxSt) : (s.modCox f).safe = s.safe := rfl
@[simp] theorem modCox_cap (f : CoxSt → CoxSt) : (s.modCox f).cap = s.cap := rfl
@[simp] theorem modCox_free (f : CoxSt → CoxSt) : (s.modCox f).free = s.free := rfl
@[simp] theorem modCox_pending (f : CoxSt → CoxSt) : (s.modCox f).pending = s.pending := rfl

@[simp] theorem modTile_tiles (t : Nat) (f : Tile → Tile) : (s.modTile t f).tiles = vmod s.tiles t f := rfl
@[simp] theorem modTile_time (t : Nat) (f : Tile → Tile) : (s.modTile t f).time = s.time := rfl
@[simp] theorem modTile_port (t : Nat) (f : Tile → Tile) : (s.modTile t f).port = s.port := rfl
@[simp] theorem modTile_host (t : Nat) (f : Tile → Tile) : (s.modTile t f).host = s.host := rfl
@[simp] theorem modTile_mem (t : Nat) (f : Tile → Tile) : (s.modTile t f).mem = s.mem := rfl
@[simp] theorem modTile_counters (t : Nat) (f : Tile → Tile) : (s.modTile t f).counters = s.counters := rfl
@[simp] theorem modTile_fault (t : Nat) (f : Tile → Tile) : (s.modTile t f).fault = s.fault := rfl
@[simp] theorem modTile_store (t : Nat) (f : Tile → Tile) : (s.modTile t f).store = s.store := rfl
@[simp] theorem modTile_tier (t : Nat) (f : Tile → Tile) : (s.modTile t f).tier = s.tier := rfl
@[simp] theorem modTile_pwr (t : Nat) (f : Tile → Tile) : (s.modTile t f).pwr = s.pwr := rfl
@[simp] theorem modTile_clk (t : Nat) (f : Tile → Tile) : (s.modTile t f).clk = s.clk := rfl
@[simp] theorem modTile_start (t : Nat) (f : Tile → Tile) : (s.modTile t f).start = s.start := rfl
@[simp] theorem modTile_cox (t : Nat) (f : Tile → Tile) : (s.modTile t f).cox = s.cox := rfl
@[simp] theorem modTile_ctxs (t : Nat) (f : Tile → Tile) : (s.modTile t f).ctxs = s.ctxs := rfl
@[simp] theorem modTile_boat (t : Nat) (f : Tile → Tile) : (s.modTile t f).boat = s.boat := rfl
@[simp] theorem modTile_sched (t : Nat) (f : Tile → Tile) : (s.modTile t f).sched = s.sched := rfl
@[simp] theorem modTile_sweep (t : Nat) (f : Tile → Tile) : (s.modTile t f).sweep = s.sweep := rfl
@[simp] theorem modTile_xf (t : Nat) (f : Tile → Tile) : (s.modTile t f).xf = s.xf := rfl
@[simp] theorem modTile_plan (t : Nat) (f : Tile → Tile) : (s.modTile t f).plan = s.plan := rfl
@[simp] theorem modTile_fuse (t : Nat) (f : Tile → Tile) : (s.modTile t f).fuse = s.fuse := rfl
@[simp] theorem modTile_stroke (t : Nat) (f : Tile → Tile) : (s.modTile t f).stroke = s.stroke := rfl
@[simp] theorem modTile_net (t : Nat) (f : Tile → Tile) : (s.modTile t f).net = s.net := rfl
@[simp] theorem modTile_safe (t : Nat) (f : Tile → Tile) : (s.modTile t f).safe = s.safe := rfl
@[simp] theorem modTile_cap (t : Nat) (f : Tile → Tile) : (s.modTile t f).cap = s.cap := rfl
@[simp] theorem modTile_free (t : Nat) (f : Tile → Tile) : (s.modTile t f).free = s.free := rfl
@[simp] theorem modTile_pending (t : Nat) (f : Tile → Tile) : (s.modTile t f).pending = s.pending := rfl

@[simp] theorem modThread_tiles (t th : Nat) (f : Thread → Thread) : (s.modThread t th f).tiles = vmod s.tiles t (fun x => x.modThread th f) := rfl
@[simp] theorem modThread_time (t th : Nat) (f : Thread → Thread) : (s.modThread t th f).time = s.time := rfl
@[simp] theorem modThread_port (t th : Nat) (f : Thread → Thread) : (s.modThread t th f).port = s.port := rfl
@[simp] theorem modThread_host (t th : Nat) (f : Thread → Thread) : (s.modThread t th f).host = s.host := rfl
@[simp] theorem modThread_mem (t th : Nat) (f : Thread → Thread) : (s.modThread t th f).mem = s.mem := rfl
@[simp] theorem modThread_counters (t th : Nat) (f : Thread → Thread) : (s.modThread t th f).counters = s.counters := rfl
@[simp] theorem modThread_fault (t th : Nat) (f : Thread → Thread) : (s.modThread t th f).fault = s.fault := rfl
@[simp] theorem modThread_store (t th : Nat) (f : Thread → Thread) : (s.modThread t th f).store = s.store := rfl
@[simp] theorem modThread_tier (t th : Nat) (f : Thread → Thread) : (s.modThread t th f).tier = s.tier := rfl
@[simp] theorem modThread_pwr (t th : Nat) (f : Thread → Thread) : (s.modThread t th f).pwr = s.pwr := rfl
@[simp] theorem modThread_clk (t th : Nat) (f : Thread → Thread) : (s.modThread t th f).clk = s.clk := rfl
@[simp] theorem modThread_start (t th : Nat) (f : Thread → Thread) : (s.modThread t th f).start = s.start := rfl
@[simp] theorem modThread_cox (t th : Nat) (f : Thread → Thread) : (s.modThread t th f).cox = s.cox := rfl
@[simp] theorem modThread_ctxs (t th : Nat) (f : Thread → Thread) : (s.modThread t th f).ctxs = s.ctxs := rfl
@[simp] theorem modThread_boat (t th : Nat) (f : Thread → Thread) : (s.modThread t th f).boat = s.boat := rfl
@[simp] theorem modThread_sched (t th : Nat) (f : Thread → Thread) : (s.modThread t th f).sched = s.sched := rfl
@[simp] theorem modThread_sweep (t th : Nat) (f : Thread → Thread) : (s.modThread t th f).sweep = s.sweep := rfl
@[simp] theorem modThread_xf (t th : Nat) (f : Thread → Thread) : (s.modThread t th f).xf = s.xf := rfl
@[simp] theorem modThread_plan (t th : Nat) (f : Thread → Thread) : (s.modThread t th f).plan = s.plan := rfl
@[simp] theorem modThread_fuse (t th : Nat) (f : Thread → Thread) : (s.modThread t th f).fuse = s.fuse := rfl
@[simp] theorem modThread_stroke (t th : Nat) (f : Thread → Thread) : (s.modThread t th f).stroke = s.stroke := rfl
@[simp] theorem modThread_net (t th : Nat) (f : Thread → Thread) : (s.modThread t th f).net = s.net := rfl
@[simp] theorem modThread_safe (t th : Nat) (f : Thread → Thread) : (s.modThread t th f).safe = s.safe := rfl
@[simp] theorem modThread_cap (t th : Nat) (f : Thread → Thread) : (s.modThread t th f).cap = s.cap := rfl
@[simp] theorem modThread_free (t th : Nat) (f : Thread → Thread) : (s.modThread t th f).free = s.free := rfl
@[simp] theorem modThread_pending (t th : Nat) (f : Thread → Thread) : (s.modThread t th f).pending = s.pending := rfl

@[simp] theorem modBow_tiles (t e : Nat) (f : Bow → Bow) : (s.modBow t e f).tiles = vmod s.tiles t (fun x => { x with bows := vmod x.bows e f }) := rfl
@[simp] theorem modBow_time (t e : Nat) (f : Bow → Bow) : (s.modBow t e f).time = s.time := rfl
@[simp] theorem modBow_port (t e : Nat) (f : Bow → Bow) : (s.modBow t e f).port = s.port := rfl
@[simp] theorem modBow_host (t e : Nat) (f : Bow → Bow) : (s.modBow t e f).host = s.host := rfl
@[simp] theorem modBow_mem (t e : Nat) (f : Bow → Bow) : (s.modBow t e f).mem = s.mem := rfl
@[simp] theorem modBow_counters (t e : Nat) (f : Bow → Bow) : (s.modBow t e f).counters = s.counters := rfl
@[simp] theorem modBow_fault (t e : Nat) (f : Bow → Bow) : (s.modBow t e f).fault = s.fault := rfl
@[simp] theorem modBow_store (t e : Nat) (f : Bow → Bow) : (s.modBow t e f).store = s.store := rfl
@[simp] theorem modBow_tier (t e : Nat) (f : Bow → Bow) : (s.modBow t e f).tier = s.tier := rfl
@[simp] theorem modBow_pwr (t e : Nat) (f : Bow → Bow) : (s.modBow t e f).pwr = s.pwr := rfl
@[simp] theorem modBow_clk (t e : Nat) (f : Bow → Bow) : (s.modBow t e f).clk = s.clk := rfl
@[simp] theorem modBow_start (t e : Nat) (f : Bow → Bow) : (s.modBow t e f).start = s.start := rfl
@[simp] theorem modBow_cox (t e : Nat) (f : Bow → Bow) : (s.modBow t e f).cox = s.cox := rfl
@[simp] theorem modBow_ctxs (t e : Nat) (f : Bow → Bow) : (s.modBow t e f).ctxs = s.ctxs := rfl
@[simp] theorem modBow_boat (t e : Nat) (f : Bow → Bow) : (s.modBow t e f).boat = s.boat := rfl
@[simp] theorem modBow_sched (t e : Nat) (f : Bow → Bow) : (s.modBow t e f).sched = s.sched := rfl
@[simp] theorem modBow_sweep (t e : Nat) (f : Bow → Bow) : (s.modBow t e f).sweep = s.sweep := rfl
@[simp] theorem modBow_xf (t e : Nat) (f : Bow → Bow) : (s.modBow t e f).xf = s.xf := rfl
@[simp] theorem modBow_plan (t e : Nat) (f : Bow → Bow) : (s.modBow t e f).plan = s.plan := rfl
@[simp] theorem modBow_fuse (t e : Nat) (f : Bow → Bow) : (s.modBow t e f).fuse = s.fuse := rfl
@[simp] theorem modBow_stroke (t e : Nat) (f : Bow → Bow) : (s.modBow t e f).stroke = s.stroke := rfl
@[simp] theorem modBow_net (t e : Nat) (f : Bow → Bow) : (s.modBow t e f).net = s.net := rfl
@[simp] theorem modBow_safe (t e : Nat) (f : Bow → Bow) : (s.modBow t e f).safe = s.safe := rfl
@[simp] theorem modBow_cap (t e : Nat) (f : Bow → Bow) : (s.modBow t e f).cap = s.cap := rfl
@[simp] theorem modBow_free (t e : Nat) (f : Bow → Bow) : (s.modBow t e f).free = s.free := rfl
@[simp] theorem modBow_pending (t e : Nat) (f : Bow → Bow) : (s.modBow t e f).pending = s.pending := rfl

@[simp] theorem modSlot_tiles (t i : Nat) (f : Slot → Slot) :
    (s.modSlot t i f).tiles = vmod s.tiles t (fun x => { x with slots := vmod x.slots i f }) := rfl
@[simp] theorem modSlot_time (t i : Nat) (f : Slot → Slot) : (s.modSlot t i f).time = s.time := rfl
@[simp] theorem modSlot_port (t i : Nat) (f : Slot → Slot) : (s.modSlot t i f).port = s.port := rfl
@[simp] theorem modSlot_host (t i : Nat) (f : Slot → Slot) : (s.modSlot t i f).host = s.host := rfl
@[simp] theorem modSlot_mem (t i : Nat) (f : Slot → Slot) : (s.modSlot t i f).mem = s.mem := rfl
@[simp] theorem modSlot_counters (t i : Nat) (f : Slot → Slot) : (s.modSlot t i f).counters = s.counters := rfl
@[simp] theorem modSlot_fault (t i : Nat) (f : Slot → Slot) : (s.modSlot t i f).fault = s.fault := rfl
@[simp] theorem modSlot_store (t i : Nat) (f : Slot → Slot) : (s.modSlot t i f).store = s.store := rfl
@[simp] theorem modSlot_tier (t i : Nat) (f : Slot → Slot) : (s.modSlot t i f).tier = s.tier := rfl
@[simp] theorem modSlot_pwr (t i : Nat) (f : Slot → Slot) : (s.modSlot t i f).pwr = s.pwr := rfl
@[simp] theorem modSlot_clk (t i : Nat) (f : Slot → Slot) : (s.modSlot t i f).clk = s.clk := rfl
@[simp] theorem modSlot_start (t i : Nat) (f : Slot → Slot) : (s.modSlot t i f).start = s.start := rfl
@[simp] theorem modSlot_cox (t i : Nat) (f : Slot → Slot) : (s.modSlot t i f).cox = s.cox := rfl
@[simp] theorem modSlot_ctxs (t i : Nat) (f : Slot → Slot) : (s.modSlot t i f).ctxs = s.ctxs := rfl
@[simp] theorem modSlot_boat (t i : Nat) (f : Slot → Slot) : (s.modSlot t i f).boat = s.boat := rfl
@[simp] theorem modSlot_sched (t i : Nat) (f : Slot → Slot) : (s.modSlot t i f).sched = s.sched := rfl
@[simp] theorem modSlot_sweep (t i : Nat) (f : Slot → Slot) : (s.modSlot t i f).sweep = s.sweep := rfl
@[simp] theorem modSlot_xf (t i : Nat) (f : Slot → Slot) : (s.modSlot t i f).xf = s.xf := rfl
@[simp] theorem modSlot_plan (t i : Nat) (f : Slot → Slot) : (s.modSlot t i f).plan = s.plan := rfl
@[simp] theorem modSlot_fuse (t i : Nat) (f : Slot → Slot) : (s.modSlot t i f).fuse = s.fuse := rfl
@[simp] theorem modSlot_stroke (t i : Nat) (f : Slot → Slot) : (s.modSlot t i f).stroke = s.stroke := rfl
@[simp] theorem modSlot_net (t i : Nat) (f : Slot → Slot) : (s.modSlot t i f).net = s.net := rfl
@[simp] theorem modSlot_safe (t i : Nat) (f : Slot → Slot) : (s.modSlot t i f).safe = s.safe := rfl
@[simp] theorem modSlot_cap (t i : Nat) (f : Slot → Slot) : (s.modSlot t i f).cap = s.cap := rfl
@[simp] theorem modSlot_free (t i : Nat) (f : Slot → Slot) : (s.modSlot t i f).free = s.free := rfl
@[simp] theorem modSlot_pending (t i : Nat) (f : Slot → Slot) : (s.modSlot t i f).pending = s.pending := rfl

@[simp] theorem modCtx_ctxs (id : Nat) (f : Ctx → Ctx) : (s.modCtx id f).ctxs = s.ctxs.map (fun p => if p.1 = id then (p.1, f p.2) else p) := rfl
@[simp] theorem modCtx_time (id : Nat) (f : Ctx → Ctx) : (s.modCtx id f).time = s.time := rfl
@[simp] theorem modCtx_port (id : Nat) (f : Ctx → Ctx) : (s.modCtx id f).port = s.port := rfl
@[simp] theorem modCtx_host (id : Nat) (f : Ctx → Ctx) : (s.modCtx id f).host = s.host := rfl
@[simp] theorem modCtx_mem (id : Nat) (f : Ctx → Ctx) : (s.modCtx id f).mem = s.mem := rfl
@[simp] theorem modCtx_counters (id : Nat) (f : Ctx → Ctx) : (s.modCtx id f).counters = s.counters := rfl
@[simp] theorem modCtx_fault (id : Nat) (f : Ctx → Ctx) : (s.modCtx id f).fault = s.fault := rfl
@[simp] theorem modCtx_store (id : Nat) (f : Ctx → Ctx) : (s.modCtx id f).store = s.store := rfl
@[simp] theorem modCtx_tier (id : Nat) (f : Ctx → Ctx) : (s.modCtx id f).tier = s.tier := rfl
@[simp] theorem modCtx_pwr (id : Nat) (f : Ctx → Ctx) : (s.modCtx id f).pwr = s.pwr := rfl
@[simp] theorem modCtx_clk (id : Nat) (f : Ctx → Ctx) : (s.modCtx id f).clk = s.clk := rfl
@[simp] theorem modCtx_start (id : Nat) (f : Ctx → Ctx) : (s.modCtx id f).start = s.start := rfl
@[simp] theorem modCtx_cox (id : Nat) (f : Ctx → Ctx) : (s.modCtx id f).cox = s.cox := rfl
@[simp] theorem modCtx_tiles (id : Nat) (f : Ctx → Ctx) : (s.modCtx id f).tiles = s.tiles := rfl
@[simp] theorem modCtx_boat (id : Nat) (f : Ctx → Ctx) : (s.modCtx id f).boat = s.boat := rfl
@[simp] theorem modCtx_sched (id : Nat) (f : Ctx → Ctx) : (s.modCtx id f).sched = s.sched := rfl
@[simp] theorem modCtx_sweep (id : Nat) (f : Ctx → Ctx) : (s.modCtx id f).sweep = s.sweep := rfl
@[simp] theorem modCtx_xf (id : Nat) (f : Ctx → Ctx) : (s.modCtx id f).xf = s.xf := rfl
@[simp] theorem modCtx_plan (id : Nat) (f : Ctx → Ctx) : (s.modCtx id f).plan = s.plan := rfl
@[simp] theorem modCtx_fuse (id : Nat) (f : Ctx → Ctx) : (s.modCtx id f).fuse = s.fuse := rfl
@[simp] theorem modCtx_stroke (id : Nat) (f : Ctx → Ctx) : (s.modCtx id f).stroke = s.stroke := rfl
@[simp] theorem modCtx_net (id : Nat) (f : Ctx → Ctx) : (s.modCtx id f).net = s.net := rfl
@[simp] theorem modCtx_safe (id : Nat) (f : Ctx → Ctx) : (s.modCtx id f).safe = s.safe := rfl
@[simp] theorem modCtx_cap (id : Nat) (f : Ctx → Ctx) : (s.modCtx id f).cap = s.cap := rfl
@[simp] theorem modCtx_free (id : Nat) (f : Ctx → Ctx) : (s.modCtx id f).free = s.free := rfl
@[simp] theorem modCtx_pending (id : Nat) (f : Ctx → Ctx) : (s.modCtx id f).pending = s.pending := rfl

@[simp] theorem modModel_boat (h : Nat) (f : Model → Model) :
    (s.modModel h f).boat = { s.boat with models := s.boat.models.map (fun p => if p.1 = s.modelId h then (p.1, f p.2) else p) } := rfl
@[simp] theorem modModel_time (h : Nat) (f : Model → Model) : (s.modModel h f).time = s.time := rfl
@[simp] theorem modModel_port (h : Nat) (f : Model → Model) : (s.modModel h f).port = s.port := rfl
@[simp] theorem modModel_host (h : Nat) (f : Model → Model) : (s.modModel h f).host = s.host := rfl
@[simp] theorem modModel_mem (h : Nat) (f : Model → Model) : (s.modModel h f).mem = s.mem := rfl
@[simp] theorem modModel_counters (h : Nat) (f : Model → Model) : (s.modModel h f).counters = s.counters := rfl
@[simp] theorem modModel_fault (h : Nat) (f : Model → Model) : (s.modModel h f).fault = s.fault := rfl
@[simp] theorem modModel_store (h : Nat) (f : Model → Model) : (s.modModel h f).store = s.store := rfl
@[simp] theorem modModel_tier (h : Nat) (f : Model → Model) : (s.modModel h f).tier = s.tier := rfl
@[simp] theorem modModel_pwr (h : Nat) (f : Model → Model) : (s.modModel h f).pwr = s.pwr := rfl
@[simp] theorem modModel_clk (h : Nat) (f : Model → Model) : (s.modModel h f).clk = s.clk := rfl
@[simp] theorem modModel_start (h : Nat) (f : Model → Model) : (s.modModel h f).start = s.start := rfl
@[simp] theorem modModel_cox (h : Nat) (f : Model → Model) : (s.modModel h f).cox = s.cox := rfl
@[simp] theorem modModel_tiles (h : Nat) (f : Model → Model) : (s.modModel h f).tiles = s.tiles := rfl
@[simp] theorem modModel_ctxs (h : Nat) (f : Model → Model) : (s.modModel h f).ctxs = s.ctxs := rfl
@[simp] theorem modModel_sched (h : Nat) (f : Model → Model) : (s.modModel h f).sched = s.sched := rfl
@[simp] theorem modModel_sweep (h : Nat) (f : Model → Model) : (s.modModel h f).sweep = s.sweep := rfl
@[simp] theorem modModel_xf (h : Nat) (f : Model → Model) : (s.modModel h f).xf = s.xf := rfl
@[simp] theorem modModel_plan (h : Nat) (f : Model → Model) : (s.modModel h f).plan = s.plan := rfl
@[simp] theorem modModel_fuse (h : Nat) (f : Model → Model) : (s.modModel h f).fuse = s.fuse := rfl
@[simp] theorem modModel_stroke (h : Nat) (f : Model → Model) : (s.modModel h f).stroke = s.stroke := rfl
@[simp] theorem modModel_net (h : Nat) (f : Model → Model) : (s.modModel h f).net = s.net := rfl
@[simp] theorem modModel_safe (h : Nat) (f : Model → Model) : (s.modModel h f).safe = s.safe := rfl
@[simp] theorem modModel_cap (h : Nat) (f : Model → Model) : (s.modModel h f).cap = s.cap := rfl
@[simp] theorem modModel_free (h : Nat) (f : Model → Model) : (s.modModel h f).free = s.free := rfl
@[simp] theorem modModel_pending (h : Nat) (f : Model → Model) : (s.modModel h f).pending = s.pending := rfl

@[simp] theorem modClient_sched (id : Nat) (f : Client → Client) :
    (s.modClient id f).sched = { s.sched with clients := s.sched.clients.map (fun p => if p.1 = id then (p.1, f p.2) else p) } := rfl
@[simp] theorem modClient_time (id : Nat) (f : Client → Client) : (s.modClient id f).time = s.time := rfl
@[simp] theorem modClient_port (id : Nat) (f : Client → Client) : (s.modClient id f).port = s.port := rfl
@[simp] theorem modClient_host (id : Nat) (f : Client → Client) : (s.modClient id f).host = s.host := rfl
@[simp] theorem modClient_mem (id : Nat) (f : Client → Client) : (s.modClient id f).mem = s.mem := rfl
@[simp] theorem modClient_counters (id : Nat) (f : Client → Client) : (s.modClient id f).counters = s.counters := rfl
@[simp] theorem modClient_fault (id : Nat) (f : Client → Client) : (s.modClient id f).fault = s.fault := rfl
@[simp] theorem modClient_store (id : Nat) (f : Client → Client) : (s.modClient id f).store = s.store := rfl
@[simp] theorem modClient_tier (id : Nat) (f : Client → Client) : (s.modClient id f).tier = s.tier := rfl
@[simp] theorem modClient_pwr (id : Nat) (f : Client → Client) : (s.modClient id f).pwr = s.pwr := rfl
@[simp] theorem modClient_clk (id : Nat) (f : Client → Client) : (s.modClient id f).clk = s.clk := rfl
@[simp] theorem modClient_start (id : Nat) (f : Client → Client) : (s.modClient id f).start = s.start := rfl
@[simp] theorem modClient_cox (id : Nat) (f : Client → Client) : (s.modClient id f).cox = s.cox := rfl
@[simp] theorem modClient_tiles (id : Nat) (f : Client → Client) : (s.modClient id f).tiles = s.tiles := rfl
@[simp] theorem modClient_ctxs (id : Nat) (f : Client → Client) : (s.modClient id f).ctxs = s.ctxs := rfl
@[simp] theorem modClient_boat (id : Nat) (f : Client → Client) : (s.modClient id f).boat = s.boat := rfl
@[simp] theorem modClient_sweep (id : Nat) (f : Client → Client) : (s.modClient id f).sweep = s.sweep := rfl
@[simp] theorem modClient_xf (id : Nat) (f : Client → Client) : (s.modClient id f).xf = s.xf := rfl
@[simp] theorem modClient_plan (id : Nat) (f : Client → Client) : (s.modClient id f).plan = s.plan := rfl
@[simp] theorem modClient_fuse (id : Nat) (f : Client → Client) : (s.modClient id f).fuse = s.fuse := rfl
@[simp] theorem modClient_stroke (id : Nat) (f : Client → Client) : (s.modClient id f).stroke = s.stroke := rfl
@[simp] theorem modClient_net (id : Nat) (f : Client → Client) : (s.modClient id f).net = s.net := rfl
@[simp] theorem modClient_safe (id : Nat) (f : Client → Client) : (s.modClient id f).safe = s.safe := rfl
@[simp] theorem modClient_cap (id : Nat) (f : Client → Client) : (s.modClient id f).cap = s.cap := rfl
@[simp] theorem modClient_free (id : Nat) (f : Client → Client) : (s.modClient id f).free = s.free := rfl
@[simp] theorem modClient_pending (id : Nat) (f : Client → Client) : (s.modClient id f).pending = s.pending := rfl

@[simp] theorem modJob_sched (uid : Nat) (f : Job → Job) :
    (s.modJob uid f).sched = { s.sched with jobs := s.sched.jobs.map (fun j => if j.uid = uid then f j else j) } := rfl
@[simp] theorem modJob_time (uid : Nat) (f : Job → Job) : (s.modJob uid f).time = s.time := rfl
@[simp] theorem modJob_port (uid : Nat) (f : Job → Job) : (s.modJob uid f).port = s.port := rfl
@[simp] theorem modJob_host (uid : Nat) (f : Job → Job) : (s.modJob uid f).host = s.host := rfl
@[simp] theorem modJob_mem (uid : Nat) (f : Job → Job) : (s.modJob uid f).mem = s.mem := rfl
@[simp] theorem modJob_counters (uid : Nat) (f : Job → Job) : (s.modJob uid f).counters = s.counters := rfl
@[simp] theorem modJob_fault (uid : Nat) (f : Job → Job) : (s.modJob uid f).fault = s.fault := rfl
@[simp] theorem modJob_store (uid : Nat) (f : Job → Job) : (s.modJob uid f).store = s.store := rfl
@[simp] theorem modJob_tier (uid : Nat) (f : Job → Job) : (s.modJob uid f).tier = s.tier := rfl
@[simp] theorem modJob_pwr (uid : Nat) (f : Job → Job) : (s.modJob uid f).pwr = s.pwr := rfl
@[simp] theorem modJob_clk (uid : Nat) (f : Job → Job) : (s.modJob uid f).clk = s.clk := rfl
@[simp] theorem modJob_start (uid : Nat) (f : Job → Job) : (s.modJob uid f).start = s.start := rfl
@[simp] theorem modJob_cox (uid : Nat) (f : Job → Job) : (s.modJob uid f).cox = s.cox := rfl
@[simp] theorem modJob_tiles (uid : Nat) (f : Job → Job) : (s.modJob uid f).tiles = s.tiles := rfl
@[simp] theorem modJob_ctxs (uid : Nat) (f : Job → Job) : (s.modJob uid f).ctxs = s.ctxs := rfl
@[simp] theorem modJob_boat (uid : Nat) (f : Job → Job) : (s.modJob uid f).boat = s.boat := rfl
@[simp] theorem modJob_sweep (uid : Nat) (f : Job → Job) : (s.modJob uid f).sweep = s.sweep := rfl
@[simp] theorem modJob_xf (uid : Nat) (f : Job → Job) : (s.modJob uid f).xf = s.xf := rfl
@[simp] theorem modJob_plan (uid : Nat) (f : Job → Job) : (s.modJob uid f).plan = s.plan := rfl
@[simp] theorem modJob_fuse (uid : Nat) (f : Job → Job) : (s.modJob uid f).fuse = s.fuse := rfl
@[simp] theorem modJob_stroke (uid : Nat) (f : Job → Job) : (s.modJob uid f).stroke = s.stroke := rfl
@[simp] theorem modJob_net (uid : Nat) (f : Job → Job) : (s.modJob uid f).net = s.net := rfl
@[simp] theorem modJob_safe (uid : Nat) (f : Job → Job) : (s.modJob uid f).safe = s.safe := rfl
@[simp] theorem modJob_cap (uid : Nat) (f : Job → Job) : (s.modJob uid f).cap = s.cap := rfl
@[simp] theorem modJob_free (uid : Nat) (f : Job → Job) : (s.modJob uid f).free = s.free := rfl
@[simp] theorem modJob_pending (uid : Nat) (f : Job → Job) : (s.modJob uid f).pending = s.pending := rfl

@[simp] theorem modSem_sched (i : Nat) (f : Sem → Sem) :
    (s.modSem i f).sched = { s.sched with sems := s.sched.sems.map (fun p => if p.1 = i then (p.1, f p.2) else p) } := rfl
@[simp] theorem modSem_time (i : Nat) (f : Sem → Sem) : (s.modSem i f).time = s.time := rfl
@[simp] theorem modSem_port (i : Nat) (f : Sem → Sem) : (s.modSem i f).port = s.port := rfl
@[simp] theorem modSem_host (i : Nat) (f : Sem → Sem) : (s.modSem i f).host = s.host := rfl
@[simp] theorem modSem_mem (i : Nat) (f : Sem → Sem) : (s.modSem i f).mem = s.mem := rfl
@[simp] theorem modSem_counters (i : Nat) (f : Sem → Sem) : (s.modSem i f).counters = s.counters := rfl
@[simp] theorem modSem_fault (i : Nat) (f : Sem → Sem) : (s.modSem i f).fault = s.fault := rfl
@[simp] theorem modSem_store (i : Nat) (f : Sem → Sem) : (s.modSem i f).store = s.store := rfl
@[simp] theorem modSem_tier (i : Nat) (f : Sem → Sem) : (s.modSem i f).tier = s.tier := rfl
@[simp] theorem modSem_pwr (i : Nat) (f : Sem → Sem) : (s.modSem i f).pwr = s.pwr := rfl
@[simp] theorem modSem_clk (i : Nat) (f : Sem → Sem) : (s.modSem i f).clk = s.clk := rfl
@[simp] theorem modSem_start (i : Nat) (f : Sem → Sem) : (s.modSem i f).start = s.start := rfl
@[simp] theorem modSem_cox (i : Nat) (f : Sem → Sem) : (s.modSem i f).cox = s.cox := rfl
@[simp] theorem modSem_tiles (i : Nat) (f : Sem → Sem) : (s.modSem i f).tiles = s.tiles := rfl
@[simp] theorem modSem_ctxs (i : Nat) (f : Sem → Sem) : (s.modSem i f).ctxs = s.ctxs := rfl
@[simp] theorem modSem_boat (i : Nat) (f : Sem → Sem) : (s.modSem i f).boat = s.boat := rfl
@[simp] theorem modSem_sweep (i : Nat) (f : Sem → Sem) : (s.modSem i f).sweep = s.sweep := rfl
@[simp] theorem modSem_xf (i : Nat) (f : Sem → Sem) : (s.modSem i f).xf = s.xf := rfl
@[simp] theorem modSem_plan (i : Nat) (f : Sem → Sem) : (s.modSem i f).plan = s.plan := rfl
@[simp] theorem modSem_fuse (i : Nat) (f : Sem → Sem) : (s.modSem i f).fuse = s.fuse := rfl
@[simp] theorem modSem_stroke (i : Nat) (f : Sem → Sem) : (s.modSem i f).stroke = s.stroke := rfl
@[simp] theorem modSem_net (i : Nat) (f : Sem → Sem) : (s.modSem i f).net = s.net := rfl
@[simp] theorem modSem_safe (i : Nat) (f : Sem → Sem) : (s.modSem i f).safe = s.safe := rfl
@[simp] theorem modSem_cap (i : Nat) (f : Sem → Sem) : (s.modSem i f).cap = s.cap := rfl
@[simp] theorem modSem_free (i : Nat) (f : Sem → Sem) : (s.modSem i f).free = s.free := rfl
@[simp] theorem modSem_pending (i : Nat) (f : Sem → Sem) : (s.modSem i f).pending = s.pending := rfl

@[simp] theorem modFuse_fuse (f : FuseSt → FuseSt) : (s.modFuse f).fuse = f s.fuse := rfl
@[simp] theorem modFuse_time (f : FuseSt → FuseSt) : (s.modFuse f).time = s.time := rfl
@[simp] theorem modFuse_port (f : FuseSt → FuseSt) : (s.modFuse f).port = s.port := rfl
@[simp] theorem modFuse_host (f : FuseSt → FuseSt) : (s.modFuse f).host = s.host := rfl
@[simp] theorem modFuse_mem (f : FuseSt → FuseSt) : (s.modFuse f).mem = s.mem := rfl
@[simp] theorem modFuse_counters (f : FuseSt → FuseSt) : (s.modFuse f).counters = s.counters := rfl
@[simp] theorem modFuse_fault (f : FuseSt → FuseSt) : (s.modFuse f).fault = s.fault := rfl
@[simp] theorem modFuse_store (f : FuseSt → FuseSt) : (s.modFuse f).store = s.store := rfl
@[simp] theorem modFuse_tier (f : FuseSt → FuseSt) : (s.modFuse f).tier = s.tier := rfl
@[simp] theorem modFuse_pwr (f : FuseSt → FuseSt) : (s.modFuse f).pwr = s.pwr := rfl
@[simp] theorem modFuse_clk (f : FuseSt → FuseSt) : (s.modFuse f).clk = s.clk := rfl
@[simp] theorem modFuse_start (f : FuseSt → FuseSt) : (s.modFuse f).start = s.start := rfl
@[simp] theorem modFuse_cox (f : FuseSt → FuseSt) : (s.modFuse f).cox = s.cox := rfl
@[simp] theorem modFuse_tiles (f : FuseSt → FuseSt) : (s.modFuse f).tiles = s.tiles := rfl
@[simp] theorem modFuse_ctxs (f : FuseSt → FuseSt) : (s.modFuse f).ctxs = s.ctxs := rfl
@[simp] theorem modFuse_boat (f : FuseSt → FuseSt) : (s.modFuse f).boat = s.boat := rfl
@[simp] theorem modFuse_sched (f : FuseSt → FuseSt) : (s.modFuse f).sched = s.sched := rfl
@[simp] theorem modFuse_sweep (f : FuseSt → FuseSt) : (s.modFuse f).sweep = s.sweep := rfl
@[simp] theorem modFuse_xf (f : FuseSt → FuseSt) : (s.modFuse f).xf = s.xf := rfl
@[simp] theorem modFuse_plan (f : FuseSt → FuseSt) : (s.modFuse f).plan = s.plan := rfl
@[simp] theorem modFuse_stroke (f : FuseSt → FuseSt) : (s.modFuse f).stroke = s.stroke := rfl
@[simp] theorem modFuse_net (f : FuseSt → FuseSt) : (s.modFuse f).net = s.net := rfl
@[simp] theorem modFuse_safe (f : FuseSt → FuseSt) : (s.modFuse f).safe = s.safe := rfl
@[simp] theorem modFuse_cap (f : FuseSt → FuseSt) : (s.modFuse f).cap = s.cap := rfl
@[simp] theorem modFuse_free (f : FuseSt → FuseSt) : (s.modFuse f).free = s.free := rfl
@[simp] theorem modFuse_pending (f : FuseSt → FuseSt) : (s.modFuse f).pending = s.pending := rfl

@[simp] theorem modStream_fuse (i : Nat) (f : Stream → Stream) : (s.modStream i f).fuse = { s.fuse with streams := vmod s.fuse.streams i f } := rfl
@[simp] theorem modStream_time (i : Nat) (f : Stream → Stream) : (s.modStream i f).time = s.time := rfl
@[simp] theorem modStream_port (i : Nat) (f : Stream → Stream) : (s.modStream i f).port = s.port := rfl
@[simp] theorem modStream_host (i : Nat) (f : Stream → Stream) : (s.modStream i f).host = s.host := rfl
@[simp] theorem modStream_mem (i : Nat) (f : Stream → Stream) : (s.modStream i f).mem = s.mem := rfl
@[simp] theorem modStream_counters (i : Nat) (f : Stream → Stream) : (s.modStream i f).counters = s.counters := rfl
@[simp] theorem modStream_fault (i : Nat) (f : Stream → Stream) : (s.modStream i f).fault = s.fault := rfl
@[simp] theorem modStream_store (i : Nat) (f : Stream → Stream) : (s.modStream i f).store = s.store := rfl
@[simp] theorem modStream_tier (i : Nat) (f : Stream → Stream) : (s.modStream i f).tier = s.tier := rfl
@[simp] theorem modStream_pwr (i : Nat) (f : Stream → Stream) : (s.modStream i f).pwr = s.pwr := rfl
@[simp] theorem modStream_clk (i : Nat) (f : Stream → Stream) : (s.modStream i f).clk = s.clk := rfl
@[simp] theorem modStream_start (i : Nat) (f : Stream → Stream) : (s.modStream i f).start = s.start := rfl
@[simp] theorem modStream_cox (i : Nat) (f : Stream → Stream) : (s.modStream i f).cox = s.cox := rfl
@[simp] theorem modStream_tiles (i : Nat) (f : Stream → Stream) : (s.modStream i f).tiles = s.tiles := rfl
@[simp] theorem modStream_ctxs (i : Nat) (f : Stream → Stream) : (s.modStream i f).ctxs = s.ctxs := rfl
@[simp] theorem modStream_boat (i : Nat) (f : Stream → Stream) : (s.modStream i f).boat = s.boat := rfl
@[simp] theorem modStream_sched (i : Nat) (f : Stream → Stream) : (s.modStream i f).sched = s.sched := rfl
@[simp] theorem modStream_sweep (i : Nat) (f : Stream → Stream) : (s.modStream i f).sweep = s.sweep := rfl
@[simp] theorem modStream_xf (i : Nat) (f : Stream → Stream) : (s.modStream i f).xf = s.xf := rfl
@[simp] theorem modStream_plan (i : Nat) (f : Stream → Stream) : (s.modStream i f).plan = s.plan := rfl
@[simp] theorem modStream_stroke (i : Nat) (f : Stream → Stream) : (s.modStream i f).stroke = s.stroke := rfl
@[simp] theorem modStream_net (i : Nat) (f : Stream → Stream) : (s.modStream i f).net = s.net := rfl
@[simp] theorem modStream_safe (i : Nat) (f : Stream → Stream) : (s.modStream i f).safe = s.safe := rfl
@[simp] theorem modStream_cap (i : Nat) (f : Stream → Stream) : (s.modStream i f).cap = s.cap := rfl
@[simp] theorem modStream_free (i : Nat) (f : Stream → Stream) : (s.modStream i f).free = s.free := rfl
@[simp] theorem modStream_pending (i : Nat) (f : Stream → Stream) : (s.modStream i f).pending = s.pending := rfl

@[simp] theorem modChain_stroke (c : Nat) (f : Chain → Chain) : (s.modChain c f).stroke = { s.stroke with chains := vmod s.stroke.chains c f } := rfl
@[simp] theorem modChain_time (c : Nat) (f : Chain → Chain) : (s.modChain c f).time = s.time := rfl
@[simp] theorem modChain_port (c : Nat) (f : Chain → Chain) : (s.modChain c f).port = s.port := rfl
@[simp] theorem modChain_host (c : Nat) (f : Chain → Chain) : (s.modChain c f).host = s.host := rfl
@[simp] theorem modChain_mem (c : Nat) (f : Chain → Chain) : (s.modChain c f).mem = s.mem := rfl
@[simp] theorem modChain_counters (c : Nat) (f : Chain → Chain) : (s.modChain c f).counters = s.counters := rfl
@[simp] theorem modChain_fault (c : Nat) (f : Chain → Chain) : (s.modChain c f).fault = s.fault := rfl
@[simp] theorem modChain_store (c : Nat) (f : Chain → Chain) : (s.modChain c f).store = s.store := rfl
@[simp] theorem modChain_tier (c : Nat) (f : Chain → Chain) : (s.modChain c f).tier = s.tier := rfl
@[simp] theorem modChain_pwr (c : Nat) (f : Chain → Chain) : (s.modChain c f).pwr = s.pwr := rfl
@[simp] theorem modChain_clk (c : Nat) (f : Chain → Chain) : (s.modChain c f).clk = s.clk := rfl
@[simp] theorem modChain_start (c : Nat) (f : Chain → Chain) : (s.modChain c f).start = s.start := rfl
@[simp] theorem modChain_cox (c : Nat) (f : Chain → Chain) : (s.modChain c f).cox = s.cox := rfl
@[simp] theorem modChain_tiles (c : Nat) (f : Chain → Chain) : (s.modChain c f).tiles = s.tiles := rfl
@[simp] theorem modChain_ctxs (c : Nat) (f : Chain → Chain) : (s.modChain c f).ctxs = s.ctxs := rfl
@[simp] theorem modChain_boat (c : Nat) (f : Chain → Chain) : (s.modChain c f).boat = s.boat := rfl
@[simp] theorem modChain_sched (c : Nat) (f : Chain → Chain) : (s.modChain c f).sched = s.sched := rfl
@[simp] theorem modChain_sweep (c : Nat) (f : Chain → Chain) : (s.modChain c f).sweep = s.sweep := rfl
@[simp] theorem modChain_xf (c : Nat) (f : Chain → Chain) : (s.modChain c f).xf = s.xf := rfl
@[simp] theorem modChain_plan (c : Nat) (f : Chain → Chain) : (s.modChain c f).plan = s.plan := rfl
@[simp] theorem modChain_fuse (c : Nat) (f : Chain → Chain) : (s.modChain c f).fuse = s.fuse := rfl
@[simp] theorem modChain_net (c : Nat) (f : Chain → Chain) : (s.modChain c f).net = s.net := rfl
@[simp] theorem modChain_safe (c : Nat) (f : Chain → Chain) : (s.modChain c f).safe = s.safe := rfl
@[simp] theorem modChain_cap (c : Nat) (f : Chain → Chain) : (s.modChain c f).cap = s.cap := rfl
@[simp] theorem modChain_free (c : Nat) (f : Chain → Chain) : (s.modChain c f).free = s.free := rfl
@[simp] theorem modChain_pending (c : Nat) (f : Chain → Chain) : (s.modChain c f).pending = s.pending := rfl

@[simp] theorem modLoop_stroke (l : Nat) (f : Loop → Loop) : (s.modLoop l f).stroke = { s.stroke with loops := vmod s.stroke.loops l f } := rfl
@[simp] theorem modLoop_time (l : Nat) (f : Loop → Loop) : (s.modLoop l f).time = s.time := rfl
@[simp] theorem modLoop_port (l : Nat) (f : Loop → Loop) : (s.modLoop l f).port = s.port := rfl
@[simp] theorem modLoop_host (l : Nat) (f : Loop → Loop) : (s.modLoop l f).host = s.host := rfl
@[simp] theorem modLoop_mem (l : Nat) (f : Loop → Loop) : (s.modLoop l f).mem = s.mem := rfl
@[simp] theorem modLoop_counters (l : Nat) (f : Loop → Loop) : (s.modLoop l f).counters = s.counters := rfl
@[simp] theorem modLoop_fault (l : Nat) (f : Loop → Loop) : (s.modLoop l f).fault = s.fault := rfl
@[simp] theorem modLoop_store (l : Nat) (f : Loop → Loop) : (s.modLoop l f).store = s.store := rfl
@[simp] theorem modLoop_tier (l : Nat) (f : Loop → Loop) : (s.modLoop l f).tier = s.tier := rfl
@[simp] theorem modLoop_pwr (l : Nat) (f : Loop → Loop) : (s.modLoop l f).pwr = s.pwr := rfl
@[simp] theorem modLoop_clk (l : Nat) (f : Loop → Loop) : (s.modLoop l f).clk = s.clk := rfl
@[simp] theorem modLoop_start (l : Nat) (f : Loop → Loop) : (s.modLoop l f).start = s.start := rfl
@[simp] theorem modLoop_cox (l : Nat) (f : Loop → Loop) : (s.modLoop l f).cox = s.cox := rfl
@[simp] theorem modLoop_tiles (l : Nat) (f : Loop → Loop) : (s.modLoop l f).tiles = s.tiles := rfl
@[simp] theorem modLoop_ctxs (l : Nat) (f : Loop → Loop) : (s.modLoop l f).ctxs = s.ctxs := rfl
@[simp] theorem modLoop_boat (l : Nat) (f : Loop → Loop) : (s.modLoop l f).boat = s.boat := rfl
@[simp] theorem modLoop_sched (l : Nat) (f : Loop → Loop) : (s.modLoop l f).sched = s.sched := rfl
@[simp] theorem modLoop_sweep (l : Nat) (f : Loop → Loop) : (s.modLoop l f).sweep = s.sweep := rfl
@[simp] theorem modLoop_xf (l : Nat) (f : Loop → Loop) : (s.modLoop l f).xf = s.xf := rfl
@[simp] theorem modLoop_plan (l : Nat) (f : Loop → Loop) : (s.modLoop l f).plan = s.plan := rfl
@[simp] theorem modLoop_fuse (l : Nat) (f : Loop → Loop) : (s.modLoop l f).fuse = s.fuse := rfl
@[simp] theorem modLoop_net (l : Nat) (f : Loop → Loop) : (s.modLoop l f).net = s.net := rfl
@[simp] theorem modLoop_safe (l : Nat) (f : Loop → Loop) : (s.modLoop l f).safe = s.safe := rfl
@[simp] theorem modLoop_cap (l : Nat) (f : Loop → Loop) : (s.modLoop l f).cap = s.cap := rfl
@[simp] theorem modLoop_free (l : Nat) (f : Loop → Loop) : (s.modLoop l f).free = s.free := rfl
@[simp] theorem modLoop_pending (l : Nat) (f : Loop → Loop) : (s.modLoop l f).pending = s.pending := rfl

@[simp] theorem modNet_net (f : NetSt → NetSt) : (s.modNet f).net = f s.net := rfl
@[simp] theorem modNet_time (f : NetSt → NetSt) : (s.modNet f).time = s.time := rfl
@[simp] theorem modNet_port (f : NetSt → NetSt) : (s.modNet f).port = s.port := rfl
@[simp] theorem modNet_host (f : NetSt → NetSt) : (s.modNet f).host = s.host := rfl
@[simp] theorem modNet_mem (f : NetSt → NetSt) : (s.modNet f).mem = s.mem := rfl
@[simp] theorem modNet_counters (f : NetSt → NetSt) : (s.modNet f).counters = s.counters := rfl
@[simp] theorem modNet_fault (f : NetSt → NetSt) : (s.modNet f).fault = s.fault := rfl
@[simp] theorem modNet_store (f : NetSt → NetSt) : (s.modNet f).store = s.store := rfl
@[simp] theorem modNet_tier (f : NetSt → NetSt) : (s.modNet f).tier = s.tier := rfl
@[simp] theorem modNet_pwr (f : NetSt → NetSt) : (s.modNet f).pwr = s.pwr := rfl
@[simp] theorem modNet_clk (f : NetSt → NetSt) : (s.modNet f).clk = s.clk := rfl
@[simp] theorem modNet_start (f : NetSt → NetSt) : (s.modNet f).start = s.start := rfl
@[simp] theorem modNet_cox (f : NetSt → NetSt) : (s.modNet f).cox = s.cox := rfl
@[simp] theorem modNet_tiles (f : NetSt → NetSt) : (s.modNet f).tiles = s.tiles := rfl
@[simp] theorem modNet_ctxs (f : NetSt → NetSt) : (s.modNet f).ctxs = s.ctxs := rfl
@[simp] theorem modNet_boat (f : NetSt → NetSt) : (s.modNet f).boat = s.boat := rfl
@[simp] theorem modNet_sched (f : NetSt → NetSt) : (s.modNet f).sched = s.sched := rfl
@[simp] theorem modNet_sweep (f : NetSt → NetSt) : (s.modNet f).sweep = s.sweep := rfl
@[simp] theorem modNet_xf (f : NetSt → NetSt) : (s.modNet f).xf = s.xf := rfl
@[simp] theorem modNet_plan (f : NetSt → NetSt) : (s.modNet f).plan = s.plan := rfl
@[simp] theorem modNet_fuse (f : NetSt → NetSt) : (s.modNet f).fuse = s.fuse := rfl
@[simp] theorem modNet_stroke (f : NetSt → NetSt) : (s.modNet f).stroke = s.stroke := rfl
@[simp] theorem modNet_safe (f : NetSt → NetSt) : (s.modNet f).safe = s.safe := rfl
@[simp] theorem modNet_cap (f : NetSt → NetSt) : (s.modNet f).cap = s.cap := rfl
@[simp] theorem modNet_free (f : NetSt → NetSt) : (s.modNet f).free = s.free := rfl
@[simp] theorem modNet_pending (f : NetSt → NetSt) : (s.modNet f).pending = s.pending := rfl

@[simp] theorem modPort_net (p : Nat) (f : NetPort → NetPort) : (s.modPort p f).net = { s.net with ports := vmod s.net.ports p f } := rfl
@[simp] theorem modPort_time (p : Nat) (f : NetPort → NetPort) : (s.modPort p f).time = s.time := rfl
@[simp] theorem modPort_port (p : Nat) (f : NetPort → NetPort) : (s.modPort p f).port = s.port := rfl
@[simp] theorem modPort_host (p : Nat) (f : NetPort → NetPort) : (s.modPort p f).host = s.host := rfl
@[simp] theorem modPort_mem (p : Nat) (f : NetPort → NetPort) : (s.modPort p f).mem = s.mem := rfl
@[simp] theorem modPort_counters (p : Nat) (f : NetPort → NetPort) : (s.modPort p f).counters = s.counters := rfl
@[simp] theorem modPort_fault (p : Nat) (f : NetPort → NetPort) : (s.modPort p f).fault = s.fault := rfl
@[simp] theorem modPort_store (p : Nat) (f : NetPort → NetPort) : (s.modPort p f).store = s.store := rfl
@[simp] theorem modPort_tier (p : Nat) (f : NetPort → NetPort) : (s.modPort p f).tier = s.tier := rfl
@[simp] theorem modPort_pwr (p : Nat) (f : NetPort → NetPort) : (s.modPort p f).pwr = s.pwr := rfl
@[simp] theorem modPort_clk (p : Nat) (f : NetPort → NetPort) : (s.modPort p f).clk = s.clk := rfl
@[simp] theorem modPort_start (p : Nat) (f : NetPort → NetPort) : (s.modPort p f).start = s.start := rfl
@[simp] theorem modPort_cox (p : Nat) (f : NetPort → NetPort) : (s.modPort p f).cox = s.cox := rfl
@[simp] theorem modPort_tiles (p : Nat) (f : NetPort → NetPort) : (s.modPort p f).tiles = s.tiles := rfl
@[simp] theorem modPort_ctxs (p : Nat) (f : NetPort → NetPort) : (s.modPort p f).ctxs = s.ctxs := rfl
@[simp] theorem modPort_boat (p : Nat) (f : NetPort → NetPort) : (s.modPort p f).boat = s.boat := rfl
@[simp] theorem modPort_sched (p : Nat) (f : NetPort → NetPort) : (s.modPort p f).sched = s.sched := rfl
@[simp] theorem modPort_sweep (p : Nat) (f : NetPort → NetPort) : (s.modPort p f).sweep = s.sweep := rfl
@[simp] theorem modPort_xf (p : Nat) (f : NetPort → NetPort) : (s.modPort p f).xf = s.xf := rfl
@[simp] theorem modPort_plan (p : Nat) (f : NetPort → NetPort) : (s.modPort p f).plan = s.plan := rfl
@[simp] theorem modPort_fuse (p : Nat) (f : NetPort → NetPort) : (s.modPort p f).fuse = s.fuse := rfl
@[simp] theorem modPort_stroke (p : Nat) (f : NetPort → NetPort) : (s.modPort p f).stroke = s.stroke := rfl
@[simp] theorem modPort_safe (p : Nat) (f : NetPort → NetPort) : (s.modPort p f).safe = s.safe := rfl
@[simp] theorem modPort_cap (p : Nat) (f : NetPort → NetPort) : (s.modPort p f).cap = s.cap := rfl
@[simp] theorem modPort_free (p : Nat) (f : NetPort → NetPort) : (s.modPort p f).free = s.free := rfl
@[simp] theorem modPort_pending (p : Nat) (f : NetPort → NetPort) : (s.modPort p f).pending = s.pending := rfl

@[simp] theorem modUmpire_safe (u : Nat) (f : Umpire → Umpire) : (s.modUmpire u f).safe = { s.safe with umpires := vmod s.safe.umpires u f } := rfl
@[simp] theorem modUmpire_time (u : Nat) (f : Umpire → Umpire) : (s.modUmpire u f).time = s.time := rfl
@[simp] theorem modUmpire_port (u : Nat) (f : Umpire → Umpire) : (s.modUmpire u f).port = s.port := rfl
@[simp] theorem modUmpire_host (u : Nat) (f : Umpire → Umpire) : (s.modUmpire u f).host = s.host := rfl
@[simp] theorem modUmpire_mem (u : Nat) (f : Umpire → Umpire) : (s.modUmpire u f).mem = s.mem := rfl
@[simp] theorem modUmpire_counters (u : Nat) (f : Umpire → Umpire) : (s.modUmpire u f).counters = s.counters := rfl
@[simp] theorem modUmpire_fault (u : Nat) (f : Umpire → Umpire) : (s.modUmpire u f).fault = s.fault := rfl
@[simp] theorem modUmpire_store (u : Nat) (f : Umpire → Umpire) : (s.modUmpire u f).store = s.store := rfl
@[simp] theorem modUmpire_tier (u : Nat) (f : Umpire → Umpire) : (s.modUmpire u f).tier = s.tier := rfl
@[simp] theorem modUmpire_pwr (u : Nat) (f : Umpire → Umpire) : (s.modUmpire u f).pwr = s.pwr := rfl
@[simp] theorem modUmpire_clk (u : Nat) (f : Umpire → Umpire) : (s.modUmpire u f).clk = s.clk := rfl
@[simp] theorem modUmpire_start (u : Nat) (f : Umpire → Umpire) : (s.modUmpire u f).start = s.start := rfl
@[simp] theorem modUmpire_cox (u : Nat) (f : Umpire → Umpire) : (s.modUmpire u f).cox = s.cox := rfl
@[simp] theorem modUmpire_tiles (u : Nat) (f : Umpire → Umpire) : (s.modUmpire u f).tiles = s.tiles := rfl
@[simp] theorem modUmpire_ctxs (u : Nat) (f : Umpire → Umpire) : (s.modUmpire u f).ctxs = s.ctxs := rfl
@[simp] theorem modUmpire_boat (u : Nat) (f : Umpire → Umpire) : (s.modUmpire u f).boat = s.boat := rfl
@[simp] theorem modUmpire_sched (u : Nat) (f : Umpire → Umpire) : (s.modUmpire u f).sched = s.sched := rfl
@[simp] theorem modUmpire_sweep (u : Nat) (f : Umpire → Umpire) : (s.modUmpire u f).sweep = s.sweep := rfl
@[simp] theorem modUmpire_xf (u : Nat) (f : Umpire → Umpire) : (s.modUmpire u f).xf = s.xf := rfl
@[simp] theorem modUmpire_plan (u : Nat) (f : Umpire → Umpire) : (s.modUmpire u f).plan = s.plan := rfl
@[simp] theorem modUmpire_fuse (u : Nat) (f : Umpire → Umpire) : (s.modUmpire u f).fuse = s.fuse := rfl
@[simp] theorem modUmpire_stroke (u : Nat) (f : Umpire → Umpire) : (s.modUmpire u f).stroke = s.stroke := rfl
@[simp] theorem modUmpire_net (u : Nat) (f : Umpire → Umpire) : (s.modUmpire u f).net = s.net := rfl
@[simp] theorem modUmpire_cap (u : Nat) (f : Umpire → Umpire) : (s.modUmpire u f).cap = s.cap := rfl
@[simp] theorem modUmpire_free (u : Nat) (f : Umpire → Umpire) : (s.modUmpire u f).free = s.free := rfl
@[simp] theorem modUmpire_pending (u : Nat) (f : Umpire → Umpire) : (s.modUmpire u f).pending = s.pending := rfl

@[simp] theorem modCap_cap (f : CapSt → CapSt) : (s.modCap f).cap = f s.cap := rfl
@[simp] theorem modCap_time (f : CapSt → CapSt) : (s.modCap f).time = s.time := rfl
@[simp] theorem modCap_port (f : CapSt → CapSt) : (s.modCap f).port = s.port := rfl
@[simp] theorem modCap_host (f : CapSt → CapSt) : (s.modCap f).host = s.host := rfl
@[simp] theorem modCap_mem (f : CapSt → CapSt) : (s.modCap f).mem = s.mem := rfl
@[simp] theorem modCap_counters (f : CapSt → CapSt) : (s.modCap f).counters = s.counters := rfl
@[simp] theorem modCap_fault (f : CapSt → CapSt) : (s.modCap f).fault = s.fault := rfl
@[simp] theorem modCap_store (f : CapSt → CapSt) : (s.modCap f).store = s.store := rfl
@[simp] theorem modCap_tier (f : CapSt → CapSt) : (s.modCap f).tier = s.tier := rfl
@[simp] theorem modCap_pwr (f : CapSt → CapSt) : (s.modCap f).pwr = s.pwr := rfl
@[simp] theorem modCap_clk (f : CapSt → CapSt) : (s.modCap f).clk = s.clk := rfl
@[simp] theorem modCap_start (f : CapSt → CapSt) : (s.modCap f).start = s.start := rfl
@[simp] theorem modCap_cox (f : CapSt → CapSt) : (s.modCap f).cox = s.cox := rfl
@[simp] theorem modCap_tiles (f : CapSt → CapSt) : (s.modCap f).tiles = s.tiles := rfl
@[simp] theorem modCap_ctxs (f : CapSt → CapSt) : (s.modCap f).ctxs = s.ctxs := rfl
@[simp] theorem modCap_boat (f : CapSt → CapSt) : (s.modCap f).boat = s.boat := rfl
@[simp] theorem modCap_sched (f : CapSt → CapSt) : (s.modCap f).sched = s.sched := rfl
@[simp] theorem modCap_sweep (f : CapSt → CapSt) : (s.modCap f).sweep = s.sweep := rfl
@[simp] theorem modCap_xf (f : CapSt → CapSt) : (s.modCap f).xf = s.xf := rfl
@[simp] theorem modCap_plan (f : CapSt → CapSt) : (s.modCap f).plan = s.plan := rfl
@[simp] theorem modCap_fuse (f : CapSt → CapSt) : (s.modCap f).fuse = s.fuse := rfl
@[simp] theorem modCap_stroke (f : CapSt → CapSt) : (s.modCap f).stroke = s.stroke := rfl
@[simp] theorem modCap_net (f : CapSt → CapSt) : (s.modCap f).net = s.net := rfl
@[simp] theorem modCap_safe (f : CapSt → CapSt) : (s.modCap f).safe = s.safe := rfl
@[simp] theorem modCap_free (f : CapSt → CapSt) : (s.modCap f).free = s.free := rfl
@[simp] theorem modCap_pending (f : CapSt → CapSt) : (s.modCap f).pending = s.pending := rfl

@[simp] theorem setDom_pwr (d : Nat) (b : Bool) : (s.setDom d b).pwr = { s.pwr with on := vset s.pwr.on d b } := rfl
@[simp] theorem setDom_store (d : Nat) (b : Bool) :
    (s.setDom d b).store = (if b || decide (64 ≤ d) then s.store
      else { s.store with t0Members := vset (vset s.store.t0Members (2 * d) false) (2 * d + 1) false }) := rfl
@[simp] theorem setDom_time (d : Nat) (b : Bool) : (s.setDom d b).time = s.time := rfl
@[simp] theorem setDom_port (d : Nat) (b : Bool) : (s.setDom d b).port = s.port := rfl
@[simp] theorem setDom_host (d : Nat) (b : Bool) : (s.setDom d b).host = s.host := rfl
@[simp] theorem setDom_mem (d : Nat) (b : Bool) : (s.setDom d b).mem = s.mem := rfl
@[simp] theorem setDom_counters (d : Nat) (b : Bool) : (s.setDom d b).counters = s.counters := rfl
@[simp] theorem setDom_fault (d : Nat) (b : Bool) : (s.setDom d b).fault = s.fault := rfl
@[simp] theorem setDom_tier (d : Nat) (b : Bool) : (s.setDom d b).tier = s.tier := rfl
@[simp] theorem setDom_clk (d : Nat) (b : Bool) : (s.setDom d b).clk = s.clk := rfl
@[simp] theorem setDom_start (d : Nat) (b : Bool) : (s.setDom d b).start = s.start := rfl
@[simp] theorem setDom_cox (d : Nat) (b : Bool) : (s.setDom d b).cox = s.cox := rfl
@[simp] theorem setDom_tiles (d : Nat) (b : Bool) : (s.setDom d b).tiles = s.tiles := rfl
@[simp] theorem setDom_ctxs (d : Nat) (b : Bool) : (s.setDom d b).ctxs = s.ctxs := rfl
@[simp] theorem setDom_boat (d : Nat) (b : Bool) : (s.setDom d b).boat = s.boat := rfl
@[simp] theorem setDom_sched (d : Nat) (b : Bool) : (s.setDom d b).sched = s.sched := rfl
@[simp] theorem setDom_sweep (d : Nat) (b : Bool) : (s.setDom d b).sweep = s.sweep := rfl
@[simp] theorem setDom_xf (d : Nat) (b : Bool) : (s.setDom d b).xf = s.xf := rfl
@[simp] theorem setDom_plan (d : Nat) (b : Bool) : (s.setDom d b).plan = s.plan := rfl
@[simp] theorem setDom_fuse (d : Nat) (b : Bool) : (s.setDom d b).fuse = s.fuse := rfl
@[simp] theorem setDom_stroke (d : Nat) (b : Bool) : (s.setDom d b).stroke = s.stroke := rfl
@[simp] theorem setDom_net (d : Nat) (b : Bool) : (s.setDom d b).net = s.net := rfl
@[simp] theorem setDom_safe (d : Nat) (b : Bool) : (s.setDom d b).safe = s.safe := rfl
@[simp] theorem setDom_cap (d : Nat) (b : Bool) : (s.setDom d b).cap = s.cap := rfl
@[simp] theorem setDom_free (d : Nat) (b : Bool) : (s.setDom d b).free = s.free := rfl
@[simp] theorem setDom_pending (d : Nat) (b : Bool) : (s.setDom d b).pending = s.pending := rfl

@[simp] theorem draw_fst : s.draw.1 = Config.freeValue s.free := rfl
@[simp] theorem draw_free : s.draw.2.free = s.free + 1 := rfl
@[simp] theorem draw_time : s.draw.2.time = s.time := rfl
@[simp] theorem draw_port : s.draw.2.port = s.port := rfl
@[simp] theorem draw_host : s.draw.2.host = s.host := rfl
@[simp] theorem draw_mem : s.draw.2.mem = s.mem := rfl
@[simp] theorem draw_counters : s.draw.2.counters = s.counters := rfl
@[simp] theorem draw_fault : s.draw.2.fault = s.fault := rfl
@[simp] theorem draw_store : s.draw.2.store = s.store := rfl
@[simp] theorem draw_tier : s.draw.2.tier = s.tier := rfl
@[simp] theorem draw_pwr : s.draw.2.pwr = s.pwr := rfl
@[simp] theorem draw_clk : s.draw.2.clk = s.clk := rfl
@[simp] theorem draw_start : s.draw.2.start = s.start := rfl
@[simp] theorem draw_cox : s.draw.2.cox = s.cox := rfl
@[simp] theorem draw_tiles : s.draw.2.tiles = s.tiles := rfl
@[simp] theorem draw_ctxs : s.draw.2.ctxs = s.ctxs := rfl
@[simp] theorem draw_boat : s.draw.2.boat = s.boat := rfl
@[simp] theorem draw_sched : s.draw.2.sched = s.sched := rfl
@[simp] theorem draw_sweep : s.draw.2.sweep = s.sweep := rfl
@[simp] theorem draw_xf : s.draw.2.xf = s.xf := rfl
@[simp] theorem draw_plan : s.draw.2.plan = s.plan := rfl
@[simp] theorem draw_fuse : s.draw.2.fuse = s.fuse := rfl
@[simp] theorem draw_stroke : s.draw.2.stroke = s.stroke := rfl
@[simp] theorem draw_net : s.draw.2.net = s.net := rfl
@[simp] theorem draw_safe : s.draw.2.safe = s.safe := rfl
@[simp] theorem draw_cap : s.draw.2.cap = s.cap := rfl
@[simp] theorem draw_pending : s.draw.2.pending = s.pending := rfl

@[simp] theorem modUnit_time (ty n : Nat) (f : UnitRec → UnitRec) : (s.modUnit ty n f).time = s.time := by
  unfold State.modUnit; split <;> rfl
@[simp] theorem modUnit_port (ty n : Nat) (f : UnitRec → UnitRec) : (s.modUnit ty n f).port = s.port := by
  unfold State.modUnit; split <;> rfl
@[simp] theorem modUnit_host (ty n : Nat) (f : UnitRec → UnitRec) : (s.modUnit ty n f).host = s.host := by
  unfold State.modUnit; split <;> rfl
@[simp] theorem modUnit_mem (ty n : Nat) (f : UnitRec → UnitRec) : (s.modUnit ty n f).mem = s.mem := by
  unfold State.modUnit; split <;> rfl
@[simp] theorem modUnit_counters (ty n : Nat) (f : UnitRec → UnitRec) : (s.modUnit ty n f).counters = s.counters := by
  unfold State.modUnit; split <;> rfl
@[simp] theorem modUnit_store (ty n : Nat) (f : UnitRec → UnitRec) : (s.modUnit ty n f).store = s.store := by
  unfold State.modUnit; split <;> rfl
@[simp] theorem modUnit_tier (ty n : Nat) (f : UnitRec → UnitRec) : (s.modUnit ty n f).tier = s.tier := by
  unfold State.modUnit; split <;> rfl
@[simp] theorem modUnit_pwr (ty n : Nat) (f : UnitRec → UnitRec) : (s.modUnit ty n f).pwr = s.pwr := by
  unfold State.modUnit; split <;> rfl
@[simp] theorem modUnit_clk (ty n : Nat) (f : UnitRec → UnitRec) : (s.modUnit ty n f).clk = s.clk := by
  unfold State.modUnit; split <;> rfl
@[simp] theorem modUnit_start (ty n : Nat) (f : UnitRec → UnitRec) : (s.modUnit ty n f).start = s.start := by
  unfold State.modUnit; split <;> rfl
@[simp] theorem modUnit_cox (ty n : Nat) (f : UnitRec → UnitRec) : (s.modUnit ty n f).cox = s.cox := by
  unfold State.modUnit; split <;> rfl
@[simp] theorem modUnit_tiles (ty n : Nat) (f : UnitRec → UnitRec) : (s.modUnit ty n f).tiles = s.tiles := by
  unfold State.modUnit; split <;> rfl
@[simp] theorem modUnit_ctxs (ty n : Nat) (f : UnitRec → UnitRec) : (s.modUnit ty n f).ctxs = s.ctxs := by
  unfold State.modUnit; split <;> rfl
@[simp] theorem modUnit_boat (ty n : Nat) (f : UnitRec → UnitRec) : (s.modUnit ty n f).boat = s.boat := by
  unfold State.modUnit; split <;> rfl
@[simp] theorem modUnit_sched (ty n : Nat) (f : UnitRec → UnitRec) : (s.modUnit ty n f).sched = s.sched := by
  unfold State.modUnit; split <;> rfl
@[simp] theorem modUnit_sweep (ty n : Nat) (f : UnitRec → UnitRec) : (s.modUnit ty n f).sweep = s.sweep := by
  unfold State.modUnit; split <;> rfl
@[simp] theorem modUnit_xf (ty n : Nat) (f : UnitRec → UnitRec) : (s.modUnit ty n f).xf = s.xf := by
  unfold State.modUnit; split <;> rfl
@[simp] theorem modUnit_plan (ty n : Nat) (f : UnitRec → UnitRec) : (s.modUnit ty n f).plan = s.plan := by
  unfold State.modUnit; split <;> rfl
@[simp] theorem modUnit_fuse (ty n : Nat) (f : UnitRec → UnitRec) : (s.modUnit ty n f).fuse = s.fuse := by
  unfold State.modUnit; split <;> rfl
@[simp] theorem modUnit_stroke (ty n : Nat) (f : UnitRec → UnitRec) : (s.modUnit ty n f).stroke = s.stroke := by
  unfold State.modUnit; split <;> rfl
@[simp] theorem modUnit_net (ty n : Nat) (f : UnitRec → UnitRec) : (s.modUnit ty n f).net = s.net := by
  unfold State.modUnit; split <;> rfl
@[simp] theorem modUnit_safe (ty n : Nat) (f : UnitRec → UnitRec) : (s.modUnit ty n f).safe = s.safe := by
  unfold State.modUnit; split <;> rfl
@[simp] theorem modUnit_cap (ty n : Nat) (f : UnitRec → UnitRec) : (s.modUnit ty n f).cap = s.cap := by
  unfold State.modUnit; split <;> rfl
@[simp] theorem modUnit_free (ty n : Nat) (f : UnitRec → UnitRec) : (s.modUnit ty n f).free = s.free := by
  unfold State.modUnit; split <;> rfl
@[simp] theorem modUnit_pending (ty n : Nat) (f : UnitRec → UnitRec) : (s.modUnit ty n f).pending = s.pending := by
  unfold State.modUnit; split <;> rfl

end

/-! ### Entries after an update -/

/-- A queue's entry after one queue changes. -/
theorem queue_modQueue (s : State) (p q : Nat) (f : Queue → Queue) :
    (s.modQueue q f).queue p = if p = q ∧ q < 128 then f (s.queue p) else s.queue p := vget_vmod _ _ _ _ _

/-- A command after one command changes. -/
theorem cmd_modCmd (s : State) (p j q k : Nat) (f : Cmd → Cmd) :
    (s.modCmd q k f).cmd p j = if p = q ∧ j = k ∧ q < 128 then (s.cmd p j).map f else s.cmd p j := by
  unfold State.cmd State.modCmd
  rw [queue_modQueue]
  by_cases h : p = q ∧ q < 128
  · simp only [h, and_self, if_true, true_and, getElem?_lmod]
    by_cases hj : j = k <;> simp [hj]
  · rw [if_neg h, if_neg (fun x => h ⟨x.1, x.2.2⟩)]

/-- A tile after one tile changes. -/
theorem tile_modTile (s : State) (t u : Nat) (f : Tile → Tile) :
    (s.modTile t f).tile u = if u = t ∧ t < 128 then f (s.tile u) else s.tile u := vget_vmod _ _ _ _ _

/-- A thread of a tile after one thread changes. -/
theorem thread_modThread (x : Tile) (th h : Nat) (f : Thread → Thread) :
    (x.modThread th f).thread h = if h = th ∧ th < 128 then f (x.thread h) else x.thread h := vget_vmod _ _ _ _ _

/-- A port channel after one port channel changes. -/
theorem chan_modChan (s : State) (c ch : Nat) (f : PortChan → PortChan) :
    (s.modChan ch f).chan c = if c = ch ∧ ch < 2 then f (s.chan c) else s.chan c := vget_vmod _ _ _ _ _

/-- A control loop after one loop changes. -/
theorem loop_modLoop (s : State) (l m : Nat) (f : Loop → Loop) :
    (s.modLoop l f).loop m = if m = l ∧ l < 128 then f (s.loop m) else s.loop m := vget_vmod _ _ _ _ _

/-- A context after one context changes. -/
theorem ctx_modCtx (s : State) (i id : Nat) (f : Ctx → Ctx) :
    alookup (s.modCtx id f).ctxs i = if i = id then (alookup s.ctxs i).map f else alookup s.ctxs i := by
  simp only [modCtx_ctxs]
  induction s.ctxs with
  | nil => simp [alookup]
  | cons p t ih =>
    obtain ⟨k, v⟩ := p
    have e : (if k = id then ((k, f v) : Nat × Ctx) else (k, v)) = (k, if k = id then f v else v) := by split <;> rfl
    simp only [List.map_cons, e, alookup, ih]
    by_cases h1 : i = k
    · subst h1; by_cases h2 : i = id <;> simp [h2]
    · by_cases h2 : i < k <;> simp [h1, h2]

end Sys2Proof.Laws
end

