-- ==== Sys2Proof/Laws/Shape.lean ====
section
/-! SUPPORT. What the shared operations can touch: each answers its state with a few parts changed and all the others kept. -/

namespace Sys2Proof.Laws

open Sys2Proof.Machine

variable (s : State)

/-- A record written to an event ring touches the port and memory. -/
theorem writeRing_shape (ch : Nat) (r : List Byte) : ∃ p m, s.writeRing ch r = { s with port := p, mem := m } := by
  unfold State.writeRing
  by_cases h : (s.chan ch).evUnread = 32767
  · simp only [h, if_true]; exact ⟨_, _, rfl⟩
  · simp only [h, if_false]; exact ⟨_, _, rfl⟩

/-- An event touches the port, the host's side and memory. -/
theorem raise_shape (code source unit detail : Nat) :
    ∃ p h m, s.raise code source unit detail = { s with port := p, host := h, mem := m } := by
  have ring : ∀ (u : State) (b : Bool) ch r, ∃ p m, (if b then u.writeRing ch r else u) = { u with port := p, mem := m } := by
    intro u b ch r
    cases b
    · exact ⟨u.port, u.mem, rfl⟩
    · exact writeRing_shape u ch r
  unfold State.raise
  split
  · obtain ⟨p, m, h1⟩ := ring { s with host := { s.host with number := (s.host.number + 1) % 2 ^ 32 } }
      (State.eventsOn { s with host := { s.host with number := (s.host.number + 1) % 2 ^ 32 } } 0) 0
      (eventRecord code s.host.number s.elapsed source unit detail)
    dsimp only
    rw [h1]
    obtain ⟨p', m', h2⟩ := ring { s with host := { s.host with number := (s.host.number + 1) % 2 ^ 32 }, port := p, mem := m }
      (State.eventsOn { s with host := { s.host with number := (s.host.number + 1) % 2 ^ 32 }, port := p, mem := m } 1) 1
      (eventRecord code s.host.number s.elapsed source unit detail)
    exact ⟨p', _, m', h2⟩
  · exact ⟨s.port, s.host, s.mem, rfl⟩

/-- A counter's step touches the counters and what an event touches. -/
theorem bump_shape (id n : Nat) : ∃ p h m c, s.bump id n = { s with port := p, host := h, mem := m, counters := c } := by
  unfold State.bump
  dsimp only
  split
  · exact ⟨s.port, s.host, s.mem, s.counters, rfl⟩
  · split
    · obtain ⟨p, h, m, e⟩ := raise_shape (s.setCounter id ⟨0xFFFFFFFF, true⟩) 0x0C04 90 0 id
      exact ⟨p, h, m, _, e⟩
    · exact ⟨s.port, s.host, s.mem, _, rfl⟩

/-! ### What a store can touch -/

/-- A state that differs from another at most in the port, the host's side, memory, the counters, the records of the stores and the
tiers' wear: what a store can touch, with the counters and the events of the errors it corrects. -/
def Stored (s t : State) : Prop :=
  ∃ p h m c st ti, t = { s with port := p, host := h, mem := m, counters := c, store := st, tier := ti }

theorem Stored.refl (s : State) : Stored s s := ⟨s.port, s.host, s.mem, s.counters, s.store, s.tier, rfl⟩

theorem Stored.trans {s t u : State} (h : Stored s t) (k : Stored t u) : Stored s u := by
  obtain ⟨_, _, _, _, _, _, rfl⟩ := h
  obtain ⟨p, h, m, c, st, ti, rfl⟩ := k
  exact ⟨p, h, m, c, st, ti, rfl⟩

theorem Stored.foldl {α : Type} {f : State → α → State} (h : ∀ s a, Stored s (f s a)) (l : List α) : ∀ s, Stored s (l.foldl f s) := by
  induction l with
  | nil => exact Stored.refl
  | cons a t ih => exact fun s => (h s a).trans (ih _)

theorem stored_bump (id n : Nat) : Stored s (s.bump id n) := by
  obtain ⟨p, h, m, c, e⟩ := bump_shape s id n
  exact ⟨p, h, m, c, s.store, s.tier, e⟩

theorem stored_modChanRec (i : Nat) (f : ChanRec → ChanRec) : Stored s (s.modChanRec i f) :=
  ⟨s.port, s.host, s.mem, s.counters, _, s.tier, rfl⟩

theorem stored_setFlaw (l : Nat) (f : List Byte) : Stored s (s.setFlaw l f) := ⟨s.port, s.host, s.mem, s.counters, _, s.tier, rfl⟩

theorem stored_steady (l : Nat) : Stored s (s.steady l) := by
  unfold State.steady
  split
  · exact ⟨s.port, s.host, s.mem, s.counters, _, s.tier, rfl⟩
  · exact Stored.refl s

theorem stored_rewrite (l : Nat) (b : List PByte) : Stored s (s.rewrite l b) :=
  Stored.trans (t := State.setFlaw { s with mem := s.mem.putLine l b } l []) ⟨s.port, s.host, _, s.counters, _, s.tier, rfl⟩
    (stored_steady _ l)

theorem stored_healPage (p : Nat) : Stored s (s.healPage p) := ⟨s.port, s.host, s.mem, s.counters, _, s.tier, rfl⟩

theorem stored_maskPage (p : Nat) : Stored s (s.maskPage p) := ⟨s.port, s.host, _, s.counters, _, s.tier, rfl⟩

theorem stored_countT1 (l n lm : Nat) : Stored s (s.countT1 l n lm) := by
  unfold State.countT1
  split
  · exact Stored.refl s
  · exact Stored.trans (t := State.modChanRec { s with store := { s.store with lineMax := max s.store.lineMax lm } } _ _)
      ⟨s.port, s.host, s.mem, s.counters, _, s.tier, rfl⟩ (stored_bump _ _ _)

theorem stored_mergeLine (l : Nat) (en : Nat → Bool) : Stored s (s.mergeLine l en) := by
  unfold State.mergeLine
  dsimp only
  split
  · exact stored_steady s l
  · split
    · exact (stored_steady s l).trans (stored_setFlaw _ _ _)
    · split
      · exact (stored_steady s l).trans (stored_setFlaw _ _ _)
      · exact ((stored_steady s l).trans (stored_rewrite _ _ _)).trans (stored_countT1 _ _ _ _)

theorem stored_mergePage (p : Nat) (w : Bool) : Stored s (s.mergePage p w) := by
  unfold State.mergePage
  dsimp only
  split
  · exact stored_steady s _
  · split
    · exact (stored_steady s _).trans (stored_healPage _ _)
    · split
      · exact ((stored_steady s _).trans (stored_healPage _ _)).trans ((stored_bump _ _ _).trans (stored_modChanRec _ _ _))
      · exact ((stored_steady s _).trans (stored_maskPage _ _)).trans ((stored_modChanRec _ _ _).trans (stored_bump _ _ _))

/-- A store's preparation touches what a store can touch. -/
theorem stored_premerge (a : Nat) (l : List (Option PByte)) : Stored s (s.premerge a l) := by
  unfold State.premerge
  split
  · exact Stored.refl s
  · dsimp only
    split
    · exact Stored.foldl (fun s i => stored_mergeLine s _ _) _ s
    · split
      · exact Stored.foldl (fun s i => stored_mergePage s _ _) _ s
      · exact Stored.refl s

/-- With no stored error in hand a store needs no preparation. -/
theorem premerge_sound (a : Nat) (l : List (Option PByte)) (h1 : s.store.flaws = []) (h2 : s.store.flaky = []) (h3 : s.store.nvsBad = []) :
    s.premerge a l = s := by
  unfold State.premerge
  simp [h1, h2, h3]

/-- Marking what is written touches the records of written blocks and pages and the tiers' wear. -/
theorem markWritten_shape (a n : Nat) : ∃ st ti, s.markWritten a n = { s with store := st, tier := ti } := by
  unfold State.markWritten
  split
  · exact ⟨s.store, s.tier, rfl⟩
  · split
    · exact ⟨_, s.tier, rfl⟩
    · split
      · exact ⟨_, _, rfl⟩
      · exact ⟨s.store, s.tier, rfl⟩

/-- A store touches what `Stored` names. -/
theorem storeMasked_shape (a : Nat) (l : List (Option PByte)) : Stored s (s.storeMasked a l) := by
  unfold State.storeMasked
  split
  · dsimp only
    generalize (List.range l.length).map (fun i => if s.isWithdrawn (a + i) then none else l.getD i none) = keep
    refine (stored_premerge s a keep).trans ?_
    generalize s.premerge a keep = u
    split
    · exact ⟨u.port, u.host, _, u.counters, u.store, u.tier, rfl⟩
    · obtain ⟨st, ti, h⟩ := markWritten_shape { u with mem := Memory.putList u.kindOf (l.length + 1) u.mem a keep } a l.length
      rw [h]
      exact ⟨u.port, u.host, _, u.counters, st, ti, rfl⟩
  · exact Stored.refl s

theorem storeBytes_shape (a : Nat) (l : List PByte) : Stored s (s.storeBytes a l) := storeMasked_shape s a _

theorem storeClean_shape (a : Nat) (l : List Byte) : Stored s (s.storeClean a l) := storeMasked_shape s a _

/-- Completing a command touches the host's side. -/
theorem finishUid_shape (uid : Nat) (cheap : Bool) (st de re : Nat) : ∃ h, s.finishUid uid cheap st de re = { s with host := h } := by
  unfold State.finishUid
  split
  · exact ⟨s.host, rfl⟩
  · split
    · exact ⟨s.host, rfl⟩
    · dsimp only
      repeat' split
      all_goals exact ⟨_, rfl⟩

/-- A reply touches the host's side and memory. -/
theorem writeReply_shape (q : Nat) (r : List Byte) : ∃ h m, s.writeReply q r = { s with host := h, mem := m } := ⟨_, _, rfl⟩

/-- The end of a tune touches the loops, the free values and what its store and its event touch. -/
theorem endTune_shape (l status : Nat) : ∃ p h m c st ti lo fr,
    s.endTune l status = { s with port := p, host := h, mem := m, counters := c, store := st, tier := ti, free := fr,
                                  stroke := { s.stroke with loops := lo } } := by
  unfold State.endTune
  split
  · exact ⟨s.port, s.host, s.mem, s.counters, s.store, s.tier, s.stroke.loops, s.free, rfl⟩
  · rename_i t _
    dsimp only
    generalize hf : (fun x : Loop => { x with
      sections := (t.saved.zip x.sections).map (fun (p : Section × Section) => { p.1 with sat := p.2.sat }), tune := none, state := LoopState.run }) = f
    split
    · obtain ⟨h, e⟩ := finishUid_shape (s.modLoop l f) t.uid false stDeadline 0 0
      rw [e]
      exact ⟨s.port, h, s.mem, s.counters, s.store, s.tier, _, s.free, rfl⟩
    · obtain ⟨p, h, m, c, st, ti, e1⟩ := storeClean_shape (s.modLoop l f) t.dest (tuneRecord s.free l t status)
      rw [e1]
      generalize hu : ({ s.modLoop l f with port := p, host := h, mem := m, counters := c, store := st, tier := ti, free := s.free + 3 } : State) = u
      obtain ⟨p2, h2, m2, e2⟩ := raise_shape u 0x0805 88 l 96
      rw [e2]
      obtain ⟨h3, e3⟩ := finishUid_shape { u with port := p2, host := h2, mem := m2 } t.uid false stDone 0 96
      rw [e3, ← hu]
      exact ⟨p2, h3, m2, c, st, ti, _, s.free + 3, rfl⟩

/-! ### The parts each keeps -/

@[simp] theorem raise_time (code source unit detail : Nat) : (s.raise code source unit detail).time = s.time := by
  obtain ⟨_, _, _, e⟩ := raise_shape s code source unit detail; rw [e]
@[simp] theorem raise_counters (code source unit detail : Nat) : (s.raise code source unit detail).counters = s.counters := by
  obtain ⟨_, _, _, e⟩ := raise_shape s code source unit detail; rw [e]
@[simp] theorem raise_fault (code source unit detail : Nat) : (s.raise code source unit detail).fault = s.fault := by
  obtain ⟨_, _, _, e⟩ := raise_shape s code source unit detail; rw [e]
@[simp] theorem raise_store (code source unit detail : Nat) : (s.raise code source unit detail).store = s.store := by
  obtain ⟨_, _, _, e⟩ := raise_shape s code source unit detail; rw [e]
@[simp] theorem raise_tier (code source unit detail : Nat) : (s.raise code source unit detail).tier = s.tier := by
  obtain ⟨_, _, _, e⟩ := raise_shape s code source unit detail; rw [e]
@[simp] theorem raise_pwr (code source unit detail : Nat) : (s.raise code source unit detail).pwr = s.pwr := by
  obtain ⟨_, _, _, e⟩ := raise_shape s code source unit detail; rw [e]
@[simp] theorem raise_clk (code source unit detail : Nat) : (s.raise code source unit detail).clk = s.clk := by
  obtain ⟨_, _, _, e⟩ := raise_shape s code source unit detail; rw [e]
@[simp] theorem raise_start (code source unit detail : Nat) : (s.raise code source unit detail).start = s.start := by
  obtain ⟨_, _, _, e⟩ := raise_shape s code source unit detail; rw [e]
@[simp] theorem raise_cox (code source unit detail : Nat) : (s.raise code source unit detail).cox = s.cox := by
  obtain ⟨_, _, _, e⟩ := raise_shape s code source unit detail; rw [e]
@[simp] theorem raise_tiles (code source unit detail : Nat) : (s.raise code source unit detail).tiles = s.tiles := by
  obtain ⟨_, _, _, e⟩ := raise_shape s code source unit detail; rw [e]
@[simp] theorem raise_ctxs (code source unit detail : Nat) : (s.raise code source unit detail).ctxs = s.ctxs := by
  obtain ⟨_, _, _, e⟩ := raise_shape s code source unit detail; rw [e]
@[simp] theorem raise_boat (code source unit detail : Nat) : (s.raise code source unit detail).boat = s.boat := by
  obtain ⟨_, _, _, e⟩ := raise_shape s code source unit detail; rw [e]
@[simp] theorem raise_sched (code source unit detail : Nat) : (s.raise code source unit detail).sched = s.sched := by
  obtain ⟨_, _, _, e⟩ := raise_shape s code source unit detail; rw [e]
@[simp] theorem raise_sweep (code source unit detail : Nat) : (s.raise code source unit detail).sweep = s.sweep := by
  obtain ⟨_, _, _, e⟩ := raise_shape s code source unit detail; rw [e]
@[simp] theorem raise_xf (code source unit detail : Nat) : (s.raise code source unit detail).xf = s.xf := by
  obtain ⟨_, _, _, e⟩ := raise_shape s code source unit detail; rw [e]
@[simp] theorem raise_plan (code source unit detail : Nat) : (s.raise code source unit detail).plan = s.plan := by
  obtain ⟨_, _, _, e⟩ := raise_shape s code source unit detail; rw [e]
@[simp] theorem raise_fuse (code source unit detail : Nat) : (s.raise code source unit detail).fuse = s.fuse := by
  obtain ⟨_, _, _, e⟩ := raise_shape s code source unit detail; rw [e]
@[simp] theorem raise_stroke (code source unit detail : Nat) : (s.raise code source unit detail).stroke = s.stroke := by
  obtain ⟨_, _, _, e⟩ := raise_shape s code source unit detail; rw [e]
@[simp] theorem raise_net (code source unit detail : Nat) : (s.raise code source unit detail).net = s.net := by
  obtain ⟨_, _, _, e⟩ := raise_shape s code source unit detail; rw [e]
@[simp] theorem raise_safe (code source unit detail : Nat) : (s.raise code source unit detail).safe = s.safe := by
  obtain ⟨_, _, _, e⟩ := raise_shape s code source unit detail; rw [e]
@[simp] theorem raise_cap (code source unit detail : Nat) : (s.raise code source unit detail).cap = s.cap := by
  obtain ⟨_, _, _, e⟩ := raise_shape s code source unit detail; rw [e]
@[simp] theorem raise_free (code source unit detail : Nat) : (s.raise code source unit detail).free = s.free := by
  obtain ⟨_, _, _, e⟩ := raise_shape s code source unit detail; rw [e]
@[simp] theorem raise_pending (code source unit detail : Nat) : (s.raise code source unit detail).pending = s.pending := by
  obtain ⟨_, _, _, e⟩ := raise_shape s code source unit detail; rw [e]

@[simp] theorem bump_time (id n : Nat) : (s.bump id n).time = s.time := by
  obtain ⟨_, _, _, _, e⟩ := bump_shape s id n; rw [e]
@[simp] theorem bump_fault (id n : Nat) : (s.bump id n).fault = s.fault := by
  obtain ⟨_, _, _, _, e⟩ := bump_shape s id n; rw [e]
@[simp] theorem bump_store (id n : Nat) : (s.bump id n).store = s.store := by
  obtain ⟨_, _, _, _, e⟩ := bump_shape s id n; rw [e]
@[simp] theorem bump_tier (id n : Nat) : (s.bump id n).tier = s.tier := by
  obtain ⟨_, _, _, _, e⟩ := bump_shape s id n; rw [e]
@[simp] theorem bump_pwr (id n : Nat) : (s.bump id n).pwr = s.pwr := by
  obtain ⟨_, _, _, _, e⟩ := bump_shape s id n; rw [e]
@[simp] theorem bump_clk (id n : Nat) : (s.bump id n).clk = s.clk := by
  obtain ⟨_, _, _, _, e⟩ := bump_shape s id n; rw [e]
@[simp] theorem bump_start (id n : Nat) : (s.bump id n).start = s.start := by
  obtain ⟨_, _, _, _, e⟩ := bump_shape s id n; rw [e]
@[simp] theorem bump_cox (id n : Nat) : (s.bump id n).cox = s.cox := by
  obtain ⟨_, _, _, _, e⟩ := bump_shape s id n; rw [e]
@[simp] theorem bump_tiles (id n : Nat) : (s.bump id n).tiles = s.tiles := by
  obtain ⟨_, _, _, _, e⟩ := bump_shape s id n; rw [e]
@[simp] theorem bump_ctxs (id n : Nat) : (s.bump id n).ctxs = s.ctxs := by
  obtain ⟨_, _, _, _, e⟩ := bump_shape s id n; rw [e]
@[simp] theorem bump_boat (id n : Nat) : (s.bump id n).boat = s.boat := by
  obtain ⟨_, _, _, _, e⟩ := bump_shape s id n; rw [e]
@[simp] theorem bump_sched (id n : Nat) : (s.bump id n).sched = s.sched := by
  obtain ⟨_, _, _, _, e⟩ := bump_shape s id n; rw [e]
@[simp] theorem bump_sweep (id n : Nat) : (s.bump id n).sweep = s.sweep := by
  obtain ⟨_, _, _, _, e⟩ := bump_shape s id n; rw [e]
@[simp] theorem bump_xf (id n : Nat) : (s.bump id n).xf = s.xf := by
  obtain ⟨_, _, _, _, e⟩ := bump_shape s id n; rw [e]
@[simp] theorem bump_plan (id n : Nat) : (s.bump id n).plan = s.plan := by
  obtain ⟨_, _, _, _, e⟩ := bump_shape s id n; rw [e]
@[simp] theorem bump_fuse (id n : Nat) : (s.bump id n).fuse = s.fuse := by
  obtain ⟨_, _, _, _, e⟩ := bump_shape s id n; rw [e]
@[simp] theorem bump_stroke (id n : Nat) : (s.bump id n).stroke = s.stroke := by
  obtain ⟨_, _, _, _, e⟩ := bump_shape s id n; rw [e]
@[simp] theorem bump_net (id n : Nat) : (s.bump id n).net = s.net := by
  obtain ⟨_, _, _, _, e⟩ := bump_shape s id n; rw [e]
@[simp] theorem bump_safe (id n : Nat) : (s.bump id n).safe = s.safe := by
  obtain ⟨_, _, _, _, e⟩ := bump_shape s id n; rw [e]
@[simp] theorem bump_cap (id n : Nat) : (s.bump id n).cap = s.cap := by
  obtain ⟨_, _, _, _, e⟩ := bump_shape s id n; rw [e]
@[simp] theorem bump_free (id n : Nat) : (s.bump id n).free = s.free := by
  obtain ⟨_, _, _, _, e⟩ := bump_shape s id n; rw [e]
@[simp] theorem bump_pending (id n : Nat) : (s.bump id n).pending = s.pending := by
  obtain ⟨_, _, _, _, e⟩ := bump_shape s id n; rw [e]

@[simp] theorem storeMasked_time (a : Nat) (l : List (Option PByte)) : (s.storeMasked a l).time = s.time := by
  obtain ⟨_, _, _, _, _, _, e⟩ := storeMasked_shape s a l; rw [e]
@[simp] theorem storeMasked_fault (a : Nat) (l : List (Option PByte)) : (s.storeMasked a l).fault = s.fault := by
  obtain ⟨_, _, _, _, _, _, e⟩ := storeMasked_shape s a l; rw [e]
@[simp] theorem storeMasked_pwr (a : Nat) (l : List (Option PByte)) : (s.storeMasked a l).pwr = s.pwr := by
  obtain ⟨_, _, _, _, _, _, e⟩ := storeMasked_shape s a l; rw [e]
@[simp] theorem storeMasked_clk (a : Nat) (l : List (Option PByte)) : (s.storeMasked a l).clk = s.clk := by
  obtain ⟨_, _, _, _, _, _, e⟩ := storeMasked_shape s a l; rw [e]
@[simp] theorem storeMasked_start (a : Nat) (l : List (Option PByte)) : (s.storeMasked a l).start = s.start := by
  obtain ⟨_, _, _, _, _, _, e⟩ := storeMasked_shape s a l; rw [e]
@[simp] theorem storeMasked_cox (a : Nat) (l : List (Option PByte)) : (s.storeMasked a l).cox = s.cox := by
  obtain ⟨_, _, _, _, _, _, e⟩ := storeMasked_shape s a l; rw [e]
@[simp] theorem storeMasked_tiles (a : Nat) (l : List (Option PByte)) : (s.storeMasked a l).tiles = s.tiles := by
  obtain ⟨_, _, _, _, _, _, e⟩ := storeMasked_shape s a l; rw [e]
@[simp] theorem storeMasked_ctxs (a : Nat) (l : List (Option PByte)) : (s.storeMasked a l).ctxs = s.ctxs := by
  obtain ⟨_, _, _, _, _, _, e⟩ := storeMasked_shape s a l; rw [e]
@[simp] theorem storeMasked_boat (a : Nat) (l : List (Option PByte)) : (s.storeMasked a l).boat = s.boat := by
  obtain ⟨_, _, _, _, _, _, e⟩ := storeMasked_shape s a l; rw [e]
@[simp] theorem storeMasked_sched (a : Nat) (l : List (Option PByte)) : (s.storeMasked a l).sched = s.sched := by
  obtain ⟨_, _, _, _, _, _, e⟩ := storeMasked_shape s a l; rw [e]
@[simp] theorem storeMasked_sweep (a : Nat) (l : List (Option PByte)) : (s.storeMasked a l).sweep = s.sweep := by
  obtain ⟨_, _, _, _, _, _, e⟩ := storeMasked_shape s a l; rw [e]
@[simp] theorem storeMasked_xf (a : Nat) (l : List (Option PByte)) : (s.storeMasked a l).xf = s.xf := by
  obtain ⟨_, _, _, _, _, _, e⟩ := storeMasked_shape s a l; rw [e]
@[simp] theorem storeMasked_plan (a : Nat) (l : List (Option PByte)) : (s.storeMasked a l).plan = s.plan := by
  obtain ⟨_, _, _, _, _, _, e⟩ := storeMasked_shape s a l; rw [e]
@[simp] theorem storeMasked_fuse (a : Nat) (l : List (Option PByte)) : (s.storeMasked a l).fuse = s.fuse := by
  obtain ⟨_, _, _, _, _, _, e⟩ := storeMasked_shape s a l; rw [e]
@[simp] theorem storeMasked_stroke (a : Nat) (l : List (Option PByte)) : (s.storeMasked a l).stroke = s.stroke := by
  obtain ⟨_, _, _, _, _, _, e⟩ := storeMasked_shape s a l; rw [e]
@[simp] theorem storeMasked_net (a : Nat) (l : List (Option PByte)) : (s.storeMasked a l).net = s.net := by
  obtain ⟨_, _, _, _, _, _, e⟩ := storeMasked_shape s a l; rw [e]
@[simp] theorem storeMasked_safe (a : Nat) (l : List (Option PByte)) : (s.storeMasked a l).safe = s.safe := by
  obtain ⟨_, _, _, _, _, _, e⟩ := storeMasked_shape s a l; rw [e]
@[simp] theorem storeMasked_cap (a : Nat) (l : List (Option PByte)) : (s.storeMasked a l).cap = s.cap := by
  obtain ⟨_, _, _, _, _, _, e⟩ := storeMasked_shape s a l; rw [e]
@[simp] theorem storeMasked_free (a : Nat) (l : List (Option PByte)) : (s.storeMasked a l).free = s.free := by
  obtain ⟨_, _, _, _, _, _, e⟩ := storeMasked_shape s a l; rw [e]
@[simp] theorem storeMasked_pending (a : Nat) (l : List (Option PByte)) : (s.storeMasked a l).pending = s.pending := by
  obtain ⟨_, _, _, _, _, _, e⟩ := storeMasked_shape s a l; rw [e]

@[simp] theorem storeBytes_time (a : Nat) (l : List PByte) : (s.storeBytes a l).time = s.time := by
  obtain ⟨_, _, _, _, _, _, e⟩ := storeBytes_shape s a l; rw [e]
@[simp] theorem storeBytes_fault (a : Nat) (l : List PByte) : (s.storeBytes a l).fault = s.fault := by
  obtain ⟨_, _, _, _, _, _, e⟩ := storeBytes_shape s a l; rw [e]
@[simp] theorem storeBytes_pwr (a : Nat) (l : List PByte) : (s.storeBytes a l).pwr = s.pwr := by
  obtain ⟨_, _, _, _, _, _, e⟩ := storeBytes_shape s a l; rw [e]
@[simp] theorem storeBytes_clk (a : Nat) (l : List PByte) : (s.storeBytes a l).clk = s.clk := by
  obtain ⟨_, _, _, _, _, _, e⟩ := storeBytes_shape s a l; rw [e]
@[simp] theorem storeBytes_start (a : Nat) (l : List PByte) : (s.storeBytes a l).start = s.start := by
  obtain ⟨_, _, _, _, _, _, e⟩ := storeBytes_shape s a l; rw [e]
@[simp] theorem storeBytes_cox (a : Nat) (l : List PByte) : (s.storeBytes a l).cox = s.cox := by
  obtain ⟨_, _, _, _, _, _, e⟩ := storeBytes_shape s a l; rw [e]
@[simp] theorem storeBytes_tiles (a : Nat) (l : List PByte) : (s.storeBytes a l).tiles = s.tiles := by
  obtain ⟨_, _, _, _, _, _, e⟩ := storeBytes_shape s a l; rw [e]
@[simp] theorem storeBytes_ctxs (a : Nat) (l : List PByte) : (s.storeBytes a l).ctxs = s.ctxs := by
  obtain ⟨_, _, _, _, _, _, e⟩ := storeBytes_shape s a l; rw [e]
@[simp] theorem storeBytes_boat (a : Nat) (l : List PByte) : (s.storeBytes a l).boat = s.boat := by
  obtain ⟨_, _, _, _, _, _, e⟩ := storeBytes_shape s a l; rw [e]
@[simp] theorem storeBytes_sched (a : Nat) (l : List PByte) : (s.storeBytes a l).sched = s.sched := by
  obtain ⟨_, _, _, _, _, _, e⟩ := storeBytes_shape s a l; rw [e]
@[simp] theorem storeBytes_sweep (a : Nat) (l : List PByte) : (s.storeBytes a l).sweep = s.sweep := by
  obtain ⟨_, _, _, _, _, _, e⟩ := storeBytes_shape s a l; rw [e]
@[simp] theorem storeBytes_xf (a : Nat) (l : List PByte) : (s.storeBytes a l).xf = s.xf := by
  obtain ⟨_, _, _, _, _, _, e⟩ := storeBytes_shape s a l; rw [e]
@[simp] theorem storeBytes_plan (a : Nat) (l : List PByte) : (s.storeBytes a l).plan = s.plan := by
  obtain ⟨_, _, _, _, _, _, e⟩ := storeBytes_shape s a l; rw [e]
@[simp] theorem storeBytes_fuse (a : Nat) (l : List PByte) : (s.storeBytes a l).fuse = s.fuse := by
  obtain ⟨_, _, _, _, _, _, e⟩ := storeBytes_shape s a l; rw [e]
@[simp] theorem storeBytes_stroke (a : Nat) (l : List PByte) : (s.storeBytes a l).stroke = s.stroke := by
  obtain ⟨_, _, _, _, _, _, e⟩ := storeBytes_shape s a l; rw [e]
@[simp] theorem storeBytes_net (a : Nat) (l : List PByte) : (s.storeBytes a l).net = s.net := by
  obtain ⟨_, _, _, _, _, _, e⟩ := storeBytes_shape s a l; rw [e]
@[simp] theorem storeBytes_safe (a : Nat) (l : List PByte) : (s.storeBytes a l).safe = s.safe := by
  obtain ⟨_, _, _, _, _, _, e⟩ := storeBytes_shape s a l; rw [e]
@[simp] theorem storeBytes_cap (a : Nat) (l : List PByte) : (s.storeBytes a l).cap = s.cap := by
  obtain ⟨_, _, _, _, _, _, e⟩ := storeBytes_shape s a l; rw [e]
@[simp] theorem storeBytes_free (a : Nat) (l : List PByte) : (s.storeBytes a l).free = s.free := by
  obtain ⟨_, _, _, _, _, _, e⟩ := storeBytes_shape s a l; rw [e]
@[simp] theorem storeBytes_pending (a : Nat) (l : List PByte) : (s.storeBytes a l).pending = s.pending := by
  obtain ⟨_, _, _, _, _, _, e⟩ := storeBytes_shape s a l; rw [e]

@[simp] theorem storeClean_time (a : Nat) (l : List Byte) : (s.storeClean a l).time = s.time := by
  obtain ⟨_, _, _, _, _, _, e⟩ := storeClean_shape s a l; rw [e]
@[simp] theorem storeClean_fault (a : Nat) (l : List Byte) : (s.storeClean a l).fault = s.fault := by
  obtain ⟨_, _, _, _, _, _, e⟩ := storeClean_shape s a l; rw [e]
@[simp] theorem storeClean_pwr (a : Nat) (l : List Byte) : (s.storeClean a l).pwr = s.pwr := by
  obtain ⟨_, _, _, _, _, _, e⟩ := storeClean_shape s a l; rw [e]
@[simp] theorem storeClean_clk (a : Nat) (l : List Byte) : (s.storeClean a l).clk = s.clk := by
  obtain ⟨_, _, _, _, _, _, e⟩ := storeClean_shape s a l; rw [e]
@[simp] theorem storeClean_start (a : Nat) (l : List Byte) : (s.storeClean a l).start = s.start := by
  obtain ⟨_, _, _, _, _, _, e⟩ := storeClean_shape s a l; rw [e]
@[simp] theorem storeClean_cox (a : Nat) (l : List Byte) : (s.storeClean a l).cox = s.cox := by
  obtain ⟨_, _, _, _, _, _, e⟩ := storeClean_shape s a l; rw [e]
@[simp] theorem storeClean_tiles (a : Nat) (l : List Byte) : (s.storeClean a l).tiles = s.tiles := by
  obtain ⟨_, _, _, _, _, _, e⟩ := storeClean_shape s a l; rw [e]
@[simp] theorem storeClean_ctxs (a : Nat) (l : List Byte) : (s.storeClean a l).ctxs = s.ctxs := by
  obtain ⟨_, _, _, _, _, _, e⟩ := storeClean_shape s a l; rw [e]
@[simp] theorem storeClean_boat (a : Nat) (l : List Byte) : (s.storeClean a l).boat = s.boat := by
  obtain ⟨_, _, _, _, _, _, e⟩ := storeClean_shape s a l; rw [e]
@[simp] theorem storeClean_sched (a : Nat) (l : List Byte) : (s.storeClean a l).sched = s.sched := by
  obtain ⟨_, _, _, _, _, _, e⟩ := storeClean_shape s a l; rw [e]
@[simp] theorem storeClean_sweep (a : Nat) (l : List Byte) : (s.storeClean a l).sweep = s.sweep := by
  obtain ⟨_, _, _, _, _, _, e⟩ := storeClean_shape s a l; rw [e]
@[simp] theorem storeClean_xf (a : Nat) (l : List Byte) : (s.storeClean a l).xf = s.xf := by
  obtain ⟨_, _, _, _, _, _, e⟩ := storeClean_shape s a l; rw [e]
@[simp] theorem storeClean_plan (a : Nat) (l : List Byte) : (s.storeClean a l).plan = s.plan := by
  obtain ⟨_, _, _, _, _, _, e⟩ := storeClean_shape s a l; rw [e]
@[simp] theorem storeClean_fuse (a : Nat) (l : List Byte) : (s.storeClean a l).fuse = s.fuse := by
  obtain ⟨_, _, _, _, _, _, e⟩ := storeClean_shape s a l; rw [e]
@[simp] theorem storeClean_stroke (a : Nat) (l : List Byte) : (s.storeClean a l).stroke = s.stroke := by
  obtain ⟨_, _, _, _, _, _, e⟩ := storeClean_shape s a l; rw [e]
@[simp] theorem storeClean_net (a : Nat) (l : List Byte) : (s.storeClean a l).net = s.net := by
  obtain ⟨_, _, _, _, _, _, e⟩ := storeClean_shape s a l; rw [e]
@[simp] theorem storeClean_safe (a : Nat) (l : List Byte) : (s.storeClean a l).safe = s.safe := by
  obtain ⟨_, _, _, _, _, _, e⟩ := storeClean_shape s a l; rw [e]
@[simp] theorem storeClean_cap (a : Nat) (l : List Byte) : (s.storeClean a l).cap = s.cap := by
  obtain ⟨_, _, _, _, _, _, e⟩ := storeClean_shape s a l; rw [e]
@[simp] theorem storeClean_free (a : Nat) (l : List Byte) : (s.storeClean a l).free = s.free := by
  obtain ⟨_, _, _, _, _, _, e⟩ := storeClean_shape s a l; rw [e]
@[simp] theorem storeClean_pending (a : Nat) (l : List Byte) : (s.storeClean a l).pending = s.pending := by
  obtain ⟨_, _, _, _, _, _, e⟩ := storeClean_shape s a l; rw [e]

@[simp] theorem finishUid_time (uid : Nat) (cheap : Bool) (st de re : Nat) : (s.finishUid uid cheap st de re).time = s.time := by
  obtain ⟨_, e⟩ := finishUid_shape s uid cheap st de re; rw [e]
@[simp] theorem finishUid_port (uid : Nat) (cheap : Bool) (st de re : Nat) : (s.finishUid uid cheap st de re).port = s.port := by
  obtain ⟨_, e⟩ := finishUid_shape s uid cheap st de re; rw [e]
@[simp] theorem finishUid_mem (uid : Nat) (cheap : Bool) (st de re : Nat) : (s.finishUid uid cheap st de re).mem = s.mem := by
  obtain ⟨_, e⟩ := finishUid_shape s uid cheap st de re; rw [e]
@[simp] theorem finishUid_counters (uid : Nat) (cheap : Bool) (st de re : Nat) : (s.finishUid uid cheap st de re).counters = s.counters := by
  obtain ⟨_, e⟩ := finishUid_shape s uid cheap st de re; rw [e]
@[simp] theorem finishUid_fault (uid : Nat) (cheap : Bool) (st de re : Nat) : (s.finishUid uid cheap st de re).fault = s.fault := by
  obtain ⟨_, e⟩ := finishUid_shape s uid cheap st de re; rw [e]
@[simp] theorem finishUid_store (uid : Nat) (cheap : Bool) (st de re : Nat) : (s.finishUid uid cheap st de re).store = s.store := by
  obtain ⟨_, e⟩ := finishUid_shape s uid cheap st de re; rw [e]
@[simp] theorem finishUid_tier (uid : Nat) (cheap : Bool) (st de re : Nat) : (s.finishUid uid cheap st de re).tier = s.tier := by
  obtain ⟨_, e⟩ := finishUid_shape s uid cheap st de re; rw [e]
@[simp] theorem finishUid_pwr (uid : Nat) (cheap : Bool) (st de re : Nat) : (s.finishUid uid cheap st de re).pwr = s.pwr := by
  obtain ⟨_, e⟩ := finishUid_shape s uid cheap st de re; rw [e]
@[simp] theorem finishUid_clk (uid : Nat) (cheap : Bool) (st de re : Nat) : (s.finishUid uid cheap st de re).clk = s.clk := by
  obtain ⟨_, e⟩ := finishUid_shape s uid cheap st de re; rw [e]
@[simp] theorem finishUid_start (uid : Nat) (cheap : Bool) (st de re : Nat) : (s.finishUid uid cheap st de re).start = s.start := by
  obtain ⟨_, e⟩ := finishUid_shape s uid cheap st de re; rw [e]
@[simp] theorem finishUid_cox (uid : Nat) (cheap : Bool) (st de re : Nat) : (s.finishUid uid cheap st de re).cox = s.cox := by
  obtain ⟨_, e⟩ := finishUid_shape s uid cheap st de re; rw [e]
@[simp] theorem finishUid_tiles (uid : Nat) (cheap : Bool) (st de re : Nat) : (s.finishUid uid cheap st de re).tiles = s.tiles := by
  obtain ⟨_, e⟩ := finishUid_shape s uid cheap st de re; rw [e]
@[simp] theorem finishUid_ctxs (uid : Nat) (cheap : Bool) (st de re : Nat) : (s.finishUid uid cheap st de re).ctxs = s.ctxs := by
  obtain ⟨_, e⟩ := finishUid_shape s uid cheap st de re; rw [e]
@[simp] theorem finishUid_boat (uid : Nat) (cheap : Bool) (st de re : Nat) : (s.finishUid uid cheap st de re).boat = s.boat := by
  obtain ⟨_, e⟩ := finishUid_shape s uid cheap st de re; rw [e]
@[simp] theorem finishUid_sched (uid : Nat) (cheap : Bool) (st de re : Nat) : (s.finishUid uid cheap st de re).sched = s.sched := by
  obtain ⟨_, e⟩ := finishUid_shape s uid cheap st de re; rw [e]
@[simp] theorem finishUid_sweep (uid : Nat) (cheap : Bool) (st de re : Nat) : (s.finishUid uid cheap st de re).sweep = s.sweep := by
  obtain ⟨_, e⟩ := finishUid_shape s uid cheap st de re; rw [e]
@[simp] theorem finishUid_xf (uid : Nat) (cheap : Bool) (st de re : Nat) : (s.finishUid uid cheap st de re).xf = s.xf := by
  obtain ⟨_, e⟩ := finishUid_shape s uid cheap st de re; rw [e]
@[simp] theorem finishUid_plan (uid : Nat) (cheap : Bool) (st de re : Nat) : (s.finishUid uid cheap st de re).plan = s.plan := by
  obtain ⟨_, e⟩ := finishUid_shape s uid cheap st de re; rw [e]
@[simp] theorem finishUid_fuse (uid : Nat) (cheap : Bool) (st de re : Nat) : (s.finishUid uid cheap st de re).fuse = s.fuse := by
  obtain ⟨_, e⟩ := finishUid_shape s uid cheap st de re; rw [e]
@[simp] theorem finishUid_stroke (uid : Nat) (cheap : Bool) (st de re : Nat) : (s.finishUid uid cheap st de re).stroke = s.stroke := by
  obtain ⟨_, e⟩ := finishUid_shape s uid cheap st de re; rw [e]
@[simp] theorem finishUid_net (uid : Nat) (cheap : Bool) (st de re : Nat) : (s.finishUid uid cheap st de re).net = s.net := by
  obtain ⟨_, e⟩ := finishUid_shape s uid cheap st de re; rw [e]
@[simp] theorem finishUid_safe (uid : Nat) (cheap : Bool) (st de re : Nat) : (s.finishUid uid cheap st de re).safe = s.safe := by
  obtain ⟨_, e⟩ := finishUid_shape s uid cheap st de re; rw [e]
@[simp] theorem finishUid_cap (uid : Nat) (cheap : Bool) (st de re : Nat) : (s.finishUid uid cheap st de re).cap = s.cap := by
  obtain ⟨_, e⟩ := finishUid_shape s uid cheap st de re; rw [e]
@[simp] theorem finishUid_free (uid : Nat) (cheap : Bool) (st de re : Nat) : (s.finishUid uid cheap st de re).free = s.free := by
  obtain ⟨_, e⟩ := finishUid_shape s uid cheap st de re; rw [e]
@[simp] theorem finishUid_pending (uid : Nat) (cheap : Bool) (st de re : Nat) : (s.finishUid uid cheap st de re).pending = s.pending := by
  obtain ⟨_, e⟩ := finishUid_shape s uid cheap st de re; rw [e]

/-! ### A loop's operations keep the chains, the clock and the domains -/

/-- Two states with the same chains, time and power. -/
def SameChains (s t : State) : Prop := t.stroke.chains = s.stroke.chains ∧ t.time = s.time ∧ t.pwr = s.pwr

theorem SameChains.refl (s : State) : SameChains s s := ⟨rfl, rfl, rfl⟩

theorem SameChains.trans {s t u : State} (h : SameChains s t) (k : SameChains t u) : SameChains s u :=
  ⟨k.1.trans h.1, k.2.1.trans h.2.1, k.2.2.trans h.2.2⟩

theorem SameChains.foldl {α : Type} {f : State → α → State} (h : ∀ s a, SameChains s (f s a)) (l : List α) :
    ∀ s, SameChains s (l.foldl f s) := by
  induction l with
  | nil => exact SameChains.refl
  | cons a t ih => exact fun s => (h s a).trans (ih _)

/-- The chains are read through the table of chains alone. -/
theorem SameChains.chain {s t : State} (h : SameChains s t) (c : Nat) : t.chain c = s.chain c := by
  unfold State.chain; rw [h.1]

theorem sameChains_modLoop (l : Nat) (f : Loop → Loop) : SameChains s (s.modLoop l f) := ⟨rfl, rfl, rfl⟩

theorem sameChains_raise (a b c d : Nat) : SameChains s (s.raise a b c d) := by
  obtain ⟨p, h, m, e⟩ := raise_shape s a b c d; rw [e]; exact ⟨rfl, rfl, rfl⟩

theorem sameChains_bump (a b : Nat) : SameChains s (s.bump a b) := by
  obtain ⟨p, h, m, c, e⟩ := bump_shape s a b; rw [e]; exact ⟨rfl, rfl, rfl⟩

theorem sameChains_finishUid (u : Nat) (b : Bool) (x y z : Nat) : SameChains s (s.finishUid u b x y z) := by
  obtain ⟨h, e⟩ := finishUid_shape s u b x y z; rw [e]; exact ⟨rfl, rfl, rfl⟩

theorem sameChains_endTune (l x : Nat) : SameChains s (s.endTune l x) := by
  obtain ⟨p, h, m, c, st, ti, lo, fr, e⟩ := endTune_shape s l x; rw [e]; exact ⟨rfl, rfl, rfl⟩

theorem sameChains_loopFault (l a r : Nat) : SameChains s (s.loopFault l a r) :=
  ((sameChains_endTune s l _).trans (sameChains_modLoop _ l _)).trans (sameChains_raise _ _ _ _ _)

theorem sameChains_applyStaged (c l : Nat) (x : Staged) : SameChains s (s.applyStaged c l x) := by
  unfold State.applyStaged
  split
  · exact sameChains_modLoop _ _ _
  · exact sameChains_modLoop _ _ _
  · exact sameChains_modLoop _ _ _
  · exact sameChains_modLoop _ _ _
  · exact (sameChains_endTune _ _ _).trans (sameChains_modLoop _ _ _)
  · split
    · exact ⟨rfl, rfl, rfl⟩
    · exact sameChains_finishUid _ _ _ _ _ _

theorem sameChains_applyAllStaged (c l : Nat) : SameChains s (s.applyAllStaged c l) :=
  (sameChains_modLoop s l _).trans (SameChains.foldl (fun s x => sameChains_applyStaged s c l x) _ _)

theorem sameChains_leaveTune (l : Nat) : SameChains s (s.leaveTune l) := by
  unfold State.leaveTune
  split
  · exact sameChains_endTune _ _ _
  · exact SameChains.refl s

theorem sameChains_loopInstant (c l : Nat) : SameChains s (s.loopInstant c l) := by
  unfold State.loopInstant
  dsimp only
  refine SameChains.trans ?_ (sameChains_modLoop _ l _)
  refine (sameChains_leaveTune s l).trans ?_
  generalize s.leaveTune l = s
  have h1 : SameChains s (if (s.loop l).staged.any (fun x => x == Staged.enable true) then s.modLoop l (fun y => { y with fault := none })
      else s) := by
    split
    · exact sameChains_modLoop _ _ _
    · exact SameChains.refl s
  revert h1
  generalize (if (s.loop l).staged.any (fun x => x == Staged.enable true) then s.modLoop l (fun y => { y with fault := none }) else s) = u
  intro h1
  refine h1.trans ((sameChains_applyAllStaged u c l).trans ?_)
  split
  · exact sameChains_loopFault _ _ _ _
  · exact SameChains.refl _

theorem sameChains_markTune (l : Nat) : SameChains s (s.markTune l) := by
  unfold State.markTune
  split
  · exact SameChains.refl s
  · split
    · exact sameChains_modLoop _ _ _
    · exact SameChains.refl s

theorem sameChains_loopMiss (l : Nat) : SameChains s (s.loopMiss l) := by
  unfold State.loopMiss
  dsimp only
  split
  · exact ((sameChains_modLoop s l _).trans (sameChains_bump _ _ _)).trans (sameChains_markTune _ _)
  · exact SameChains.refl s

end Sys2Proof.Laws
end

