-- ==== Sys2Proof/Laws/Threads.lean ====
section
/-! SUPPORT. Threads: which may issue, what changing one of them does, and where their stores go. -/

namespace Sys2Proof.Laws

open Sys2Proof.Machine

/-- A started thread is one of the 128 of one of the 128 tiles. -/
theorem started_lt {s : State} {t th : Nat} (h : ((s.tile t).thread th).started = true) : t < 128 ∧ th < 128 := by
  constructor
  · by_contra hn
    simp only [State.tile, vget] at h; rw [dif_neg hn] at h
    simp [Tile.reset, Tile.thread, vget] at h
    exact absurd h (by decide)
  · by_contra hn
    simp only [Tile.thread, vget] at h; rw [dif_neg hn] at h
    simp [Thread.reset] at h

/-- A thread that may issue is one of the 128 of one of the 128 tiles. -/
theorem canIssue_lt {s : State} {t th : Nat} (h : s.canIssue t th = true) : t < 128 ∧ th < 128 := by
  simp only [State.canIssue, Bool.and_eq_true] at h
  exact started_lt h.1.1.1.1

/-- A tile changed to itself. -/
theorem modTile_same {s : State} {t : Nat} {f : Tile → Tile} (h : f (s.tile t) = s.tile t) : s.modTile t f = s := by
  have : vmod s.tiles t f = s.tiles := by
    unfold vmod; split
    · rename_i ht
      have e : (s.tile t) = s.tiles[t] := by simp [State.tile, vget, ht]
      rw [← e, h, e]; simp
    · rfl
  unfold State.modTile; rw [this]

/-- Changes that agree on a thread change it alike. -/
theorem modThread_congr {s : State} {t th : Nat} {f g : Thread → Thread} (h : f ((s.tile t).thread th) = g ((s.tile t).thread th)) :
    s.modThread t th f = s.modThread t th g := by
  have : vmod s.tiles t (fun x => x.modThread th f) = vmod s.tiles t (fun x => x.modThread th g) := by
    unfold vmod; split
    · rename_i ht
      have e : (s.tile t) = s.tiles[t] := by simp [State.tile, vget, ht]
      unfold Tile.modThread
      congr 1
      unfold vmod; split
      · rename_i hh
        have e2 : (s.tiles[t]).thread th = (s.tiles[t]).threads[th] := by simp [Tile.thread, vget, hh]
        rw [e, e2] at h; simp only [h]
      · rfl
    · rfl
  unfold State.modThread State.modTile; rw [this]

/-- The first part of a range cut by ranks keeps the range's alignment. -/
theorem scratch_aligned {s : State} {t n al a : Nat} {l : List (Nat × Nat)} (h : s.scratch t a n = some l) (hal : al ∣ t0TileSize)
    (ha : a % al = 0) : (l.headD (a, n)).1 % al = 0 := by
  have hun : ∀ (x y : Nat), s.unalias t x = some y → x % al = 0 → y % al = 0 := by
    intro x y hy hx
    have h10 : al ∣ 0x10000000 := Dvd.dvd.trans hal (by decide)
    unfold State.unalias at hy
    rw [Option.map_eq_some_iff] at hy
    obtain ⟨u, hu, rfl⟩ := hy
    have h11 : al ∣ x - 0x10000000 := Nat.dvd_sub (Nat.dvd_of_mod_eq_zero hx) h10
    exact Nat.mod_eq_zero_of_dvd (Dvd.dvd.add (Dvd.dvd.mul_left hal u) ((Nat.dvd_mod_iff hal).2 h11))
  unfold State.scratch scratchCut at h
  rw [List.mapM_cons] at h
  simp only [Option.bind_eq_bind, Option.bind_eq_some_iff] at h
  obtain ⟨y, hy, r, _, hr⟩ := h
  cases hr
  split at hy
  · cases hy; exact ha
  · rw [Option.map_eq_some_iff] at hy
    obtain ⟨z, hz, rfl⟩ := hy
    exact hun _ _ hz ha

/-- An access that reaches an address reaches an aligned one (R120). -/
theorem access_aligned {s : State} {t th n al a : Nat} {ea : PVal} {w : Bool} (h : s.access t th ea n al w = .ok a) (hal : al ∣ t0TileSize) :
    a % al = 0 := by
  unfold State.access at h
  split at h
  · cases h
  · split at h
    · cases h
    · rename_i h1 h2
      have h2 : ea.1 % al = 0 := by omega
      split at h
      · cases h
      · rename_i b hb
        cases h
        unfold State.reach at hb
        split at hb
        · cases hb
        · rename_i l hl
          cases hb
          unfold State.pieces at hl
          repeat' split at hl
          all_goals cases hl
          all_goals first
            | exact h2
            | (rename_i hs; exact scratch_aligned hs hal h2)

/-- A store's preparation in T0 changes no memory: T0 is held byte by byte (R166, R172). -/
theorem premerge_mem_t0 (s : State) (a : Nat) (l : List (Option PByte)) (h : isT0 a = true) (hl : a % t0TileSize + l.length ≤ t0TileSize) :
    (s.premerge a l).mem = s.mem := by
  have hT : ∀ i, i < (a % 64 + l.length + 63) / 64 → isT0 (a / 64 * 64 + 64 * i) = true := by
    intro i hi
    simp only [isT0, t0TileSize, decide_eq_true_eq] at h hl ⊢
    omega
  have key : ∀ (is : List Nat), (∀ i ∈ is, i < (a % 64 + l.length + 63) / 64) → ∀ (u : State) (en : Nat → Nat → Bool),
      (is.foldl (fun s i => s.mergeLine (a / 64 * 64 + 64 * i) (en i)) u).mem = u.mem := by
    intro is
    induction is with
    | nil => intro _ u _; rfl
    | cons i r ih =>
      intro hi u en
      rw [List.foldl_cons, ih (fun j hj => hi j (List.mem_cons_of_mem _ hj))]
      have hk : (u.steady (a / 64 * 64 + 64 * i)).kindOf (a / 64 * 64 + 64 * i) = .byte := by
        unfold State.kindOf; rw [if_pos (hT i (hi i (List.mem_cons_self ..)))]
      have hk' : u.kindOf (a / 64 * 64 + 64 * i) = .byte := by
        unfold State.kindOf; rw [if_pos (hT i (hi i (List.mem_cons_self ..)))]
      unfold State.mergeLine
      dsimp only
      split
      · exact steady_mem u _
      · rw [if_pos (by rw [hk']; decide)]; exact steady_mem u _
  unfold State.premerge
  split
  · rfl
  · dsimp only
    rw [if_pos (by rw [h]; rfl)]
    exact key _ (fun i hi => List.mem_range.1 hi) s (fun i j =>
      decide (a ≤ a / 64 * 64 + 64 * i + j) && ((l.getD (a / 64 * 64 + 64 * i + j - a) none).isSome))

/-- A store to a tile's own scratchpad leaves every byte outside it and its mark (R30). -/
theorem threadStore_own {s : State} {t th a : Nat} {b : List PByte} (hm : s.mem.wf = true)
    (hal : (a % 8 + b.length ≤ 8 ∨ (a % 8 = 0 ∧ b.length % 8 = 0)) ) (h1 : isT0 a = true) (h2 : a / t0TileSize = t)
    (hin : a % t0TileSize + b.length ≤ t0TileSize) (x : Nat) (hx : x < a ∨ a + b.length ≤ x) :
    (s.threadStore t th a b).mem.byte x = s.mem.byte x ∧ (s.threadStore t th a b).mem.mark x = s.mem.mark x := by
  unfold State.threadStore
  rw [if_pos ⟨h1, h2⟩]
  unfold State.storeBytes State.storeMasked
  rw [if_pos (by simp [h1])]
  have mw : ∀ (u : State) n, (u.markWritten a n).mem = u.mem := fun u n => markWritten_mem u a n
  have mm : ∀ (c : Bool) (u : State) n, (if c = true then u else u.markWritten a n).mem = u.mem := by
    intro c u n; split
    · rfl
    · exact mw u n
  dsimp only
  rw [mm]
  generalize hk : (List.range (b.map some).length).map (fun i => if s.isWithdrawn (a + i) then none else (b.map some).getD i none) = keep
  have hlen : keep.length = b.length := by rw [← hk]; simp
  have hb : (s.premerge a keep).kindOf a = .byte := by unfold State.kindOf; rw [if_pos h1]
  have hp := premerge_mem_t0 s a keep h1 (by omega)
  have hm' : (s.premerge a keep).mem.wf = true := by rw [hp]; exact hm
  rw [show (s.mem.byte x) = (s.premerge a keep).mem.byte x by rw [hp], show (s.mem.mark x) = (s.premerge a keep).mem.mark x by rw [hp]]
  rcases hal with h | ⟨h, h'⟩
  · exact putList_byte_outside hm' _ _ a _ (by omega) hb x (by omega)
  · exact putList_words_outside hm' _ _ a _ h (by omega) x (by omega)

/-- A store put into the write-combining buffer changes no memory. -/
theorem bufferStore_mem (s : State) (t th l : Nat) (b : List (Option PByte)) : (s.bufferStore t th l b).mem = s.mem := by
  unfold State.bufferStore
  dsimp only
  split
  · rfl
  · split
    · split <;> rfl
    · rfl

/-- A store elsewhere than a tile's own scratchpad changes no memory yet (R123). -/
theorem threadStore_other {s : State} {t th a : Nat} {b : List PByte} (h : ¬ (isT0 a = true ∧ a / t0TileSize = t)) :
    (s.threadStore t th a b).mem = s.mem := by
  unfold State.threadStore
  rw [if_neg h]
  split
  · generalize List.range ((a % 64 + b.length + 63) / 64) = l
    have : ∀ (l : List Nat) (u : State), (l.foldl (fun s i =>
      let line := a / 64 * 64 + 64 * i
      let o := a - line
      let part := if i = 0 then List.replicate o none ++ ((b.take (64 - o)).map some)
        else ((b.drop (line - a)).take 64).map some
      s.bufferStore t th line part) u).mem = u.mem := by
      intro l; induction l with
      | nil => intro u; rfl
      | cons c r ih => intro u; rw [List.foldl_cons, ih]; exact bufferStore_mem _ _ _ _ _
    exact this l s
  · rfl

end Sys2Proof.Laws
end

