-- ==== Sys2Proof/Laws/Window.lean ====
section
/-! SUPPORT. The host window: where its addresses lie, and what bursts read and write. -/

namespace Sys2Proof.Laws

open Sys2Proof.Machine

/-- An address of the host window is in no scratchpad, T1 or NVS. -/
theorem window_not_tier {ch : Nat} {x : Nat} (h1 : windowBase ch ≤ x) :
    isT0 x = false ∧ isT1 x = false ∧ isNvs x = false := by
  simp only [windowBase] at h1
  refine ⟨?_, ?_, ?_⟩
  · rw [Bool.eq_false_iff]; intro hostAddr_window; simp only [isT0, decide_eq_true_eq] at hostAddr_window; omega
  · rw [Bool.eq_false_iff]; intro hostAddr_window; simp only [isT1, Bool.and_eq_true, decide_eq_true_eq] at hostAddr_window; simp only [t1Base, t1Size] at hostAddr_window; omega
  · rw [Bool.eq_false_iff]; intro hostAddr_window; simp only [isNvs, Bool.and_eq_true, decide_eq_true_eq] at hostAddr_window; simp only [nvsBaseAddr, nvsSize] at hostAddr_window; omega

/-- The base of channel 0. -/
theorem windowBase_zero : windowBase 0 = 0x090000000000 := rfl

/-- The end of the host windows. -/
theorem windowBase_end : windowBase 2 = 0x090100000000 := rfl

/-- The base of a channel. -/
theorem windowBase_eq (ch : Nat) : windowBase ch = 0x090000000000 + ch * 0x80000000 := rfl

/-- An address of a data window lies in the host windows. -/
theorem window_range {ch k : Nat} (hl : ch < 2) (h : k < 0x04400000) : windowBase 0 ≤ windowBase ch + k ∧ windowBase ch + k < windowBase 2 := by
  rw [windowBase_zero, windowBase_end, windowBase_eq]; omega

/-- The channel of an address of a data window. -/
theorem window_chan {ch k : Nat} (hl : ch < 2) (h : k < 0x04400000) : (windowBase ch + k - windowBase 0) / 0x80000000 = ch := by rw [windowBase_zero, windowBase_eq]; omega

/-- The channel byte address of an address of a data window. -/
theorem window_offset {ch k : Nat} (hl : ch < 2) (h : k < 0x04400000) : (windowBase ch + k - windowBase 0) % 0x80000000 = k := by rw [windowBase_zero, windowBase_eq]; omega

/-- What an address of a data window names (R28). -/
theorem hostAddr_window {ch k : Nat} (hl : ch < 2) (h : k < 0x04400000) : hostAddr (windowBase ch + k) = some (ch, k) := by
    unfold hostAddr
    rw [if_pos (window_range hl h), window_chan hl h, window_offset hl h]

/-- The data window is backed by SRAM (R25). -/
theorem sramBacked_window {k : Nat} (h : k < 0x04400000) : sramBacked k = true := by
  simp [sramBacked]; omega

/-- Backing follows the channel byte address. -/
theorem isSram_of_hostAddr {a c k : Nat} (hostAddr_window : hostAddr a = some (c, k)) : isSram a = sramBacked k := by
  unfold isSram; rw [hostAddr_window]

/-- An address of a data window is SRAM. -/
theorem isSram_window {ch : Nat} (hl : ch < 2) {k : Nat} (h : k < 0x04400000) : isSram (windowBase ch + k) = true := by
  rw [isSram_of_hostAddr (hostAddr_window hl h)]; exact sramBacked_window h

/-- A burst written into a data window puts its enabled bytes there. -/
theorem burstWrite_window {s : State} {ch : Nat} (hl : ch < 2) (a mask : Nat) (data : List Byte) (h4 : a < 0x04400000) :
    s.burstWrite ch a data mask = { s with mem := Memory.putList s.kindOf (data.length + 1) s.mem (windowBase ch + a) ((List.range data.length).map (fun i => if bit mask i = 1 then some (PByte.mk (data.getD i 0) false) else none)) } := by
  have h0 := window_not_tier (ch := ch) (x := windowBase ch + a) (by omega)
  have hs := isSram_window hl h4
  have hpm : ∀ n, s.premerge (windowBase ch + a) n = s := by
    intro n; simp [State.premerge, State.kindOf, h0]
  have hmk : ∀ (t : State) n, t.markWritten (windowBase ch + a) n = t := by
    intro t n; simp [State.markWritten, h0]
  have hkeep : (List.range data.length).map (fun i => if s.isWithdrawn (windowBase ch + a + i) then none else
          (((List.range data.length).map (fun i => if bit mask i = 1 then some (PByte.mk (data.getD i 0) false) else none)).getD i none)) =
          (List.range data.length).map (fun i => if bit mask i = 1 then some (PByte.mk (data.getD i 0) false) else none) := by
    refine List.map_congr_left (fun i hi => ?_)
    have hi := List.mem_range.1 hi
    have hk := window_not_tier (ch := ch) (x := windowBase ch + a + i) (by omega)
    have : s.isWithdrawn (windowBase ch + a + i) = false := by simp [State.isWithdrawn, hk]
    simp [this, hi]
  simp only [State.burstWrite]
  rw [if_pos h4]
  simp only [State.storeMasked, h0, hs, hpm, hmk, List.length_map, List.length_range]
  rw [hkeep]
  simp

/-- Words past the register page read as the fill byte. -/
theorem readWords_fill (s : State) (ch : Nat) : ∀ n a, 0x04D11000 ≤ a → s.readWords ch a n = (s, List.replicate (8 * n) 0xF1) := by
  intro n; induction n with
  | zero => intro a _; rfl
  | succ n ih =>
    intro a h
    have h1 : sramBacked a = false := by simp [sramBacked]; omega
    have h2 : ¬ (0x04D00000 ≤ a ∧ a < 0x04D11000) := by omega
    simp only [State.readWords, h1, h2, if_false, Bool.false_eq_true, ih (a + 8) (by omega), fill]
    rw [List.replicate_append_replicate]; congr 2; omega

/-- Words of a data window with no error read as they stand. -/
theorem readWords_window (s : State) (ch : Nat) : ∀ n a, a + 8 * n ≤ 0x04400000 → (∀ i, i < 8 * n → cellGet s.mem.tag (windowBase ch + a + i) = 0) →
    s.readWords ch a n = (s, cellGets s.mem.data (windowBase ch + a) (8 * n)) := by
  intro n; induction n with
  | zero => intro a _ _; rfl
  | succ n ih =>
    intro a h ht
    have h1 : sramBacked a = true := by simp [sramBacked]; omega
    have h3 : s.readSramWord (windowBase ch + a) = (s, cellGets s.mem.data (windowBase ch + a) 8, false) := by
      have : s.mem.wordMarks (windowBase ch + a) = List.replicate 8 0 := by
        simp only [Memory.wordMarks, cellGets_eq]
        rw [List.eq_replicate_iff]; simp
        intro i hi; exact ht i (by omega)
      simp [State.readSramWord, this]
    simp only [State.readWords, h1, h3, if_true]
    rw [ih (a + 8) (by omega) (fun i hi => by have := ht (8 + i) (by omega); rwa [show windowBase ch + a + (8 + i) = windowBase ch + (a + 8) + i by omega] at this)]
    simp only [Prod.mk.injEq, true_and, cellGets_eq, Bool.false_eq_true, if_false]
    rw [show 8 * (n + 1) = 8 + 8 * n by omega, List.range_add]
    simp [Nat.add_assoc]

/-- A channel that serves is one of two. -/
theorem portServes_lt {s : State} {ch : Nat} (h : s.portServes ch = true) : ch < 2 := by
  simp [State.portServes, State.portUp] at h; omega

/-- A channel that is up is one of two. -/
theorem portUp_lt {s : State} {ch : Nat} (h : s.portUp ch = true) : ch < 2 := by
  simp [State.portUp] at h; omega

/-- The changed channel. -/
theorem chan_modChan_same {s : State} {ch : Nat} (h : ch < 2) (f) : (s.modChan ch f).chan ch = f (s.chan ch) := by
  simp [State.modChan, State.chan, vget, vmod, h]

/-- Two words of the register page. -/
theorem readWords_page (s : State) (ch n a : Nat) (h1 : sramBacked a = false) (h2 : 0x04D00000 ≤ a ∧ a < 0x04D11000) :
    s.readWords ch a (n + 1) = ((s.readWords ch (a + 8) n).1, (s.pageWord ch a ++ s.pageWord ch (a + 4)) ++ (s.readWords ch (a + 8) n).2) := by
  rw [State.readWords]; rw [if_neg (by rw [h1]; exact Bool.false_ne_true), if_pos h2]

/-- The burst of the event ring registers. -/
theorem readWords_events (s : State) (ch : Nat) : s.readWords ch 0x04D01000 4 = (s, toLe 4 (s.chan ch).evHead ++ toLe 4 (s.chan ch).evTail ++ toLe 4 (s.chan ch).evLost.count.toNat ++
        toLe 4 (b2n (s.chan ch).evLost.sat) ++ List.replicate 16 0) := by
  have d0 : s.pageWord ch 0x04D01000 = toLe 4 (s.chan ch).evHead := by simp [State.pageWord, State.doorbell]
  have window_range : s.pageWord ch (0x04D01000 + 4) = toLe 4 (s.chan ch).evTail := by simp [State.pageWord, State.doorbell]
  have window_chan : s.pageWord ch (0x04D01000 + 8) = toLe 4 (s.chan ch).evLost.count.toNat := by simp [State.pageWord, State.doorbell]
  have window_offset : s.pageWord ch (0x04D01000 + 8 + 4) = toLe 4 (b2n (s.chan ch).evLost.sat) := by simp [State.pageWord, State.doorbell]
  have dz : ∀ a, 0x04D01010 ≤ a → a < 0x04D01020 → s.pageWord ch a = List.replicate 4 0 := by
    intro a h1 h2
    have z : s.doorbell ch (a - 0x04D00000) = 0 := by simp only [State.doorbell]; repeat' rw [if_neg (by omega)]
    simp only [State.pageWord]; rw [if_pos (by omega), z]; decide
  have sramBacked_window : ∀ a, 0x04D00000 ≤ a → sramBacked a = false := by intro a h; simp [sramBacked]; omega
  rw [readWords_page s ch 3 _ (sramBacked_window _ (by omega)) (by omega), readWords_page s ch 2 _ (sramBacked_window _ (by omega)) (by omega),
    readWords_page s ch 1 _ (sramBacked_window _ (by omega)) (by omega), readWords_page s ch 0 _ (sramBacked_window _ (by omega)) (by omega), State.readWords,
    d0, window_range, window_chan, window_offset, dz _ (by omega) (by omega), dz _ (by omega) (by omega), dz _ (by omega) (by omega), dz _ (by omega) (by omega)]
  simp only [List.append_assoc]
  rfl

/-- Waking a domain changes the power state alone. -/
theorem wakeDomain_shape (s : State) (d : Nat) : ∃ p, s.wakeDomain d = { s with pwr := p } := by
  unfold State.wakeDomain; split
  · exact ⟨s.pwr, rfl⟩
  · exact ⟨_, rfl⟩

/-- Ungating changes the power state alone. -/
theorem ungate_shape (s : State) : ∃ p, s.ungate = { s with pwr := p } := by
  unfold State.ungate
  generalize (List.range 96).filter gateable = l
  induction l generalizing s with
  | nil => exact ⟨s.pwr, rfl⟩
  | cons d t ih =>
    obtain ⟨p, hp⟩ := wakeDomain_shape s d
    obtain ⟨p', hp'⟩ := ih (s.wakeDomain d)
    refine ⟨p', ?_⟩
    rw [List.foldl_cons, hp', hp]

/-- Judging whether the host is idle changes the power state alone. -/
theorem syncIdle_shape (s : State) : ∃ p, s.syncIdle = { s with pwr := p } := by
  unfold State.syncIdle; split
  · exact ⟨_, rfl⟩
  · split
    · dsimp only; split
      · obtain ⟨p, hp⟩ := ungate_shape { s with pwr := { s.pwr with hostIdle := false } }
        exact ⟨p, by rw [hp]⟩
      · exact ⟨_, rfl⟩
    · exact ⟨s.pwr, rfl⟩

end Sys2Proof.Laws
end

