-- ==== Sys2Proof/Tests/Slice0.lean ====
section
/-! SUPPORT. Tests: ill-formed terms refused, instruction words read, single steps with results from the spec, and a witness for the
hypotheses of each statement. -/

set_option Elab.async false

namespace Sys2Proof.Tests

open Sys2Proof Sys2Proof.Machine

/-! ### States and commands the tests use -/

/-- A machine that has started: every supply valid, every milestone reached, both channels active, the crystal and the PLL
stable, pair B shadowing. -/
def up : State :=
  { State.reset with
    time := ⟨20000000000, true, false⟩
    port := { PortSt.reset with resetN := true, chans := Vector.replicate 2 { PortChan.reset with mode := .active, awake := .active } }
    clk := { ClkSt.reset with src := true, cands := Vector.replicate 6 ⟨8, true⟩ }
    start := ⟨.accepting, 0, 1, 0, Vector.replicate 11 true, true, 0, 31, 0⟩
    cox := { CoxSt.reset with standby := 1, version := 1, current := ⟨1, 256⟩ }
    fault := { FaultSt.reset with bridge := ⟨true, true, 0, false, 0, false⟩ } }

/-- A dispatched command of an opcode with its parameters, each a value and its length. -/
def mk (op : Nat) (ps : List (Nat × Nat)) : Cmd :=
  let b := ps.flatMap (fun p => toLe p.2 p.1)
  { uid := 0, opcode := op, flags := 0, seq := 0, client := 0, ctx := none, deadline := none, decoded := 0
    params := b ++ List.replicate (44 - b.length) 0, phase := .ready, inFlight := true, late := false, sag := false
    ackDue := false }

/-- The same command with a context. -/
def mkc (op id : Nat) (ps : List (Nat × Nat)) : Cmd := { mk op ps with ctx := some id }

/-- A state whose queue 0 holds one command. -/
def wc (s : State) (c : Cmd) : State := s.modQueue 0 (fun u => { u with cmds := [c] })

/-- A model with one phase and one placement of one tile. -/
def aModel : Model :=
  { state := .cold, pinned := false, inUse := 0, keySlot := 0, modelId := 1, version := 1, len := 4096, sections := []
    phases := [⟨0, 0, 0, true, false, false, 1, 0, 0, 256, 256, 0, 0, 0⟩]
    placements := [⟨1, 1, 1, false, 0x10000, 4096, 0, 0, 0, 0, 1000⟩], fetches := [], relocs := [], seq := none
    seqBytes := [], hotAt := [], digest := 0, home := ⟨0, 1⟩, warm := some ⟨0, 1⟩, variants := none, hotTiles := [], lastUse := 0, swapTo := none
    swapUid := 0, waits := [], safe := none }

/-- A list of a sequence with no row. -/
def aList : KvList := ⟨0, 0, 0, 0, 0, 0, false, [], []⟩

/-- A sequence of one layer and one head. -/
def aSeq : SeqCtx := ⟨0, 1, 1, 0, 0, 0, 0, 0, [aList]⟩

/-- A context of a kind. -/
def aCtx (kind : Nat) : Ctx :=
  { kind := kind, torn := false, model := 1, seed := 0, drawn := false, client := 0, step := false, noSpill := false
    seq := if kind = 0 then some aSeq else none, job := JobCtx.reset, spill := none, track := none, plan := PlanCtx.reset }

/-- The state with contexts whose tables are written: their descriptors, and list directories of 32 bytes in frame 0. -/
def withCtx (s : State) (l : List (Nat × Ctx)) : State :=
  { s with ctxs := l, mem := ⟨[], (List.range 32).map (fun i => ⟨frameAddr 0 + i, 1⟩) ++
      l.flatMap (fun x => (List.range 128).map (fun i => ⟨t1Base + 128 * x.1 + i, 1⟩))⟩ }
/-- The state with bytes in T1 or NVS and nothing else in memory. -/
def withBytes (s : State) (a : Nat) (l : List Byte) : State :=
  { s with mem := ⟨(l.zipIdx.filter (fun x => x.1 != 0)).map (fun x => ⟨a + x.2, x.1⟩), l.zipIdx.map (fun x => ⟨a + x.2, 1⟩)⟩ }
/-- A lattice table of one dimension of 16 and one primitive. -/
def aTable : List Byte :=
  [1, 0, 1, 0] ++ toLe 4 8 ++ toLe 12 16 ++ [0xFF, 0xFF, 0xFF, 0, 1, 1, 1, 0] ++ List.replicate 36 0 ++ toLe 4 0 ++ toLe 28 1
/-- Little-endian fields, each a value and its length, as bytes. -/
def fields (l : List (Nat × Nat)) : List Byte := l.flatMap (fun p => toLe p.2 p.1)
/-- A P-384 public key made for these tests. -/
def keyX : Nat := 0xb09cd9683d2182dd616f1fc39003e82f52fc0664e692a087a405684e36d8271c6b07c7e0439c3348e0acf447e8a8d475
def keyY : Nat := 0x3b29bee4dfd868664a5523bdbcb3cbfebe6431fe5cbc90db4be8176aa081ed0ea55659e8be2d6c61f18f098e02d31981
/-- A firmware image of 256 bytes that the key verifies. -/
def fwImg : List Byte :=
  fields
    [(0x4d385a54, 4), (2, 2), (1, 2), (256, 8), (0, 1), (1, 1), (0, 2), (0x1000000, 4), (0, 40), (257, 2), (0, 2),
   (8, 4), (80, 8), (0x1000000, 4), (0, 76)] ++
    toBe 48 0xbd6a16b6bc65d52619b896f67ef63bce4bade00c604e723d3520c8e4cd06fd99b921a542a904dbc44fdcf3c9eb31c045 ++
    toBe 48 0x43f560d7fb5a00a19348c44f0bb8f388581e8c77d5f630261f3eacf632167f0069dff98a256e1088e334dd0c16d9a766
/-- A model image of 424 bytes that the key verifies: one phase, one placement, one instruction. -/
def modelImg : List Byte :=
  fields
    [(0x4d385a54, 4), (1, 2), (1, 2), (424, 8), (0, 1), (4, 1), (1, 2), (0, 44), (1, 2), (0, 2), (64, 4), (128, 8),
   (2, 2), (0, 2), (64, 4), (192, 8), (3, 2), (0, 2), (8, 4), (256, 8), (4, 2), (0, 2), (64, 4), (264, 8), (0, 4),
   (1, 1), (1, 1), (0, 2), (0, 8), (256, 4), (256, 4), (0, 40), (1, 1), (1, 1), (1, 1), (0, 5), (4096, 4), (0, 52),
   (0, 8), (0, 64)] ++
    toBe 48 0xd042ff3ae593b950fecadf6fcbba5f24a737b98a71bd1e638bba8b255a1172f38756d5f019ef7c33237315e670320e6c ++
    toBe 48 0xa98c0095d81ff4ffc5ace94db55b7e981de102d3bf46495e71e56eade9688532a74865c62fe7f99d0e672d6975202b14
/-- The state with bytes in a data window, and the key in slot 0. -/
def withWindow (s : State) (l : List Byte) : State :=
  { s with mem := ⟨(l.zipIdx.filter (fun x => x.1 != 0)).map (fun x => ⟨0x090000001000 + x.2, x.1⟩), []⟩
           boat := { s.boat with keys := vset s.boat.keys 0 (some (keyX, keyY, false)) } }
/-- The state with models. -/
def withModels (s : State) (l : List (Nat × Model)) : State := { s with boat := { s.boat with models := l } }

/-- A job of context 1 in a state. -/
def aJob (st : StepState) : Job :=
  { uid := 9, ctx := 1, client := 0, model := 1, phase := 0, named := none, oppoint := 0, inAddr := t1Base + 0x2000000000
    outAddr := t1Base + 0x2000001000, total := 1, step := 0, ended := 0, noDegrade := false, state := st, readyAt := 0
    counted := true, placement := 0, tiles := [0], dispatchedAt := 0, order := 0, stoppedAt := 0, pausedHalf := 0
    areas := [], spillCtx := none, saved := [], boundary := false, flags := 0, detailHi := 0, degraded := false
    approx := false, appends := [], oldAppends := [], kvStatus := 0, arrived := [], layerArrived := [], lateLayers := []
    merged := false, semTaken := false, poisonRaised := false, avoid := [], urgent := false, cancelled := false
    checks := [], repechage := false, mismatch := false, frame := 0, goldenArea := none, inGolden := false
    goldenFlags := none, vflags := 0, charged := [], staleMask := 0, attemptAt := 0, invalids := 0, blamed := 0xFFFF, picked := none
    owed := [] }

/-- The state with one job. -/
def withJob (s : State) (j : Job) : State := { s with sched := { s.sched with jobs := [j] } }

/-- A machine in which thread 0 of tile 0 runs for a job of context 1, a sequence. -/
def busy : State :=
  ((withJob (withModels (withCtx up [(1, aCtx 0)]) [(1, { aModel with inUse := 1 })]) (aJob .running)).modTile 0 (fun t =>
    { t with ctx := some 1, size := 1, mode := .running })).modThread 0 0 (fun h => { h with started := true, pc := 0x10000 })

/-- `busy` with X1 holding a value. -/
def x1 (v : Nat) : State := busy.modThread 0 0 (fun h => h.setX 1 v false)

/-- Frames can be had where one gap of the pool holds them. -/
theorem frames_there (s : State) (n a m : Nat) (hg : gaps s.boat.pool s.poolLo s.poolHi = [⟨a, m⟩]) (h : n ≤ m) :
    (s.enterFrames n).isSome = true ∧ (s.allocFrames n).isSome = true := by
  have h1 : Config.freeValue s.free % (m - n + 1) < m - n + 1 := Nat.mod_lt _ (by omega)
  have h2 : Config.freeValue s.free % (m - n + 1) ≤ m - n := by omega
  have e : (s.enterFrames n).isSome = true := by
    first
      | (simp [State.enterFrames, State.draw, hg, pickPlace, h, h1]; done)
      | simp [State.enterFrames, State.draw, hg, pickPlace, h, h2]
  refine ⟨e, ?_⟩
  unfold State.allocFrames
  cases h3 : s.enterFrames n with
  | none => rw [h3] at e; cases e
  | some r => rfl

/-- No range is held while every channel is usable. -/
theorem free_range (s : State) (a n : Nat) (h : ∀ c < 256, s.quarantined 4 c = false ∧ s.retired 4 c = false)
    (h' : isNvs a = false) : s.heldRange a n = false := by
  have hc (o : Nat) : t1Chan o < 256 := by unfold t1Chan bits; omega
  unfold State.heldRange
  split
  · rfl
  split
  · simp [h _ (hc _)]
  · simp [h']

/-- A word of T1 in use that holds no error and no poison. -/
def wordOk (s : State) (w : Nat) : Bool :=
  isT1 w && isT1 (w + 7) && !s.isWithdrawn w && (s.flawOf (w / 64 * 64)).isEmpty && !(s.mem.wordMarks w).contains 0

/-- Words of a range that are so. -/
def cleanWords (s : State) (a m : Nat) : Bool := (List.range m).all (fun i => wordOk s (a + 8 * i))

/-- A byte of such a word reads as it is stored. -/
theorem byte_ok (s : State) (a : Nat) (h : wordOk s (a / 8 * 8) = true) : s.readPByte a = ⟨s.mem.byte a, false⟩ := by
  simp only [wordOk, Bool.and_eq_true, Bool.not_eq_true'] at h
  obtain ⟨⟨⟨⟨h1, h2⟩, h3⟩, h4⟩, h5⟩ := h
  have e : a / 8 * 8 / 64 * 64 = a / 64 * 64 := by omega
  rw [e] at h4
  simp only [isT1, t1Base, t1Size, Bool.and_eq_true] at h1 h2
  have g1 := of_decide_eq_true h1.1
  have g2 := of_decide_eq_true h2.2
  have n1 : isNvs a = false := by
    unfold isNvs nvsBaseAddr
    rw [decide_eq_false (by omega), Bool.false_and]
  have n2 : isSram a = false := by
    have : hostAddr a = none := by
      unfold hostAddr windowBase
      split
      · omega
      · rfl
    unfold isSram
    rw [this]
  unfold State.readPByte State.storedByte
  rw [h3]
  simp [n1, n2, h4, -List.contains_eq_mem]
  exact h5

/-- A range of whole words none of which is poisoned. -/
theorem no_poison (s : State) (a m : Nat) (ha : a % 8 = 0) (h : cleanWords s a m = true) : s.anyPoison a (8 * m) = false := by
  simp only [cleanWords, List.all_eq_true, List.mem_range] at h
  simp only [State.anyPoison, State.peek, List.any_map, List.any_eq_false, List.mem_range, Function.comp]
  intro i hi
  have e : (a + i) / 8 * 8 = a + 8 * (i / 8) := by omega
  rw [byte_ok s (a + i) (e ▸ h (i / 8) (by omega))]
  simp

/-- What a range of clean words reads as. -/
theorem read_clean (s : State) (a m : Nat) (l : List Byte) (ha : a % 8 = 0) (h : cleanWords s a m = true)
    (hl : l = (List.range (8 * m)).map (fun i => s.mem.byte (a + i))) : l = vals (s.peek a (8 * m)) := by
  simp only [cleanWords, List.all_eq_true, List.mem_range] at h
  rw [hl]
  simp only [vals, State.peek, List.map_map]
  refine List.map_congr_left (fun i hi => ?_)
  rw [List.mem_range] at hi
  have e : (a + i) / 8 * 8 = a + 8 * (i / 8) := by omega
  simp [byte_ok s (a + i) (e ▸ h (i / 8) (by omega))]

/-- A context whose tables hold no poisoned word. -/
theorem tables_good (s : State) (id : Nat) (x : Ctx) (hx : s.ctx id = some x) (h1 : cleanWords s (t1Base + id * 128) 16 = true)
    (h2 : ∀ q, x.seq = some q → cleanWords s (frameAddr q.dir) (4 * q.lists.length) = true ∧ ∀ l ∈ q.lists, l.blocks = []) :
    s.tablesBad id = false := by
  have e := no_poison s (t1Base + id * 128) 16 (by unfold t1Base; omega) h1
  simp only [State.tablesBad, hx]
  rw [show (128 : Nat) = 8 * 16 from rfl, e]
  cases hq : x.seq with
  | none => rfl
  | some q =>
    obtain ⟨h3, h4⟩ := h2 q hq
    have e2 := no_poison s (frameAddr q.dir) (4 * q.lists.length) (by unfold frameAddr t1Base; omega) h3
    rw [show 8 * (4 * q.lists.length) = 32 * q.lists.length by omega] at e2
    have e3 : (q.lists.any fun l => l.blocks.any fun b => s.anyPoison (frameAddr b) 4096) = false := by
      rw [List.any_eq_false]
      intro l hl
      simp [h4 l hl]
    simp [e2, e3]

/-- The same, decided. -/
theorem tables_good' (s : State) (id : Nat) (x : Ctx) (hx : s.ctx id = some x)
    (h : (cleanWords s (t1Base + id * 128) 16 && (match x.seq with
      | none => true
      | some q => cleanWords s (frameAddr q.dir) (4 * q.lists.length) && q.lists.all (fun l => l.blocks == []))) = true) :
    s.tablesBad id = false := by
  rw [Bool.and_eq_true] at h
  refine tables_good s id x hx h.1 (fun q hq => ?_)
  have h' := h.2
  rw [hq] at h'
  simpa [List.all_eq_true] using h'

/-- The first 128 bytes of T0 written. -/
def mark0 (s : State) : State := { s with mem := { s.mem with tag := (List.range 128).map (fun i => ⟨i, 1⟩) ++ s.mem.tag } }

/-- A pair that is there is the pair of its parts. -/
theorem pair_there {α β : Type} {o : Option (α × β)} (h : o.isSome = true) : o = some ((o.get h).1, (o.get h).2) := by
  cases o with
  | none => simp at h
  | some v => rfl
/-- A value that is there. -/
theorem there {α : Type} {o : Option α} (h : o.isSome = true) : o = some (o.get h) := by
  cases o with
  | none => simp at h
  | some v => rfl
/-- An answer that is no error. -/
theorem eval_ok {α β : Type} {o : Except α β} (h : o.toOption.isSome = true) : o = .ok (o.toOption.get h) := by
  cases o with
  | error e => simp [Except.toOption] at h
  | ok v => rfl
/-- One page can be fetched where one frame can be had. -/
theorem fetch_one (s : State) (id n i : Nat) (h : (s.allocFrames 1).isSome = true) :
    (s.fetchAll id [(n, i)]).toOption.isSome = true := by
  obtain ⟨r, hr⟩ := Option.isSome_iff_exists.mp h
  simp [State.fetchAll, State.startFetch, State.takeFrame, State.takeFrames, hr, Except.toOption]
/-- A state and a reply are the parts of the pair they are in. -/
theorem res_parts {α β : Type} {p : α × β} {r : β} (h : p.2 = r) : p = (p.1, r) := h ▸ rfl
/-- A pair is that of its parts. -/
theorem pair_eta {α β : Type} (p : α × β) : p = (p.1, p.2) := rfl
/-- An answer that is this value. -/
theorem ok_is {α β : Type} {o : Except α β} {v : β} (h : o.toOption = some v) : o = .ok v := by
  cases o with
  | error e => simp [Except.toOption] at h
  | ok w => simpa [Except.toOption] using h
/-- No channel is held in a state whose units are as at manufacture. -/
theorem units_free (s : State) (h : s.fault.units = FaultSt.reset.units) :
    ∀ c < 256, s.quarantined 4 c = false ∧ s.retired 4 c = false := by
  intro c hc
  have e : s.unit 4 c = UnitRec.reset := by
    have e : vget UnitRec.reset s.fault.units (unitBase 4 + c) = UnitRec.reset := by
      rw [h]
      unfold vget
      split <;> simp [FaultSt.reset]
    unfold State.unit
    split <;> simp [e]
  unfold State.quarantined State.retired
  rw [e]
  decide

/-- Then the lap has channels. -/
theorem lap_some (s : State) (h : s.fault.units = FaultSt.reset.units) : s.lapChans ≠ [] := by
  have e : 0 ∈ s.lapChans := by
    unfold State.lapChans
    simp [(units_free s h 0 (by decide)).2]
  intro e2
  rw [e2] at e
  cases e

/-- No line is scrubbed in a store as at manufacture. -/
theorem lap_small (s : State) (h : s.store.chans = StoreSt.reset.chans) (c : Nat) : s.lapDone c ≤ 2 ^ 22 := by
  have e : (vget ChanRec.reset s.store.chans c).scrubbed = [] := by
    rw [h]
    unfold vget
    split <;> simp [StoreSt.reset, ChanRec.reset]
  unfold State.lapDone
  rw [e]
  simp

/-- What the search of a query reads. -/
def planJobOf (s : State) (x : Lattice) (q : PlanQuery) : PlanJob :=
  ⟨parseLat (vals (s.latTable x)) x.prims, x.addr, s.latTable x, q.goal, q.weight, q.base, q.edge⟩

/-- A lattice table written in T1 beside the tables of the contexts. -/
def withTable (s : State) : State :=
  { s with mem := ⟨(aTable.zipIdx.filter (fun x => x.1 != 0)).map (fun x => ⟨0x4020000000 + x.2, x.1⟩),
      s.mem.tag ++ aTable.zipIdx.map (fun x => ⟨0x4020000000 + x.2, 1⟩)⟩ }

/-- A channel whose mode registers all hold 0x30 checks write link ECC, whether or not a set point has its own copy of MR22. -/
theorem wecc_on (c : PortChan) (h : c.modeRegs = Vector.replicate 3 (Vector.replicate 256 0x30)) : c.wecc = true := by
  unfold PortChan.wecc PortChan.fspOp PortChan.modeReg
  rw [h]
  rcases Bool.eq_false_or_eq_true (mrShared 22) with h2 | h2 <;> rw [h2] <;> decide +kernel

/-- Three values are those of the triple they are in. -/
theorem triple_eta {α β γ : Type} (p : α × β × γ) : p = (p.1, p.2.1, p.2.2) := rfl
/-- An answer that is this error. -/
theorem err_is {α β : Type} {o : Except α β} {e : α} (h : (match o with | .error x => some x | .ok _ => none) = some e) : o = .error e := by
  cases o with
  | error x => simpa using h
  | ok v => simp at h

/-! ### Well-formed and ill-formed terms -/

/-- Each term has one operand at the first value out of its range, and is refused. -/
theorem test_ill_formed_1 : ([
    .hostRead 2 ⟨.flat 15, 0, 0⟩ false [], .hostRead 0 ⟨.flat 15, 65536, 0⟩ false [],
    .hostRead 0 ⟨.flat 15, 0, 1024⟩ false [], .evLostRead 2, .hostWrite 2 ⟨.flat 15, 0, 0⟩ [] 0 0,
    .hostWrite 0 ⟨.flat 15, 65536, 0⟩ [] 0 0, .hostWrite 0 ⟨.flat 15, 0, 1024⟩ [] 0 0,
    .hostWrite 0 ⟨.flat 15, 0, 0⟩ [] 0 3, .modeRegisterWrite 2 0 0, .modeRegisterWrite 0 256 0,
    .modeRegisterWrite 0 0 256, .modeRegisterRead 2 0, .modeRegisterRead 0 256, .linkTraining 2 0 0,
    .linkTraining 0 5 0, .zqCalibration 2, .postPackageRepair 2, .refresh 2 0, .powerDownEntry 2, .powerDownExit 2,
    .selfRefreshEntry 2 false, .selfRefreshExit 2, .deepSleepEntry 2, .deepSleepExit 2, .sqTailWrite 128 0,
    .sqTailWrite 0 4294967296, .rqHeadWrite 128 0, .rqHeadWrite 0 4294967296, .evHeadWrite 2 0,
    .evHeadWrite 0 4294967296, .commandDispatch 128, .commandComplete 128, .deadlinePassed 128 0, .sysPing 128 0,
    .sysRegRead 128 0, .sysRegWrite 128 0, .tileArithStatusWrite 128 0 0, .loopSatClear 128 0 0,
    .fuseSRingWrite 36 0 0, .sysStatus 128 0, .sysCounterRead 128 0, .sysEventMask 128 0, .sysQueueSync 128 0,
    .memPull 128 0 [], .memPush 128 0 []] : List Instr).all (fun i => !i.wf) = true := by decide +kernel

/-- Each term has one operand at the first value out of its range, and is refused. -/
theorem test_ill_formed_2 : ([
    .memCopy 128 0 [], .memFill 128 0, .memMode 128 0, .memScrub 128 0, .memSpillarea 128 0, .modelLoad 128 0,
    .modelEvict 128 0, .modelPin 128 0, .modelSwap 128 0, .modelTier 128 0, .modelInfo 128 0, .jobSubmit 128 0,
    .jobCancel 128 0, .schedClient 128 0, .schedStats 128 0, .semAlloc 128 0, .semFree 128 0, .ctxOpen 128 0,
    .ctxClose 128 0, .kvAppend 128 0, .kvTrim 128 0, .kvMove 128 0, .kvFetch 128 0, .kvStats 128 0,
    .planLattice 128 0, .planMap 128 0, .planQuery 128 0, .planCancel 128 0, .planSearchEnd 4 0, .fuseStream 128 0,
    .fuseXform 128 0, .fuseLink 128 0, .fuseTracks 128 0, .fuseOut 128 0, .fuseEnable 128 0, .strokeChain 128 0,
    .strokeLoop 128 0, .strokeProfile 128 0, .strokeLimit 128 0, .strokeTarget 128 0, .strokeEnable 128 0,
    .strokeTune 128 0, .strokeFf 128 0, .safeJob 128 0, .safeFrozen 128 0] : List Instr).all (fun i => !i.wf) = true := by decide +kernel

/-- Each term has one operand at the first value out of its range, and is refused. -/
theorem test_ill_formed_3 : ([
    .safeSelftest 128 0, .pwrCap 128 0, .pwrSag 128 0, .pwrHint 128 0, .pwrState 128 0, .pwrLock 128 0,
    .clkSource 128 0, .clkOut 128 0, .netPort 128 0, .netVlan 128 0, .netShaper 128 0, .netFilter 128 0,
    .netTemplate 128 0, .netKey 128 0, .faultStatus 128 0, .faultRetire 128 0, .faultProbe 128 0, .faultBucket 128 0,
    .fwStage 128 0, .fwHandover 128 0, .secKey 128 0, .secVerify 128 0, .aluReg 128 0 0 0 0 0, .aluReg 0 128 0 0 0 0,
    .aluReg 0 0 64 0 0 0, .aluReg 0 0 0 32 0 0, .aluReg 0 0 0 0 32 0, .aluReg 0 0 0 0 0 32, .aluImm 128 0 0 0 0 0,
    .aluImm 0 128 0 0 0 0, .aluImm 0 0 64 0 0 0, .aluImm 0 0 0 32 0 0, .aluImm 0 0 0 0 32 0,
    .aluImm 0 0 0 0 0 4294967296, .compare 128 0 0 0 0, .compare 0 128 0 0 0, .compare 0 0 64 0 0,
    .compare 0 0 0 32 0, .compare 0 0 0 0 32, .branch 128 0 0 0, .branch 0 128 0 0, .branch 0 0 64 0,
    .branch 0 0 0 4294967296, .load 128 0 0 0 0 0 [], .load 0 128 0 0 0 0 []] : List Instr).all (fun i => !i.wf) = true := by decide +kernel

/-- Each term has one operand at the first value out of its range, and is refused. -/
theorem test_ill_formed_4 : ([
    .load 0 0 64 0 0 0 [], .load 0 0 0 32 0 0 [], .load 0 0 0 0 32 0 [], .load 0 0 0 0 0 4294967296 [],
    .store 128 0 0 0 0 0, .store 0 128 0 0 0 0, .store 0 0 64 0 0 0, .store 0 0 0 32 0 0, .store 0 0 0 0 32 0,
    .store 0 0 0 0 0 4294967296, .atomic 128 0 0 0 0 0, .atomic 0 128 0 0 0 0, .atomic 0 0 64 0 0 0,
    .atomic 0 0 0 32 0 0, .atomic 0 0 0 0 32 0, .atomic 0 0 0 0 0 32, .vectorLoad 128 0 0 0 0,
    .vectorLoad 0 128 0 0 0, .vectorLoad 0 0 32 0 0, .vectorLoad 0 0 0 32 0, .vectorLoad 0 0 0 0 4294967296,
    .vectorStore 128 0 0 0 0, .vectorStore 0 128 0 0 0, .vectorStore 0 0 32 0 0, .vectorStore 0 0 0 32 0,
    .vectorStore 0 0 0 0 4294967296, .vectorOp 128 0 0 0 0 0, .vectorOp 0 128 0 0 0 0, .vectorOp 0 0 64 0 0 0,
    .vectorOp 0 0 0 32 0 0, .vectorOp 0 0 0 0 32 0, .vectorOp 0 0 0 0 0 32, .prefixScan 128 0 0 0 0 0,
    .prefixScan 0 128 0 0 0 0, .prefixScan 0 0 64 0 0 0, .prefixScan 0 0 0 32 0 0, .prefixScan 0 0 0 0 32 0,
    .prefixScan 0 0 0 0 0 32, .arrRun 128 0 0 0, .arrRun 0 128 0 0, .arrRun 0 0 32 0, .arrRun 0 0 0 32,
    .arrConv 128 0 0 0, .arrConv 0 128 0 0, .arrConv 0 0 32 0] : List Instr).all (fun i => !i.wf) = true := by decide +kernel

/-- Each term has one operand at the first value out of its range, and is refused. -/
theorem test_ill_formed_5 : ([
    .arrConv 0 0 0 32, .arrWait 128 0 0, .arrWait 0 128 0, .arrWait 0 0 32, .arrayReductionDone 128 0,
    .arrayReductionDone 0 4, .outputConversionDone 128 0, .outputConversionDone 0 4, .sweepRun 128 0 0,
    .sweepRun 0 128 0, .sweepRun 0 0 32, .sweepWait 128 0, .sweepWait 0 128, .sweepComplete 16,
    .kvGraceExpired 16 0 0, .kvFetchComplete 1048576 0 0, .kvSpillDurable 1048576 0 0, .xfRun 128 0 0,
    .xfRun 0 128 0, .xfRun 0 0 32, .xfWait 128 0, .xfWait 0 128, .xfRunComplete 8, .poolRun 128 0 0,
    .poolRun 0 128 0, .poolRun 0 0 32, .poolComplete 128, .bowStart 128 0 0 0, .bowStart 0 128 0 0,
    .bowStart 0 0 32 0, .bowStart 0 0 0 32, .bowWait 128 0 0, .bowWait 0 128 0, .bowWait 0 0 32,
    .bowDescriptor 128 0 [], .bowDescriptor 0 2 [], .fillComplete 128 0, .fillComplete 0 64, .drainComplete 128 0,
    .drainComplete 0 64, .bufWait 128 0 0 0, .bufWait 0 128 0 0, .bufWait 0 0 32 0, .bufWait 0 0 0 4294967296,
    .bufPost 128 0 0] : List Instr).all (fun i => !i.wf) = true := by decide +kernel

/-- Each term has one operand at the first value out of its range, and is refused. -/
theorem test_ill_formed_6 : ([
    .bufPost 0 128 0, .bufPost 0 0 4294967296, .bufRelease 128 0 0, .bufRelease 0 128 0, .bufRelease 0 0 4294967296,
    .stepDone 128 0, .stepDone 0 128, .fenceTile 128 0, .fenceTile 0 128, .fenceDev 128 0, .fenceDev 0 128,
    .flush 128 0 0 0, .flush 0 128 0 0, .flush 0 0 32 0, .flush 0 0 0 32, .inval 128 0 0 0, .inval 0 128 0 0,
    .inval 0 0 32 0, .inval 0 0 0 32, .crewBarrier 128 0, .crewBarrier 0 128, .layerLate 128 0 0 0,
    .layerLate 0 128 0 0, .layerLate 0 0 32 0, .layerLate 0 0 0 4294967296, .fetchDeadline 128 0,
    .fetchDeadline 0 64, .semAcquire 128 0 0 0, .semAcquire 0 128 0 0, .semAcquire 0 0 32 0, .semAcquire 0 0 0 32,
    .semRelease 128 0 0, .semRelease 0 128 0, .semRelease 0 0 32, .boostExpired 4096, .threadExit 128 0,
    .threadExit 0 128, .stepEnd 1048576, .spillDrainComplete 1048576, .spillSaveComplete 1048576,
    .resumeIssue 1048576, .teardownComplete 1048576, .lineFrameArrival 281474976710656 false [] [], .stackRefresh 32,
    .scrubAccess 281474976710656 []] : List Instr).all (fun i => !i.wf) = true := by decide +kernel

/-- Each term has one operand at the first value out of its range, and is refused. -/
theorem test_ill_formed_7 : ([
    .inputSlotReady 36, .sampleInstant 4, .chainFrameReturn 4 [], .feedbackCutoff ⟨4, []⟩, .chainClockLost 4,
    .ffCommit 4, .frameReceive 16 [] false, .frameTransmit 16, .portLink 16 false, .fdbAgeOut 8192,
    .checkRecord 128 0, .checkRecord 0 4, .checkRecordTimeout 128 0, .checkRecordTimeout 0 4, .goldenCompare 1048576,
    .tileTestDone 1048576 [], .segmentStart 8, .segmentEnd 8 false, .testDeferral 8, .checkerTestOverdue 8,
    .gapHoldElapsed 8, .internalCheckError 7 0, .probeResult 7 0 false, .probeTimeout 7 0, .fenceNotConfirmed 7 0,
    .domainGate 97, .agentAnswer 97, .agentDelayTimeout 97, .linkEnergy 16, .judgeWindow 6 0, .clockNoEdge 6,
    .temperatureBandChange 97 0, .hintIntervalBegin 4, .hintLapse 4, .ratingSlip 97, .supplyValid 11, .supplyLoss 11,
    .bringupMilestone 5, .domainWakeComplete 97, .writeAcknowledged 128 0] : List Instr).all (fun i => !i.wf) = true := by decide +kernel

/-- Each row with every bounded operand at the last value of its range is well formed. -/
theorem test_well_formed_1 : ([
    .hostRead 1 ⟨.flat 15, 65535, 1023⟩ false [], .evLostRead 1, .hostWrite 1 ⟨.flat 15, 65535, 1023⟩ [] 0 2,
    .modeRegisterWrite 1 255 255, .modeRegisterRead 1 255, .linkTraining 1 4 0, .zqCalibration 1,
    .postPackageRepair 1, .refresh 1 0, .powerDownEntry 1, .powerDownExit 1, .selfRefreshEntry 1 false,
    .selfRefreshExit 1, .deepSleepEntry 1, .deepSleepExit 1, .resetNAssert, .resetNRelease,
    .sqTailWrite 127 4294967295, .rqHeadWrite 127 4294967295, .evHeadWrite 1 4294967295, .commandRead [],
    .commandDispatch 127, .commandComplete 127, .deadlinePassed 127 0, .sysPing 127 0, .sysRegRead 127 0,
    .sysRegWrite 127 0, .registerWrite 0 0 0, .tileArithStatusWrite 127 0 0, .loopSatClear 127 0 0,
    .capLimitWrite 0 0, .capSagWrite 0 0, .tierPoolWrite 0 0 0, .fuseSRingWrite 35 0 0, .safeVerdictWrite 0 0,
    .sysStatus 127 0, .sysCounterRead 127 0, .sysEventMask 127 0, .sysQueueSync 127 0, .memPull 127 0 [],
    .memPush 127 0 [], .memCopy 127 0 [], .memFill 127 0, .memMode 127 0, .memScrub 127 0, .memSpillarea 127 0,
    .modelLoad 127 0, .modelEvict 127 0, .modelPin 127 0, .modelSwap 127 0, .modelSwapEffect 0, .modelTier 127 0,
    .modelInfo 127 0, .jobSubmit 127 0, .jobCancel 127 0, .schedClient 127 0, .schedStats 127 0, .semAlloc 127 0,
    .semFree 127 0, .ctxOpen 127 0] : List Instr).all Instr.wf = true := by decide +kernel

/-- Each row with every bounded operand at the last value of its range is well formed. -/
theorem test_well_formed_2 : ([
    .ctxClose 127 0, .kvAppend 127 0, .kvTrim 127 0, .kvMove 127 0, .kvFetch 127 0, .kvStats 127 0,
    .planLattice 127 0, .planMap 127 0, .planQuery 127 0, .planCancel 127 0, .planSearchEnd 3 0, .fuseStream 127 0,
    .fuseXform 127 0, .fuseLink 127 0, .fuseTracks 127 0, .fuseOut 127 0, .fuseEnable 127 0, .strokeChain 127 0,
    .strokeLoop 127 0, .strokeProfile 127 0, .strokeLimit 127 0, .strokeTarget 127 0, .strokeEnable 127 0,
    .strokeTune 127 0, .strokeFf 127 0, .safeJob 127 0, .safeFrozen 127 0, .safeSelftest 127 0, .pwrCap 127 0,
    .pwrSag 127 0, .pwrHint 127 0, .pwrState 127 0, .pwrLock 127 0, .clkSource 127 0, .clkOut 127 0, .netPort 127 0,
    .netVlan 127 0, .netShaper 127 0, .netFilter 127 0, .netTemplate 127 0, .netKey 127 0, .faultStatus 127 0,
    .faultRetire 127 0, .faultProbe 127 0, .faultBucket 127 0, .fwStage 127 0, .fwHandover 127 0,
    .startImageSlotWrite, .standbyReloaded false, .secKey 127 0, .secVerify 127 0, .aluReg 127 127 63 31 31 31,
    .aluImm 127 127 63 31 31 4294967295, .compare 127 127 63 31 31, .branch 127 127 63 4294967295,
    .load 127 127 63 31 31 4294967295 [], .store 127 127 63 31 31 4294967295, .atomic 127 127 63 31 31 31,
    .vectorLoad 127 127 31 31 4294967295, .vectorStore 127 127 31 31 4294967295] : List Instr).all Instr.wf = true := by decide +kernel

/-- Each row with every bounded operand at the last value of its range is well formed. -/
theorem test_well_formed_3 : ([
    .vectorOp 127 127 63 31 31 31, .prefixScan 127 127 63 31 31 31, .arrRun 127 127 31 31, .arrConv 127 127 31 31,
    .arrWait 127 127 31, .arrayReductionDone 127 3, .outputConversionDone 127 3, .sweepRun 127 127 31,
    .sweepWait 127 127, .sweepComplete 15, .kvGraceExpired 15 0 0, .kvFetchComplete 1048575 0 0,
    .kvSpillDurable 1048575 0 0, .xfRun 127 127 31, .xfWait 127 127, .xfRunComplete 7, .poolRun 127 127 31,
    .poolComplete 127, .bowStart 127 127 31 31, .bowWait 127 127 31, .bowDescriptor 127 1 [], .fillComplete 127 63,
    .drainComplete 127 63, .bufWait 127 127 31 4294967295, .bufPost 127 127 4294967295,
    .bufRelease 127 127 4294967295, .stepDone 127 127, .fenceTile 127 127, .fenceDev 127 127, .flush 127 127 31 31,
    .inval 127 127 31 31, .crewBarrier 127 127, .layerLate 127 127 31 4294967295, .fetchDeadline 127 63,
    .semAcquire 127 127 31 31, .semRelease 127 127 31, .boostExpired 4095, .threadExit 127 127, .stepEnd 1048575,
    .spillDrainComplete 1048575, .spillSaveComplete 1048575, .resumeIssue 1048575, .teardownComplete 1048575,
    .lineFrameArrival 281474976710655 false [] [], .stackRefresh 31, .nvsPageWriteDurable 0, .nvsPatrol 0 0,
    .scrubAccess 281474976710655 [], .scrubLapAlarm, .t1CheckSelftest false, .rebuildGranuleCopy 0 0,
    .nvsRebuildPage 0 false, .inputSlotReady 35, .coastedInstant, .instantClose, .degradedRecord, .sampleInstant 3,
    .chainFrameReturn 3 [], .feedbackCutoff ⟨3, []⟩, .chainClockLost 3] : List Instr).all Instr.wf = true := by decide +kernel

/-- Each row with every bounded operand at the last value of its range is well formed. -/
theorem test_well_formed_4 : ([
    .ffCommit 3, .frameReceive 15 [] false, .frameTransmit 15, .portLink 15 false, .fdbAgeOut 8191,
    .checkRecord 127 3, .checkRecordTimeout 127 3, .goldenCompare 1048575, .tileTestDone 1048575 [], .segmentStart 7,
    .segmentEnd 7 false, .testDeferral 7, .checkerTestOverdue 7, .gapHoldElapsed 7, .internalCheckError 6 0,
    .probeResult 6 0 false, .probeTimeout 6 0, .pathCompare, .fenceNotConfirmed 6 0, .dieBridgeSilence,
    .dieBridgeRestored [], .dieBridgeRetrainTimeout, .domainGate 96, .agentAnswer 96, .agentDelayTimeout 96,
    .entryPointReached, .railsOff, .timerWake, .sagRise, .linkEnergy 15, .callToken false, .easyReturnStage,
    .judgeWindow 5 0, .clockNoEdge 5, .capControlTick 0 0, .telemetryLost, .mismatchTimer, .agreementTimer,
    .unreliableTimer, .thermalLimit 0, .temperatureBandChange 96 0, .hintIntervalBegin 3, .hintLapse 3,
    .ratingSlip 96, .ratingSlipReport, .sagWarnFall, .sagWarnRise, .sagConfirmed, .sagResetFall, .supplyValid 10,
    .supplyLoss 10, .aonBrownout, .porRelease, .startComplete false false, .bringupMilestone 4, .coxLockstepFail,
    .domainWakeComplete 96, .writeAcknowledged 127 0] : List Instr).all Instr.wf = true := by decide +kernel

/-! ### Instruction words of a thread, written out bit by bit

From R267: IMM in [63:32], MOD in [31:26], 000 in [25:23], RB in [22:18], RA in [17:13], RD in [12:8], OP in [7:0]. -/

theorem test_word_aluReg :
    listedInstrOf 127 5 0b00000000000000000000000000000000_001010_000_00011_10001_11111_00000001 = some (.aluReg 127 5 10 31 17 3) := by decide +kernel

theorem test_word_aluImm :
    listedInstrOf 127 5 0b11111111111111111111111111111000_000111_000_00000_00001_00010_00000010 = some (.aluImm 127 5 7 2 1 0xFFFFFFF8) := by decide +kernel

theorem test_word_compare :
    listedInstrOf 127 5 0b00000000000000000000000000000000_000101_000_11110_00001_00000_00000011 = some (.compare 127 5 5 1 30) := by decide +kernel

theorem test_word_branch :
    listedInstrOf 127 5 0b11111111111111111111111111111000_000010_000_00000_00000_00000_00000100 = some (.branch 127 5 2 0xFFFFFFF8) := by decide +kernel

theorem test_word_load :
    listedInstrOf 127 5 0b00000000000000000000000001000000_001011_000_00000_10101_01001_00000101 = some (.load 127 5 11 9 21 0x40 []) := by decide +kernel

theorem test_word_store :
    listedInstrOf 127 5 0b00000000000000000000000001000000_000011_000_01001_10101_00000_00000110 = some (.store 127 5 3 21 9 0x40) := by decide +kernel

theorem test_word_atomic :
    listedInstrOf 127 5 0b00000000000000000000000000000000_001001_000_01100_10101_01001_00000111 = some (.atomic 127 5 9 9 21 12) := by decide +kernel

theorem test_word_vectorLoad :
    listedInstrOf 127 5 0b00000000000000000000000100000000_000000_000_00000_10101_00111_00001000 = some (.vectorLoad 127 5 7 21 0x100) := by decide +kernel

theorem test_word_vectorStore :
    listedInstrOf 127 5 0b00000000000000000000000100000000_000001_000_00000_10101_00111_00001000 = some (.vectorStore 127 5 7 21 0x100) := by decide +kernel

theorem test_word_vectorOp :
    listedInstrOf 127 5 0b00000000000000000000000000000000_100011_000_00011_00010_00001_00001001 = some (.vectorOp 127 5 35 1 2 3) := by decide +kernel

theorem test_word_prefixScan :
    listedInstrOf 127 5 0b00000000000000000000000000000000_000011_000_00011_00010_00001_00001010 = some (.prefixScan 127 5 3 1 2 3) := by decide +kernel

theorem test_word_arrRun :
    listedInstrOf 127 5 0b00000000000000000000000000000000_000000_000_00011_00100_00000_00010000 = some (.arrRun 127 5 4 3) := by decide +kernel

theorem test_word_arrConv :
    listedInstrOf 127 5 0b00000000000000000000000000000000_000001_000_00011_00100_00000_00010000 = some (.arrConv 127 5 4 3) := by decide +kernel

theorem test_word_arrWait :
    listedInstrOf 127 5 0b00000000000000000000000000000000_000010_000_00011_00000_00000_00010000 = some (.arrWait 127 5 3) := by decide +kernel

theorem test_word_sweepRun :
    listedInstrOf 127 5 0b00000000000000000000000000000000_000011_000_00000_00100_00000_00010000 = some (.sweepRun 127 5 4) := by decide +kernel

theorem test_word_sweepWait :
    listedInstrOf 127 5 0b00000000000000000000000000000000_000100_000_00000_00000_00000_00010000 = some (.sweepWait 127 5) := by decide +kernel

theorem test_word_xfRun :
    listedInstrOf 127 5 0b00000000000000000000000000000000_000101_000_00000_00100_00000_00010000 = some (.xfRun 127 5 4) := by decide +kernel

theorem test_word_xfWait :
    listedInstrOf 127 5 0b00000000000000000000000000000000_000110_000_00000_00000_00000_00010000 = some (.xfWait 127 5) := by decide +kernel

theorem test_word_poolRun :
    listedInstrOf 127 5 0b00000000000000000000000000000000_000111_000_00000_00100_00000_00010000 = some (.poolRun 127 5 4) := by decide +kernel

theorem test_word_bowStart :
    listedInstrOf 127 5 0b00000000000000000000000000000000_000000_000_00001_00100_00000_00010001 = some (.bowStart 127 5 4 1) := by decide +kernel

theorem test_word_bowWait :
    listedInstrOf 127 5 0b00000000000000000000000000000000_000001_000_00001_00000_00000_00010001 = some (.bowWait 127 5 1) := by decide +kernel

theorem test_word_bufWait :
    listedInstrOf 127 5 0b00000000000000000000000000111111_000010_000_00000_00000_00110_00010001 = some (.bufWait 127 5 6 63) := by decide +kernel

theorem test_word_bufPost :
    listedInstrOf 127 5 0b00000000000000000000000000111111_000011_000_00000_00000_00000_00010001 = some (.bufPost 127 5 63) := by decide +kernel

theorem test_word_bufRelease :
    listedInstrOf 127 5 0b00000000000000000000000000111111_000100_000_00000_00000_00000_00010001 = some (.bufRelease 127 5 63) := by decide +kernel

theorem test_word_stepDone :
    listedInstrOf 127 5 0b00000000000000000000000000000000_000101_000_00000_00000_00000_00010001 = some (.stepDone 127 5) := by decide +kernel

theorem test_word_fenceTile :
    listedInstrOf 127 5 0b00000000000000000000000000000000_000000_000_00000_00000_00000_00010010 = some (.fenceTile 127 5) := by decide +kernel

theorem test_word_fenceDev :
    listedInstrOf 127 5 0b00000000000000000000000000000000_000001_000_00000_00000_00000_00010010 = some (.fenceDev 127 5) := by decide +kernel

theorem test_word_flush :
    listedInstrOf 127 5 0b00000000000000000000000000000000_000010_000_00101_00100_00000_00010010 = some (.flush 127 5 4 5) := by decide +kernel

theorem test_word_inval :
    listedInstrOf 127 5 0b00000000000000000000000000000000_000011_000_00101_00100_00000_00010010 = some (.inval 127 5 4 5) := by decide +kernel

theorem test_word_crewBarrier :
    listedInstrOf 127 5 0b00000000000000000000000000000000_000100_000_00000_00000_00000_00010010 = some (.crewBarrier 127 5) := by decide +kernel

theorem test_word_layerLate :
    listedInstrOf 127 5 0b00000000000000000000000000001001_000101_000_00000_00000_00110_00010010 = some (.layerLate 127 5 6 9) := by decide +kernel

theorem test_word_semAcquire :
    listedInstrOf 127 5 0b00000000000000000000000000000000_000110_000_00000_00100_00110_00010010 = some (.semAcquire 127 5 6 4) := by decide +kernel

theorem test_word_semRelease :
    listedInstrOf 127 5 0b00000000000000000000000000000000_000111_000_00000_00100_00000_00010010 = some (.semRelease 127 5 4) := by decide +kernel

theorem test_word_threadExit :
    listedInstrOf 127 5 0b00000000000000000000000000000000_001000_000_00000_00000_00000_00010010 = some (.threadExit 127 5) := by decide +kernel

/-- A word with a bit of [25:23] set, an OP that is not listed, and a MOD that is not listed spell no listed instruction, and a
thread runs the illegal row for them. -/
theorem test_words_refused :
    [1 + 2 ^ 23, 1 + 2 ^ 24, 1 + 2 ^ 25, 0x00, 0x0B, 0x0F, 0x13, 0xFF, 8 + 2 * 2 ^ 26, 0x10 + 8 * 2 ^ 26, 0x11 + 6 * 2 ^ 26,
     0x12 + 9 * 2 ^ 26].all (fun w => listedInstrOf 0 0 w == none && threadInstrOf 0 0 w == illegalInstr 0 0) = true := by
  decide +kernel

/-- No row of the opcode table gives bits. -/
theorem test_no_table_word : decodeTableWord 64 1 = none := rfl

/-! ### Single steps -/

/-- The state after one step that runs a command. -/
def after (s : State) (c : Instr) : State :=
  match step { s with pending := [c] } with
  | .next t => t
  | _ => s

/-- `busy` with X1 and X3. -/
def x13 (a b : Nat) : State := busy.modThread 0 0 (fun h => (h.setX 1 a false).setX 3 b false)
/-- X2 of thread 0 of tile 0. -/
def x2Of (s : State) : Nat := ((s.tile 0).thread 0).getX 2

/-- R267: add wraps at 64 bits. -/
theorem test_add_wraps : x2Of (after (x13 (2 ^ 64 - 1) 2) (.aluReg 0 0 0 2 1 3)) = 1 := by decide +kernel
/-- R267: sra copies the sign. -/
theorem test_sra_sign : x2Of (after (x13 (2 ^ 63) 63) (.aluReg 0 0 7 2 1 3)) = 2 ^ 64 - 1 := by decide +kernel
/-- R267: max is signed. -/
theorem test_max_signed : x2Of (after (x13 (2 ^ 64 - 1) 1) (.aluReg 0 0 10 2 1 3)) = 1 := by decide +kernel
/-- R267: IMM is sign-extended. -/
theorem test_imm_extends : x2Of (after (x13 5 0) (.aluImm 0 0 0 2 1 0xFFFFFFFF)) = 4 := by decide +kernel
/-- R112: a write to X0 is discarded. -/
theorem test_x0 : ((after (x13 5 6) (.aluReg 0 0 0 0 1 3)).tile 0).thread 0 = { ((x13 5 6).tile 0).thread 0 with pc := 0x10008 } := by
  decide +kernel
/-- R267: lt is signed, ltu is not. -/
theorem test_lt_signed : (((after (x13 (2 ^ 64 - 1) 1) (.compare 0 0 2 1 3)).tile 0).thread 0).flag = true := by decide +kernel
theorem test_ltu : (((after (x13 (2 ^ 64 - 1) 1) (.compare 0 0 3 1 3)).tile 0).thread 0).flag = false := by decide +kernel
/-- R267: a branch goes to PC + 8 times IMM. -/
theorem test_branch_back : (((after busy (.branch 0 0 0 0xFFFFFFFE)).tile 0).thread 0).pc = 0xFFF0 := by decide +kernel
/-- R24: a store is little-endian, and touches no byte beyond its size. -/
theorem test_store_bytes :
    (after (x13 64 0x1122334455667788) (.store 0 0 1 1 3 0)).mem.data = [(64, 0x88), (65, 0x77)] := by decide +kernel
/-- R120, R132: a misaligned load faults the thread with cause 0x0006 and its address. -/
theorem test_misaligned :
    let t := (after (x13 63 0) (.load 0 0 3 2 1 0 [])).tile 0
    t.faultCause = 6 ∧ t.faultAddr = 63 ∧ t.faultValid = true := by decide +kernel
/-- R267: lane 0 of a vector add of 1.0 and 2.0 in FP32 is 3.0. -/
theorem test_vector_add :
    let v (n : Nat) : Vector Word32 64 := Vector.replicate 64 (BitVec.ofNat 32 n)
    let s := busy.modThread 0 0 (fun h => (h.putV 1 (v 0x3F800000) 0).putV 2 (v 0x40000000) 0)
    (vget 0 (((after s (.vectorOp 0 0 0 3 1 2)).tile 0).thread 0 |>.vreg 3).1 0) = 0x40400000 := by decide +kernel
/-- R58, R69: sys.ping completes with DONE, and its RESULT is the parameter. -/
theorem test_ping : ((after (wc up (mk 0x0101 [(0x1122334455667788, 8)])) (.sysPing 0 0)).cmd 0 0).map Cmd.phase =
    some (.done 0 0 0x1122334455667788 10000000000) := by decide +kernel
/-- R54: when the head slot's check fails the reply is BAD_CRC with the slot as DETAIL. -/
theorem test_bad_crc : ((after (up.modQueue 3 (fun u => { u with sqTail := 1, cover := [0], expectSeq := 7 })) (.commandRead [])).cmd 3 0).map
    (fun c => (c.phase, c.seq)) = some (.done 0x8001 0 0 10000000000, 7) := by decide +kernel
/-- R34, R52: an SQ_TAIL that leaves fewer slots unread is ignored, another is taken modulo 1,024. -/
theorem test_sq_tail : ((after up (.sqTailWrite 5 1027)).queue 5).sqTail = 3 := by decide +kernel
/-- R491: a fall of the supply below the warning level in state Row puts the sense in WARN. -/
theorem test_sag_warn : (after up .sagWarnFall).cap.sag = 1 := by decide +kernel
/-- R428, R429: the third charge in a tile's window retires it. -/
theorem test_third_charge :
    let s := up.modUnit 0 5 (fun u => { u with charges := [19999999999, 19999999998] })
    (((s.charge 0 5 4).unit 0 5).state) = .retired := by decide +kernel
/-- R48: the check value of CRC-32C. -/
theorem test_crc32c : crc32c [0x31, 0x32, 0x33, 0x34, 0x35, 0x36, 0x37, 0x38, 0x39] = 0xE3069283 := by decide +kernel
/-- FIPS 180-4: SHA-384 of "abc". -/
theorem test_sha384 : sha384 [0x61, 0x62, 0x63] =
    0xcb00753f45a35e8bb5a03d699ac65007272c32ab0eded1631a8b605a43ff5bed8086072ba1e7cc2358baeca134c825a7 := by decide +kernel
/-- FIPS 197, C.3: AES-256. -/
theorem test_aes256 : beNat (aesBytes (toBe 32 0x000102030405060708090a0b0c0d0e0f101112131415161718191a1b1c1d1e1f)
    (toBe 16 0x00112233445566778899aabbccddeeff)) = 0x8ea2b7ca516745bfeafc49904b496089 := by decide +kernel
/-- The GCM specification's test case 4: ciphertext and tag. -/
theorem test_gcm :
    let k := toBe 16 0xfeffe9928665731c6d6a8f9467308308
    let iv := toBe 12 0xcafebabefacedbaddecaf888
    let p := toBe 60 0xd9313225f88406e5a55909c5aff5269a86a7a9531534f7da2e4c303d8a318a721c3c0c95956809532fcf0e2449a6b525b16aedf5aa0de657ba637b39
    beNat (gcmTag k iv (toBe 20 0xfeedfacedeadbeeffeedfacedeadbeefabaddad2) (gcmCtr k iv p)) = 0x5bc94fbc3221a5db94fae95ae7121a47 := by
  decide +kernel
/-- NIST P-384: the base point has the group's order. -/
theorem test_p384 : (EcPoint.mul ⟨p384Gx, p384Gy, 1⟩ p384N).z = 0 ∧ onCurve p384Gx p384Gy = true := by decide +kernel

/-- The example after R92: the scale byte is 0x7A and the elements are 0xE0, 0xF9, 0x7E (clamped), 0xDC and zeros; no flag. -/
theorem test_mx_block : convMx 0 (rnes 32)
    ([.fin true 1 0, .fin true 9 0, .fin false 29 (-1), .fin true 3 (-2)] ++ List.replicate 28 (.fin false 0 0)) =
    (0x7A, [0xE0, 0xF9, 0x7E, 0xDC] ++ List.replicate 28 0, 0) := by decide +kernel
/-- The same example: -9.75 rounds to -320, encoded 0xFA, and 13.5 to 448, encoded 0x7E. -/
theorem test_mx_ties : (convMx 0 (rnes 2) [.fin true 39 (-2), .fin false 27 (-1)]).2.1 = [0xFA, 0x7E] := by decide +kernel
/-- The example after R139: T1 offset 0x1234_5678 lies in channel 86. -/
theorem test_t1_channel : t1Chan 0x12345678 = 86 := by decide +kernel
/-- The example after R462: address 0x155 is sent as 1110 0101 0101 0110. -/
theorem test_call_pattern : callPattern 0x155 = 0b1110010101010110 := by decide +kernel
/-- The example after R243 (R233): output row 2 reads rows 7, 2, 3 under reflect and 1, 2, 3 under wrap. -/
theorem test_padding : [-7, 2, 11].map (mapCoord 2 8) = [some 7, some 2, some 3] ∧
    [-7, 2, 11].map (mapCoord 3 8) = [some 1, some 2, some 3] := by decide +kernel
/-- The example after R169: 0x5C is stored with check bits 0b00011, and 0x7C with them decodes to 0x5C. -/
theorem test_check_bits : checkBits 0x5C = 0b00011 ∧ readByte 0x7C 0b00011 = .corrected 0x5C ∧ readByte 0 0b01111 = .poison := by
  decide +kernel
/-- R170: with its check bytes a line is a code word: alpha to the 0 and to the 39 are roots of it. -/
theorem test_line_code :
    let d := (List.range 64).map (fun i => (i * 37 + 11) % 256)
    let w := d ++ lineCheck d
    polyAt w 1 = 0 ∧ polyAt w ((gfPowers 40 1).getD 39 0) = 0 := by decide +kernel
/-- R171: a line stored with a marker reads with that word poisoned and no error. -/
theorem test_marker :
    let d := (List.range 64).map (fun i => if i / 8 = 3 then 0 else i)
    readLine d (xorList (lineCheck d) (lineMarker 8)) = some (d, 8, 0) := by decide +kernel

/-- R344: POS 10 with a displacement of -2.5 predicts 7.5, which is 8, ties away from zero. -/
theorem test_predict_tie :
    (Track.predict ⟨true, 0, 0, 0, 0, ⟨10, 0, 0⟩, ⟨-5, 0, 0⟩, ⟨0, 0, 0⟩, 0, 0, 0⟩ 500000000).x = 8 := by decide +kernel
/-- R23: the column gives address bits [10:0], the bank (bank group above bank address) [14:11] and the row [30:15]. -/
theorem test_bank_map : portAddr (.grouped 2 1) 3 5 = 3 * 2 ^ 15 + 9 * 2 ^ 11 + 10 := by decide +kernel
/-- R24: beat k of a burst carries byte 2k on DQ[7:0] and byte 2k + 1 on DQ[15:8]. -/
theorem test_beats : beatsOf [0x11, 0x22, 0x33, 0x44] = [0x2211, 0x4433] := by decide +kernel

/-! ### Witnesses: states and operands that meet the hypotheses of each statement, clause by clause -/

/-- The hypotheses of O2 can be met, clause by clause. -/
theorem witness_O2 :
    ∃ (s : State), s.pending = [] :=
  ⟨(up), by decide +kernel⟩

/-- The hypotheses of O3 can be met, clause by clause. -/
theorem witness_O3 :
    ∃ (s : State) (q k : Nat) (c : Cmd) (de re q' k' : Nat), (q < 128) ∧ (s.cmd q k = some c) ∧ (s.findUid c.uid =
      some (q, k)) ∧ (s.isLate c = false) ∧ (de < 2 ^ 32) ∧ (re < 2 ^ 64) ∧ ((q', k') ≠ (q, k)) :=
  ⟨(wc up (mk 0x0101 [])), (0), (0), (mk 0x0101 []), (0), (0), (1), (0), by decide +kernel, by decide +kernel,
    by decide +kernel, by decide +kernel, by decide +kernel, by decide +kernel, by decide +kernel⟩

/-- The hypotheses of O4 can be met, clause by clause. -/
theorem witness_O4 :
    (∃ (s : State) (q k : Nat) (c : Cmd), s.runs 0x0101 q k c) ∧
    (∃ (s t : State) (q k v : Nat) (c : Cmd), (s.runs 0x0102 q k c) ∧ (s.reg (c.p 0 8) = some (v, t))) ∧
    (∃ (s t : State) (q k v : Nat) (c : Cmd), (s.runs 0x0103 q k c) ∧ ((s.reg (c.p 0 8)).isSome = true) ∧ ((s.writeReg
      (c.p 0 8) (c.p 8 8) (c.p 16 8)).reg (c.p 0 8) = some (v, t))) ∧
    (∃ (s : State) (q k : Nat) (c : Cmd), (s.runs 0x0104 q k c) ∧ (c.p 0 2 = 0x0019) ∧ (s.destOk (c.p 2 8) 1120 = true)) ∧
    (∃ (s : State) (q k : Nat) (c : Cmd), (s.runs 0x0104 q k c) ∧ (c.p 0 2 = 0x0007) ∧ (s.destOk (c.p 2 8) 4608 = true)) ∧
    (∃ (s : State) (q k : Nat) (c : Cmd), (s.runs 0x0105 q k c) ∧ (isCounter (c.p 0 4) = true) ∧ (c.p 4 1 ≤ 1)) ∧
    (∃ (s : State) (q k : Nat) (c : Cmd), (s.runs 0x0106 q k c) ∧ (c.p 0 2 ∈ eventCodes) ∧ (eventClass (c.p 0 2) < 2)
      ∧ (c.p 2 1 ≤ 1)) ∧
    (∃ (s : State) (q k : Nat) (c : Cmd), s.runs 0x0107 q k c) :=
  ⟨⟨(wc (up) (mk 0x0101 [(5, 8)])), 0, 0, (mk 0x0101 [(5, 8)]), by unfold State.runs; decide +kernel⟩,
    ⟨(wc (up) (mk 0x0102 [(ctrlBase + 0x06000000, 8)])), _, 0, 0, _, (mk 0x0102 [(ctrlBase + 0x06000000, 8)]),
      by unfold State.runs; decide +kernel, pair_there (by decide +kernel)⟩,
    ⟨(wc (up) (mk 0x0103 [(ctrlBase + 0x06000000, 8), (1, 8), (1, 8)])), _, 0, 0, _, (mk 0x0103 [(ctrlBase +
      0x06000000, 8), (1, 8), (1, 8)]), by unfold State.runs; decide +kernel, by decide +kernel, pair_there
      (by decide +kernel)⟩,
    ⟨(wc (up) (mk 0x0104 [(25, 2), (9895604654080, 8)])), 0, 0, (mk 0x0104 [(25, 2), (9895604654080, 8)]),
      by unfold State.runs; decide +kernel, by decide +kernel, by decide +kernel⟩,
    ⟨(wc (up) (mk 0x0104 [(7, 2), (9895604654080, 8)])), 0, 0, (mk 0x0104 [(7, 2), (9895604654080, 8)]),
      by unfold State.runs; decide +kernel, by decide +kernel, by decide +kernel⟩,
    ⟨(wc (up) (mk 0x0105 [(0x100 / 8, 4), (1, 1)])), 0, 0, (mk 0x0105 [(0x100 / 8, 4), (1, 1)]),
      by unfold State.runs; decide +kernel, by decide +kernel, by decide +kernel⟩,
    ⟨(wc (up) (mk 0x0106 [(257, 2), (1, 1)])), 0, 0, (mk 0x0106 [(257, 2), (1, 1)]),
      by unfold State.runs; decide +kernel, by decide +kernel, by decide +kernel, by decide +kernel⟩,
    ⟨(wc (up) (mk 0x0107 [])), 0, 0, (mk 0x0107 []), by unfold State.runs; decide +kernel⟩⟩

/-- The hypotheses of O5 can be met, clause by clause. -/
theorem witness_O5 :
    (∃ (s : State) (q k : Nat) (ups : List Upset) (c : Cmd) (r : State × List PByte), (s.runs 0x0201 q k c) ∧
      (chkMemPull s c = none) ∧ (s.heldRange (c.p 0 8) (c.p 16 4) = false) ∧ (s.heldRange (c.p 8 8) (c.p 16 4) =
      false) ∧ (r = s.readWith ups (c.p 0 8) (c.p 16 4))) ∧
    (∃ (s u : State) (q k : Nat) (ups : List Upset) (c : Cmd) (r : State × List PByte), (s.runs 0x0202 q k c) ∧
      (chkMemPush s c = none) ∧ (s.heldRange (c.p 0 8) (c.p 16 4) = false) ∧ (s.heldRange (c.p 8 8) (c.p 16 4) =
      false) ∧ (r = s.readWith ups (c.p 0 8) (c.p 16 4)) ∧ (u = r.1.storeBytes (c.p 8 8) r.2)) ∧
    (∃ (s : State) (q k : Nat) (ups : List Upset) (c : Cmd) (r : State × List PByte), (s.runs 0x0203 q k c) ∧
      (chkMemCopy s c = none) ∧ (s.heldRange (c.p 0 8) (c.p 16 8) = false) ∧ (s.heldRange (c.p 8 8) (c.p 16 8) =
      false) ∧ (r = s.readWith ups (c.p 0 8) (c.p 16 8))) ∧
    (∃ (s : State) (q k : Nat) (c : Cmd) (b : List PByte), (s.runs 0x0204 q k c) ∧ (chkMemFill s c = none) ∧
      (s.heldRange (c.p 0 8) (c.p 8 8) = false) ∧ (b = (List.replicate (c.p 8 8 / 8) ((slice c.params 16 8).map (fun x
      => PByte.mk x false))).flatten)) ∧
    (∃ (s : State) (q k : Nat) (c : Cmd), (s.runs 0x0205 q k c) ∧ (chkMemMode s c = none)) ∧
    (∃ (s : State) (q k : Nat) (c : Cmd) (x : Convert), (s.cmd q k = some c) ∧ (c.opcode = 0x0205) ∧ (c.phase =
      .running) ∧ (s.store.converts.find? (fun x => x.uid == c.uid) = some x)) ∧
    (∃ (s : State) (q k : Nat) (c : Cmd), (s.runs 0x0206 q k c) ∧ (c.p 4 1 ≤ 1)) ∧
    (∃ (s : State) (q k : Nat) (c : Cmd), (s.runs 0x0207 q k c) ∧ (s.boat.slots = []) ∧ (c.p 8 8 = 0)) ∧
    (∃ (s : State) (q k : Nat) (c : Cmd), (s.runs 0x0207 q k c) ∧ (s.boat.slots = []) ∧ (c.p 8 8 ≠ 0) ∧ ((c.p 0 8 -
      nvsBaseAddr) % 16384 = 0) ∧ (c.p 8 8 % 16384 = 0) ∧ (c.p 8 8 ≤ 2 ^ 39) ∧ (isNvs (c.p 0 8) = true) ∧ (s.inNvsPool
      (c.p 0 8) (c.p 8 8) = true) ∧ (s.boat.nvs.all (fun e => decide ((e.first + e.count) * 4096 ≤ c.p 0 8 -
      nvsBaseAddr ∨ c.p 0 8 - nvsBaseAddr + c.p 8 8 ≤ e.first * 4096)) = true)) :=
  ⟨⟨(wc (up) (mk 0x0201 [(9895604654080, 8), (275414777856, 8), (64, 4)])), 0, 0, ([]), (mk 0x0201 [(9895604654080, 8),
    (275414777856, 8), (64, 4)]), _, by unfold State.runs; decide +kernel, by decide +kernel, by decide +kernel,
    free_range _ _ _ (units_free _ rfl) (by decide +kernel), rfl⟩,
    ⟨(wc ({ up with mem := ⟨[⟨0x4020000000, 1⟩], (List.range 64).map (fun i => ⟨0x4020000000 + i, 1⟩)⟩ }) (mk 0x0202
      [(275414777856, 8), (9895604654080, 8), (64, 4)])), _, 0, 0, ([]), (mk 0x0202 [(275414777856, 8),
      (9895604654080, 8), (64, 4)]), _, by unfold State.runs; decide +kernel, by decide +kernel, free_range _ _ _
      (units_free _ rfl) (by decide +kernel), by decide +kernel, rfl, rfl⟩,
    ⟨(wc (up) (mk 0x0203 [(275414777856, 8), (275414781952, 8), (64, 8)])), 0, 0, ([]), (mk 0x0203 [(275414777856, 8),
      (275414781952, 8), (64, 8)]), _, by unfold State.runs; decide +kernel, by decide +kernel, free_range _ _ _
      (units_free _ rfl) (by decide +kernel), free_range _ _ _ (units_free _ rfl) (by decide +kernel), rfl⟩,
    ⟨(wc (up) (mk 0x0204 [(3298534883328, 8), (64, 8), (1234605616436508552, 8)])), 0, 0, (mk 0x0204 [(3298534883328,
      8), (64, 8), (1234605616436508552, 8)]), _, by unfold State.runs; decide +kernel, by decide +kernel,
      by decide +kernel, rfl⟩,
    ⟨(wc (up) (mk 0x0205 [(275414777856, 8), (16777216, 8), (1, 1)])), 0, 0, (mk 0x0205 [(275414777856, 8), (16777216,
      8), (1, 1)]), by unfold State.runs; decide +kernel, by decide +kernel⟩,
    ⟨(wc ({ up with store := { up.store with converts := [⟨0, 0x4020000000, 2 ^ 24, 1, 0, 0⟩] } })
      ({ (mk 0x0205 [(275414777856, 8), (16777216, 8), (1, 1)]) with phase := .running })), 0, 0,
      ({ (mk 0x0205 [(275414777856, 8), (16777216, 8), (1, 1)]) with phase := .running }), (⟨0, 0x4020000000, 2 ^ 24,
      1, 0, 0⟩), by decide +kernel, by decide +kernel, by decide +kernel, by decide +kernel⟩,
    ⟨(wc (up) (mk 0x0206 [(8, 4), (1, 1)])), 0, 0, (mk 0x0206 [(8, 4), (1, 1)]), by unfold State.runs; decide +kernel,
      by decide +kernel⟩,
    ⟨(wc (up) (mk 0x0207 [])), 0, 0, (mk 0x0207 []), by unfold State.runs; decide +kernel, by decide +kernel,
      by decide +kernel⟩,
    ⟨(wc (up) (mk 0x0207 [(nvsBaseAddr, 8), (131072, 8)])), 0, 0, (mk 0x0207 [(nvsBaseAddr, 8), (131072, 8)]),
      by unfold State.runs; decide +kernel, by decide +kernel, by decide +kernel, by decide +kernel,
      by decide +kernel, by decide +kernel, by decide +kernel, by decide +kernel, by decide +kernel⟩⟩

/-- The hypotheses of O6 can be met, clause by clause. -/
theorem witness_O6 :
    (∃ (s r : State) (q k : Nat) (c : Cmd) (b : List Byte), (s.runs 0x0301 q k c) ∧ (s.imageOk (c.p 0 8) (c.p 8 8) =
      true) ∧ (c.p 16 1 ≤ 2) ∧ (r = s.noteRead (c.p 0 8) (c.p 8 8)) ∧ (b = vals (r.peek (c.p 0 8) (c.p 8 8))) ∧
      (r.lenOk c = true) ∧ ((r.peek (c.p 0 8) (c.p 8 8)).any PByte.p = false) ∧ (imgFault b 1 = none) ∧ (r.signed b =
      true) ∧ (contentFault b = none) ∧ ((c.p 16 1 = 0 → (imgPlacements b).any (fun p => p.hot) = true)) ∧ (c.sag =
      false) ∧ (r.sagging = false)) ∧
    (∃ (s : State) (q k : Nat) (c : Cmd) (m : Model), (s.runs 0x0302 q k c) ∧ (s.model (c.p 0 4) = some m) ∧ (m.pinned
      = false)) ∧
    (∃ (s : State) (q k : Nat) (c : Cmd) (m : Model), (s.runs 0x0303 q k c) ∧ (s.model (c.p 0 4) = some m) ∧ (c.p 4 1 ≤ 1)) ∧
    (∃ (s : State) (q k old new : Nat) (c : Cmd) (a b : Model), (s.runs 0x0304 q k c) ∧ (old = s.modelId (c.p 0 4)) ∧
      (new = s.modelId (c.p 4 4)) ∧ (s.model old = some a) ∧ (s.model new = some b) ∧ (old ≠ new) ∧ (a.compatible b =
      true) ∧ ((∀ p ∈ s.boat.models, ∀ h, p.2.swapTo = some h → p.1 ≠ old ∧ p.1 ≠ new ∧ h ≠ old ∧ h ≠ new))) ∧
    (∃ (s u : State) (old new : Nat) (a b : Model), (s.model old = some a) ∧ (a.swapTo = some new) ∧ (a.inUse = 0) ∧
      (s.model new = some b) ∧ (u = (s.modModel old (fun m => { m with swapTo := none })).finishUid a.swapUid false
      0x8005 0 0)) ∧
    (∃ (s : State) (q k : Nat) (c : Cmd) (m : Model), (s.runs 0x0305 q k c) ∧ (s.model (c.p 0 4) = some m) ∧ (c.p 4 1
      ≤ 2) ∧ ((c.p 4 1 = 0 → m.hotPlacement.isSome = true)) ∧ ((m.pinned = true → c.p 4 1 ≤ m.state.tier))) ∧
    (∃ (s : State) (q k : Nat) (c : Cmd) (m : Model), (s.runs 0x0306 q k c) ∧ (s.model (c.p 0 4) = some m) ∧ (s.destOk
      (c.p 4 8) 64 = true)) :=
  ⟨⟨(wc (withWindow up modelImg) (mk 0x0301 [(9895604654080, 8), (424, 8), (1, 1)])), _, 0, 0, (mk 0x0301
    [(9895604654080, 8), (424, 8), (1, 1)]), (modelImg), by unfold State.runs; decide +kernel, by decide +kernel,
    by decide +kernel, rfl, by decide +kernel, by decide +kernel, by decide +kernel, by decide +kernel,
    by decide +kernel, by decide +kernel, by decide +kernel, by decide +kernel, by decide +kernel⟩,
    ⟨(wc (withModels up [(1, aModel)]) (mk 0x0302 [(1, 4)])), 0, 0, (mk 0x0302 [(1, 4)]), (aModel),
      by unfold State.runs; decide +kernel, by decide +kernel, by decide +kernel⟩,
    ⟨(wc (withModels up [(1, aModel)]) (mk 0x0303 [(1, 4), (1, 1)])), 0, 0, (mk 0x0303 [(1, 4), (1, 1)]), (aModel),
      by unfold State.runs; decide +kernel, by decide +kernel, by decide +kernel⟩,
    ⟨(wc (withModels up [(1, aModel), (2, aModel)]) (mk 0x0304 [(1, 4), (2, 4)])), 0, 0, (1), (2), (mk 0x0304 [(1, 4),
      (2, 4)]), (aModel), (aModel), by unfold State.runs; decide +kernel, by decide +kernel, by decide +kernel,
      by decide +kernel, by decide +kernel, by decide +kernel, by decide +kernel, by decide +kernel⟩,
    ⟨(withModels up [(1, { aModel with swapTo := some 2 }), (2, aModel)]), _, (1), (2),
      ({ aModel with swapTo := some 2 }), (aModel), by decide +kernel, by decide +kernel, by decide +kernel,
      by decide +kernel, rfl⟩,
    ⟨(wc (withModels up [(1, aModel)]) (mk 0x0305 [(1, 4), (1, 1)])), 0, 0, (mk 0x0305 [(1, 4), (1, 1)]), (aModel),
      by unfold State.runs; decide +kernel, by decide +kernel, by decide +kernel, by decide +kernel,
      by decide +kernel⟩,
    ⟨(wc (withModels up [(1, aModel)]) (mk 0x0306 [(1, 4), (9895604654080, 8)])), 0, 0, (mk 0x0306 [(1, 4),
      (9895604654080, 8)]), (aModel), by unfold State.runs; decide +kernel, by decide +kernel, by decide +kernel⟩⟩

/-- The hypotheses of O7 can be met, clause by clause. -/
theorem witness_O7 :
    (∃ (s u : State) (q k id : Nat) (c : Cmd) (x : Ctx) (m : Model), (s.runs 0x0401 q k c) ∧ (chkJobSubmit s c = none)
      ∧ (c.ctx = some id) ∧ (s.ctx id = some x) ∧ (s.model (c.p 0 4) = some m) ∧ (s.jobRefusal c x m = none) ∧
      (s.tablesBad id = false) ∧ (u = { s with sched := { s.sched with jobs := s.sched.jobs ++ [jobOfCmd c s id] } }))
      ∧
    (∃ (s s1 u : State) (q k id : Nat) (c : Cmd) (x : Ctx) (j : Job), (s.runs 0x0402 q k c) ∧ (c.ctx = some id) ∧
      (s.ctx id = some x) ∧ (s.jobOf id = some j) ∧ (x.torn = false) ∧ ((∀ cause, j.state ≠ .tearing cause)) ∧ (s1 =
      s.modJob j.uid (fun j => { j with cancelled := true, detailHi := j.detailHi ||| 1 })) ∧ (u = (if j.state =
      .spilled ∨ j.counted = true then ((s1.undefineOut j).dropStep j).leaveStep j.ctx else s1.dropStep j))) ∧
    (∃ (s : State) (q k : Nat) (c : Cmd) (x : Client), (s.runs 0x0403 q k c) ∧ (c.p 0 1 ≤ 4) ∧ (c.p 1 2 ≠ 0) ∧ (x =
      (match s.client c.client with | some y => { y with cls := c.p 0 1, weight := c.p 1 2 } | none => Client.reset (c.p 0 1) (c.p 1 2))))
      ∧
    (∃ (s u : State) (q k : Nat) (c : Cmd) (b : List Byte), (s.runs 0x0404 q k c) ∧ (s.statsOf c ≠ []) ∧ (s.destOk
      (c.p 2 8) (208 * (s.statsOf c).length) = true) ∧ (c.p 10 1 ≤ 1) ∧ (b = ((s.statsOf c).map (fun p => p.2.bytes
      p.1)).flatten) ∧ (u = s.storeClean (c.p 2 8) b)) ∧
    (∃ (s : State) (q k n : Nat) (c : Cmd) (e : Ext), (s.runs 0x0405 q k c) ∧ (n = c.p 0 2) ∧ (1 ≤ n) ∧ (n ≤ 4096) ∧
      ((gaps (s.sched.sems.map (fun p => ⟨p.1, 1⟩)) 0 4096).find? (fun e => decide (n ≤ e.count)) = some e)) ∧
    (∃ (s : State) (q k : Nat) (c : Cmd), (s.runs 0x0406 q k c) ∧ (c.p 4 2 ≠ 0) ∧ (c.p 0 4 + c.p 4 2 ≤ 4096) ∧ ((∀ i,
      c.p 0 4 ≤ i → i < c.p 0 4 + c.p 4 2 → ∃ x, s.sem i = some x ∧ x.client = c.client ∧ x.holder = none ∧ x.waiters
      = []))) :=
  ⟨⟨(wc (withModels (withCtx up [(1, aCtx 0)]) [(1, aModel)]) (mkc 0x0401 1 [(1, 4), (0, 1), (0, 1), (0, 1), (255, 1),
    (275414777856, 8), (275414781952, 8), (1, 4)])), _, 0, 0, (1), (mkc 0x0401 1 [(1, 4), (0, 1), (0, 1), (0, 1), (255,
    1), (275414777856, 8), (275414781952, 8), (1, 4)]), (aCtx 0), (aModel), by unfold State.runs; decide +kernel,
    by decide +kernel, by decide +kernel, by decide +kernel, by decide +kernel, by decide +kernel, tables_good' _ _ _
    rfl (by decide +kernel), rfl⟩,
    ⟨(wc (withJob (withModels (withCtx up [(1, aCtx 0)]) [(1, aModel)]) (aJob .running)) (mkc 0x0402 1 [])), _, _, 0,
      0, (1), (mkc 0x0402 1 []), (aCtx 0), (aJob .running), by unfold State.runs; decide +kernel, by decide +kernel,
      by decide +kernel, by decide +kernel, by decide +kernel, (fun _ h => by cases h), rfl, rfl⟩,
    ⟨(wc (up) ({ (mk 0x0403 [(2, 1), (5, 2)]) with client := 3 })), 0, 0,
      ({ (mk 0x0403 [(2, 1), (5, 2)]) with client := 3 }), _, by unfold State.runs; decide +kernel, by decide +kernel,
      by decide +kernel, rfl⟩,
    ⟨(wc ({ up with sched := { up.sched with clients := [(3, Client.reset 4 1)] } }) (mk 0x0404 [(65535, 2),
      (9895604654080, 8)])), _, 0, 0, (mk 0x0404 [(65535, 2), (9895604654080, 8)]), _,
      by unfold State.runs; decide +kernel, by decide +kernel, by decide +kernel, by decide +kernel, rfl, rfl⟩,
    ⟨(wc (up) (mk 0x0405 [(16, 2)])), 0, 0, (16), (mk 0x0405 [(16, 2)]), (_), by unfold State.runs; decide +kernel,
      by decide +kernel, by decide +kernel, by decide +kernel, there (by decide +kernel)⟩,
    ⟨(wc ({ up with sched := { up.sched with sems := [(3, ⟨0, 0, none, []⟩)] } }) (mk 0x0406 [(3, 4), (1, 2)])), 0, 0, (mk 0x0406 [(3, 4), (1, 2)]), by unfold State.runs; decide +kernel, by decide +kernel, by decide +kernel, fun i h1 h2 => by obtain rfl : i = 3 := (Nat.le_antisymm (Nat.lt_succ_iff.mp (Nat.lt_of_lt_of_eq h2 (by decide +kernel))) (Nat.le_trans (by decide +kernel) h1)); exact ⟨⟨0, 0, none, []⟩, by decide +kernel, rfl, rfl, rfl⟩⟩⟩

/-- The hypotheses of O8 can be met, clause by clause. -/
theorem witness_O8 :
    (∃ (s : State) (q k id : Nat) (c : Cmd), (s.runs 0x0501 q k c) ∧ (c.p 0 1 = 4) ∧ (c.p 1 4 = 0) ∧ (s.freeCtxId =
      some id)) ∧
    (∃ (s : State) (q k id : Nat) (c : Cmd) (m : Model), (s.runs 0x0501 q k c) ∧ (c.p 0 1 = 2) ∧ (s.model (c.p 1 4) =
      some m) ∧ (s.freeCtxId = some id)) ∧
    (∃ (s s1 : State) (q k id f : Nat) (c : Cmd) (m : Model) (z : SeqShape), (s.runs 0x0501 q k c) ∧ (c.p 0 1 = 0) ∧
      (s.model (c.p 1 4) = some m) ∧ (m.seq = some z) ∧ (s.sagging = false) ∧ (s.freeCtxId = some id) ∧ (s.allocFrames
      (max 1 (ceilDiv (32 * z.scales.length) 16384)) = some (f, s1))) ∧
    (∃ (s : State) (q k id : Nat) (c : Cmd) (x : Ctx), (s.runs 0x0502 q k c) ∧ (c.ctx = some id) ∧ (s.ctx id = some x)
      ∧ (x.kind ≠ 1) ∧ (x.kind ≠ 3) ∧ (x.step = false) ∧ (s.namedElsewhere c.uid id = false) ∧ ((x.torn = true ∨
      s.tablesBad id = false))) ∧
    (∃ (s : State) (q k id n len w : Nat) (c : Cmd) (z : SeqCtx) (mine : List KvList), (s.runs 0x0503 q k c) ∧ (c.ctx
      = some id) ∧ ((s.ctx id).bind Ctx.seq = some z) ∧ (s.tablesBad id = false) ∧ (n = c.p 12 2 * z.heads) ∧ (c.p 12
      2 ≠ 0) ∧ (c.p 10 2 + c.p 12 2 ≤ z.layers) ∧ (s.destOk (c.p 0 8) 1 = true) ∧ (w = n * c.p 8 2 * 4 * headD
      z.headDim) ∧ (s.destOk (c.p 0 8) w = true) ∧ (s.namesWithdrawn (c.p 0 8) w = false) ∧ (mine = (z.lists.drop (c.p
      10 2 * z.heads)).take n) ∧ (len = (match mine with | l :: _ => l.len | [] => 0)) ∧ ((∀ l ∈ mine, l.len = len)))
      ∧
    (∃ (s : State) (q k id : Nat) (c : Cmd) (z : SeqCtx), (s.runs 0x0504 q k c) ∧ (c.ctx = some id) ∧ ((s.ctx id).bind
      Ctx.seq = some z) ∧ (s.tablesBad id = false) ∧ (z.lists.all (fun l => decide (c.p 0 4 + c.p 4 4 ≤ l.len -
      l.first)) = true)) ∧
    (∃ (s u : State) (q k id : Nat) (c : Cmd) (z : SeqCtx) (w : KvWait) (out flying : List (Nat × Nat)), (s.runs
      0x0505 q k c) ∧ (c.ctx = some id) ∧ (c.p 8 1 = 1) ∧ ((s.ctx id).bind Ctx.seq = some z) ∧ (s.tablesBad id =
      false) ∧ (out = z.rangePages (c.p 0 4) (c.p 4 4) (fun p => p.state == .spilled)) ∧ (flying = z.rangePages (c.p 0
      4) (c.p 4 4) (fun p => p.state == .fetching)) ∧ (s.fetchAll id out = .ok u) ∧ (w = ⟨c.uid, id, 1, out, [],
      flying⟩)) ∧
    (∃ (s u : State) (q k id : Nat) (c : Cmd) (z : SeqCtx) (w : KvWait) (dirty clean flying : List (Nat × Nat)),
      (s.runs 0x0505 q k c) ∧ (c.ctx = some id) ∧ (c.p 8 1 = 2) ∧ ((s.ctx id).bind Ctx.seq = some z) ∧ (s.tablesBad id
      = false) ∧ (z.headDim < 2) ∧ (s.tier.spillPages ≠ 0) ∧ (s.sagging = false) ∧ (dirty = z.rangePages (c.p 0 4)
      (c.p 4 4) (fun p => p.state == .resident)) ∧ (clean = z.rangePages (c.p 0 4) (c.p 4 4) (fun p => p.state ==
      .clean)) ∧ (flying = z.rangePages (c.p 0 4) (c.p 4 4) (fun p => p.state == .spilling && !p.durable)) ∧
      (dirty.length ≤ s.tier.spillPages - s.boat.slots.length) ∧ (w = ⟨c.uid, id, 2, dirty ++ clean, clean, flying⟩) ∧
      (u = (clean.foldl (fun s x => s.leaveT1 id x.1 x.2) (dirty.foldl (fun s x => (s.startSpill id x.1 x.2).getD s)
      s)).syncCtx id)) ∧
    (∃ (s s1 : State) (q k id : Nat) (c : Cmd) (z : SeqCtx), (s.runs 0x0506 q k c) ∧ (c.ctx = some id) ∧ ((s.ctx
      id).bind Ctx.seq = some z) ∧ (s.tablesBad id = false) ∧ (s1 = ((z.rangePages (c.p 0 4) (c.p 4 4) (fun p =>
      p.state == .spilled)).foldl State.tryFetch (s, id)).1.syncCtx id)) ∧
    (∃ (s : State) (q k id : Nat) (c : Cmd) (x : Ctx) (z : SeqCtx), (s.runs 0x0507 q k c) ∧ (c.ctx = some id) ∧ (s.ctx
      id = some x) ∧ (x.seq = some z) ∧ ((x.torn = true ∨ s.tablesBad id = false)) ∧ (s.destOk (c.p 0 8) 64 = true) ∧
      (s.destOk (c.p 0 8) z.stats.length = true)) :=
  ⟨⟨(wc (up) (mk 0x0501 [(4, 1), (0, 4)])), 0, 0, _, (mk 0x0501 [(4, 1), (0, 4)]), by unfold State.runs; decide +kernel,
    by decide +kernel, by decide +kernel, there (by decide +kernel)⟩,
    ⟨(wc (withModels up [(1, aModel)]) (mk 0x0501 [(2, 1), (1, 4)])), 0, 0, _, (mk 0x0501 [(2, 1), (1, 4)]), (aModel),
      by unfold State.runs; decide +kernel, by decide +kernel, by decide +kernel, there (by decide +kernel)⟩,
    ⟨(wc (withModels up [(1, { aModel with seq := some ⟨1, 1, 0, 0, [(0, 0)]⟩ })]) (mk 0x0501 [(0, 1), (1, 4)])), _,
      0, 0, _, _, (mk 0x0501 [(0, 1), (1, 4)]), ({ aModel with seq := some ⟨1, 1, 0, 0, [(0, 0)]⟩ }), (⟨1, 1, 0, 0,
      [(0, 0)]⟩), by unfold State.runs; decide +kernel, by decide +kernel, by decide +kernel, by decide +kernel,
      by decide +kernel, there (by decide +kernel), pair_there (frames_there _ _ 65536 4194304 (by decide +kernel)
      (by decide +kernel)).2⟩,
    ⟨(wc (withCtx up [(1, aCtx 0)]) (mkc 0x0502 1 [])), 0, 0, (1), (mkc 0x0502 1 []), (aCtx 0),
      by unfold State.runs; decide +kernel, by decide +kernel, by decide +kernel, by decide +kernel,
      by decide +kernel, by decide +kernel, by decide +kernel, Or.inr (tables_good' _ _ _ rfl (by decide +kernel))⟩,
    ⟨(wc (withCtx up [(1,
      { aCtx 0 with seq := some ({ aSeq with lists := [{ aList with len := 5, pages := [{ Page.reset with state := .filling, frame := 65540, count := 5 }] }] }) })])
      (mkc 0x0503 1 [(275414777856, 8), (1, 2), (0, 2), (1, 2)])), 0, 0, (1), (1), _, _, (mkc 0x0503 1 [(275414777856,
      8), (1, 2), (0, 2), (1, 2)]),
      ({ aSeq with lists := [{ aList with len := 5, pages := [{ Page.reset with state := .filling, frame := 65540, count := 5 }] }] }),
      _, by unfold State.runs; decide +kernel, by decide +kernel, by decide +kernel, tables_good' _ _ _ rfl
      (by decide +kernel), by decide +kernel, by decide +kernel, by decide +kernel, by decide +kernel, rfl,
      by decide +kernel, by decide +kernel, rfl, rfl, by decide +kernel⟩,
    ⟨(wc (withCtx up [(1, aCtx 0)]) (mkc 0x0504 1 [(0, 4), (0, 4)])), 0, 0, (1), (mkc 0x0504 1 [(0, 4), (0, 4)]),
      (aSeq), by unfold State.runs; decide +kernel, by decide +kernel, by decide +kernel, tables_good' _ _ _ rfl
      (by decide +kernel), by decide +kernel⟩,
    ⟨(wc (withCtx up [(1,
      { aCtx 0 with seq := some ({ aSeq with lists := [{ aList with len := 64, vis := 64, kScale := 1, vScale := 1, pages := [{ Page.reset with state := .spilled, durable := true }] }] }) })])
      (mkc 0x0505 1 [(0, 4), (64, 4), (1, 1)])), _, 0, 0, (1), (mkc 0x0505 1 [(0, 4), (64, 4), (1, 1)]),
      ({ aSeq with lists := [{ aList with len := 64, vis := 64, kScale := 1, vScale := 1, pages := [{ Page.reset with state := .spilled, durable := true }] }] }),
      _, ([(0, 0)]), _, by unfold State.runs; decide +kernel, by decide +kernel, by decide +kernel, by decide +kernel,
      tables_good' _ _ _ rfl (by decide +kernel), by decide +kernel, rfl, eval_ok (fetch_one _ _ _ _ (frames_there _ _
      65536 4194304 (by decide +kernel) (by decide +kernel)).2), rfl⟩,
    ⟨(wc ({ withCtx up [(1, aCtx 0)] with tier := { up.tier with spillPages := 64 } }) (mkc 0x0505 1 [(0, 4), (64, 4),
      (2, 1)])), _, 0, 0, (1), (mkc 0x0505 1 [(0, 4), (64, 4), (2, 1)]), (aSeq), _, _, _, _,
      by unfold State.runs; decide +kernel, by decide +kernel, by decide +kernel, by decide +kernel, tables_good' _ _
      _ rfl (by decide +kernel), by decide +kernel, by decide +kernel, by decide +kernel, rfl, rfl, rfl,
      by decide +kernel, rfl, rfl⟩,
    ⟨(wc (withCtx up [(1,
      { aCtx 0 with seq := some ({ aSeq with lists := [{ aList with len := 64, vis := 64, kScale := 1, vScale := 1, pages := [{ Page.reset with state := .spilled, durable := true }] }] }) })])
      (mkc 0x0506 1 [(0, 4), (64, 4)])), _, 0, 0, (1), (mkc 0x0506 1 [(0, 4), (64, 4)]),
      ({ aSeq with lists := [{ aList with len := 64, vis := 64, kScale := 1, vScale := 1, pages := [{ Page.reset with state := .spilled, durable := true }] }] }),
      by unfold State.runs; decide +kernel, by decide +kernel, by decide +kernel, tables_good' _ _ _ rfl
      (by decide +kernel), rfl⟩,
    ⟨(wc (withCtx up [(1, aCtx 0)]) (mkc 0x0507 1 [(9895604654080, 8)])), 0, 0, (1), (mkc 0x0507 1 [(9895604654080,
      8)]), (aCtx 0), (aSeq), by unfold State.runs; decide +kernel, by decide +kernel, by decide +kernel,
      by decide +kernel, Or.inr (tables_good' _ _ _ rfl (by decide +kernel)), by decide +kernel, by decide +kernel⟩⟩

/-- The hypotheses of O9 can be met, clause by clause. -/
theorem witness_O9 :
    (∃ (s : State) (q k : Nat) (c : Cmd) (x : Lattice), (s.runs 0x0601 q k c) ∧ (c.p 8 2 = 0) ∧ (s.plan.lattices.find?
      (fun x => x.addr == c.p 0 8) = some x) ∧ (s.queries.any (fun q => q.lattice == x.handle) = false)) ∧
    (∃ (s : State) (q k h : Nat) (c : Cmd), (s.runs 0x0601 q k c) ∧ (1 ≤ c.p 8 2) ∧ (c.p 8 2 ≤ 4096) ∧ (1 ≤ c.p 10 1)
      ∧ (c.p 10 1 ≤ 6) ∧ (some h =
      (match s.plan.lattices.find? (fun x => x.addr == c.p 0 8) with | some x => if s.queries.any (fun q => q.lattice == x.handle) = true then none else some x.handle | none => lowestFree (s.plan.lattices.map Lattice.handle) 0 16)))
      ∧
    (∃ (s : State) (q k : Nat) (c : Cmd), (s.runs 0x0602 q k c) ∧ (c.p 0 8 % 64 = 0) ∧ (1 ≤ c.p 8 2) ∧ (c.p 8 2 ≤
      1024) ∧ (s.inT1Host (c.p 0 8) (mapBytes (c.p 8 2)) = true) ∧ (s.namesWithdrawn (c.p 0 8) (mapBytes (c.p 8 2)) =
      false)) ∧
    (∃ (s r u : State) (q k id : Nat) (c : Cmd) (x : Ctx) (t : Lattice) (l : LatTab) (n : PlanQuery), (s.runs 0x0603 q
      k c) ∧ (c.ctx = some id) ∧ (s.ctx id = some x) ∧ (x.kind = 4) ∧ (chkPlanQuery s c = none) ∧ (s.tablesBad id =
      false) ∧ (s.lattice (c.p 0 2) = some t) ∧ (r = s.noteRead t.addr 64) ∧ ((r.latHead t).any PByte.p = false) ∧ (l
      = parseLat (vals (r.latHead t)) 0) ∧ (r.namesWithdrawn (c.p 30 8) (planRange l) = false) ∧ (r.plan.current =
      true) ∧ (r.queries.any (fun q => q.ctx == id) = false) ∧ (r.notRetired 3 ≠ 0) ∧ ((c.p 38 1 = 0xFF ∨ (r.retired 3
      (c.p 38 1) = false ∧ r.quarantined 3 (c.p 38 1) = false))) ∧ (n =
      { uid := c.uid, ctx := id, client := c.client, lattice := c.p 0 2, start := six c.params 2, goal := six c.params 14, weight := c.p 26 4, out := c.p 30 8, unit := c.p 38 1, deadline := c.deadline, noDegrade := c.noDegrade, urgent := false, version := 0, base := 0, edge := 0, researches := 0, counts := PlanCounts.zero, takenAt := 0, searchAt := 0, cancels := [], check := none })
      ∧ (u = r.modPlanCtx id (fun p => { p with lattice := c.p 0 2, state := 1 }))) ∧
    (∃ (s : State) (q k id : Nat) (c : Cmd) (x : Ctx), (s.runs 0x0604 q k c) ∧ (c.ctx = some id) ∧ (s.ctx id = some x)
      ∧ (x.kind = 4) ∧ (s.tablesBad id = false) ∧ (s.queries.any (fun q => q.ctx == id) = true)) ∧
    (∃ (s : State) (u : Nat) (q : PlanQuery) (x : Lattice) (j : PlanJob), (vget none s.plan.units u = some q) ∧
      (s.lattice q.lattice = some x) ∧ (s.usable 3 u = true) ∧ (s.domOn (72 + u) = true) ∧ (s.heldRange x.addr
      (s.latTable x).length = false) ∧ ((s.latHead x).any PByte.p = false) ∧ (j = ⟨parseLat (vals (s.latTable x))
      x.prims, x.addr, s.latTable x, q.goal, q.weight, q.base, q.edge⟩)) ∧
    (∃ (s : State) (q : PlanQuery) (j : PlanJob) (r : Search) (e : SearchEnd), (q.deadline = none) ∧ (q.cancels = [])
      ∧ (s.runSearch j q.start q.counts none = (r, e)) ∧ (r.lines.any (fun a => s.heldRange (a * 64) 64) = false) ∧
      (s.heldRange q.out (planRange j.lat) = false) ∧ (e = .empty)) ∧
    (∃ (s : State) (q : PlanQuery) (j : PlanJob) (r : Search) (e : SearchEnd) (n : Nat), (q.deadline = none) ∧
      (q.cancels = []) ∧ (s.runSearch j q.start q.counts none = (r, e)) ∧ (r.lines.any (fun a => s.heldRange (a * 64)
      64) = false) ∧ (s.heldRange q.out (planRange j.lat) = false) ∧ (e = .selected n)) ∧
    (∃ (s : State) (q : PlanQuery) (j : PlanJob) (r : Search) (e : SearchEnd), (q.deadline = none) ∧ (q.cancels = [])
      ∧ (s.runSearch j q.start q.counts none = (r, e)) ∧ (r.lines.any (fun a => s.heldRange (a * 64) 64) = false) ∧
      (s.heldRange q.out (planRange j.lat) = false) ∧ (e = .poisoned)) :=
  ⟨⟨(wc ({ up with plan := { up.plan with lattices := [⟨0, 0x4020000000, 1, 1⟩] } }) (mk 0x0601 [(275414777856, 8), (0,
    2)])), 0, 0, (mk 0x0601 [(275414777856, 8), (0, 2)]), (⟨0, 0x4020000000, 1, 1⟩),
    by unfold State.runs; decide +kernel, by decide +kernel, by decide +kernel, by decide +kernel⟩,
    ⟨(wc (withBytes up 0x4020000000 aTable) (mk 0x0601 [(275414777856, 8), (1, 2), (1, 1)])), 0, 0, (0), (mk 0x0601
      [(275414777856, 8), (1, 2), (1, 1)]), by unfold State.runs; decide +kernel, by decide +kernel,
      by decide +kernel, by decide +kernel, by decide +kernel, by decide +kernel⟩,
    ⟨(wc (up) (mk 0x0602 [(275414777856, 8), (64, 2), (1, 4)])), 0, 0, (mk 0x0602 [(275414777856, 8), (64, 2), (1,
      4)]), by unfold State.runs; decide +kernel, by decide +kernel, by decide +kernel, by decide +kernel,
      by decide +kernel, by decide +kernel⟩,
    ⟨(wc
      ({ mark0 (withCtx up [(1, aCtx 4)]) with plan := { up.plan with lattices := [⟨0, 0, 1, 1⟩], current := true } })
      (mkc 0x0603 1 [(0, 2), (0, 2), (0, 2), (0, 2), (0, 2), (0, 2), (0, 2), (0, 2), (0, 2), (0, 2), (0, 2), (0, 2),
      (0, 2), (0, 2), (0, 2), (9895604658176, 8), (255, 1)])), _, _, 0, 0, (1), (mkc 0x0603 1 [(0, 2), (0, 2), (0, 2),
      (0, 2), (0, 2), (0, 2), (0, 2), (0, 2), (0, 2), (0, 2), (0, 2), (0, 2), (0, 2), (0, 2), (0, 2), (9895604658176,
      8), (255, 1)]), (aCtx 4), (⟨0, 0, 1, 1⟩), _, _, by unfold State.runs; decide +kernel, by decide +kernel,
      by decide +kernel, by decide +kernel, by decide +kernel, tables_good' _ _ _ rfl (by decide +kernel),
      by decide +kernel, rfl, by decide +kernel, rfl, by decide +kernel, by decide +kernel, by decide +kernel,
      by decide +kernel, by decide +kernel, rfl, rfl⟩,
    ⟨(wc
      ({ withCtx up [(1, aCtx 4)] with plan := { up.plan with queue := [⟨0, 1, 0, 0, [0, 0, 0, 0, 0, 0], [0, 0, 0, 0, 0, 0], 0, 0x090000002000, 0xFF, none, false, false, 0, 0, 0, 0, PlanCounts.zero, 0, 0, [], none⟩] } })
      (mkc 0x0604 1 [])), 0, 0, (1), (mkc 0x0604 1 []), (aCtx 4), by unfold State.runs; decide +kernel,
      by decide +kernel, by decide +kernel, by decide +kernel, tables_good' _ _ _ rfl (by decide +kernel),
      by decide +kernel⟩,
    ⟨({ withBytes up 0x4020000000 aTable with plan := { up.plan with lattices := [⟨0, 0x4020000000, 1, 1⟩], units := vset up.plan.units 0 (some ⟨0, 1, 0, 0, [0, 0, 0, 0, 0, 0], [0, 0, 0, 0, 0, 0], 0, 0x090000002000, 0xFF, none, false, false, 0, 0, 0, 0, PlanCounts.zero, 0, 0, [], none⟩) } }),
      (0), (⟨0, 1, 0, 0, [0, 0, 0, 0, 0, 0], [0, 0, 0, 0, 0, 0], 0, 0x090000002000, 0xFF, none, false, false, 0, 0, 0,
      0, PlanCounts.zero, 0, 0, [], none⟩), (⟨0, 0x4020000000, 1, 1⟩), _, by decide +kernel, by decide +kernel,
      by decide +kernel, by decide +kernel, free_range _ _ _ (units_free _ rfl) (by decide +kernel),
      by decide +kernel, rfl⟩,
    ⟨({ withBytes up 0x4020000000 (aTable) with plan := { up.plan with lattices := [⟨0, 0x4020000000, 1, 1⟩], units := vset up.plan.units 0 (some ⟨0, 1, 0, 0, [0, 0, 0, 0, 0, 0], [5, 0, 0, 0, 0, 0], 0, 0x090000002000, 0xFF, none, false, false, 0, 0, 0, 0, PlanCounts.zero, 0, 0, [], none⟩) } }),
      (⟨0, 1, 0, 0, [0, 0, 0, 0, 0, 0], [5, 0, 0, 0, 0, 0], 0, 0x090000002000, 0xFF, none, false, false, 0, 0, 0, 0,
      PlanCounts.zero, 0, 0, [], none⟩), (planJobOf
      ({ withBytes up 0x4020000000 (aTable) with plan := { up.plan with lattices := [⟨0, 0x4020000000, 1, 1⟩], units := vset up.plan.units 0 (some ⟨0, 1, 0, 0, [0, 0, 0, 0, 0, 0], [5, 0, 0, 0, 0, 0], 0, 0x090000002000, 0xFF, none, false, false, 0, 0, 0, 0, PlanCounts.zero, 0, 0, [], none⟩) } })
      ⟨0, 0x4020000000, 1, 1⟩ ⟨0, 1, 0, 0, [0, 0, 0, 0, 0, 0], [5, 0, 0, 0, 0, 0], 0, 0x090000002000, 0xFF, none,
      false, false, 0, 0, 0, 0, PlanCounts.zero, 0, 0, [], none⟩), _, (.empty), by decide +kernel, by decide +kernel,
      res_parts (by decide +kernel), by decide +kernel, by decide +kernel, by decide +kernel⟩,
    ⟨({ withBytes up 0x4020000000 (aTable) with plan := { up.plan with lattices := [⟨0, 0x4020000000, 1, 1⟩], units := vset up.plan.units 0 (some ⟨0, 1, 0, 0, [0, 0, 0, 0, 0, 0], [0, 0, 0, 0, 0, 0], 0, 0x090000002000, 0xFF, none, false, false, 0, 0, 0, 0, PlanCounts.zero, 0, 0, [], none⟩) } }),
      (⟨0, 1, 0, 0, [0, 0, 0, 0, 0, 0], [0, 0, 0, 0, 0, 0], 0, 0x090000002000, 0xFF, none, false, false, 0, 0, 0, 0,
      PlanCounts.zero, 0, 0, [], none⟩), (planJobOf
      ({ withBytes up 0x4020000000 (aTable) with plan := { up.plan with lattices := [⟨0, 0x4020000000, 1, 1⟩], units := vset up.plan.units 0 (some ⟨0, 1, 0, 0, [0, 0, 0, 0, 0, 0], [0, 0, 0, 0, 0, 0], 0, 0x090000002000, 0xFF, none, false, false, 0, 0, 0, 0, PlanCounts.zero, 0, 0, [], none⟩) } })
      ⟨0, 0x4020000000, 1, 1⟩ ⟨0, 1, 0, 0, [0, 0, 0, 0, 0, 0], [0, 0, 0, 0, 0, 0], 0, 0x090000002000, 0xFF, none,
      false, false, 0, 0, 0, 0, PlanCounts.zero, 0, 0, [], none⟩), _, (.selected 0), (0), by decide +kernel,
      by decide +kernel, res_parts (by decide +kernel), by decide +kernel, by decide +kernel, by decide +kernel⟩,
    ⟨({ withBytes up 0x4020000000 (aTable.take 64) with plan := { up.plan with lattices := [⟨0, 0x4020000000, 1, 1⟩], units := vset up.plan.units 0 (some ⟨0, 1, 0, 0, [0, 0, 0, 0, 0, 0], [5, 0, 0, 0, 0, 0], 0, 0x090000002000, 0xFF, none, false, false, 0, 0, 0, 0, PlanCounts.zero, 0, 0, [], none⟩) } }),
      (⟨0, 1, 0, 0, [0, 0, 0, 0, 0, 0], [5, 0, 0, 0, 0, 0], 0, 0x090000002000, 0xFF, none, false, false, 0, 0, 0, 0,
      PlanCounts.zero, 0, 0, [], none⟩), (planJobOf
      ({ withBytes up 0x4020000000 (aTable.take 64) with plan := { up.plan with lattices := [⟨0, 0x4020000000, 1, 1⟩], units := vset up.plan.units 0 (some ⟨0, 1, 0, 0, [0, 0, 0, 0, 0, 0], [5, 0, 0, 0, 0, 0], 0, 0x090000002000, 0xFF, none, false, false, 0, 0, 0, 0, PlanCounts.zero, 0, 0, [], none⟩) } })
      ⟨0, 0x4020000000, 1, 1⟩ ⟨0, 1, 0, 0, [0, 0, 0, 0, 0, 0], [5, 0, 0, 0, 0, 0], 0, 0x090000002000, 0xFF, none,
      false, false, 0, 0, 0, 0, PlanCounts.zero, 0, 0, [], none⟩), _, (.poisoned), by decide +kernel,
      by decide +kernel, res_parts (by decide +kernel), by decide +kernel, by decide +kernel, by decide +kernel⟩⟩

/-- The hypotheses of O10 can be met, clause by clause. -/
theorem witness_O10 :
    (∃ (s : State) (q k : Nat) (c : Cmd) (x y : Stream), (s.runs 0x0701 q k c) ∧ (chkFuseStream s c = none) ∧
      (s.retired 6 0 = false) ∧ (s.quarantined 6 0 = false) ∧ (s.fuse.enabled = false) ∧ (x = s.stream (c.p 0 1)) ∧ (y
      =
      { Stream.reset with ringBase := x.ringBase, ringLog2 := x.ringLog2, next := x.next, latencyUs := x.latencyUs }))
      ∧
    (∃ (s : State) (q k : Nat) (c : Cmd), (s.runs 0x0702 q k c) ∧ ((c.quat.norm2 - 2 ^ 60).natAbs ≤ 2 ^ 40) ∧
      (s.retired 6 0 = false) ∧ (s.quarantined 6 0 = false)) ∧
    (∃ (s : State) (q k : Nat) (c : Cmd), (s.runs 0x0703 q k c) ∧ ((s.stream (c.p 0 1)).moving = true) ∧ (c.p 1 1 ≤ 3)
      ∧ (c.p 2 1 ≤ 31) ∧ (c.p 3 4 ≤ 100000) ∧ (s.retired 6 0 = false) ∧ (s.quarantined 6 0 = false) ∧ (s.fuse.enabled
      = false)) ∧
    (∃ (s : State) (q k : Nat) (c : Cmd), (s.runs 0x0704 q k c) ∧ (1 ≤ c.p 0 1) ∧ (c.p 0 1 ≤ c.p 1 1) ∧ (c.p 1 1 ≤ 16)
      ∧ (1 ≤ c.p 2 1) ∧ (1 ≤ c.p 3 4) ∧ (c.p 3 4 ≤ 3600000) ∧ (c.p 7 1 ≤ 1) ∧ (s.retired 6 0 = false) ∧ (s.quarantined
      6 0 = false) ∧ (s.fuse.enabled = false)) ∧
    (∃ (s : State) (q k : Nat) (c : Cmd), (s.runs 0x0705 q k c) ∧ (c.p 0 8 % 64 = 0) ∧ (16 ≤ c.p 8 4) ∧ (c.p 8 4 ≤
      16777216) ∧ (s.destOk (c.p 0 8) (64 + 64 * c.p 8 4) = true) ∧ (s.namesWithdrawn (c.p 0 8) (64 + 64 * c.p 8 4) =
      false) ∧ (s.retired 6 0 = false) ∧ (s.quarantined 6 0 = false) ∧ (s.fuse.enabled = false)) ∧
    (∃ (s : State) (q k : Nat) (c : Cmd), (s.runs 0x0706 q k c) ∧ (s.retired 6 0 = false) ∧ (s.quarantined 6 0 =
      false) ∧ (c.p 0 1 ≤ 1)) :=
  ⟨⟨(wc (up) (mk 0x0701 [(0, 1), (0, 1), (255, 1), (255, 1), (33333, 4), (1, 1)])), 0, 0, (mk 0x0701 [(0, 1), (0, 1),
    (255, 1), (255, 1), (33333, 4), (1, 1)]), _, _, by unfold State.runs; decide +kernel, by decide +kernel,
    by decide +kernel, by decide +kernel, by decide +kernel, rfl, rfl⟩,
    ⟨(wc (up) (mk 0x0702 [(0, 1), (1073741824, 4), (0, 4), (0, 4), (0, 4)])), 0, 0, (mk 0x0702 [(0, 1), (1073741824,
      4), (0, 4), (0, 4), (0, 4)]), by unfold State.runs; decide +kernel, by decide +kernel, by decide +kernel,
      by decide +kernel⟩,
    ⟨(wc
      ({ up with fuse := { up.fuse with streams := vset (Vector.replicate 36 Stream.reset) 0 { Stream.reset with configured := true, kind := 0, transform := 0xFF } } })
      (mk 0x0703 [(0, 1), (3, 1), (31, 1), (100000, 4)])), 0, 0, (mk 0x0703 [(0, 1), (3, 1), (31, 1), (100000, 4)]),
      by unfold State.runs; decide +kernel, by decide +kernel, by decide +kernel, by decide +kernel,
      by decide +kernel, by decide +kernel, by decide +kernel, by decide +kernel⟩,
    ⟨(wc (up) (mk 0x0704 [(1, 1), (16, 1), (1, 1), (3600000, 4), (1, 1)])), 0, 0, (mk 0x0704 [(1, 1), (16, 1), (1, 1),
      (3600000, 4), (1, 1)]), by unfold State.runs; decide +kernel, by decide +kernel, by decide +kernel,
      by decide +kernel, by decide +kernel, by decide +kernel, by decide +kernel, by decide +kernel,
      by decide +kernel, by decide +kernel, by decide +kernel⟩,
    ⟨(wc (up) (mk 0x0705 [(275414777856, 8), (16, 4)])), 0, 0, (mk 0x0705 [(275414777856, 8), (16, 4)]),
      by unfold State.runs; decide +kernel, by decide +kernel, by decide +kernel, by decide +kernel,
      by decide +kernel, by decide +kernel, by decide +kernel, by decide +kernel, by decide +kernel⟩,
    ⟨(wc (up) (mk 0x0706 [(0, 1)])), 0, 0, (mk 0x0706 [(0, 1)]), by unfold State.runs; decide +kernel,
      by decide +kernel, by decide +kernel, by decide +kernel⟩⟩

/-- The hypotheses of O11 can be met, clause by clause. -/
theorem witness_O11 :
    (∃ (s : State) (q k : Nat) (c : Cmd), (s.runs 0x0801 q k c) ∧ (c.p 0 1 ≤ 3) ∧ (c.p 1 1 ≤ 5) ∧ (c.p 2 1 ≤ 32) ∧
      (badEtherType (c.p 3 2) = false) ∧ (c.p 5 1 ≤ 3) ∧ ((∀ j, j < 32 → (s.loop (32 * c.p 0 1 + j)).state = .off)) ∧
      (0 < c.p 2 1)) ∧
    (∃ (s : State) (q k : Nat) (c : Cmd) (i : Nat), (s.runs 0x0802 q k c) ∧ (chkStrokeLoop s c = none) ∧ ((s.loop (c.p
      0 1)).state = .off) ∧ (i < c.p 1 1)) ∧
    (∃ (s : State) (q k : Nat) (c : Cmd), (s.runs 0x0803 q k c) ∧ (c.p 0 1 ≤ 127) ∧ (c.p 1 4 ≠ 0) ∧ (c.p 5 4 ≠ 0) ∧
      (c.p 9 4 ≠ 0)) ∧
    (∃ (s : State) (q k : Nat) (c : Cmd), (s.runs 0x0804 q k c) ∧ (c.p 0 1 ≤ 127) ∧ (c.p 9 1 ≤ 2)) ∧
    (∃ (s : State) (q k : Nat) (c : Cmd), (s.runs 0x0805 q k c) ∧ (c.p 0 1 ≤ 127) ∧ ((s.loop (c.p 0 1)).state = .run)) ∧
    (∃ (s : State) (q k : Nat) (c : Cmd), (s.runs 0x0806 q k c) ∧ (c.p 0 1 ≤ 127) ∧ (c.p 1 1 ≤ 1) ∧ ((c.p 1 1 = 1 →
      (s.chain (c.p 0 1 / 32)).running = true ∧ c.p 0 1 % 32 < (s.chain (c.p 0 1 / 32)).joints ∧ (s.loop (c.p 0
      1)).sections ≠ [] ∧ (s.loop (c.p 0 1)).profiled = true))) ∧
    (∃ (s : State) (q k : Nat) (c : Cmd), (s.runs 0x0807 q k c) ∧ (chkStrokeTune s c = none) ∧ ((s.loop (c.p 0
      1)).state = .run) ∧ ((s.loop (c.p 0 1)).tune = none)) ∧
    (∃ (s : State) (q k : Nat) (c : Cmd), (s.runs 0x0808 q k c) ∧ (c.p 0 1 ≤ 3)) :=
  ⟨⟨(wc (up) (mk 0x0801 [(3, 1), (5, 1), (32, 1), (34997, 2), (3, 1)])), 0, 0, (mk 0x0801 [(3, 1), (5, 1), (32, 1),
    (34997, 2), (3, 1)]), by unfold State.runs; decide +kernel, by decide +kernel, by decide +kernel, by decide +kernel,
    by decide +kernel, by decide +kernel, by decide +kernel, by decide +kernel⟩,
    ⟨(wc (up)
      ({ (mk 0x0802 [(127, 1), (1, 1), (0, 1)]) with params := (mk 0x0802 [(127, 1), (1, 1), (0, 1)]).params ++ List.replicate 108 0 })),
      0, 0,
      ({ (mk 0x0802 [(127, 1), (1, 1), (0, 1)]) with params := (mk 0x0802 [(127, 1), (1, 1), (0, 1)]).params ++ List.replicate 108 0 }),
      (0), by unfold State.runs; decide +kernel, by decide +kernel, by decide +kernel, by decide +kernel⟩,
    ⟨(wc (up) (mk 0x0803 [(127, 1), (1, 4), (1, 4), (1, 4)])), 0, 0, (mk 0x0803 [(127, 1), (1, 4), (1, 4), (1, 4)]),
      by unfold State.runs; decide +kernel, by decide +kernel, by decide +kernel, by decide +kernel,
      by decide +kernel⟩,
    ⟨(wc (up) (mk 0x0804 [(127, 1), (1, 4), (1, 4), (2, 1)])), 0, 0, (mk 0x0804 [(127, 1), (1, 4), (1, 4), (2, 1)]),
      by unfold State.runs; decide +kernel, by decide +kernel, by decide +kernel⟩,
    ⟨(wc (up.modLoop 0 (fun y =>
      { y with state := .run, sections := [⟨List.replicate 7 0, List.replicate 7 0, 0, 0, 0, 0, 0, 0, false⟩], profiled := true }))
      (mk 0x0805 [(0, 1), (5, 4)])), 0, 0, (mk 0x0805 [(0, 1), (5, 4)]), by unfold State.runs; decide +kernel,
      by decide +kernel, by decide +kernel⟩,
    ⟨(wc ((up.modLoop 0 (fun y =>
      { y with state := .run, sections := [⟨List.replicate 7 0, List.replicate 7 0, 0, 0, 0, 0, 0, 0, false⟩], profiled := true })).modChain
      0 (fun x => { x with running := true, joints := 4 })) (mk 0x0806 [(0, 1), (1, 1)])), 0, 0, (mk 0x0806 [(0, 1),
      (1, 1)]), by unfold State.runs; decide +kernel, by decide +kernel, by decide +kernel, by decide +kernel⟩,
    ⟨(wc (up.modLoop 0 (fun y =>
      { y with state := .run, sections := [⟨List.replicate 7 0, List.replicate 7 0, 0, 0, 0, 0, 0, 0, false⟩], profiled := true }))
      (mk 0x0807 [(0, 1), (1, 4), (0, 4), (2, 1), (9895604654080, 8)])), 0, 0, (mk 0x0807 [(0, 1), (1, 4), (0, 4), (2,
      1), (9895604654080, 8)]), by unfold State.runs; decide +kernel, by decide +kernel, by decide +kernel,
      by decide +kernel⟩,
    ⟨(wc (up) (mk 0x0808 [(3, 1), (5, 2)])), 0, 0, (mk 0x0808 [(3, 1), (5, 2)]), by unfold State.runs; decide +kernel,
      by decide +kernel⟩⟩

/-- The hypotheses of O12 can be met, clause by clause. -/
theorem witness_O12 :
    (∃ (s : State) (q k : Nat) (c : Cmd) (m : Model), (s.runs 0x0901 q k c) ∧ (s.model (c.p 0 4) = some m) ∧ (m.pinned
      = true) ∧ (m.inUse = 0) ∧ (c.p 4 8 = 0) ∧ (c.p 12 8 = 0)) ∧
    (∃ (s : State) (q k : Nat) (c : Cmd) (m : Model) (p : PhaseEntry), (s.runs 0x0901 q k c) ∧ (s.model (c.p 0 4) =
      some m) ∧ (m.pinned = true) ∧ (m.inUse = 0) ∧ ((c.p 4 8 ≠ 0 ∨ c.p 12 8 ≠ 0)) ∧ (m.safePhase = some p) ∧
      (p.inBytes ≤ 2 ^ 20) ∧ (p.outBytes ≤ 2 ^ 20) ∧ (m.placements.any m.writeGrant = false) ∧ (s.inT1Host (c.p 4 8)
      p.inBytes = true) ∧ (s.inT1Host (c.p 12 8) (p.outBytes + 64) = true) ∧ (trailerOk (vals (s.peek (c.p 12 8 +
      p.outBytes) 64)) = true) ∧ (s.namesWithdrawn (c.p 4 8) p.inBytes = false) ∧ (s.namesWithdrawn (c.p 12 8)
      (p.outBytes + 64) = false)) ∧
    (∃ (s : State) (q k : Nat) (c : Cmd) (d : Detector), (s.runs 0x0902 q k c) ∧ (c.p 0 1 ≤ 11) ∧ (c.p 1 1 ≤ 1) ∧ (d =
      vget ⟨false, []⟩ s.net.detectors (c.p 0 1))) ∧
    (∃ (s : State) (q k : Nat) (c : Cmd), (s.runs 0x0903 q k c) ∧ (s.destOk (c.p 0 8) 128 = true)) :=
  ⟨⟨(wc (withModels up [(1, { aModel with pinned := true })]) (mk 0x0901 [(1, 4)])), 0, 0, (mk 0x0901 [(1, 4)]),
    ({ aModel with pinned := true }), by unfold State.runs; decide +kernel, by decide +kernel, by decide +kernel,
    by decide +kernel, by decide +kernel, by decide +kernel⟩,
    ⟨(wc ((fun (s : State) =>
      { s with mem := ⟨s.mem.data, s.mem.tag ++ (List.range 64).map (fun i => ⟨0x4020001100 + i, 1⟩)⟩ }) (withModels
      up [(1, { aModel with pinned := true, phases := [⟨0, 0, 0, true, true, false, 1, 0, 1, 256, 256, 0, 0, 0⟩] })]))
      (mk 0x0901 [(1, 4), (275414777856, 8), (275414781952, 8)])), 0, 0, (mk 0x0901 [(1, 4), (275414777856, 8),
      (275414781952, 8)]),
      ({ aModel with pinned := true, phases := [⟨0, 0, 0, true, true, false, 1, 0, 1, 256, 256, 0, 0, 0⟩] }), (⟨0, 0,
      0, true, true, false, 1, 0, 1, 256, 256, 0, 0, 0⟩), by unfold State.runs; decide +kernel, by decide +kernel,
      by decide +kernel, by decide +kernel, by decide +kernel, by decide +kernel, by decide +kernel,
      by decide +kernel, by decide +kernel, by decide +kernel, by decide +kernel, by decide +kernel,
      by decide +kernel, by decide +kernel⟩,
    ⟨(wc (up) (mk 0x0902 [(11, 1), (1, 1)])), 0, 0, (mk 0x0902 [(11, 1), (1, 1)]), _,
      by unfold State.runs; decide +kernel, by decide +kernel, by decide +kernel, rfl⟩,
    ⟨(wc (up) (mk 0x0903 [(9895604654080, 8)])), 0, 0, (mk 0x0903 [(9895604654080, 8)]),
      by unfold State.runs; decide +kernel, by decide +kernel⟩⟩

/-- The hypotheses of O13 can be met, clause by clause. -/
theorem witness_O13 :
    (∃ (s : State) (q k : Nat) (c : Cmd), (s.runs 0x0A01 q k c) ∧ (30 ≤ c.p 0 2) ∧ (c.p 0 2 ≤ 420) ∧ (c.p 2 1 ≤ 5)) ∧
    (∃ (s : State) (q k : Nat) (c : Cmd), (s.runs 0x0A02 q k c) ∧ (chkPwrSag s c = none)) ∧
    (∃ (s : State) (q k : Nat) (c : Cmd), (s.runs 0x0A03 q k c) ∧ (c.p 0 4 ≤ 1000000) ∧ (30 ≤ c.p 4 2) ∧ (c.p 4 2 ≤ 420)) ∧
    (∃ (s : State) (q k : Nat) (c : Cmd), (s.runs 0x0A04 q k c) ∧ (chkPwrState s c = none) ∧ ((c.p 0 1 < 2 ∨ c.p 0 1 =
      s.pwr.state))) ∧
    (∃ (s : State) (q k : Nat) (c : Cmd), (s.runs 0x0A04 q k c) ∧ (chkPwrState s c = none) ∧ (2 ≤ c.p 0 1) ∧ (c.p 0 1
      ≠ s.pwr.state) ∧ ((c.p 0 1 = 3 → s.time.coarse = false ∧ s.sagging = false))) ∧
    (∃ (s : State) (q k : Nat) (c : Cmd), (s.runs 0x0A05 q k c) ∧ ((c.p 0 2 = 0 ∨ (50 ≤ c.p 0 2 ∧ c.p 0 2 ≤ 310))) ∧
      (c.p 2 12 < 2 ^ 77) ∧ ((c.p 0 2 = 0 ∨ s.pllStable = true))) ∧
    (∃ (s u : State) (q k : Nat) (c : Cmd), (s.runs 0x0A06 q k c) ∧ (c.p 0 1 ≤ 1) ∧ ((c.p 0 1 = 1 → s.pllStable =
      true)) ∧ (u = { s with clk := { s.clk with src := c.p 0 1 == 1 } })) ∧
    (∃ (s : State) (q k : Nat) (c : Cmd), (s.runs 0x0A07 q k c) ∧ (chkClkOut s c = none) ∧ ((c.p 1 4 = 0 ∨ s.pllStable
      = true))) :=
  ⟨⟨(wc (up) (mk 0x0A01 [(420, 2), (5, 1)])), 0, 0, (mk 0x0A01 [(420, 2), (5, 1)]),
    by unfold State.runs; decide +kernel, by decide +kernel, by decide +kernel, by decide +kernel⟩,
    ⟨(wc (up) (mk 0x0A02 [(900, 2), (800, 2), (60, 2)])), 0, 0, (mk 0x0A02 [(900, 2), (800, 2), (60, 2)]),
      by unfold State.runs; decide +kernel, by decide +kernel⟩,
    ⟨(wc (up) (mk 0x0A03 [(1000000, 4), (30, 2)])), 0, 0, (mk 0x0A03 [(1000000, 4), (30, 2)]),
      by unfold State.runs; decide +kernel, by decide +kernel, by decide +kernel, by decide +kernel⟩,
    ⟨(wc (up) (mk 0x0A04 [(1, 1)])), 0, 0, (mk 0x0A04 [(1, 1)]), by unfold State.runs; decide +kernel,
      by decide +kernel, by decide +kernel⟩,
    ⟨(wc (up) (mk 0x0A04 [(3, 1), (1, 4), (1, 4)])), 0, 0, (mk 0x0A04 [(3, 1), (1, 4), (1, 4)]),
      by unfold State.runs; decide +kernel, by decide +kernel, by decide +kernel, by decide +kernel,
      by decide +kernel⟩,
    ⟨(wc (up) (mk 0x0A05 [(310, 2), (2 ^ 77 - 1, 12)])), 0, 0, (mk 0x0A05 [(310, 2), (2 ^ 77 - 1, 12)]),
      by unfold State.runs; decide +kernel, by decide +kernel, by decide +kernel, by decide +kernel⟩,
    ⟨(wc (up) (mk 0x0A06 [(1, 1)])), _, 0, 0, (mk 0x0A06 [(1, 1)]), by unfold State.runs; decide +kernel,
      by decide +kernel, by decide +kernel, rfl⟩,
    ⟨(wc (up) (mk 0x0A07 [(1, 1), (25000, 4), (8, 1), (120, 1)])), 0, 0, (mk 0x0A07 [(1, 1), (25000, 4), (8, 1), (120,
      1)]), by unfold State.runs; decide +kernel, by decide +kernel, by decide +kernel⟩⟩

/-- The hypotheses of O14 can be met, clause by clause. -/
theorem witness_O14 :
    (∃ (s u : State) (q k p role : Nat) (c : Cmd), (s.runs 0x0B01 q k c) ∧ (p = c.p 0 1) ∧ (p ≤ 11) ∧ (role = bits
      (c.p 1 1) 1 0) ∧ (role ≠ 3) ∧ (bits (c.p 1 1) 6 2 = 0) ∧ (1 ≤ c.p 2 2) ∧ (c.p 2 2 ≤ 4094) ∧ (u = (if role = 0
      then s.linkTo p false else s).modPort p (fun x =>
      { x with role := role, slave := bit (c.p 1 1) 7 == 1, pvid := c.p 2 2, tx := (if x.role = 2 ∧ role ≠ 2 then [] else x.tx), rx := (if x.role = 2 ∧ role ≠ 2 then [] else x.rx) })))
      ∧
    (∃ (s : State) (q k : Nat) (c : Cmd), (s.runs 0x0B02 q k c) ∧ (1 ≤ c.p 0 2) ∧ (c.p 0 2 ≤ 4094) ∧ (c.p 2 2 < 4096)
      ∧ (c.p 4 2 &&& c.p 2 2 = c.p 4 2) ∧ ((c.p 2 2 = 0 ∨ (s.net.vlan (c.p 0 2)).isSome = true ∨ s.net.vlans.length <
      256))) ∧
    (∃ (s : State) (q k : Nat) (c : Cmd), (s.runs 0x0B03 q k c) ∧ (c.p 0 1 ≤ 11) ∧ (c.p 1 1 ≤ 7) ∧ (s.slopeSum (c.p 0
      1) (c.p 1 1) (c.p 2 4) ≤ 7500000)) ∧
    (∃ (s : State) (q k : Nat) (c : Cmd) (f : Filter), (s.runs 0x0B04 q k c) ∧ (chkNetFilter s c = none) ∧ (f =
      { mac := bits (c.p 2 8) 47 0, vid := bits (c.p 2 8) 59 48, rate := c.p 10 4, burst := c.p 14 4, port := c.p 18 1, tokens := c.p 14 4 * 16000000, at_ := s.time.half }))
      ∧
    (∃ (s : State) (q k : Nat) (c : Cmd) (l : List Byte), (s.runs 0x0B05 q k c) ∧ (c.p 0 1 ≤ 63) ∧ (s.inT1Host (c.p 1
      8) 128 = true) ∧ (s.namesWithdrawn (c.p 1 8) 128 = false) ∧ (s.anyPoison (c.p 1 8) 128 = false) ∧ (l = vals
      (s.peek (c.p 1 8) 128)) ∧ ((byteAt l 0 = 0xFF ∨ (s.templateOk l = true ∧ s.net.templates.any (fun x => x.1 !=
      c.p 0 1 && matchKey x.2.bytes == matchKey l) = false)))) ∧
    (∃ (s : State) (q k : Nat) (c : Cmd) (a : Assoc) (f : List Assoc → List Assoc), (s.runs 0x0B06 q k c) ∧ (chkNetKey
      s c = none) ∧ ((s.nport (c.p 0 1)).role = 2) ∧ (a = ⟨bits (c.p 1 1) 1 0, bit (c.p 1 1) 3, c.p 2 8, c.p 10 32,
      0⟩) ∧ (f = (fun l => (if bit (c.p 1 1) 4 = 1 then [a] else []) ++ l.filter (fun x => !(x.an == a.an && x.sci ==
      a.sci))))) :=
  ⟨⟨(wc (up) (mk 0x0B01 [(11, 1), (1, 1), (4094, 2)])), _, 0, 0, _, _, (mk 0x0B01 [(11, 1), (1, 1), (4094, 2)]),
    by unfold State.runs; decide +kernel, rfl, by decide +kernel, rfl, by decide +kernel, by decide +kernel,
    by decide +kernel, by decide +kernel, rfl⟩,
    ⟨(wc (up) (mk 0x0B02 [(4094, 2), (3, 2), (1, 2)])), 0, 0, (mk 0x0B02 [(4094, 2), (3, 2), (1, 2)]),
      by unfold State.runs; decide +kernel, by decide +kernel, by decide +kernel, by decide +kernel,
      by decide +kernel, by decide +kernel⟩,
    ⟨(wc (up) (mk 0x0B03 [(11, 1), (7, 1), (7500000, 4)])), 0, 0, (mk 0x0B03 [(11, 1), (7, 1), (7500000, 4)]),
      by unfold State.runs; decide +kernel, by decide +kernel, by decide +kernel, by decide +kernel⟩,
    ⟨(wc (up) (mk 0x0B04 [(255, 2), (0, 8), (1, 4), (64, 4), (255, 1)])), 0, 0, (mk 0x0B04 [(255, 2), (0, 8), (1, 4),
      (64, 4), (255, 1)]), _, by unfold State.runs; decide +kernel, by decide +kernel, rfl⟩,
    ⟨(wc (withBytes up 0x4020000000 (fields [(0, 16), (0x4030000000, 8), (4096, 4), (1, 1), (0xFF, 1), (0, 2), (64,
      4), (16, 2), (0, 2), (0xFFFF, 2), (0, 86)])) (mk 0x0B05 [(63, 1), (275414777856, 8)])), 0, 0, (mk 0x0B05 [(63,
      1), (275414777856, 8)]), (fields [(0, 16), (0x4030000000, 8), (4096, 4), (1, 1), (0xFF, 1), (0, 2), (64, 4),
      (16, 2), (0, 2), (0xFFFF, 2), (0, 86)]), by unfold State.runs; decide +kernel, by decide +kernel,
      by decide +kernel, by decide +kernel, no_poison _ _ 16 (by decide +kernel) (by decide +kernel), read_clean _ _
      16 _ (by decide +kernel) (by decide +kernel) (by decide +kernel), by decide +kernel⟩,
    ⟨(wc (up.modPort 11 (fun x => { x with role := 2 })) (mk 0x0B06 [(11, 1), (23, 1), (1, 8)])), 0, 0, (mk 0x0B06
      [(11, 1), (23, 1), (1, 8)]), _, _, by unfold State.runs; decide +kernel, by decide +kernel, by decide +kernel,
      rfl, rfl⟩⟩

/-- The hypotheses of O15 can be met, clause by clause. -/
theorem witness_O15 :
    (∃ (s : State) (q k : Nat) (c : Cmd), (s.runs 0x0C01 q k c) ∧ (s.destOk (c.p 0 8) 7184 = true)) ∧
    (∃ (s : State) (q k : Nat) (c : Cmd), (s.runs 0x0C02 q k c) ∧ (chkUnit s c = none)) ∧
    (∃ (s : State) (q k : Nat) (c : Cmd), (s.runs 0x0C03 q k c) ∧ (chkUnit s c = none)) ∧
    (∃ (s : State) (q k : Nat) (c : Cmd), (s.runs 0x0C04 q k c) ∧ (c.p 0 1 ≤ 5) ∧ (1 ≤ c.p 1 1) ∧ (c.p 1 1 ≤ 16) ∧ (1
      ≤ c.p 2 4) ∧ (c.p 2 4 ≤ 3600000)) :=
  ⟨⟨(wc (up) (mk 0x0C01 [(9895604654080, 8)])), 0, 0, (mk 0x0C01 [(9895604654080, 8)]),
    by unfold State.runs; decide +kernel, by decide +kernel⟩,
    ⟨(wc (up) (mk 0x0C02 [(0, 1), (127, 2)])), 0, 0, (mk 0x0C02 [(0, 1), (127, 2)]),
      by unfold State.runs; decide +kernel, by decide +kernel⟩,
    ⟨(wc (up.modUnit 0 5 (fun u => { u with state := .quarantined })) (mk 0x0C03 [(0, 1), (5, 2)])), 0, 0, (mk 0x0C03
      [(0, 1), (5, 2)]), by unfold State.runs; decide +kernel, by decide +kernel⟩,
    ⟨(wc (up) (mk 0x0C04 [(5, 1), (16, 1), (3600000, 4)])), 0, 0, (mk 0x0C04 [(5, 1), (16, 1), (3600000, 4)]),
      by unfold State.runs; decide +kernel, by decide +kernel, by decide +kernel, by decide +kernel,
      by decide +kernel, by decide +kernel⟩⟩

/-- The hypotheses of O16 can be met, clause by clause. -/
theorem witness_O16 :
    (∃ (s : State) (q k : Nat) (c : Cmd) (b : List Byte), (s.runs 0x0D01 q k c) ∧ (s.imageOk (c.p 0 8) (c.p 8 4) =
      true) ∧ (64 ≤ c.p 8 4) ∧ (b = vals (s.peek (c.p 0 8) (c.p 8 4))) ∧ (leAt b 8 8 = c.p 8 4) ∧ ((s.peek (c.p 0 8)
      (c.p 8 4)).any PByte.p = false) ∧ (imgFault b 2 = none) ∧ (s.signed b = true) ∧ (s.cox.version / 2 ^ 24 ≤ leAt b
      20 4 / 2 ^ 24) ∧ (s.cox.standby ≠ 0) ∧ (s.cox.standby ≠ 3)) ∧
    (∃ (s : State) (q k : Nat) (c : Cmd) (i : FwImage), (s.runs 0x0D02 q k c) ∧ (s.cox.standby ≠ 3) ∧ (s.cox.staged =
      some i) ∧ (s.sagging = false)) ∧
    (∃ (s : State) (i : FwImage), (s.cox.slotWrite = some i) ∧ (s.sagging = false)) ∧
    (∃ (s : State), s.cox.reload = true) ∧
    (∃ (s r : State) (q k x y : Nat) (c : Cmd) (b : List Byte) (f : Option (Nat × Nat × Bool) → State), (s.runs 0x0D03
      q k c) ∧ (c.p 0 1 ≤ 7) ∧ (s.imageOk (c.p 1 8) 97 = true) ∧ (r = s.noteRead (c.p 1 8) 97) ∧ ((r.peek (c.p 1 8)
      97).any PByte.p = false) ∧ (b = vals (r.peek (c.p 1 8) 97)) ∧ (x = beNat (slice b 1 48)) ∧ (y = beNat (slice b
      49 48)) ∧ (f = (fun v => { r with boat := { r.boat with keys := vset r.boat.keys (c.p 0 1) v } }))) ∧
    (∃ (s r : State) (q k : Nat) (c : Cmd) (b : List Byte), (s.runs 0x0D04 q k c) ∧ (s.imageOk (c.p 0 8) (c.p 8 8) =
      true) ∧ (r = s.noteRead (c.p 0 8) (c.p 8 8)) ∧ (r.lenOk c = true) ∧ ((r.peek (c.p 0 8) (c.p 8 8)).any PByte.p =
      false) ∧ (b = vals (r.peek (c.p 0 8) (c.p 8 8))) ∧ (imgFault b (if leAt b 4 2 = 2 then 2 else 1) = none) ∧
      (r.signed b = true)) :=
  ⟨⟨(wc (withWindow up fwImg) (mk 0x0D01 [(9895604654080, 8), (256, 4)])), 0, 0, (mk 0x0D01 [(9895604654080, 8), (256,
    4)]), (fwImg), by unfold State.runs; decide +kernel, by decide +kernel, by decide +kernel, by decide +kernel,
    by decide +kernel, by decide +kernel, by decide +kernel, by decide +kernel, by decide +kernel, by decide +kernel,
    by decide +kernel⟩,
    ⟨(wc ({ up with cox := { up.cox with standby := 2, staged := some ⟨1, 100⟩ } }) (mk 0x0D02 [])), 0, 0, (mk 0x0D02
      []), (⟨1, 100⟩), by unfold State.runs; decide +kernel, by decide +kernel, by decide +kernel, by decide +kernel⟩,
    ⟨({ up with cox := { up.cox with slotWrite := some ⟨1, 100⟩ } }), (⟨1, 100⟩), by decide +kernel, by decide +kernel⟩,
    ⟨({ up with cox := { up.cox with reload := true } }), by decide +kernel⟩,
    ⟨(wc (withWindow up (4 :: toBe 48 keyX ++ toBe 48 keyY)) (mk 0x0D03 [(0, 1), (9895604654080, 8)])), _, 0, 0,
      (keyX), (keyY), (mk 0x0D03 [(0, 1), (9895604654080, 8)]), (4 :: toBe 48 keyX ++ toBe 48 keyY), _,
      by unfold State.runs; decide +kernel, by decide +kernel, by decide +kernel, rfl, by decide +kernel,
      by decide +kernel, by decide +kernel, by decide +kernel, rfl⟩,
    ⟨(wc (withWindow up modelImg) (mk 0x0D04 [(9895604654080, 8), (424, 8)])), _, 0, 0, (mk 0x0D04 [(9895604654080,
      8), (424, 8)]), (modelImg), by unfold State.runs; decide +kernel, by decide +kernel, rfl, by decide +kernel,
      by decide +kernel, by decide +kernel, by decide +kernel, by decide +kernel⟩⟩

/-- The hypotheses of O17 can be met, clause by clause. -/
theorem witness_O17 :
    (∃ (s : State) (ch : Nat) (bank : BankAddr) (row col n a : Nat) (bl32 : Bool), (s.portServes ch = true) ∧ (n = (if
      bl32 then 8 else 4)) ∧ (a = portAddr bank row col)) ∧
    (∃ (s : State) (ch : Nat) (bank : BankAddr) (row col n b : Nat) (bl32 : Bool), (s.portServes ch = true) ∧ (n = (if
      bl32 then 8 else 4)) ∧ (b = portAddr bank row col - portAddr bank row col % (8 * n)) ∧ (((0x04400000 ≤ b ∧ b <
      0x04800000) ∨ (0x04A00000 ≤ b ∧ b < 0x04C00000) ∨ 0x04D11000 ≤ b))) ∧
    (∃ (s : State) (ch : Nat) (bank : BankAddr) (row col n b : Nat) (bl32 : Bool), (s.portServes ch = true) ∧ (n = (if
      bl32 then 8 else 4)) ∧ (b = portAddr bank row col - portAddr bank row col % (8 * n)) ∧ (sramBacked b = true) ∧
      ((∀ i, i < 8 * n → cellGet s.mem.tag (windowBase ch + b + i) = 0))) ∧
    (∃ (s : State) (ch : Nat) (bank : BankAddr) (row col n b : Nat) (bl32 : Bool), (s.portServes ch = true) ∧ (n = (if
      bl32 then 8 else 4)) ∧ (b = portAddr bank row col - portAddr bank row col % (8 * n)) ∧ (0x04D00000 ≤ b) ∧ (b <
      0x04D11000)) ∧
    (∃ (s : State) (ch : Nat), s.portServes ch = true) :=
  ⟨⟨(up), (1), (.flat 15), (65535), (1023), (8), _, (true), by decide +kernel, by decide +kernel, rfl⟩,
    ⟨(up), (1), (.flat 15), (65535), (1023), (8), _, (true), by decide +kernel, by decide +kernel, rfl, by decide +kernel⟩,
    ⟨(up), (1), (.flat 15), (2175), (992), (8), _, (true), by decide +kernel, by decide +kernel, rfl,
      by decide +kernel, (fun i _ => by simp [up, State.reset, Memory.empty, cellGet])⟩,
    ⟨(up), (1), (.flat 1), (2466), (992), (8), _, (true), by decide +kernel, by decide +kernel, rfl,
      by decide +kernel, by decide +kernel⟩,
    ⟨(up), (1), by decide +kernel⟩⟩

/-- The hypotheses of O18 can be met, clause by clause. -/
theorem witness_O18 :
    (∃ (s : State) (ch : Nat) (bank : BankAddr) (row col a link : Nat) (beats : List Word16) (data : List Byte) (x :
      Nat), (s.memoryOk) ∧ (s.portServes ch = true) ∧ ((beats.length = 16 ∨ beats.length = 32)) ∧ (data = bytesOf
      beats) ∧ (a = portAddr bank row col - portAddr bank row col % data.length) ∧ ((link = 0 ∨ (s.chan ch).wecc =
      false)) ∧ (a < 0x04400000) ∧ ((x < windowBase ch + a ∨ windowBase ch + a + data.length ≤ x))) ∧
    (∃ (s : State) (ch : Nat) (bank : BankAddr) (row col a n link : Nat) (beats : List Word16), (s.portServes ch =
      true) ∧ ((beats.length = 16 ∨ beats.length = 32)) ∧ (n = 2 * beats.length) ∧ (a = portAddr bank row col -
      portAddr bank row col % n) ∧ ((link = 0 ∨ (s.chan ch).wecc = false)) ∧ (0x04400000 ≤ a) ∧ ((a < 0x04D00000 ∨
      0x04D10000 ≤ a))) ∧
    (∃ (s : State) (ch : Nat) (bank : BankAddr) (row col a o mask link : Nat) (beats : List Word16) (data : List
      Byte), (s.portServes ch = true) ∧ ((beats.length = 16 ∨ beats.length = 32)) ∧ (data = bytesOf beats) ∧ (a =
      portAddr bank row col - portAddr bank row col % data.length) ∧ ((link = 0 ∨ (s.chan ch).wecc = false)) ∧ (a =
      0x04D00000 + o) ∧ (o < 0x1000) ∧ (o % 0x40 = 0) ∧ (mask % 2 ^ data.length = 0xF)) ∧
    (∃ (s : State) (ch : Nat) (bank : BankAddr) (row col a o mask link : Nat) (beats : List Word16) (data : List
      Byte), (s.portServes ch = true) ∧ ((beats.length = 16 ∨ beats.length = 32)) ∧ (data = bytesOf beats) ∧ (a =
      portAddr bank row col - portAddr bank row col % data.length) ∧ ((link = 0 ∨ (s.chan ch).wecc = false)) ∧ (a =
      0x04D00000 + o) ∧ (o < 0x1000) ∧ (o % 0x40 = 0) ∧ (mask % 2 ^ data.length = 0xF00)) ∧
    (∃ (s : State) (ch : Nat) (bank : BankAddr) (row col mask link : Nat) (beats : List Word16) (data : List Byte),
      (s.portServes ch = true) ∧ ((beats.length = 16 ∨ beats.length = 32)) ∧ (data = bytesOf beats) ∧ (portAddr bank
      row col - portAddr bank row col % data.length = 0x04D01000) ∧ ((link = 0 ∨ (s.chan ch).wecc = false)) ∧ (mask %
      2 ^ data.length = 0xF)) ∧
    (∃ (s : State) (ch : Nat) (bank : BankAddr) (row col a : Nat) (beats : List Word16) (data : List Byte),
      (s.portServes ch = true) ∧ ((beats.length = 16 ∨ beats.length = 32)) ∧ (data = bytesOf beats) ∧ (a = portAddr
      bank row col - portAddr bank row col % data.length) ∧ ((s.chan ch).wecc = true)) ∧
    (∃ (s u : State) (ch : Nat) (bank : BankAddr) (row col a n : Nat) (beats : List Word16), (s.portServes ch = true)
      ∧ ((beats.length = 16 ∨ beats.length = 32)) ∧ (n = 2 * beats.length) ∧ (a = portAddr bank row col - portAddr
      bank row col % n) ∧ ((s.chan ch).wecc = true) ∧ (u = s.bump (portCtr ch 1) 1)) ∧
    (∃ (s u : State) (q v old new : Nat), (s.portServes (q / 64) = true) ∧ (old = (s.queue q).unread) ∧ (new = (v %
      1024 + 1024 - (s.queue q).sqHead) % 1024) ∧ (u = (s.modQueue q (fun x =>
      { x with sqTail := v % 1024, cover := x.cover ++ List.replicate (new - old) s.time.half })).latchHead q)) ∧
    (∃ (s : State) (q : Nat), s.portServes (q / 64) = true) ∧
    (∃ (s : State) (ch v new : Nat) (c : PortChan), (s.portServes ch = true) ∧ (c = s.chan ch) ∧ (new = (c.evTail +
      32768 - v % 32768) % 32768)) :=
  ⟨⟨(up), (1), (.flat 15), (2175), (992), _, (0), (List.replicate 32 0), (List.replicate 64 0), (0),
    by unfold State.memoryOk; decide +kernel, by decide +kernel, by decide +kernel, by decide +kernel, rfl,
    by decide +kernel, by decide +kernel, by decide +kernel⟩,
    ⟨(up), (1), (.flat 0), (2466), (0), _, (64), (0), (List.replicate 32 0), by decide +kernel, by decide +kernel,
      by decide +kernel, rfl, by decide +kernel, by decide +kernel, by decide +kernel⟩,
    ⟨(up), (1), (.flat 1), (2464), (992), _, (0xFC0), (0xF), (0), (List.replicate 32 0), (List.replicate 64 0),
      by decide +kernel, by decide +kernel, by decide +kernel, rfl, by decide +kernel, rfl, by decide +kernel,
      by decide +kernel, by decide +kernel⟩,
    ⟨(up), (1), (.flat 1), (2464), (992), _, (0xFC0), (0xF00), (0), (List.replicate 32 0), (List.replicate 64 0),
      by decide +kernel, by decide +kernel, by decide +kernel, rfl, by decide +kernel, rfl, by decide +kernel,
      by decide +kernel, by decide +kernel⟩,
    ⟨(up), (1), (.flat 2), (2464), (0), (0xF), (0), (List.replicate 32 0), (List.replicate 64 0), by decide +kernel,
      by decide +kernel, by decide +kernel, by decide +kernel, by decide +kernel, by decide +kernel⟩,
    ⟨(up.modChan 1 (fun c => { c with modeRegs := Vector.replicate 3 (Vector.replicate 256 0x30) })), (1), (.flat 1),
      (2464), (992), _, (List.replicate 32 0), (List.replicate 64 0), by decide +kernel, by decide +kernel,
      by decide +kernel, rfl, wecc_on _ rfl⟩,
    ⟨(up.modChan 1 (fun c => { c with modeRegs := Vector.replicate 3 (Vector.replicate 256 0x30) })), _, (1), (.flat
      1), (2464), (992), _, (64), (List.replicate 32 0), by decide +kernel, by decide +kernel, by decide +kernel, rfl,
      wecc_on _ rfl, rfl⟩,
    ⟨(up), _, (127), (1023), _, _, by decide +kernel, rfl, rfl, rfl⟩,
    ⟨(up), (127), by decide +kernel⟩,
    ⟨(up), (1), (32767), _, _, by decide +kernel, rfl, rfl⟩⟩

/-- The hypotheses of O19 can be met, clause by clause. -/
theorem witness_O19 :
    (∃ (s : State) (ch mr v : Nat), (s.portUp ch = true) ∧ (mr < 256) ∧ ((s.chan ch).fspWr < 3) ∧ ((mr = 16 → bits v 1
      0 ≠ 3 ∧ bits v 3 2 ≠ 3))) ∧
    (∃ (s : State) (ch mr f x : Nat), (s.portUp ch = true) ∧ (mr < 256) ∧ ((x ≠ mr ∨ (mrShared mr = false ∧ f ≠
      (s.chan ch).fspWr)))) ∧
    (∃ (s : State) (ch mr : Nat), (s.portUp ch = true) ∧ (mr < 256) ∧ (mr = 5 ∨ mr = 6 ∨ mr = 7)) ∧
    (∃ (s : State) (ch kind : Nat), (s.portUp ch = true) ∧ (kind < 5)) ∧
    (∃ (s : State) (ch : Nat), s.portUp ch = true) :=
  ⟨⟨(up), (1), (255), (0), by decide +kernel, by decide +kernel, by decide +kernel, by decide +kernel⟩,
    ⟨(up), (1), (255), (2), (254), by decide +kernel, by decide +kernel, by decide +kernel⟩,
    ⟨(up), (1), (7), by decide +kernel, by decide +kernel, by decide +kernel⟩,
    ⟨(up), (1), (4), by decide +kernel, by decide +kernel⟩,
    ⟨(up), (1), by decide +kernel⟩⟩

/-- The hypotheses of O20 can be met, clause by clause. -/
theorem witness_O20 :
    (∃ (s : State) (ch : Nat), s.portServes ch = true) ∧
    (∃ (s : State) (ch : Nat), (s.portUp ch = true) ∧ ((s.chan ch).mode = .powerDown)) ∧
    (∃ (s : State) (ch : Nat), s.portServes ch = true) ∧
    (∃ (s : State) (ch : Nat), (s.portUp ch = true) ∧ ((s.chan ch).mode = .asleep) ∧ ((s.chan ch).deep = false)) ∧
    (∃ (s : State) (ch : Nat), s.portServes ch = true) ∧
    (∃ (s : State) (ch : Nat), (s.portUp ch = true) ∧ ((s.chan ch).mode = .asleep) ∧ ((s.chan ch).deep = true)) ∧
    (∃ (ch : Nat), ch < 2) ∧
    (∃ (s : State), (s.port.resetN = false) ∧ (s.start.stage = .accepting)) ∧
    (∃ (s : State), (s.port.resetN = false) ∧ (s.start.stage ≠ .accepting)) :=
  ⟨⟨(up), (1), by decide +kernel⟩,
    ⟨(up.modChan 1 (fun x => { x with mode := .powerDown })), (1), by decide +kernel, by decide +kernel⟩,
    ⟨(up), (1), by decide +kernel⟩,
    ⟨(up.modChan 1 (fun x => { x with mode := .asleep })), (1), by decide +kernel, by decide +kernel, by decide +kernel⟩,
    ⟨(up), (1), by decide +kernel⟩,
    ⟨(up.modChan 1 (fun x => { x with mode := .asleep, deep := true })), (1), by decide +kernel, by decide +kernel,
      by decide +kernel⟩,
    ⟨(1), by decide +kernel⟩,
    ⟨({ up with port := { up.port with resetN := false } }), by decide +kernel, by decide +kernel⟩,
    ⟨(State.reset), by decide +kernel, by decide +kernel⟩⟩

/-- The hypotheses of O21 can be met, clause by clause. -/
theorem witness_O21 :
    (∃ (s : State) (q : Nat), (s.readingStopped = false) ∧ (s.nextQueue = some q)) ∧
    (∃ (s u : State) (q q' : Nat), (q < 128) ∧ (u = s.readSlots q) ∧ ((u.headPacket q).crcOk = false) ∧ (q' ≠ q)) ∧
    (∃ (s u : State) (q k : Nat) (c : Cmd), (s.dispatchable q = some k) ∧ (s.cmd q k = some c) ∧ (u = s.modCmd q k
      (fun c => { c with phase := .ready, inFlight := true, sag := s.sagging, ackDue := c.ackReq }))) ∧
    (∃ (s u : State) (q k : Nat) (c : Cmd), (q < 128) ∧ (s.dispatchable q = some k) ∧ (s.cmd q k = some c) ∧ (s.isLate
      c = false) ∧ (c.ackReq = true) ∧ ((s.queue q).cmds.all (fun x => !x.ackDue) = true) ∧ (u = s.modCmd q k (fun c
      => { c with phase := .ready, inFlight := true, sag := s.sagging, ackDue := c.ackReq }))) ∧
    (∃ (s u : State) (q st de re el : Nat) (c : Cmd), (q < 128) ∧ ((s.queue q).cmds = [c]) ∧ (c.phase = .done st de re
      el) ∧ (c.ackDue = false) ∧ ((s.queue q).rqFree ≠ 0) ∧ (u = (s.writeReply q (replyBytes c.seq c.opcode st de
      (resultOf st re) el)).modQueue q (fun u => { u with cmds := [] }))) ∧
    (∃ (s : State) (q k : Nat) (c : Cmd), (s.cmd q k = some c) ∧ (s.isLate c = true) ∧ (c.phase = .waiting)) ∧
    (∃ (s u : State) (q k : Nat) (c : Cmd), (s.cmd q k = some c) ∧ (s.isLate c = true) ∧ ((c.phase = .ready ∨ c.phase
      = .running)) ∧ (u = s.modCmd q k (fun c => { c with late := true }))) :=
  ⟨⟨(up.modQueue 127 (fun u => { u with sqTail := 1, cover := [0] })), (127), by decide +kernel, by decide +kernel⟩,
    ⟨(up.modQueue 127 (fun u => { u with sqTail := 1, cover := [0] })), _, (127), (126), by decide +kernel, rfl,
      by decide +kernel, by decide +kernel⟩,
    ⟨(wc up ({ mk 0x0101 [] with phase := .waiting, inFlight := false })), _, (0), (0),
      ({ mk 0x0101 [] with phase := .waiting, inFlight := false }), by decide +kernel, by decide +kernel, rfl⟩,
    ⟨(wc up ({ mk 0x0101 [] with phase := .waiting, inFlight := false, flags := 1 })), _, (0), (0),
      ({ mk 0x0101 [] with phase := .waiting, inFlight := false, flags := 1 }), by decide +kernel, by decide +kernel,
      by decide +kernel, by decide +kernel, by decide +kernel, by decide +kernel, rfl⟩,
    ⟨(wc up { mk 0x0101 [] with phase := .done 0 0 0 5 }), _, (0), (0), (0), (0), (5),
      ({ mk 0x0101 [] with phase := .done 0 0 0 5 }), by decide +kernel, by decide +kernel, by decide +kernel,
      by decide +kernel, by decide +kernel, rfl⟩,
    ⟨(wc up ({ mk 0x0101 [] with phase := .waiting, inFlight := false, deadline := some 5 })), (0), (0),
      ({ mk 0x0101 [] with phase := .waiting, inFlight := false, deadline := some 5 }), by decide +kernel,
      by decide +kernel, by decide +kernel⟩,
    ⟨(wc up ({ mk 0x0101 [] with phase := .running, inFlight := false, deadline := some 5 })), _, (0), (0),
      ({ mk 0x0101 [] with phase := .running, inFlight := false, deadline := some 5 }), by decide +kernel,
      by decide +kernel, by decide +kernel, rfl⟩⟩

/-- The hypotheses of O22 can be met, clause by clause. -/
theorem witness_O22 :
    (∃ (s : State) (a : Nat), (s.reg a = none ∨ isCounter (ctrId (a - ctrlBase)) = true)) ∧
    (∃ (s s' u : State) (o v mask x w : Nat), (s.reg (ctrlBase + o) = some (x, s')) ∧ (w = mergeBits x v mask) ∧ (((o
      = 0 ∧ u = State.syncIdle
      { s with port := { s.port with eventsC0 := bit w 0 == 1, eventsC1 := bit w 1 == 1, srHint := bit w 2 == 1 } }) ∨
      (o = 0x03000048 ∧ u =
      { s with store := { s.store with testFail := s.store.testFail && (bit mask 8 == 0 || bit v 8 == 1) } }) ∨ (o =
      0x03100000 ∧ u =
      { s with store := { s.store with scrubEnable := bit w 0 == 1, limitMs := bits w 63 32, paceS := if 1 ≤ bits w 31 16 ∧ bits w 31 16 ≤ 3600 then bits w 31 16 else s.store.paceS } })
      ∨ (o = 0x04000080 ∧ u = State.spillBackground
      { s with boat := { s.boat with lowWater := bits w 31 0, spillEnable := bit w 32 == 1 } }) ∨ (o = 0x07000038 ∧ u
      = { s with plan := { s.plan with researchMax := bits w 2 0 } }) ∨ (o = 0x0A000000 ∧ u = s.modNet (fun n =>
      { n with ageS := if 10 ≤ bits w 15 0 then bits w 15 0 else n.ageS, learn := bit w 16 == 1 })) ∨ (o = 0x0B000000
      ∧ u = { s with safe := { s.safe with hiAction := bit w 0 == 1 } }) ∨ (o = 0x0D000010 ∧ u =
      { s with pwr := { s.pwr with timerAt := w % 2 ^ 64 } }) ∨ (o = 0x0D000018 ∧ u =
      { s with pwr := { s.pwr with callAddr := bits w 9 0 } }) ∨ (o = 0x0D000020 ∧ u =
      { s with pwr := { s.pwr with idleUs := if 10 ≤ bits w 15 0 then bits w 15 0 else s.pwr.idleUs, tilesGate := bit w 16 == 1 } })
      ∨ (o = 0x0E000000 ∧ u =
      { s with clk := { s.clk with xtalLost := s.clk.xtalLost && (bit mask 4 == 0 || bit v 4 == 1) } }) ∨ (o =
      0x0F000018 ∧ u = { s with cap := { s.cap with boost := bit w 0 == 1 } }) ∨ (o = 0x0F000020 ∧ u =
      { s with cap := { s.cap with loadline := bits w 15 0, slew := if 1 ≤ bits w 23 16 then bits w 23 16 else s.cap.slew } }))))
      ∧
    (∃ (t t' : Nat), (t < 128) ∧ (t' ≠ t)) ∧
    (∃ (t i : Nat), (t < 128) ∧ (i < 9)) ∧
    (∃ (l l' : Nat), (l < 128) ∧ (l' ≠ l)) ∧
    (∃ (s : State) (l i : Nat) (z : Section), (l < 128) ∧ ((s.loop l).sections[i]? = some z)) ∧
    (∃ (s : State) (v mask w : Nat), w = mergeBits (s.cap.limit + s.cap.order * 2 ^ 16) v mask) ∧
    (∃ (s u : State) (v mask w a r c p : Nat), (w = mergeBits s.cap.sagWord v mask) ∧ (a = w % 2 ^ 11) ∧ (r = w / 2 ^
      16 % 2 ^ 11) ∧ (c = w / 2 ^ 32 % 2 ^ 9) ∧ (p = w / 2 ^ 41 % 8) ∧ (u = (if 800 ≤ a ∧ a ≤ 1050 ∧ 700 ≤ r ∧ r ≤ 950
      ∧ r + 50 ≤ a ∧ 30 ≤ c ∧ c ≤ 420 then { s with cap := { s.cap with warnMv := a, resetMv := r, sagCap := c } }
      else s))) ∧
    (∃ (s : State) (v mask g : Nat), g = mergeBits s.tier.reserveGib v mask % 2 ^ 9) ∧
    (∃ (s : State) (v mask w lo hi : Nat), (w = mergeBits (s.tier.coxBase + s.tier.coxLimit * 2 ^ 16) v mask) ∧ (lo =
      w % 2 ^ 9) ∧ (hi = w / 2 ^ 16 % 2 ^ 9)) ∧
    (∃ (s : State) (v mask w lo hi : Nat), (w = mergeBits (s.tier.nvsBase + s.tier.nvsLimit * 2 ^ 16) v mask) ∧ (lo =
      w % 2 ^ 12) ∧ (hi = w / 2 ^ 16 % 2 ^ 12)) ∧
    (∃ (s : State) (i v mask w base lg : Nat), (i < 36) ∧ (w = mergeBits ((s.stream i).ringBase + (s.stream
      i).ringLog2 * 2 ^ 48) v mask) ∧ (base = w % 2 ^ 48) ∧ (lg = w / 2 ^ 48 % 16)) ∧
    (∃ (s u : State) (v mask w base lg : Nat), (w = mergeBits s.safe.verdictWord v (mask % 2 ^ 53)) ∧ (base = w % 2 ^
      48) ∧ (lg = w / 2 ^ 48 % 32) ∧ (u =
      { s with safe := { s.safe with ringBase := base, ringLog2 := lg, tail := 0 } })) :=
  ⟨⟨(up), (5), by decide +kernel⟩,
    ⟨(up), _, _, (0x0F000020), (0), (0), _, _, pair_there (by decide +kernel), rfl, Or.inr (Or.inr (Or.inr (Or.inr
      (Or.inr (Or.inr (Or.inr (Or.inr (Or.inr (Or.inr (Or.inr (Or.inr ⟨rfl, rfl⟩)))))))))))⟩,
    ⟨(127), (126), by decide +kernel, by decide +kernel⟩,
    ⟨(127), (8), by decide +kernel, by decide +kernel⟩,
    ⟨(127), (126), by decide +kernel, by decide +kernel⟩,
    ⟨(up.modLoop 127 (fun y =>
      { y with sections := [⟨List.replicate 7 0, List.replicate 7 0, 0, 0, 0, 0, 0, 0, true⟩] })), (127), (0),
      (⟨List.replicate 7 0, List.replicate 7 0, 0, 0, 0, 0, 0, 0, true⟩), by decide +kernel, by decide +kernel⟩,
    ⟨(up), (2 ^ 64 - 1), (2 ^ 64 - 1), _, rfl⟩,
    ⟨(up), _, (2 ^ 64 - 1), (2 ^ 64 - 1), _, _, _, _, _, rfl, rfl, rfl, rfl, rfl, rfl⟩,
    ⟨(up), (2 ^ 64 - 1), (2 ^ 64 - 1), _, rfl⟩,
    ⟨(up), (2 ^ 64 - 1), (2 ^ 64 - 1), _, _, _, rfl, rfl, rfl⟩,
    ⟨(up), (2 ^ 64 - 1), (2 ^ 64 - 1), _, _, _, rfl, rfl, rfl⟩,
    ⟨(up), (35), (0), (2 ^ 64 - 1), _, _, _, by decide +kernel, rfl, rfl, rfl⟩,
    ⟨(up), _, (2 ^ 64 - 1), (2 ^ 64 - 1), _, _, _, rfl, rfl, rfl, rfl⟩⟩

/-- The hypotheses of O23 can be met, clause by clause. -/
theorem witness_O23 :
    (∃ (s : State) (t th mod ra rb : Nat) (x : Thread) (a b r : BitVec 64), (s.canIssue t th = true) ∧ (x = (s.tile
      t).thread th) ∧ (a = BitVec.ofNat 64 (x.getX ra)) ∧ (b = BitVec.ofNat 64 (x.getX rb)) ∧ (((mod = 0 ∧ r = a + b)
      ∨ (mod = 1 ∧ r = a - b) ∨ (mod = 2 ∧ r = a &&& b) ∨ (mod = 3 ∧ r = a ||| b) ∨ (mod = 4 ∧ r = a ^^^ b) ∨ (mod = 5
      ∧ b.toNat < 64 ∧ r = a <<< b.toNat) ∨ (mod = 6 ∧ b.toNat < 64 ∧ r = a >>> b.toNat) ∨ (mod = 7 ∧ b.toNat < 64 ∧ r
      = a.sshiftRight b.toNat) ∨ (mod = 8 ∧ r = a * b) ∨ (mod = 9 ∧ r = if b.slt a then b else a) ∨ (mod = 10 ∧ r = if
      a.slt b then b else a)))) ∧
    (∃ (s : State) (t th mod ra imm : Nat) (x : Thread) (a b r : BitVec 64), (s.canIssue t th = true) ∧ (x = (s.tile
      t).thread th) ∧ (a = BitVec.ofNat 64 (x.getX ra)) ∧ (b = (BitVec.ofNat 32 imm).signExtend 64) ∧ (((mod = 0 ∧ r =
      a + b) ∨ (mod = 1 ∧ r = a - b) ∨ (mod = 2 ∧ r = a &&& b) ∨ (mod = 3 ∧ r = a ||| b) ∨ (mod = 4 ∧ r = a ^^^ b) ∨
      (mod = 5 ∧ b.toNat < 64 ∧ r = a <<< b.toNat) ∨ (mod = 6 ∧ b.toNat < 64 ∧ r = a >>> b.toNat) ∨ (mod = 7 ∧ b.toNat
      < 64 ∧ r = a.sshiftRight b.toNat) ∨ (mod = 8 ∧ r = a * b) ∨ (mod = 9 ∧ r = if b.slt a then b else a) ∨ (mod = 10
      ∧ r = if a.slt b then b else a)))) ∧
    (∃ (s : State) (t th mod rb : Nat) (x : Thread), (s.canIssue t th = true) ∧ (x = (s.tile t).thread th) ∧ (5 ≤ mod)
      ∧ (mod ≤ 7) ∧ (64 ≤ x.getX rb)) ∧
    (∃ (s : State) (t th mod imm : Nat) (x : Thread), (s.canIssue t th = true) ∧ (x = (s.tile t).thread th) ∧ (5 ≤
      mod) ∧ (mod ≤ 7) ∧ (64 ≤ ((BitVec.ofNat 32 imm).signExtend 64).toNat)) ∧
    (∃ (s : State) (t th mod ra rb : Nat) (x : Thread) (a b : BitVec 64) (c : Bool), (s.canIssue t th = true) ∧ (x =
      (s.tile t).thread th) ∧ (a = BitVec.ofNat 64 (x.getX ra)) ∧ (b = BitVec.ofNat 64 (x.getX rb)) ∧ (((mod = 0 ∧ c =
      (a == b)) ∨ (mod = 1 ∧ c = (a != b)) ∨ (mod = 2 ∧ c = a.slt b) ∨ (mod = 3 ∧ c = a.ult b) ∨ (mod = 4 ∧ c = b.sle
      a) ∨ (mod = 5 ∧ c = b.ule a)))) ∧
    (∃ (s : State) (t th mod imm d : Nat) (x : Thread), (s.canIssue t th = true) ∧ (x = (s.tile t).thread th) ∧ (mod <
      3) ∧ ((mod = 0 ∨ x.flagP = false)) ∧ (d = (if mod = 0 ∨ (mod = 1 ∧ x.flag = true) ∨ (mod = 2 ∧ x.flag = false)
      then (((x.pc : Int) + 8 * (BitVec.ofNat 32 imm).toInt) % 2 ^ 64).toNat else x.pc + 8))) ∧
    (∃ (s : State) (t th mod : Nat), (s.canIssue t th = true) ∧ (10 < mod)) ∧
    (∃ (s : State) (t th mod : Nat), (s.canIssue t th = true) ∧ (5 < mod)) ∧
    (∃ (s : State) (t th mod : Nat), (s.canIssue t th = true) ∧ (2 < mod)) ∧
    (∃ (s : State) (t th mod : Nat), (s.canIssue t th = true) ∧ (1 ≤ mod ∧ mod ≤ 2 ∧ ((s.tile t).thread th).flagP = true)) :=
  ⟨⟨(x1 64), (0), (0), (10), (1), (3), _, _, _, (if (64#64).slt 0#64 then 0#64 else 64#64), by decide +kernel, rfl, rfl,
    rfl, (Or.inr (Or.inr (Or.inr (Or.inr (Or.inr (Or.inr (Or.inr (Or.inr (Or.inr (Or.inr ⟨rfl, rfl⟩))))))))))⟩,
    ⟨(x1 64), (0), (0), (0), (1), (0xFFFFFFFF), _, _, _, _, by decide +kernel, rfl, rfl, rfl, (Or.inl ⟨rfl, rfl⟩)⟩,
    ⟨(x1 64), (0), (0), (7), (1), _, by decide +kernel, rfl, by decide +kernel, by decide +kernel, by decide +kernel⟩,
    ⟨(x1 64), (0), (0), (7), (64), _, by decide +kernel, rfl, by decide +kernel, by decide +kernel, by decide +kernel⟩,
    ⟨(x1 64), (0), (0), (5), (1), (3), _, _, _, _, by decide +kernel, rfl, rfl, rfl, (Or.inr (Or.inr (Or.inr (Or.inr
      (Or.inr ⟨rfl, rfl⟩)))))⟩,
    ⟨(x1 64), (0), (0), (2), (0xFFFFFFFF), _, _, by decide +kernel, rfl, by decide +kernel, by decide +kernel, rfl⟩,
    ⟨(x1 64), (0), (0), (11), by decide +kernel, by decide +kernel⟩,
    ⟨(x1 64), (0), (0), (6), by decide +kernel, by decide +kernel⟩,
    ⟨(x1 64), (0), (0), (3), by decide +kernel, by decide +kernel⟩,
    ⟨(busy.modThread 0 0 (fun h => { h with flagP := true })), (0), (0), (2), by decide +kernel, by decide +kernel⟩⟩

/-- The hypotheses of O24 can be met, clause by clause. -/
theorem witness_O24 :
    (∃ (s s1 : State) (t th mod ra imm a n : Nat) (ups : List Upset) (b : List PByte), (s.canIssue t th = true) ∧ (mod
      < 16) ∧ (n = 2 ^ (mod % 4)) ∧ (s.access t th (((s.tile t).thread th).effAddr ra imm) n n false = .ok a) ∧ ((a <
      tileBlock t ∨ tileBlock t + 0x1000 ≤ a)) ∧ (s.loadHeld t a n (bit mod 2 == 1) = false) ∧ ((ups.foldl
      State.strike s).threadLoad t a n (bit mod 2 == 1) = (s1, b))) ∧
    (∃ (s : State) (t th mod ra imm a n : Nat), (s.canIssue t th = true) ∧ (mod < 16) ∧ (n = 2 ^ (mod % 4)) ∧
      (s.access t th (((s.tile t).thread th).effAddr ra imm) n n false = .ok a) ∧ ((a < tileBlock t ∨ tileBlock t +
      0x1000 ≤ a)) ∧ (s.loadHeld t a n (bit mod 2 == 1) = true)) ∧
    (∃ (s s1 : State) (t th mod ra imm a n o v : Nat), (s.canIssue t th = true) ∧ (mod < 16) ∧ (n = 2 ^ (mod % 4)) ∧
      (s.access t th (((s.tile t).thread th).effAddr ra imm) n n false = .ok a) ∧ (tileBlock t ≤ a) ∧ (a < tileBlock t
      + 0x1000) ∧ (o = a - tileBlock t) ∧ ((s.tileReg t (o / 8 * 8) = some (v, s1) ∨ (s.tileReg t (o / 8 * 8) = none ∧
      s.draw = (v, s1))))) ∧
    (∃ (s : State) (t th mod ra imm a n : Nat) (x : Thread), (s.canIssue t th = true) ∧ (mod < 4) ∧ (n = 2 ^ mod) ∧ (x
      = (s.tile t).thread th) ∧ (s.access t th (x.effAddr ra imm) n n true = .ok a) ∧ ((a < tileBlock t ∨ tileBlock t
      + 0x1000 ≤ a))) ∧
    (∃ (s s1 : State) (t th mod ra rb imm a n v o : Nat) (x : Thread), (s.canIssue t th = true) ∧ (mod < 4) ∧ (n = 2 ^
      mod) ∧ (x = (s.tile t).thread th) ∧ (s.access t th (x.effAddr ra imm) n n true = .ok a) ∧ (tileBlock t ≤ a) ∧ (a
      < tileBlock t + 0x1000) ∧ (o = 8 * (a % 8)) ∧ (((x.poisonX rb = false ∧ v = x.getX rb ∧ s1 = s) ∨ (x.poisonX rb
      = true ∧ s.draw = (v, s1))))) ∧
    (∃ (s s1 s2 s3 : State) (t th mod rd ra rb a n op : Nat) (x : Thread) (old : PVal) (keep bad : Bool) (new : List
      PByte), (s.canIssue t th = true) ∧ (mod < 10) ∧ (n = (if mod % 2 = 0 then 4 else 8)) ∧ (op = mod / 2) ∧ (x =
      (s.tile t).thread th) ∧ (s.access t th (x.operand ra) n n true = .ok a) ∧ ((isT0 a = true ∨ isT1 a = true)) ∧
      (s.heldRange a n = false) ∧ (s1 = s.settle t (a / 8 * 8) 8) ∧ (old = wordsVal (s1.peek (a / 8 * 8) 8) (a % 8) n)
      ∧ (keep = (old.2 && !(op == 1 && n == 8))) ∧ (bad = (x.poisonX rb || (op == 2 && x.poisonX rd))) ∧ (new = (toLe
      n (atomicVal op (8 * n) old.1 (x.getX rd) (x.getX rb))).map (fun b => PByte.mk (if bad then 0 else b) bad)) ∧
      (s2 = s1.noteRead (a / 8 * 8) 8) ∧ (s3 = (if keep then s2 else s2.storeBytes a new))) ∧
    (∃ (s : State) (t th mod ra a n : Nat) (x : Thread), (s.canIssue t th = true) ∧ (mod < 10) ∧ (n = (if mod % 2 = 0
      then 4 else 8)) ∧ (x = (s.tile t).thread th) ∧ (s.access t th (x.operand ra) n n true = .ok a) ∧ ((isT0 a =
      false ∧ isT1 a = false))) ∧
    (∃ (s : State) (t th mod ra a n : Nat) (x : Thread), (s.canIssue t th = true) ∧ (mod < 10) ∧ (n = (if mod % 2 = 0
      then 4 else 8)) ∧ (x = (s.tile t).thread th) ∧ (s.access t th (x.operand ra) n n true = .ok a) ∧ ((isT0 a = true
      ∨ isT1 a = true) ∧ s.heldRange a n = true)) ∧
    (∃ (n ea : Nat), ea % n ≠ 0) ∧
    (∃ (s : State) (t n ea : Nat) (w : Bool) (c : Nat), (ea % n = 0) ∧ (s.reach t ea n w = .error c)) ∧
    (∃ (s u : State) (t th mod ra imm n : Nat), (s.canIssue t th = true) ∧ (mod < 16) ∧ (n = 2 ^ (mod % 4)) ∧
      (s.access t th (((s.tile t).thread th).effAddr ra imm) n n false = .error u)) ∧
    (∃ (s u : State) (t th mod ra imm n : Nat), (s.canIssue t th = true) ∧ (mod < 4) ∧ (n = 2 ^ mod) ∧ (s.access t th
      (((s.tile t).thread th).effAddr ra imm) n n true = .error u)) ∧
    (∃ (s u : State) (t th mod ra n : Nat), (s.canIssue t th = true) ∧ (mod < 10) ∧ (n = (if mod % 2 = 0 then 4 else
      8)) ∧ (s.access t th (((s.tile t).thread th).operand ra) n n true = .error u)) ∧
    (∃ (s : State) (t th mod : Nat), (s.canIssue t th = true) ∧ (16 ≤ mod)) ∧
    (∃ (s : State) (t th mod : Nat), (s.canIssue t th = true) ∧ (4 ≤ mod)) ∧
    (∃ (s : State) (t th mod : Nat), (s.canIssue t th = true) ∧ (10 ≤ mod)) :=
  ⟨⟨(x1 64), _, (0), (0), (15), (1), (0), (64), (8), ([]), _, by decide +kernel, by decide +kernel, by decide +kernel,
    ok_is (by decide +kernel), by decide +kernel, by decide +kernel, pair_eta _⟩,
    ⟨(((x1 275414777856).modTile 0 (fun t =>
      { t with grants := vset t.grants 0 ⟨275414777856, 275414777856 + 4096 - 1, true, true⟩ })).modUnit 4 0 (fun u =>
      { u with state := .quarantined })), (0), (0), (15), (1), (0), (275414777856), (8), by decide +kernel,
      by decide +kernel, by decide +kernel, ok_is (by decide +kernel), by decide +kernel, by decide +kernel⟩,
    ⟨(x1 (tileBlock 0 + 0x40)), _, (0), (0), (3), (1), (0), ((tileBlock 0 + 0x40)), (8), _, _, by decide +kernel,
      by decide +kernel, by decide +kernel, ok_is (by decide +kernel), by decide +kernel, by decide +kernel, rfl,
      (Or.inl (pair_there (by decide +kernel)))⟩,
    ⟨(x1 64), (0), (0), (3), (1), (0), (64), (8), _, by decide +kernel, by decide +kernel, by decide +kernel, rfl,
      ok_is (by decide +kernel), by decide +kernel⟩,
    ⟨(x1 (tileBlock 0 + 0x40)), _, (0), (0), (3), (1), (3), (0), ((tileBlock 0 + 0x40)), (8), _, _, _,
      by decide +kernel, by decide +kernel, by decide +kernel, rfl, ok_is (by decide +kernel), by decide +kernel,
      by decide +kernel, rfl, (Or.inl ⟨by decide +kernel, rfl, rfl⟩)⟩,
    ⟨(mark0 (x1 64)), _, _, _, (0), (0), (9), (2), (1), (3), (64), (8), _, _, _, _, _, _, by decide +kernel,
      by decide +kernel, by decide +kernel, rfl, rfl, ok_is (by decide +kernel), by decide +kernel, by decide +kernel,
      rfl, rfl, rfl, rfl, rfl, rfl, rfl⟩,
    ⟨((x1 9895604654080).modTile 0 (fun t =>
      { t with grants := vset t.grants 0 ⟨9895604654080, 9895604654080 + 4096 - 1, true, true⟩ })), (0), (0), (9),
      (1), (9895604654080), (8), _, by decide +kernel, by decide +kernel, by decide +kernel, rfl, ok_is
      (by decide +kernel), by decide +kernel⟩,
    ⟨(((x1 275414777856).modTile 0 (fun t =>
      { t with grants := vset t.grants 0 ⟨275414777856, 275414777856 + 4096 - 1, true, true⟩ })).modUnit 4 0 (fun u =>
      { u with state := .quarantined })), (0), (0), (9), (1), (275414777856), (8), _, by decide +kernel,
      by decide +kernel, by decide +kernel, rfl, ok_is (by decide +kernel), by decide +kernel⟩,
    ⟨(8), (1), by decide +kernel⟩,
    ⟨(x1 64), (0), (8), (275414777856), (false), (5), by decide +kernel, err_is (by decide +kernel)⟩,
    ⟨(x1 63), _, (0), (0), (3), (1), (0), (8), by decide +kernel, by decide +kernel, by decide +kernel, rfl⟩,
    ⟨(x1 63), _, (0), (0), (3), (1), (0), (8), by decide +kernel, by decide +kernel, by decide +kernel, rfl⟩,
    ⟨(x1 63), _, (0), (0), (9), (1), (8), by decide +kernel, by decide +kernel, by decide +kernel, rfl⟩,
    ⟨(x1 64), (0), (0), (16), by decide +kernel, by decide +kernel⟩,
    ⟨(x1 64), (0), (0), (4), by decide +kernel, by decide +kernel⟩,
    ⟨(x1 64), (0), (0), (10), by decide +kernel, by decide +kernel⟩⟩

/-- The hypotheses of O25 can be met, clause by clause. -/
theorem witness_O25 :
    (∃ (s s1 : State) (t th ra imm a : Nat) (l : List (Nat × Nat)) (b : List PByte), (s.canIssue t th = true) ∧
      (s.access t th (((s.tile t).thread th).effAddr ra imm) 256 64 false = .ok a) ∧ ((a < tileBlock t ∨ tileBlock t +
      0x1000 ≤ a)) ∧ (s.pieces t (((s.tile t).thread th).effAddr ra imm).1 256 false = .ok l) ∧ (l.any (fun p =>
      s.loadHeld t p.1 p.2 false) = false) ∧ (s.loadPieces t l = (s1, b))) ∧
    (∃ (s : State) (t th ra imm a : Nat) (l : List (Nat × Nat)), (s.canIssue t th = true) ∧ (s.access t th (((s.tile
      t).thread th).effAddr ra imm) 256 64 false = .ok a) ∧ ((a < tileBlock t ∨ tileBlock t + 0x1000 ≤ a)) ∧ (s.pieces
      t (((s.tile t).thread th).effAddr ra imm).1 256 false = .ok l) ∧ (l.any (fun p => s.loadHeld t p.1 p.2 false) =
      true)) ∧
    (∃ (s s1 : State) (t th ra imm a : Nat) (ws : List Nat), (s.canIssue t th = true) ∧ (s.access t th (((s.tile
      t).thread th).effAddr ra imm) 256 64 false = .ok a) ∧ (tileBlock t ≤ a) ∧ (a < tileBlock t + 0x1000) ∧ ((ws, s1)
      = (List.range 32).foldl (fun (acc : List Nat × State) i => (acc.1 ++ [(acc.2.readTileReg t (a + 8 * i) 8).1],
      (acc.2.readTileReg t (a + 8 * i) 8).2)) ([], s))) ∧
    (∃ (s : State) (t th ra imm a : Nat) (x : Thread) (l : List (Nat × Nat)), (s.canIssue t th = true) ∧ (x = (s.tile
      t).thread th) ∧ (s.access t th (x.effAddr ra imm) 256 64 true = .ok a) ∧ (s.pieces t (x.effAddr ra imm).1 256
      true = .ok l)) ∧
    (∃ (s u : State) (t th ra imm : Nat), (s.canIssue t th = true) ∧ (s.access t th (((s.tile t).thread th).effAddr ra
      imm) 256 64 false = .error u)) ∧
    (∃ (s u : State) (t th ra imm : Nat), (s.canIssue t th = true) ∧ (s.access t th (((s.tile t).thread th).effAddr ra
      imm) 256 64 true = .error u)) ∧
    (∃ (s : State) (t th mod : Nat) (x : Thread), (s.canIssue t th = true) ∧ (mod < 48) ∧ (x = (s.tile t).thread th)) ∧
    (∃ (s : State) (t th mod rd ra rb : Nat) (x : Thread) (la lb ld : List PVal) (ins : List ScanLane) (out : List
      PVal), (s.canIssue t th = true) ∧ (mod < 4) ∧ (x = (s.tile t).thread th) ∧ (la = laneList (x.vreg ra).1 (x.vreg
      ra).2) ∧ (lb = laneList (x.vreg rb).1 (x.vreg rb).2) ∧ (ld = laneList (x.vreg rd).1 (x.vreg rd).2) ∧ (ins = (if
      mod = 3 then (la.zip ld).map (fun y => ScanLane.mk y.1.1 y.2.1 (y.1.2 || y.2.2)) else la.map (fun y =>
      ScanLane.mk 0 y.1 y.2))) ∧ (out = scanHalf mod (ins.take 32) (lb.take 32) ++ scanHalf mod (ins.drop 32) (lb.drop
      32))) ∧
    (∃ (s : State) (t th mod : Nat), (s.canIssue t th = true) ∧ (48 ≤ mod)) ∧
    (∃ (s : State) (t th mod : Nat), (s.canIssue t th = true) ∧ (4 ≤ mod)) :=
  ⟨⟨(x1 64), _, (0), (0), (1), (0), (64), ([(64, 256)]), _, by decide +kernel, ok_is (by decide +kernel),
    by decide +kernel, ok_is (by decide +kernel), by decide +kernel, pair_eta _⟩,
    ⟨(((x1 275414777856).modTile 0 (fun t =>
      { t with grants := vset t.grants 0 ⟨275414777856, 275414777856 + 4096 - 1, true, true⟩ })).modUnit 4 0 (fun u =>
      { u with state := .quarantined })), (0), (0), (1), (0), (275414777856), ([(275414777856, 256)]),
      by decide +kernel, ok_is (by decide +kernel), by decide +kernel, ok_is (by decide +kernel), by decide +kernel⟩,
    ⟨(x1 (tileBlock 0 + 0x40)), _, (0), (0), (1), (0), ((tileBlock 0 + 0x40)), _, by decide +kernel, ok_is
      (by decide +kernel), by decide +kernel, by decide +kernel, (pair_eta _).symm⟩,
    ⟨(x1 64), (0), (0), (1), (0), (64), _, ([(64, 256)]), by decide +kernel, rfl, ok_is (by decide +kernel), ok_is
      (by decide +kernel)⟩,
    ⟨(x1 63), _, (0), (0), (1), (0), by decide +kernel, rfl⟩,
    ⟨(x1 63), _, (0), (0), (1), (0), by decide +kernel, rfl⟩,
    ⟨(x1 64), (0), (0), (47), _, by decide +kernel, by decide +kernel, rfl⟩,
    ⟨(x1 64), (0), (0), (3), (2), (1), (3), _, _, _, _, _, _, by decide +kernel, by decide +kernel, rfl, rfl, rfl,
      rfl, rfl, rfl⟩,
    ⟨(x1 64), (0), (0), (48), by decide +kernel, by decide +kernel⟩,
    ⟨(x1 64), (0), (0), (4), by decide +kernel, by decide +kernel⟩⟩

/-- The hypotheses of O26 can be met, clause by clause. -/
theorem witness_O26 :
    (∃ (s : State) (t th ra rb a off n : Nat) (conv : Bool) (x : Thread) (o : ArrOp), (s.canIssue t th = true) ∧ (x =
      (s.tile t).thread th) ∧ (a = x.getX rb) ∧ (x.poisonX rb = false) ∧ (a < 4) ∧ (n = (if conv then 128 else 64)) ∧
      (s.descOffset t th ra (if conv then 64 else 1) n = .ok off) ∧ (((s.tile t).arr a).reducing = none) ∧ (o =
      { conv := conv, desc := s.peek (t * t0TileSize + off) n, thread := th, pc := x.pc }) ∧ (State.arrFail t ((s.tile
      t).arr a) (t * t0TileSize + off) o = none)) ∧
    (∃ (s : State) (t th ra rb a off n : Nat) (conv : Bool) (x : Thread), (s.canIssue t th = true) ∧ (x = (s.tile
      t).thread th) ∧ (a = x.getX rb) ∧ (x.poisonX rb = false) ∧ (a < 4) ∧ (n = (if conv then 128 else 64)) ∧
      (s.descOffset t th ra (if conv then 64 else 1) n = .ok off) ∧ (((s.tile t).arr a).reducing ≠ none)) ∧
    (∃ (s : State) (t th rb : Nat) (x : Thread), (s.canIssue t th = true) ∧ (x = (s.tile t).thread th) ∧ (x.poisonX rb
      = false) ∧ (x.getX rb < 4)) ∧
    (∃ (s : State) (t a k skip : Nat) (o : ArrOp) (y z : Arr) (d : List Byte), (((s.tile t).arr a).reducing = some o)
      ∧ (s.tileRuns t = true) ∧ ((o.converts = false ∨ ((s.tile t).arr a).converting = none)) ∧ (s.arrReduce t
      ((s.tile t).arr a) o = .ok y) ∧ (d = vals o.desc) ∧ (k = (if o.conv then leAt d 6 2 * byteAt d 32 * byteAt d 33
      else leAt d 4 4)) ∧ (skip = (if o.conv then cvSkipped d o.rows * stepsOf o.fmts.1 o.fmts.2 (leAt d 6 2) else 0))
      ∧ (z = (if o.converts then
      { y with live := false, converting := some o, outAcc := y.acc, outEb := y.eb.getD 0, outLane := (if y.check then some y.lane else none), acc := Vector.replicate 1024 Acc.zero, eb := none, lane := Lane.zero }
      else y))) ∧
    (∃ (s : State) (t a e : Nat) (o : ArrOp), (((s.tile t).arr a).reducing = some o) ∧ (s.tileRuns t = true) ∧
      ((o.converts = false ∨ ((s.tile t).arr a).converting = none)) ∧ (s.arrReduce t ((s.tile t).arr a) o = .error e))
      ∧
    (∃ (s s1 s2 s3 s4 : State) (t a : Nat) (o : ArrOp) (y : Arr) (rnds : List Rnd) (uf : BitVec 9) (rows : List (Nat ×
      List PByte)) (scales : List (Nat × PByte)) (cf : BitVec 9) (used : List Acc), (t < 128) ∧ (a < 4) ∧ (y = (s.tile
      t).arr a) ∧ (y.converting = some o) ∧ (s.tileRuns t = true) ∧ ((y.outLane = none ∨ ((s.sched.jobs.flatMap
      Job.checks).filter (fun c => c.tile == t)).length < 4)) ∧ (s.rounds t o.convDesc (y.outAcc.toList.map (fun x =>
      x.value y.outEb (sext 16 (leAt o.convDesc 4 2)))) = (rnds, uf)) ∧ (convTile o.convDesc o.rows rnds
      y.outAcc.toList y.outEb = (rows, scales, cf)) ∧ (s1 = rows.foldl (fun s r => s.storeBytes (t * t0TileSize +
      o.out.1 + r.1 * o.out.2) r.2) s) ∧ (s2 = scales.foldl (fun s r => s.storeBytes (t * t0TileSize + o.out.1 + 32 *
      o.out.2 + r.1) [r.2]) s1) ∧ (used = o.rows.flatMap (fun i => (y.outAcc.toList.drop (32 * i)).take 32)) ∧ (s3 =
      s2.raiseFlags t (cf ||| flagIf (!o.rows.isEmpty) uf ||| flagIf (used.any Acc.lo) fInexLo ||| flagIf (used.any
      Acc.hi) fInexHi)) ∧ (((y.outLane = none ∧ s4 = s3) ∨ (s3.tileJob t = none ∧ s4 = s3) ∨ (∃ l j, y.outLane = some
      l ∧ s3.tileJob t = some j ∧ s4 = s3.modJob j.uid (fun j =>
      { j with checks := j.checks ++ [y.checkRecord t a s.time.half l] }))))) :=
  ⟨⟨(withBytes (x1 64) 64 (fields [(0, 2), (7, 1), (7, 1), (1, 4), (0, 56)])), (0), (0), (1), (3), (0), (64), (64),
    (false), _, _, by decide +kernel, rfl, by decide +kernel, by decide +kernel, by decide +kernel, by decide +kernel,
    ok_is (by decide +kernel), by decide +kernel, rfl, by decide +kernel⟩,
    ⟨((withBytes (x1 64) 64 (fields [(0, 2), (7, 1), (7, 1), (1, 4), (0, 56)])).modTile 0 (fun t =>
      { t with arrays := vset t.arrays 0 { Arr.reset with reducing := some ⟨false, (fields [(0, 2), (7, 1), (7, 1), (1, 4), (0, 56)]).map (fun b => ⟨b, false⟩), 0, 0x10000⟩ } })),
      (0), (0), (1), (3), (0), (64), (64), (false), _, by decide +kernel, rfl, by decide +kernel, by decide +kernel,
      by decide +kernel, by decide +kernel, ok_is (by decide +kernel), by decide +kernel⟩,
    ⟨(withBytes (x1 64) 64 (fields [(0, 2), (7, 1), (7, 1), (1, 4), (0, 56)])), (0), (0), (3), _, by decide +kernel,
      rfl, by decide +kernel, by decide +kernel⟩,
    ⟨((withBytes (x1 64) 64 (fields [(0, 2), (7, 1), (7, 1), (1, 4), (0, 56)])).modTile 0 (fun t =>
      { t with arrays := vset t.arrays 0 { Arr.reset with reducing := some ⟨false, (fields [(0, 2), (7, 1), (7, 1), (1, 4), (0, 56)]).map (fun b => ⟨b, false⟩), 0, 0x10000⟩ } })),
      (0), (0), (_), _, (⟨false, (fields [(0, 2), (7, 1), (7, 1), (1, 4), (0, 56)]).map (fun b => ⟨b, false⟩), 0,
      0x10000⟩), _, _, _, by decide +kernel, by decide +kernel, by decide +kernel, eval_ok (by decide +kernel), rfl,
      rfl, rfl, rfl⟩,
    ⟨((x1 64).modTile 0 (fun t =>
      { t with arrays := vset t.arrays 0 { Arr.reset with live := true, eb := some 5, reducing := some ⟨false, (fields [(1, 2), (7, 1), (7, 1), (1, 4), (0, 42), (1, 1), (0, 13)]).map (fun b => ⟨b, false⟩), 0, 0x10000⟩ } })),
      (0), (0), (3), (⟨false, (fields [(1, 2), (7, 1), (7, 1), (1, 4), (0, 42), (1, 1), (0, 13)]).map (fun b => ⟨b,
      false⟩), 0, 0x10000⟩), by decide +kernel, by decide +kernel, by decide +kernel, err_is (by decide +kernel)⟩,
    ⟨((withBytes (x1 64) 64 (fields [(0, 2), (7, 1), (7, 1), (1, 4), (0, 56)])).modTile 0 (fun t =>
      { t with arrays := vset t.arrays 3 { Arr.reset with converting := some ⟨false, (fields [(0, 2), (7, 1), (7, 1), (1, 4), (0, 56)]).map (fun b => ⟨b, false⟩), 0, 0x10000⟩ } })),
      _, _, _, _, (0), (3), (⟨false, (fields [(0, 2), (7, 1), (7, 1), (1, 4), (0, 56)]).map (fun b => ⟨b, false⟩), 0,
      0x10000⟩), _, _, _, _, _, _, _, by decide +kernel, by decide +kernel, rfl, by decide +kernel, by decide +kernel,
      by decide +kernel, pair_eta _, triple_eta _, rfl, rfl, rfl, rfl, (Or.inl ⟨rfl, rfl⟩)⟩⟩

/-- The hypotheses of O27 can be met, clause by clause. -/
theorem witness_O27 :
    (∃ (s u : State) (t th ra o ctx : Nat), (s.canIssue t th = true) ∧ (s.descOffset t th ra 128 128 = .ok o) ∧
      ((s.tile t).ctx = some ctx) ∧ (u = s.modTile t (fun x =>
      { (x.modThread th Thread.next) with sweepsOut := raiseCount x.sweepsOut th }))) ∧
    (∃ (s : State) (t th : Nat), s.canIssue t th = true) ∧
    (∃ (s u : State) (t th ra o ctx : Nat), (s.canIssue t th = true) ∧ (s.descOffset t th ra 128 128 = .ok o) ∧
      ((s.tile t).ctx = some ctx) ∧ (u = s.modTile t (fun x =>
      { (x.modThread th Thread.next) with xfsOut := raiseCount x.xfsOut th }))) ∧
    (∃ (s : State) (t th : Nat), s.canIssue t th = true) ∧
    (∃ (s s1 : State) (e : Nat) (r : Run) (d : List Byte), (vget none s.xf.engines e = some r) ∧ (d = vals r.desc) ∧
      (s.usable 2 e = true) ∧ (s.domOn (68 + e / 2) = true) ∧ (s.fault.bridge.down = false) ∧ (s1 = (if byteAt d 0 = 0
      then s.runSpectrum d else s.runConvolve r.tile d))) ∧
    (∃ (s : State) (t th ra o : Nat) (pd : List PByte), (s.canIssue t th = true) ∧ (s.descOffset t th ra 64 64 = .ok
      o) ∧ ((s.tile t).pool = none) ∧ (pd = s.peek (t * t0TileSize + o) 64) ∧ (poolFail (t * t0TileSize + o) t pd =
      none)) ∧
    (∃ (s : State) (t th ra o : Nat), (s.canIssue t th = true) ∧ (s.descOffset t th ra 64 64 = .ok o) ∧ ((s.tile
      t).pool ≠ none)) ∧
    (∃ (s : State) (t : Nat) (o : PoolOp), ((s.tile t).pool = some o) ∧ (s.tileRuns t = true)) :=
  ⟨⟨(x1 128), _, (0), (0), (1), (128), (1), by decide +kernel, ok_is (by decide +kernel), by decide +kernel, rfl⟩,
    ⟨(x1 64), (0), (0), by decide +kernel⟩,
    ⟨(x1 128), _, (0), (0), (1), (128), (1), by decide +kernel, ok_is (by decide +kernel), by decide +kernel, rfl⟩,
    ⟨(x1 64), (0), (0), by decide +kernel⟩,
    ⟨({ up with xf := { up.xf with engines := vset up.xf.engines 7 (some ⟨0, 0, 0, 1, 128, List.replicate 128 ⟨0, false⟩, false⟩) } }),
      _, (7), (⟨0, 0, 0, 1, 128, List.replicate 128 ⟨0, false⟩, false⟩), _, by decide +kernel, rfl, by decide +kernel,
      by decide +kernel, by decide +kernel, rfl⟩,
    ⟨(withBytes (x1 64) 64 (fields [(0, 1), (7, 1), (0, 2), (1, 2), (1, 2), (1, 2), (1, 1), (1, 1), (1, 1), (1, 1),
      (0, 10), (512, 4), (2, 4), (0, 8), (1024, 4), (8, 4), (0, 2), (7, 1), (0, 13)])), (0), (0), (1), (64), _,
      by decide +kernel, ok_is (by decide +kernel), by decide +kernel, rfl, by decide +kernel⟩,
    ⟨((withBytes (x1 64) 64 (fields [(0, 1), (7, 1), (0, 2), (1, 2), (1, 2), (1, 2), (1, 1), (1, 1), (1, 1), (1, 1),
      (0, 10), (512, 4), (2, 4), (0, 8), (1024, 4), (8, 4), (0, 2), (7, 1), (0, 13)])).modTile 0 (fun t =>
      { t with pool := some ⟨[], 0⟩ })), (0), (0), (1), (64), by decide +kernel, ok_is (by decide +kernel),
      by decide +kernel⟩,
    ⟨(busy.modTile 0 (fun t => { t with pool := some ⟨[], 0⟩ })), (0), (⟨[], 0⟩), by decide +kernel, by decide +kernel⟩⟩

/-- The hypotheses of O28 can be met, clause by clause. -/
theorem witness_O28 :
    (∃ (s u v : State) (p id n : Nat) (w : Sweep) (q : SeqCtx) (l : KvList) (d : List Byte), (vget none s.sweep.pipes
      p = some w) ∧ (s.sweepList w = some (id, n, q, l, d)) ∧ (p < 16) ∧ (s.usable 1 p = true) ∧ (s.domOn (64 + p / 4)
      = true) ∧ (s.fault.bridge.down = false) ∧ (w.ready l (tppOf q.headDim) = true) ∧ (((swBack d = false ∧ u =
      (s.finishForward w id n q l d).freePipe p w) ∨ (swBack d = true ∧ s.finishBackward w id n q l d = .ok v ∧ u =
      v.freePipe p w) ∨ (swBack d = true ∧ ∃ e, s.finishBackward w id n q l d = .error e ∧ u = (s.freePipe p
      w).runFault w.run (e, none))))) ∧
    (∃ (s : State) (p list page id dl : Nat) (w : Sweep) (q : SeqCtx) (l : KvList) (d : List Byte), (vget none
      s.sweep.pipes p = some w) ∧ (s.sweepList w = some (id, list, q, l, d)) ∧ (w.wait_ = some (page, dl)) ∧ (dl ≤
      s.time.half) ∧ (s.mayReplace w = true) ∧ (s.graceRuns w = true)) ∧
    (∃ (s : State) (ctx list page : Nat), (s.page ctx list page).state = .fetching) ∧
    (∃ (s : State) (ctx list page : Nat), ((s.page ctx list page).state = .spilling) ∧ ((s.page ctx list page).durable
      = false)) :=
  ⟨⟨(withJob
    ({ withCtx up [(1, aCtx 0)] with sweep := { up.sweep with pipes := vset up.sweep.pipes 15 (some ⟨⟨0, 0, 0, 1, 128, (List.replicate 8 ⟨0, false⟩ ++ [⟨1, false⟩] ++ List.replicate 119 ⟨0, false⟩), false⟩, [], none, []⟩) } })
    (aJob .running)), _, (up), (15), (1), (0), (⟨⟨0, 0, 0, 1, 128, (List.replicate 8 ⟨0, false⟩ ++ [⟨1, false⟩] ++
    List.replicate 119 ⟨0, false⟩), false⟩, [], none, []⟩), (aSeq), (aList), (vals ((List.replicate 8 ⟨0, false⟩ ++ [⟨1,
    false⟩] ++ List.replicate 119 ⟨0, false⟩))), by decide +kernel, by decide +kernel, by decide +kernel,
    by decide +kernel, by decide +kernel, by decide +kernel, by decide +kernel, (Or.inl ⟨by decide +kernel, rfl⟩)⟩,
    ⟨(withJob
      ({ withCtx up [(1, aCtx 0)] with sweep := { up.sweep with pipes := vset up.sweep.pipes 15 (some ⟨⟨0, 0, 0, 1, 128, (List.replicate 8 ⟨0, false⟩ ++ [⟨1, false⟩] ++ List.replicate 119 ⟨0, false⟩), false⟩, [], (some (0, 5)), []⟩) } })
      (aJob .running)), (15), (0), (0), (1), (5), (⟨⟨0, 0, 0, 1, 128, (List.replicate 8 ⟨0, false⟩ ++ [⟨1, false⟩] ++
      List.replicate 119 ⟨0, false⟩), false⟩, [], (some (0, 5)), []⟩), (aSeq), (aList), (vals ((List.replicate 8 ⟨0,
      false⟩ ++ [⟨1, false⟩] ++ List.replicate 119 ⟨0, false⟩))), by decide +kernel, by decide +kernel,
      by decide +kernel, by decide +kernel, by decide +kernel, by decide +kernel⟩,
    ⟨(withCtx up [(1,
      { aCtx 0 with seq := some ({ aSeq with lists := [{ aList with len := 64, vis := 64, kScale := 1, vScale := 1, pages := [{ Page.reset with state := .fetching }] }] }) })]),
      (1), (0), (0), by decide +kernel⟩,
    ⟨(withCtx up [(1,
      { aCtx 0 with seq := some ({ aSeq with lists := [{ aList with len := 64, vis := 64, kScale := 1, vScale := 1, pages := [{ Page.reset with state := .spilling }] }] }) })]),
      (1), (0), (0), by decide +kernel, by decide +kernel⟩⟩

/-- The hypotheses of O29 can be met, clause by clause. -/
theorem witness_O29 :
    (∃ (s u : State) (t th ra rb e : Nat) (x : Thread), (s.canIssue t th = true) ∧ (x = (s.tile t).thread th) ∧
      (x.poisonX ra = false) ∧ (x.poisonX rb = false) ∧ (e = x.getX rb) ∧ (e < 2) ∧ (u = s.sendOwn t th)) ∧
    (∃ (s : State) (t th rb e : Nat) (x : Thread), (s.canIssue t th = true) ∧ (x = (s.tile t).thread th) ∧ (x.poisonX
      rb = false) ∧ (e = x.getX rb) ∧ (e < 2)) ∧
    (∃ (s s1 : State) (t e : Nat) (ups : List Upset) (j : Job) (b : Bow) (l : List (Nat × Nat)) (d : List PByte),
      (s.tileJob t = some j) ∧ (e < 2) ∧ (s.usable 0 t = true) ∧ (s.crewIssues j t = true) ∧ (b = vget Bow.reset
      (s.tile t).bows e) ∧ ((b.state = .running ∨ b.state = .stalledSlot ∨ b.state = .stalledAhead)) ∧ (s.bowPieces t
      b.next 32 false = .ok l) ∧ ((s1, d) = (if b.state = .running then s.readPieces ups l else (s, s.peekPieces l))))
      ∧
    (∃ (s s1 : State) (t slot : Nat) (x : Slot) (a : Access) (rows : List (List (Nat × Nat))), (x = vget Slot.reset
      (s.tile t).slots slot) ∧ (x.state = .filling) ∧ (slot < 64) ∧ (s.tileRuns t = true) ∧ (s.tileTearing t = false)
      ∧ (s.heldBackSlot t slot = false) ∧ (a = accessOf (vals x.desc)) ∧ (s.outerRows t a false = .ok rows) ∧ (s1 =
      rows.foldl State.noteReads (s.hitLayer t slot))) ∧
    (∃ (s : State) (t slot : Nat) (x : Slot) (a : Access) (rows : List (List (Nat × Nat))), (x = vget Slot.reset
      (s.tile t).slots slot) ∧ (x.state = .draining) ∧ (slot < 64) ∧ (s.tileRuns t = true) ∧ (s.tileTearing t = false)
      ∧ (s.heldBackSlot t slot = false) ∧ (a = accessOf (vals x.desc)) ∧ (s.outerRows t a true = .ok rows)) ∧
    (∃ (s : State) (t slot : Nat), (slot < 64) ∧ (s.tileRuns t = true) ∧ (s.tileTearing t = true) ∧ ((vget Slot.reset
      (s.tile t).slots slot).state = .filling)) ∧
    (∃ (s : State) (t slot : Nat), (slot < 64) ∧ (s.tileRuns t = true) ∧ (s.tileTearing t = true) ∧ ((vget Slot.reset
      (s.tile t).slots slot).state = .draining)) :=
  ⟨⟨(x1 64), _, (0), (0), (1), (3), _, _, by decide +kernel, rfl, by decide +kernel, by decide +kernel, rfl,
    by decide +kernel, rfl⟩,
    ⟨(x1 64), (0), (0), (3), _, _, by decide +kernel, rfl, by decide +kernel, rfl, by decide +kernel⟩,
    ⟨(busy.modTile 0 (fun t => { t with bows := vset t.bows 1 ({ Bow.reset with state := .running }) })), _, (0), (1),
      ([]), (aJob .running), _, ([(0, 32)]), _, by decide +kernel, by decide +kernel, by decide +kernel,
      by decide +kernel, rfl, by decide +kernel, ok_is (by decide +kernel), (pair_eta _).symm⟩,
    ⟨((busy).modTile 0 (fun t =>
      { t with slots := vset t.slots 63 ({ Slot.reset with state := .filling, desc := (fields [(0, 2), (1, 2), (8, 4), (64, 8), (0, 4), (128, 4)]).map (fun b => ⟨b, false⟩) }) })),
      _, (0), (63), _, _, ([[(64, 8)]]), rfl, by decide +kernel, by decide +kernel, by decide +kernel,
      by decide +kernel, by decide +kernel, rfl, ok_is (by decide +kernel), rfl⟩,
    ⟨((busy).modTile 0 (fun t =>
      { t with slots := vset t.slots 63 ({ Slot.reset with state := .draining, desc := (fields [(0, 2), (1, 2), (8, 4), (64, 8), (0, 4), (128, 4)]).map (fun b => ⟨b, false⟩) }) })),
      (0), (63), _, _, ([[(64, 8)]]), rfl, by decide +kernel, by decide +kernel, by decide +kernel, by decide +kernel,
      by decide +kernel, rfl, ok_is (by decide +kernel)⟩,
    ⟨((withJob busy (aJob (.tearing 1))).modTile 0 (fun t =>
      { t with slots := vset t.slots 63 ({ Slot.reset with state := .filling, desc := (fields [(0, 2), (1, 2), (8, 4), (64, 8), (0, 4), (128, 4)]).map (fun b => ⟨b, false⟩) }) })),
      (0), (63), by decide +kernel, by decide +kernel, by decide +kernel, by decide +kernel⟩,
    ⟨((withJob busy (aJob (.tearing 1))).modTile 0 (fun t =>
      { t with slots := vset t.slots 63 ({ Slot.reset with state := .draining, desc := (fields [(0, 2), (1, 2), (8, 4), (64, 8), (0, 4), (128, 4)]).map (fun b => ⟨b, false⟩) }) })),
      (0), (63), by decide +kernel, by decide +kernel, by decide +kernel, by decide +kernel⟩⟩

/-- The hypotheses of O30 can be met, clause by clause. -/
theorem witness_O30 :
    (∃ (s : State) (t th i : Nat), (s.canIssue t th = true) ∧ (i < 64)) ∧
    (∃ (s : State) (t th i : Nat), (s.canIssue t th = true) ∧ (i < 64)) ∧
    (∃ (s : State) (t th i : Nat), (s.canIssue t th = true) ∧ (i < 64)) ∧
    (∃ (s : State) (t th i : Nat), (s.canIssue t th = true) ∧ (64 ≤ i)) ∧
    (∃ (s : State) (t th : Nat), s.canIssue t th = true) ∧
    (∃ (s : State) (t slot : Nat), (slot < 64) ∧ (s.tileRuns t = true) ∧ (s.slotPast t slot = true)) :=
  ⟨⟨((busy).modTile 0 (fun t =>
    { t with slots := vset t.slots 63 ({ Slot.reset with state := .full, desc := (fields [(0, 2), (1, 2), (8, 4), (64, 8), (0, 4), (128, 4)]).map (fun b => ⟨b, false⟩) }) })),
    (0), (0), (63), by decide +kernel, by decide +kernel⟩,
    ⟨(busy), (0), (0), (63), by decide +kernel, by decide +kernel⟩,
    ⟨((busy).modTile 0 (fun t =>
      { t with slots := vset t.slots 63 ({ Slot.reset with state := .full, desc := (fields [(0, 2), (1, 2), (8, 4), (64, 8), (0, 4), (128, 4)]).map (fun b => ⟨b, false⟩) }) })),
      (0), (0), (63), by decide +kernel, by decide +kernel⟩,
    ⟨(x1 64), (0), (0), (64), by decide +kernel, by decide +kernel⟩,
    ⟨(x1 64), (0), (0), by decide +kernel⟩,
    ⟨((withModels (busy) [(1,
      { aModel with inUse := 1, phases := [⟨0, 0, 0, true, false, false, 1, 0, 0, 256, 256, 0, 1, 0⟩], fetches := [⟨0, 0, 1, 1000, 0⟩] })]).modTile
      0 (fun t =>
      { t with layerDl := [(0, 5)], slots := vset t.slots 63 { Slot.reset with state := .filling, deadline := true } })),
      (0), (63), by decide +kernel, by decide +kernel, by decide +kernel⟩⟩

/-- The hypotheses of O31 can be met, clause by clause. -/
theorem witness_O31 :
    (∃ (s : State) (t th : Nat), s.canIssue t th = true) ∧
    (∃ (s u : State) (t th : Nat), (s.canIssue t th = true) ∧ (u = s.sendOwn t th)) ∧
    (∃ (s u : State) (t th ra rb : Nat) (x : Thread) (ls : List Nat), (s.canIssue t th = true) ∧ (x = (s.tile
      t).thread th) ∧ (x.poisonX ra = false) ∧ (x.poisonX rb = false) ∧ (u = s.sendLines t (fun w => w.hits (x.getX
      ra) (x.getX rb))) ∧ (ls = ((u.tile t).out.filter (fun w => w.hits (x.getX ra) (x.getX rb))).map (fun w => w.addr
      / 64))) ∧
    (∃ (s : State) (t th ra rb : Nat) (x : Thread), (s.canIssue t th = true) ∧ (x = (s.tile t).thread th) ∧ (x.poisonX
      ra = false) ∧ (x.poisonX rb = false)) ∧
    (∃ (s : State) (t th : Nat), s.canIssue t th = true) ∧
    (∃ (s : State) (t th : Nat), s.canIssue t th = true) ∧
    (∃ (s : State) (t th ra i : Nat) (x : Thread) (m : Sem), (s.canIssue t th = true) ∧ (x = (s.tile t).thread th) ∧
      (x.poisonX ra = false) ∧ (i = x.getX ra) ∧ (s.sem i = some m) ∧ (m.st ≠ 1)) ∧
    (∃ (s u : State) (t th rd ra i : Nat) (x : Thread) (m : Sem), (s.canIssue t th = true) ∧ (x = (s.tile t).thread
      th) ∧ (x.poisonX ra = false) ∧ (i = x.getX ra) ∧ (s.sem i = some m) ∧ (m.st = 1) ∧ (u = (s.modThread t th (fun h
      => { h with block := .semAcquire i rd })).modSem i (fun y => { y with waiters := y.waiters ++ [(t, th)] }))) ∧
    (∃ (s u : State) (t th ra i : Nat) (x : Thread) (m : Sem), (s.canIssue t th = true) ∧ (x = (s.tile t).thread th) ∧
      (x.poisonX ra = false) ∧ (i = x.getX ra) ∧ (s.sem i = some m) ∧ (u = s.sendOwn t th)) ∧
    (∃ (s : State) (sem : Nat) (b : Boost), s.sched.boosts.find? (fun b => b.sem == sem && decide (b.since + 100000 ≤
      s.time.half)) = some b) ∧
    (∃ (s u : State) (t th : Nat), (s.canIssue t th = true) ∧ (u = s.modThread t th (fun x => { x with exited := true }))) ∧
    (∃ (s : State) (t i : Nat) (w : OutWrite), ((s.tile t).out[i]? = some w) ∧ (t < 128) ∧ (s.tileTearing t = false) ∧
      ((s.tile t).behind i w = false)) :=
  ⟨⟨(x1 64), (0), (0), by decide +kernel⟩,
    ⟨(x1 64), _, (0), (0), by decide +kernel, rfl⟩,
    ⟨(x1 64), _, (0), (0), (1), (3), _, _, by decide +kernel, rfl, by decide +kernel, by decide +kernel, rfl, rfl⟩,
    ⟨(x1 64), (0), (0), (1), (3), _, by decide +kernel, rfl, by decide +kernel, by decide +kernel⟩,
    ⟨(x1 64), (0), (0), by decide +kernel⟩,
    ⟨(x1 64), (0), (0), by decide +kernel⟩,
    ⟨({ x1 64 with sched := { (x1 64).sched with sems := [(64, ⟨0, 2, none, []⟩)] } }), (0), (0), (1), _, _, (⟨0, 2,
      none, []⟩), by decide +kernel, rfl, by decide +kernel, rfl, by decide +kernel, by decide +kernel⟩,
    ⟨({ x1 64 with sched := { (x1 64).sched with sems := [(64, ⟨0, 1, (some 5), []⟩)] } }), _, (0), (0), (2), (1), _,
      _, (⟨0, 1, (some 5), []⟩), by decide +kernel, rfl, by decide +kernel, rfl, by decide +kernel, by decide +kernel,
      rfl⟩,
    ⟨({ x1 64 with sched := { (x1 64).sched with sems := [(64, ⟨0, 1, (some 1), []⟩)] } }), _, (0), (0), (1), _, _,
      (⟨0, 1, (some 1), []⟩), by decide +kernel, rfl, by decide +kernel, rfl, by decide +kernel, rfl⟩,
    ⟨({ up with sched := { up.sched with boosts := [⟨3, 1, 0, 5⟩] } }), (3), (⟨3, 1, 0, 5⟩), by decide +kernel⟩,
    ⟨(busy), _, (0), (0), by decide +kernel, rfl⟩,
    ⟨(busy.modTile 0 (fun t => { t with out := [⟨0x4020000000, [some ⟨1, false⟩], [0]⟩] })), (0), (0), (⟨0x4020000000,
      [some ⟨1, false⟩], [0]⟩), by decide +kernel, by decide +kernel, by decide +kernel, by decide +kernel⟩⟩

/-- The hypotheses of O32 can be met, clause by clause. -/
theorem witness_O32 :
    (∃ (s : State) (ctx : Nat) (j : Job) (m : Model) (p : Placement), (s.jobOf ctx = some j) ∧ (j.issues = true) ∧
      (j.tiles.all (fun t => (s.tile t).partEnded) = true) ∧ (s.model j.model = some m) ∧ (s.placementOf j j.placement
      = some p) ∧ (m.safe = none) ∧ (j.inGolden = false)) ∧
    (∃ (s u : State) (ctx : Nat) (j k : Job) (m : Model) (p : Placement), (s.jobOf ctx = some j) ∧ (j.issues = true) ∧
      (j.tiles.all (fun t => (s.tile t).partEnded) = true) ∧ (s.model j.model = some m) ∧ (s.placementOf j j.placement
      = some p) ∧ (m.safe ≠ none) ∧ (j.inGolden = false) ∧ (u = (s.countAbandoned j).modJob j.uid (fun j =>
      { j with state := .golden, inGolden := true, goldenFlags := some 0, arrived := [], layerArrived := [] })) ∧
      (u.job j.uid = some k)) ∧
    (∃ (s : State) (ctx : Nat) (j : Job) (m : Model) (p : Placement), (s.jobOf ctx = some j) ∧ (j.issues = true) ∧
      (j.tiles.all (fun t => (s.tile t).partEnded) = true) ∧ (s.model j.model = some m) ∧ (s.placementOf j j.placement
      = some p) ∧ (j.inGolden = true)) ∧
    (∃ (s : State) (ctx : Nat) (j : Job), (s.jobOf ctx = some j) ∧ (j.state = .draining) ∧ (j.tiles.all (fun t =>
      (s.tile t).drained) = true)) ∧
    (∃ (s s1 : State) (ctx : Nat) (j : Job) (p : Placement), (s.jobOf ctx = some j) ∧ (j.state = .saving) ∧
      (s.placementOf j j.placement = some p) ∧ (s1 = (j.tiles.zip j.areas).foldl (fun s x => s.saveTile j p x.1 x.2)
      s)) ∧
    (∃ (s s1 : State) (ctx : Nat) (j : Job) (p : Placement), (s.jobOf ctx = some j) ∧ (j.state = .resuming) ∧
      (j.tiles.all (fun t => s.domOn (t / 2)) = true) ∧ (s.placementOf j j.placement = some p) ∧ (s1 = (j.tiles.zip
      (j.areas.zip j.saved)).foldl (fun u x => u.restoreTile p x.1 x.2.1 x.2.2 (s.time.half - j.stoppedAt)) s)) ∧
    (∃ (s : State) (ctx cause : Nat) (j : Job), (s.jobOf ctx = some j) ∧ (j.state = .tearing cause)) :=
  ⟨⟨((busy).modThread 0 0 (fun h => { h with exited := true })), (1), ((aJob .running)), ({ aModel with inUse := 1 }),
    (⟨1, 1, 1, false, 0x10000, 4096, 0, 0, 0, 0, 1000⟩), by decide +kernel, by decide +kernel, by decide +kernel,
    by decide +kernel, by decide +kernel, by decide +kernel, by decide +kernel⟩,
    ⟨(withModels ((busy).modThread 0 0 (fun h => { h with exited := true })) [(1,
      { aModel with inUse := 1, safe := some ⟨⟨0, 1⟩, ⟨1, 1⟩, 5⟩ })]), _, (1), ((aJob .running)), _,
      ({ aModel with inUse := 1, safe := some ⟨⟨0, 1⟩, ⟨1, 1⟩, 5⟩ }), (⟨1, 1, 1, false, 0x10000, 4096, 0, 0, 0, 0,
      1000⟩), by decide +kernel, by decide +kernel, by decide +kernel, by decide +kernel, by decide +kernel,
      by decide +kernel, by decide +kernel, rfl, there (by decide +kernel)⟩,
    ⟨((withJob busy { aJob .golden with inGolden := true }).modThread 0 0 (fun h => { h with exited := true })), (1),
      ({ aJob .golden with inGolden := true }), ({ aModel with inUse := 1 }), (⟨1, 1, 1, false, 0x10000, 4096, 0, 0,
      0, 0, 1000⟩), by decide +kernel, by decide +kernel, by decide +kernel, by decide +kernel, by decide +kernel,
      by decide +kernel⟩,
    ⟨(withJob busy (aJob .draining)), (1), ((aJob .draining)), by decide +kernel, by decide +kernel, by decide +kernel⟩,
    ⟨(withJob busy { aJob .saving with areas := [0] }), _, (1), ({ aJob .saving with areas := [0] }), (⟨1, 1, 1,
      false, 0x10000, 4096, 0, 0, 0, 0, 1000⟩), by decide +kernel, by decide +kernel, by decide +kernel, rfl⟩,
    ⟨(withJob busy { aJob .resuming with areas := [0], saved := [Tile.reset] }), _, (1),
      ({ aJob .resuming with areas := [0], saved := [Tile.reset] }), (⟨1, 1, 1, false, 0x10000, 4096, 0, 0, 0, 0,
      1000⟩), rfl, by decide +kernel, by decide +kernel, by decide +kernel, rfl⟩,
    ⟨(withJob busy (aJob (.tearing 1))), (1), (1), ((aJob (.tearing 1))), by decide +kernel, by decide +kernel⟩⟩

/-- The hypotheses of O33 can be met, clause by clause. -/
theorem witness_O33 :
    (∃ (s u : State) (a l ty n : Nat) (errs : List Byte) (b : List PByte), (l = a / 64 * 64) ∧ ((isT1 l || isNvs l) =
      true) ∧ (chanUnit l = (ty, n)) ∧ (s.usable ty n = true) ∧ (s.domOn (unitDomain ty n) = true) ∧
      (s.fault.bridge.down = false) ∧ (s.frameOf l errs = some b) ∧ (u =
      { s with fault := { s.fault with replays := aerase s.fault.replays l } })) ∧
    (∃ (s : State) (a l ty n k : Nat) (errs : List Byte), (l = a / 64 * 64) ∧ ((isT1 l || isNvs l) = true) ∧ (chanUnit
      l = (ty, n)) ∧ (s.usable ty n = true) ∧ (s.domOn (unitDomain ty n) = true) ∧ (s.fault.bridge.down = false) ∧ (k
      = (alookup s.fault.replays l).getD 0) ∧ (s.frameOf l errs = none)) :=
  ⟨⟨(up), _, (275414777856), (275414777856), (4), (0), ([]), _, by decide +kernel, by decide +kernel, by decide +kernel,
    by decide +kernel, by decide +kernel, by decide +kernel, there (by decide +kernel), rfl⟩,
    ⟨(up), (275414777856), (275414777856), (4), (0), 0, ([1]), by decide +kernel, by decide +kernel,
      by decide +kernel, by decide +kernel, by decide +kernel, by decide +kernel, by decide +kernel,
      by decide +kernel⟩⟩

/-- The hypotheses of O34 can be met, clause by clause. -/
theorem witness_O34 :
    (∃ (s : State) (page : Nat) (w : NvsWrite), s.store.nvsWrites.find? (fun w => w.busy.contains page) = some w) ∧
    (∃ (s s1 s2 : State) (page corrected n : Nat), (page < 2 ^ 29) ∧ (s.domOn (86 + page % 2) = true) ∧ (s1 =
      s.modChanRec (256 + nvsChan page) (fun r => { r with scrubbed := insertSorted r.scrubbed page })) ∧ (s2 = (if
      s1.patrolled (page % 2) < 2 ^ 28 then s1 else (List.range 16).foldl (fun s i => s.modChanRec (256 + 16 * (page %
      2) + i) (fun r => { r with scrubbed := [] })) s1)) ∧ (n = corrected + (s2.badBytes page).length)) :=
  ⟨⟨({ up with store := { up.store with nvsWrites := [⟨0, 0x030000000000, [], 1, [16777216], false⟩] } }), (16777216),
    (⟨0, 0x030000000000, [], 1, [16777216], false⟩), by decide +kernel⟩,
    ⟨(up), _, _, (2 ^ 29 - 1), (0), _, by decide +kernel, by decide +kernel, rfl, rfl, rfl⟩⟩

/-- The hypotheses of O35 can be met, clause by clause. -/
theorem witness_O35 :
    (∃ (s : State) (a : Nat), (s.store.scrubEnable = true) ∧ (s.pwr.state < 2) ∧ (isT0 a = true)) ∧
    (∃ (s : State) (a : Nat), (s.store.scrubEnable = true) ∧ (s.pwr.state < 2) ∧ (isT0 a = false) ∧ (isT1 a = true) ∧
      (s.domOn (78 + t1Chan (a - t1Base) % 8) = true)) ∧
    (∃ (s : State), (s.store.limitMs ≠ 0) ∧ (s.store.lapAlarmed = false) ∧ (s.since s.store.lapStart (us
      (s.store.limitMs * 1000)) = true) ∧ (s.lapChans ≠ []) ∧ ((∀ c ∈ s.lapChans, s.lapDone c ≤ 2 ^ 22))) ∧
    (∃ (s s0 : State), (s.fault.bridge.down = false) ∧ (s0 = (if s.untested = [] then s.newRotation else s)) ∧
      (s0.untested ≠ [])) :=
  ⟨⟨(up), (64), by decide +kernel, by decide +kernel, by decide +kernel⟩,
    ⟨(up), (275414777856), by decide +kernel, by decide +kernel, by decide +kernel, by decide +kernel, by decide +kernel⟩,
    ⟨({ up with store := { up.store with limitMs := 1000 } }), by decide +kernel, by decide +kernel,
      by decide +kernel, lap_some _ rfl, (fun c _ => lap_small _ rfl c)⟩,
    ⟨(up), _, by decide +kernel, rfl, by decide +kernel⟩⟩

/-- The hypotheses of O36 can be met, clause by clause. -/
theorem witness_O36 :
    (∃ (s s1 : State) (g n lost o : Nat) (r : Rebuild) (rest : List Rebuild), (s.fault.t1Rebuilds = r :: rest) ∧
      (s.fault.bridge.down = false) ∧ (s.fault.bridge.lost = false) ∧ (n = r.choose g) ∧ (r.next ≤ n) ∧ (n <
      s.rebuildGranules) ∧ (r.ahead.contains n = false) ∧ (o = t1OfChan r.chan (256 * n)) ∧ (s1 = (List.range 4).foldl
      (fun s i => s.rebuildLine (t1Base + o + 64 * i) (bit lost i == 1)) s)) ∧
    (∃ (s u v : State) (l : Nat), (u = s.rewrite l LineRead.lost.bytes) ∧ (v = s.noteT1 false l) ∧ ((s.lineRead l).bad
      = false)) ∧
    (∃ (s : State) (page i p : Nat) (r : Rebuild) (rest : List Rebuild), (s.fault.nvsRebuilds = r :: rest) ∧
      (s.sagging = false) ∧ (s.fault.bridge.down = false) ∧ (s.fault.bridge.lost = false) ∧ (nvsChan page = r.chan) ∧
      (i = r.choose (page / 32)) ∧ (p = i * 32 + page % 32) ∧ (r.next ≤ i) ∧ (i < s.rebuildPages) ∧ (r.ahead.contains
      i = false)) :=
  ⟨⟨({ up with fault := { up.fault with t1Rebuilds := [⟨5, 0, [], []⟩] } }), _, (2 ^ 22 - 1), _, (0), _, (⟨5, 0, [],
    []⟩), ([]), by decide +kernel, by decide +kernel, by decide +kernel, rfl, by decide +kernel, by decide +kernel,
    by decide +kernel, rfl, rfl⟩,
    ⟨(up), _, _, (64), rfl, rfl, by decide +kernel⟩,
    ⟨({ up with fault := { up.fault with nvsRebuilds := [⟨31, 0, [], []⟩] } }), (31 + 512), _, _, (⟨31, 0, [], []⟩),
      ([]), by decide +kernel, by decide +kernel, by decide +kernel, by decide +kernel, by decide +kernel, rfl, rfl,
      by decide +kernel, by decide +kernel, by decide +kernel⟩⟩

/-- The hypotheses of O37 can be met, clause by clause. -/
theorem witness_O37 :
    (∃ (s s1 : State) (i a n : Nat) (x : Stream) (pd : List PByte), (x = s.stream i) ∧ (a = x.ringBase + x.next *
      ringSlotBytes i) ∧ (n = ringSlotBytes i) ∧ (pd = s.peek a n) ∧ (s.fuse.enabled = true) ∧ (x.configured = true) ∧
      (x.ringLog2 ≠ 0) ∧ (i < 36) ∧ (s.fuseRuns = true) ∧ (s.heldRange a n = false) ∧ ((pd.take 4).any (fun b => b.p
      || b.v != 0) = true) ∧ (s1 = ((s.noteRead a (if i < 32 then 64 + 64 * min (byteAt (vals pd) 5) 63 else
      64)).storeClean a (toLe 4 0)).modStream i (fun y => { y with next := (y.next + 1) % 2 ^ y.ringLog2 }))) ∧
    (∃ (s : State) (i a n : Nat) (x : Stream), (x = s.stream i) ∧ (a = x.ringBase + x.next * ringSlotBytes i) ∧ (n =
      ringSlotBytes i) ∧ (s.fuse.enabled = true) ∧ (x.configured = true) ∧ (x.ringLog2 ≠ 0) ∧ (i < 36) ∧ (s.fuseRuns =
      true) ∧ (s.heldRange a n = true)) ∧
    (∃ (s : State), (s.fuse.enabled = true) ∧ (s.fuse.started = true) ∧ (s.fuseRuns = true) ∧ (2 * s.fuse.tLast + 3 *
      (s.leadPeriod : Int) < 2 * (s.elapsed : Int))) ∧
    (∃ (s : State) (k : Instant) (rest : List Instant), (s.fuse.instants = k :: rest) ∧ (s.fuse.enabled = true) ∧
      (s.fuseRuns = true) ∧ (((∀ i ∈ s.dueList k.n, (s.pairedAt k.n i).isSome = true) ∨ s.closeDeadline k ≤ (s.elapsed
      : Int)))) ∧
    (∃ (s u v : State) (k : Instant), (s.fuseAway = true) ∧ (s.fuse.started = true) ∧ (((∃ rest, s.fuse.instants = k
      :: rest) ∨ (s.fuse.instants = [] ∧ k = ⟨s.fuse.nextInstant, s.fuse.tLast + s.leadPeriod, true⟩))) ∧ (k.t ≤
      (s.elapsed : Int)) ∧ (u = (s.modFuse (fun f =>
      { f with nextInstant := max f.nextInstant (k.n + 1), tLast := if f.instants.isEmpty then k.t else f.tLast, instants := f.instants.drop 1, closedCoasts := if k.coasted then k.t :: f.closedCoasts else f.closedCoasts, falls := [] })).setLevel
      4) ∧ (v = (if isT1 u.fuse.outAddr = true ∧ u.heldRange u.fuse.outAddr 64 = true then u.modFuse (fun f =>
      { f with lostSince := min (f.lostSince + 1) 0xFFFFFFFF }) else u.writeRecord ⟨4, 1 + 4 * b2n k.coasted, k.n, 0,
      streamMask (u.dueList k.n), 0, 0, 0, 0⟩ []))) :=
  ⟨⟨(withBytes
    ({ up with fuse := { up.fuse with enabled := true, streams := vset (Vector.replicate 36 Stream.reset) 0 { Stream.reset with configured := true, kind := 0, lead := true, periodUs := 33333, ringBase := 0x4020000000, ringLog2 := 4, offset := some 0 } } })
    0x4020000000 (1 :: List.replicate 7 0)), _, (0), _, _, _, _, rfl, rfl, rfl, rfl, by decide +kernel,
    by decide +kernel, by decide +kernel, by decide +kernel, by decide +kernel, free_range _ _ _ (units_free _ rfl)
    (by decide +kernel), by decide +kernel, rfl⟩,
    ⟨((withBytes
      ({ up with fuse := { up.fuse with enabled := true, streams := vset (Vector.replicate 36 Stream.reset) 0 { Stream.reset with configured := true, kind := 0, lead := true, periodUs := 33333, ringBase := 0x4020000000, ringLog2 := 4, offset := some 0 } } })
      0x4020000000 (1 :: List.replicate 7 0)).modUnit 4 0 (fun u => { u with state := .quarantined })), (0), _, _, _,
      rfl, rfl, rfl, by decide +kernel, by decide +kernel, by decide +kernel, by decide +kernel, by decide +kernel,
      by decide +kernel⟩,
    ⟨({ up with fuse := { ({ up with fuse := { up.fuse with enabled := true, streams := vset (Vector.replicate 36 Stream.reset) 0 { Stream.reset with configured := true, kind := 0, lead := true, periodUs := 33333, ringBase := 0x4020000000, ringLog2 := 4, offset := some 0 } } }).fuse with started := true, outAddr := 0x4030000000, outSlots := 16, instants := [] } }),
      by decide +kernel, by decide +kernel, by decide +kernel, by decide +kernel⟩,
    ⟨({ up with fuse := { ({ up with fuse := { up.fuse with enabled := true, streams := vset (Vector.replicate 36 Stream.reset) 0 { Stream.reset with configured := true, kind := 0, lead := true, periodUs := 33333, ringBase := 0x4020000000, ringLog2 := 4, offset := some 0 } } }).fuse with started := true, outAddr := 0x4030000000, outSlots := 16, instants := [⟨0, 0, false⟩] } }),
      (⟨0, 0, false⟩), ([]), by decide +kernel, by decide +kernel, by decide +kernel, (Or.inr (by decide +kernel))⟩,
    ⟨({ up with fuse := { ({ up with fuse := { up.fuse with enabled := false, streams := vset (Vector.replicate 36 Stream.reset) 0 { Stream.reset with configured := true, kind := 0, lead := true, periodUs := 33333, ringBase := 0x4020000000, ringLog2 := 4, offset := some 0 } } }).fuse with started := true, degraded := true, instants := [⟨0, 0, false⟩] } }),
      _, _, (⟨0, 0, false⟩), by decide +kernel, by decide +kernel, (Or.inl ⟨[], rfl⟩), by decide +kernel, rfl, rfl⟩⟩

/-- The hypotheses of O38 can be met, clause by clause. -/
theorem witness_O38 :
    (∃ (s s1 s2 s3 s4 : State) (c : Nat) (back : Bool), ((s.chain c).running = true) ∧ (s.domOn 88 = true) ∧
      (s.cycleDue c = true) ∧ (s1 = s.cutoff c) ∧ (back = ((s1.chain c).clock == 1 && (s1.chain c).ret && (vget ⟨0,
      false⟩ s1.clk.cands (2 + c)).stable)) ∧ (s2 = s1.modChain c (fun x =>
      { x with cycle := if x.begun then (x.cycle + 1) % 2 ^ 64 else x.first, begun := true, cycleT := s1.time.half, returned := false, cut := false, clock := if back then 0 else x.clock }))
      ∧ (s3 = (s2.lateCycle c).modChain c (fun x => x.decideFf (x.cycle + 1))) ∧ (s4 = ((s3.chain c).loopIds c).foldl
      (fun s l => s.loopInstant c l) s3)) ∧
    (∃ (s : State) (c n : Nat) (ch : Chain) (frame : List Byte), (c < 4) ∧ (s.domOn 88 = true) ∧ (ch = s.chain c) ∧
      (ch.straddle = some n) ∧ (ch.matches c n frame = true)) ∧
    (∃ (s u : State) (c : Nat) (ch : Chain) (frame : List Byte), (c < 4) ∧ (s.domOn 88 = true) ∧ (ch = s.chain c) ∧
      ((∀ n, ch.straddle = some n → ch.matches c n frame = false)) ∧ (u = s.modChain c (fun x =>
      { x with returned := true }))) ∧
    (∃ (s u : State) (c : Nat) (part : List Byte), ((s.chain c).running = true) ∧ ((s.chain c).begun = true) ∧
      ((s.chain c).cut = false) ∧ (u = (if (s.chain c).matches c (s.chain c).cycle part = true ∧ (s.chain c).returned
      = false then (s.modChain c (fun x => { x with straddle := some (s.chain c).cycle })).takeWords c part else s)))
      ∧
    (∃ (s u : State) (c : Nat), ((s.chain c).running = true) ∧ ((s.chain c).clock = 0) ∧ ((s.chain c).allow = true) ∧
      (u = { s with clk := { s.clk with cands := vset s.clk.cands (2 + c) ⟨0, false⟩ } })) ∧
    (∃ (s u v w : State) (c : Nat), ((s.chain c).running = true) ∧ ((s.chain c).clock = 0) ∧ ((s.chain c).allow =
      false) ∧ (u = { s with clk := { s.clk with cands := vset s.clk.cands (2 + c) ⟨0, false⟩ } }) ∧ (v = (if (s.chain
      c).cut = true then u else u.sendPositions c)) ∧ (w = v.modChain c (fun x =>
      { x with running := false, clock := 2, cut := true }))) ∧
    (∃ (s u : State) (c seq : Nat) (f : Crossing) (rest : List Crossing) (m : List Byte) (fresh poison : Bool),
      (s.stroke.crossing = f :: rest) ∧ (f.chain = c) ∧ (u = { s with stroke := { s.stroke with crossing := rest } })
      ∧ (m = f.bytes.map PByte.v) ∧ (poison = f.bytes.any PByte.p) ∧ (seq = leAt m 0 4) ∧ (fresh =
      (match (s.chain c).seq with | none => true | some l => decide (1 ≤ (seq + 2 ^ 32 - l) % 2 ^ 32 ∧ (seq + 2 ^ 32 - l) % 2 ^ 32 < 2 ^ 31))))
      :=
  ⟨⟨(up.modChain 3 (fun x => { x with running := true })), _, _, _, _, (3), _, by decide +kernel, by decide +kernel,
    by decide +kernel, rfl, rfl, rfl, rfl, rfl⟩,
    ⟨(up.modChain 3 (fun x => { x with straddle := some 5, etherType := 0x88B5 })), (3), (5), _, ((List.replicate 6
      0xFF ++ List.replicate 6 0 ++ [0x88, 0xB5, 0, 3, 0, 0, 5, 0, 0, 0] ++ List.replicate 10 0)), by decide +kernel,
      by decide +kernel, rfl, by decide +kernel, by decide +kernel⟩,
    ⟨(up.modChain 3 (fun x => { x with etherType := 0x88B5 })), _, (3), _, ([]), by decide +kernel, by decide +kernel,
      rfl, (fun _ h => by cases h), rfl⟩,
    ⟨(up.modChain 3 (fun x => { x with running := true, begun := true, cut := false })), _, (3), ([]),
      by decide +kernel, by decide +kernel, by decide +kernel, rfl⟩,
    ⟨(up.modChain 3 (fun x => { x with running := true, allow := true })), _, (3), by decide +kernel,
      by decide +kernel, by decide +kernel, rfl⟩,
    ⟨(up.modChain 3 (fun x => { x with running := true })), _, _, _, (3), by decide +kernel, by decide +kernel,
      by decide +kernel, rfl, rfl, rfl⟩,
    ⟨({ up with stroke := { up.stroke with crossing := [⟨3, 2, (fields [(7, 4), (0, 12), (1, 2), (0, 234)] ++ toLe 4 (crc32c (fields [(7, 4), (0, 12), (1, 2), (0, 234)])) ++ fields [(7, 8)]).map (fun b => ⟨b, false⟩)⟩] } }),
      _, (3), _, (⟨3, 2, (fields [(7, 4), (0, 12), (1, 2), (0, 234)] ++ toLe 4 (crc32c (fields [(7, 4), (0, 12), (1,
      2), (0, 234)])) ++ fields [(7, 8)]).map (fun b => ⟨b, false⟩)⟩), ([]), _, _, _, rfl, rfl, rfl, rfl, rfl, rfl,
      rfl⟩⟩

/-- The hypotheses of O39 can be met, clause by clause. -/
theorem witness_O39 :
    (∃ (s : State) (port : Nat) (frame : List Byte), (s.netOn = true) ∧ (port ≤ 15) ∧ ((s.nport port).live = true) ∧
      (9216 < frame.length + 4)) ∧
    (∃ (s : State) (port : Nat) (frame : List Byte), (s.netOn = true) ∧ (port ≤ 15) ∧ ((s.nport port).live = true) ∧
      (frame.length + 4 ≤ 9216) ∧ (12 ≤ port)) ∧
    (∃ (s : State) (port : Nat) (frame : List Byte) (bad : Bool), (s.netOn = true) ∧ (port ≤ 15) ∧ ((s.nport
      port).live = true) ∧ (frame.length + 4 ≤ 9216) ∧ (port < 12) ∧ (bad = true)) ∧
    (∃ (s : State) (port : Nat) (frame : List Byte) (bad : Bool), (s.netOn = true) ∧ (port ≤ 15) ∧ ((s.nport
      port).live = true) ∧ (frame.length + 4 ≤ 9216) ∧ (port < 12) ∧ (bad = false)) ∧
    (∃ (s : State) (port : Nat), (s.netOn = true) ∧ (port < 12) ∧ ((s.nport port).live = true) ∧ ((s.nport
      port).busyUntil ≤ s.time.half)) ∧
    (∃ (s : State) (port : Nat), (s.netOn = true) ∧ (port < 16) ∧ ((s.nport port).role ≠ 0) ∧ ((s.nport port).link =
      false)) ∧
    (∃ (s : State) (port : Nat), (s.netOn = true) ∧ (port < 16) ∧ ((s.nport port).link = true)) ∧
    (∃ (s : State) (i : Nat) (e : FdbEntry), (s.netOn = true) ∧ (s.net.fdb[i]? = some e) ∧ (s.since e.seen (us
      (s.net.ageS * 1000000)) = true)) :=
  ⟨⟨((up).modPort 15 (fun x => { x with role := 1, link := true })), (15), (List.replicate 9213 0), by decide +kernel, by decide +kernel, by decide +kernel, by rw [List.length_replicate]; decide⟩,
    ⟨((up).modPort 15 (fun x => { x with role := 1, link := true })), (15), ((List.replicate 60 0)),
      by decide +kernel, by decide +kernel, by decide +kernel, by decide +kernel, by decide +kernel⟩,
    ⟨((up).modPort 11 (fun x => { x with role := 1, link := true })), (11), ((List.replicate 60 0)), (true),
      by decide +kernel, by decide +kernel, by decide +kernel, by decide +kernel, by decide +kernel,
      by decide +kernel⟩,
    ⟨((up).modPort 11 (fun x => { x with role := 1, link := true })), (11), ((List.replicate 60 0)), (false),
      by decide +kernel, by decide +kernel, by decide +kernel, by decide +kernel, by decide +kernel,
      by decide +kernel⟩,
    ⟨((up).modPort 11 (fun x =>
      { x with role := 1, link := true, queues := vset x.queues 7 [(List.replicate 60 0)] })), (11),
      by decide +kernel, by decide +kernel, by decide +kernel, by decide +kernel⟩,
    ⟨((up).modPort 15 (fun x => { x with role := 1 })), (15), by decide +kernel, by decide +kernel, by decide +kernel,
      by decide +kernel⟩,
    ⟨((up).modPort 15 (fun x => { x with role := 1, link := true })), (15), by decide +kernel, by decide +kernel,
      by decide +kernel⟩,
    ⟨({ up with time := ⟨1000000000000, true, false⟩, net := { up.net with fdb := [⟨5, 1, 0, 0⟩] } }), (0), (⟨5, 1, 0,
      0⟩), by decide +kernel, by decide +kernel, by decide +kernel⟩⟩

/-- The hypotheses of O40 can be met, clause by clause. -/
theorem witness_O40 :
    (∃ (s : State) (t a i : Nat) (j : Job) (c : Check), (s.checkOf t a = some (j, i, c)) ∧ (s.fault.bridge.down =
      false) ∧ (s.fault.bridge.lost = false) ∧ (s.since c.at_ (us 2) = true)) ∧
    (∃ (s u : State) (ctx : Nat) (j : Job) (m : Model) (k : SafeMark), (s.jobOf ctx = some j) ∧ (j.state = .judging) ∧
      (j.goldenArea.isSome = true) ∧ (s.fault.bridge.down = false) ∧ (s.fault.bridge.lost = false) ∧ (s.model j.model
      = some m) ∧ (m.safe = some k) ∧ (u = (s.freeGolden j).judged j.uid j.tiles (if s.goldenSame j k = true then 0
      else 8))) ∧
    (∃ (s u v : State) (ctx : Nat) (fails : List Byte) (bad : List Nat) (j : Job), (s.jobOf ctx = some j) ∧ (j.state =
      .testing) ∧ (bad = (fails.map BitVec.toNat).filter (fun t => j.tiles.contains t)) ∧ (u = s.modJob j.uid (fun j
      =>
      { j with state := .judging, charged := (j.charged ++ bad).eraseDups, vflags := if bad.isEmpty = true then j.vflags ||| 64 else j.vflags }))
      ∧ (v = (if bad.isEmpty = true then (u.bump (safeCtr 0x128) 1).raise 0x0902 89 0xFFFF (j.client + j.frame *
      65536) else u))) :=
  ⟨⟨(withJob busy
    { aJob .running with checks := [⟨0, 3, 0, List.replicate 64 0, 0, List.replicate 64 false, List.replicate 64 false, List.replicate 64 (0, 0), List.replicate 64 0, false, false⟩] }),
    (0), (3), (0),
    ({ aJob .running with checks := [⟨0, 3, 0, List.replicate 64 0, 0, List.replicate 64 false, List.replicate 64 false, List.replicate 64 (0, 0), List.replicate 64 0, false, false⟩] }),
    (⟨0, 3, 0, List.replicate 64 0, 0, List.replicate 64 false, List.replicate 64 false, List.replicate 64 (0, 0),
    List.replicate 64 0, false, false⟩), rfl, by decide +kernel, by decide +kernel, by decide +kernel⟩,
    ⟨(withModels (withJob busy { aJob .judging with goldenArea := some (65536, 1) }) [(1,
      { aModel with inUse := 1, phases := [⟨0, 0, 0, true, false, false, 1, 0, 0, 256, 0, 0, 0, 0⟩], safe := some ⟨⟨0, 1⟩, ⟨1, 1⟩, 5⟩ })]),
      _, (1), ({ aJob .judging with goldenArea := some (65536, 1) }),
      ({ aModel with inUse := 1, phases := [⟨0, 0, 0, true, false, false, 1, 0, 0, 256, 0, 0, 0, 0⟩], safe := some ⟨⟨0, 1⟩, ⟨1, 1⟩, 5⟩ }),
      (⟨⟨0, 1⟩, ⟨1, 1⟩, 5⟩), by decide +kernel, by decide +kernel, by decide +kernel, by decide +kernel,
      by decide +kernel, by decide +kernel, by decide +kernel, rfl⟩,
    ⟨(withJob busy (aJob .testing)), _, _, (1), ([1]), _, ((aJob .testing)), by decide +kernel, by decide +kernel,
      rfl, rfl, rfl⟩⟩

/-- The hypotheses of O41 can be met, clause by clause. -/
theorem witness_O41 :
    (∃ (s : State) (u : Nat), (u < 8) ∧ ((s.umpire u).failed = false) ∧ ((s.umpire u).testing = false) ∧ (s.testsRun =
      true) ∧ (s.safeOn u = false) ∧ (s.soonReady = false)) ∧
    (∃ (s : State) (u : Nat), ((s.umpire u).testing = true) ∧ ((s.umpire u).segment < 15) ∧ ((s.umpire u).holdReq = false)) ∧
    (∃ (s : State) (u : Nat), ((s.umpire u).testing = true) ∧ ((s.umpire u).segment < 15) ∧ ((s.umpire u).holdReq = true)) ∧
    (∃ (s : State) (u : Nat), ((s.umpire u).testing = true) ∧ (15 ≤ (s.umpire u).segment)) ∧
    (∃ (s : State) (u : Nat), (u < 8) ∧ ((s.umpire u).failed = false) ∧ ((s.umpire u).testing = false) ∧ (s.testsRun =
      true) ∧ (s.since (s.intervalFrom u) (us 90000) = true)) ∧
    (∃ (s : State) (u : Nat), (u < 8) ∧ ((s.umpire u).failed = false) ∧ ((s.umpire u).stale = false) ∧ (s.pwr.state <
      2) ∧ (6 ≤ s.pwr.easyStep) ∧ (s.domOn 89 = true) ∧ (s.since (s.intervalFrom u) (us 100000) = true)) ∧
    (∃ (s : State) (u u' t n : Nat), (s.sched.gaps.find? (fun g => g.1 == u) = some (u', some t, n)) ∧ (s.since t n =
      true) ∧ (s.safeRuns = false)) :=
  ⟨⟨(up), (7), by decide +kernel, by decide +kernel, by decide +kernel, by decide +kernel, by decide +kernel,
    by decide +kernel⟩,
    ⟨({ up with  safe := { up.safe with umpires := vset up.safe.umpires 7 { vget ⟨false, false, false, 0, 0, 0, 0, false⟩ up.safe.umpires 7 with testing := true, segment := 14 } } }),
      (7), by decide +kernel, by decide +kernel, by decide +kernel⟩,
    ⟨({ up with  safe := { up.safe with umpires := vset up.safe.umpires 7 { vget ⟨false, false, false, 0, 0, 0, 0, false⟩ up.safe.umpires 7 with testing := true, segment := 14, holdReq := true } } }),
      (7), by decide +kernel, by decide +kernel, by decide +kernel⟩,
    ⟨({ up with  safe := { up.safe with umpires := vset up.safe.umpires 7 { vget ⟨false, false, false, 0, 0, 0, 0, false⟩ up.safe.umpires 7 with testing := true, segment := 15 } } }),
      (7), by decide +kernel, by decide +kernel⟩,
    ⟨(up), (7), by decide +kernel, by decide +kernel, by decide +kernel, by decide +kernel, by decide +kernel⟩,
    ⟨(up), (7), by decide +kernel, by decide +kernel, by decide +kernel, by decide +kernel, by decide +kernel,
      by decide +kernel, by decide +kernel⟩,
    ⟨({ up with sched := { up.sched with gaps := [(7, some 0, 4000)] } }), (7), (7), (0), (4000), by decide +kernel,
      by decide +kernel, by decide +kernel⟩⟩

/-- The hypotheses of O42 can be met, clause by clause. -/
theorem witness_O42 :
    (∃ (s s1 : State) (ty n : Nat), (n < unitCount ty) ∧ (s.usable ty n = true) ∧ (s.domOn (unitDomain ty n) = true) ∧
      (s1 = (if ty < 4 then s.charge ty n 4 else s)) ∧ (s1.retired ty n = true)) ∧
    (∃ (s s1 : State) (ty n : Nat), (n < unitCount ty) ∧ (s.usable ty n = true) ∧ (s.domOn (unitDomain ty n) = true) ∧
      (s1 = (if ty < 4 then s.charge ty n 4 else s)) ∧ (s1.retired ty n = false) ∧ (ty = 0)) ∧
    (∃ (s s1 : State) (ty n : Nat), (n < unitCount ty) ∧ (s.usable ty n = true) ∧ (s.domOn (unitDomain ty n) = true) ∧
      (s1 = (if ty < 4 then s.charge ty n 4 else s)) ∧ (s1.retired ty n = false) ∧ (ty = 1 ∨ ty = 2)) ∧
    (∃ (s s1 : State) (ty n : Nat), (n < unitCount ty) ∧ (s.usable ty n = true) ∧ (s.domOn (unitDomain ty n) = true) ∧
      (s1 = (if ty < 4 then s.charge ty n 4 else s)) ∧ (s1.retired ty n = false) ∧ (ty = 3)) ∧
    (∃ (s s1 : State) (ty n : Nat), (n < unitCount ty) ∧ (s.usable ty n = true) ∧ (s.domOn (unitDomain ty n) = true) ∧
      (s1 = (if ty < 4 then s.charge ty n 4 else s)) ∧ (s1.retired ty n = false) ∧ (3 < ty)) ∧
    (∃ (s : State) (ty n : Nat), s.probing ty n = true) ∧
    (∃ (s : State) (ty n : Nat), (s.probing ty n = true) ∧ (ty ≠ 4)) ∧
    (∃ (s : State) (n : Nat), s.probing 4 n = true) ∧
    (∃ (s : State) (ty n : Nat), (s.probing ty n = true) ∧ (s.since (s.unit ty n).since (us 1000) = true)) ∧
    (∃ (s : State) (ty n d : Nat), (d = unitDomain ty n) ∧ (n < unitCount ty) ∧ ((s.unit ty n).state = .retired) ∧
      ((s.unit ty n).confirmed = false) ∧ ((s.unit ty n).cause ≠ 9) ∧ (s.since (s.unit ty n).since (us 1000) = true) ∧
      (s.fault.dead.contains d = false) ∧ (d < 96) ∧ (d < 64)) :=
  ⟨⟨((up).modUnit 0 127 (fun u => { u with charges := [20000000000, 20000000000] })), _, (0), (127), by decide +kernel,
    by decide +kernel, by decide +kernel, rfl, by decide +kernel⟩,
    ⟨(up), _, (0), (127), by decide +kernel, by decide +kernel, by decide +kernel, rfl, by decide +kernel,
      by decide +kernel⟩,
    ⟨(up), _, (2), (7), by decide +kernel, by decide +kernel, by decide +kernel, rfl, by decide +kernel, (Or.inr rfl)⟩,
    ⟨(up), _, (3), (3), by decide +kernel, by decide +kernel, by decide +kernel, rfl, by decide +kernel, by decide +kernel⟩,
    ⟨(up), _, (6), (0), by decide +kernel, by decide +kernel, by decide +kernel, rfl, by decide +kernel, by decide +kernel⟩,
    ⟨((up).modUnit 0 127 (fun u => { u with state := .quarantined })), (0), (127), by decide +kernel⟩,
    ⟨((up).modUnit 0 127 (fun u => { u with state := .quarantined })), (0), (127), by decide +kernel, by decide +kernel⟩,
    ⟨((up).modUnit 4 255 (fun u => { u with state := .quarantined })), (255), by decide +kernel⟩,
    ⟨((up).modUnit 0 127 (fun u => { u with state := .quarantined })), (0), (127), by decide +kernel, by decide +kernel⟩,
    ⟨((up).modUnit 0 127 (fun u => { u with state := .retired })), (0), (127), _, rfl, by decide +kernel,
      by decide +kernel, by decide +kernel, by decide +kernel, by decide +kernel, by decide +kernel,
      by decide +kernel, by decide +kernel⟩⟩

/-- The hypotheses of O43 can be met, clause by clause. -/
theorem witness_O43 :
    (∃ (s : State), (s.watched = true) ∧ (s.fault.bridge.down = false) ∧ (s.fault.bridge.lost = false)) ∧
    (∃ (s u : State) (answers : List Byte), (s.fault.bridge.down = true) ∧ (s.since s.fault.bridge.since (us 1000) =
      false) ∧ (u =
      { s with fault := { s.fault with bridge := { s.fault.bridge with up := true, down := false }, units := s.fault.units.mapIdx (fun i x => if x.byBridge = true ∧ x.state = .quarantined then if byteAt answers i ≠ 0 then { x with state := .usable, fenced := false, byBridge := false } else { x with byBridge := false, since := s.time.half } else x) } }))
      ∧
    (∃ (s : State) (ty n : Nat), (s.fault.bridge.down = true) ∧ (s.since s.fault.bridge.since (us 1000) = true) ∧ (ty
      < 7) ∧ (n < unitCount ty)) :=
  ⟨⟨(up), by decide +kernel, by decide +kernel, by decide +kernel⟩,
    ⟨({ ((up).modUnit 0 0 (fun u => { u with state := .quarantined, byBridge := true })) with fault := { ((up).modUnit 0 0 (fun u => { u with state := .quarantined, byBridge := true })).fault with bridge := ⟨false, true, 0, true, 20000000000, false⟩ } }),
      _, ([1]), by decide +kernel, by decide +kernel, rfl⟩,
    ⟨({ ((up).modUnit 0 0 (fun u => { u with state := .quarantined, byBridge := true })) with fault := { ((up).modUnit 0 0 (fun u => { u with state := .quarantined, byBridge := true })).fault with bridge := ⟨false, true, 0, true, 5, false⟩ } }),
      (6), (0), by decide +kernel, by decide +kernel, by decide +kernel, by decide +kernel⟩⟩

/-- The hypotheses of O44 can be met, clause by clause. -/
theorem witness_O44 :
    (∃ (s : State) (d : Nat), (s.gating = true) ∧ (gateable d = true) ∧ (s.domOn d = true) ∧ (s.domIdle d = true) ∧
      (s.since (vget 0 s.pwr.lastWork d) (us s.pwr.idleUs) = true)) ∧
    (∃ (s s1 : State) (d : Nat), (s.pwr.waking.any (fun p => p.1 == d) = true) ∧ (s.fault.dead.contains d = false) ∧
      (s1 = ((s.setDom d true).touch d).modPwr (fun p => { p with waking := p.waking.filter (fun x => x.1 != d) })) ∧
      (d < 64)) ∧
    (∃ (s s1 : State) (d : Nat), (s.pwr.waking.any (fun p => p.1 == d) = true) ∧ (s.fault.dead.contains d = false) ∧
      (s1 = ((s.setDom d true).touch d).modPwr (fun p => { p with waking := p.waking.filter (fun x => x.1 != d) })) ∧
      (64 ≤ d)) :=
  ⟨⟨(up.modPwr (fun p => { p with state := 1 })), (94), by decide +kernel, by decide +kernel, by decide +kernel,
    by decide +kernel, by decide +kernel⟩,
    ⟨(up.modPwr (fun p => { p with waking := [(63, 0)] })), _, (63), by decide +kernel, by decide +kernel, rfl,
      by decide +kernel⟩,
    ⟨(up.modPwr (fun p => { p with waking := [(64, 0)] })), _, (64), by decide +kernel, by decide +kernel, rfl,
      by decide +kernel⟩⟩

/-- The hypotheses of O45 can be met, clause by clause. -/
theorem witness_O45 :
    (∃ (s : State) (e : Entry) (d d' : Nat) (a : Answer), (s.pwr.entry = some e) ∧ (e.agents.find? (fun x => x.1 == d)
      = some (d', a))) ∧
    (∃ (s : State) (e : Entry) (d d' t : Nat), (s.pwr.entry = some e) ∧ (e.agents.find? (fun x => x.1 == d) = some
      (d', .delay t)) ∧ (t ≤ s.time.half)) ∧
    (∃ (s : State) (e : Entry) (c w : Nat), (s.pwr.entry = some e) ∧ (e.passed = none) ∧ (e.answered = true) ∧
      (s.entryStop e = some (c, w))) ∧
    (∃ (s : State) (e : Entry), (s.pwr.entry = some e) ∧ (e.passed = none) ∧ (e.answered = true) ∧ (s.entryStop e =
      none) ∧ (e.stage < 3)) ∧
    (∃ (s : State) (e : Entry), (s.pwr.entry = some e) ∧ (e.passed = none) ∧ (e.answered = true) ∧ (s.entryStop e =
      none) ∧ (3 ≤ e.stage)) ∧
    (∃ (s u : State) (e : Entry) (t : Nat), (s.pwr.entry = some e) ∧ (e.passed = some t) ∧ ((e.target = 3 → s.since t
      (us 100) = true)) ∧ (u = (if e.target = 3 then s.enterMoored e else s.enterEasy e))) :=
  ⟨⟨((up : State).modPwr (fun p => { p with entry := some ⟨9, 2, 0, 0, [(89, .none)], none, none⟩ })), (⟨9, 2, 0, 0,
    [(89, .none)], none, none⟩), (89), (89), (.none), by decide +kernel, by decide +kernel⟩,
    ⟨((up : State).modPwr (fun p => { p with entry := some ⟨9, 2, 0, 0, [(89, .delay 5)], none, none⟩ })), (⟨9, 2, 0,
      0, [(89, .delay 5)], none, none⟩), (89), (89), (5), by decide +kernel, by decide +kernel, by decide +kernel⟩,
    ⟨((up : State).modPwr (fun p => { p with entry := some ⟨9, 2, 0, 0, [(76, .refuse)], none, none⟩ })), (⟨9, 2, 0,
      0, [(76, .refuse)], none, none⟩), (76), (0), by decide +kernel, by decide +kernel, by decide +kernel,
      by decide +kernel⟩,
    ⟨((up : State).modPwr (fun p => { p with entry := some ⟨9, 2, 0, 2, [], none, none⟩ })), (⟨9, 2, 0, 2, [], none,
      none⟩), by decide +kernel, by decide +kernel, by decide +kernel, by decide +kernel, by decide +kernel⟩,
    ⟨((up : State).modPwr (fun p => { p with entry := some ⟨9, 2, 0, 3, [], none, none⟩ })), (⟨9, 2, 0, 3, [], none,
      none⟩), by decide +kernel, by decide +kernel, by decide +kernel, by decide +kernel, by decide +kernel⟩,
    ⟨((up : State).modPwr (fun p => { p with entry := some ⟨9, 3, 0, 0, [], none, (some 5)⟩ })), _, (⟨9, 3, 0, 0, [],
      none, (some 5)⟩), (5), by decide +kernel, by decide +kernel, (fun _ => by decide +kernel), rfl⟩⟩

/-- The hypotheses of O46 can be met, clause by clause. -/
theorem witness_O46 :
    (∃ (s : State), s.pwr.timerAt ≤ s.elapsed) ∧
    (∃ (port : Nat), port < 4) ∧
    (∃ (s s1 : State) (b : Bool), s1 = s.modPwr (fun p =>
      { p with callTokens := (p.callTokens * 2 + b2n b) % 65536, callCount := min 16 (p.callCount + 1) })) ∧
    (∃ (s u : State), (s.pwr.easyStep = 1) ∧ (u = (s.modPwr (fun p => { p with easyStep := 2 })).powerUp [77, 88, 89,
      90, 91, 93, 94])) ∧
    (∃ (s : State), s.pwr.easyStep = 2) ∧
    (∃ (s : State), s.pwr.easyStep = 3) ∧
    (∃ (s : State), s.pwr.easyStep = 4) ∧
    (∃ (s : State), s.pwr.easyStep = 5) :=
  ⟨⟨(up), by decide +kernel⟩,
    ⟨(3), by decide +kernel⟩,
    ⟨(up), _, (true), rfl⟩,
    ⟨(up.modPwr (fun p => { p with easyStep := 1 })), _, by decide +kernel, rfl⟩,
    ⟨(up.modPwr (fun p => { p with easyStep := 2 })), by decide +kernel⟩,
    ⟨(up.modPwr (fun p => { p with easyStep := 3 })), by decide +kernel⟩,
    ⟨(up.modPwr (fun p => { p with easyStep := 4 })), by decide +kernel⟩,
    ⟨(up.modPwr (fun p => { p with easyStep := 5 })), by decide +kernel⟩⟩

/-- The hypotheses of O47 can be met, clause by clause. -/
theorem witness_O47 :
    (∃ (s : State) (c n : Nat), (c ≤ 5) ∧ (s.windowOk c n = true)) ∧
    (∃ (s u v : State) (c n : Nat), (c ≤ 5) ∧ (u =
      { s with clk := { s.clk with cands := vset s.clk.cands c ⟨0, false⟩ } }) ∧ (v = (if c = 0 ∧ (s.cand 0).stable =
      true then State.bump
      { u with time := { u.time with coarse := true }, clk := { u.clk with src := false, xtalLost := true, outs := u.clk.outs.map (fun o => { o with running := false }) } }
      xtalLossCtr 1 else if 2 ≤ c then u.chainClockLost (c - 2) else u)) ∧ (s.windowOk c n = false)) ∧
    (∃ (s u v : State) (c : Nat), (c ≤ 5) ∧ (u =
      { s with clk := { s.clk with cands := vset s.clk.cands c ⟨0, false⟩ } }) ∧ (v = (if c = 0 ∧ (s.cand 0).stable =
      true then State.bump
      { u with time := { u.time with coarse := true }, clk := { u.clk with src := false, xtalLost := true, outs := u.clk.outs.map (fun o => { o with running := false }) } }
      xtalLossCtr 1 else if 2 ≤ c then u.chainClockLost (c - 2) else u)) ∧ ((s.cand c).stable = true)) :=
  ⟨⟨(up), (5), (8192), by decide +kernel, by decide +kernel⟩,
    ⟨(up), _, _, (5), (0), by decide +kernel, rfl, rfl, by decide +kernel⟩,
    ⟨(up), _, _, (5), by decide +kernel, rfl, rfl, by decide +kernel⟩⟩

/-- The hypotheses of O48 can be met, clause by clause. -/
theorem witness_O48 :
    (∃ (s u v w : State) (est meas : Nat), (u = s.measure est meas) ∧ (v = (if u.cap.thermal = true then
      u.working.foldl State.lowerDomain u else u)) ∧ (w = { v with free := v.free + 1 })) ∧
    (∃ (s : State), (s.start.stage = .accepting) ∧ (s.since s.start.acceptedAt (us 400) = true)) ∧
    (∃ (s : State), ¬(s.start.stage = .accepting ∧ s.since s.start.acceptedAt (us 400) = true)) ∧
    (∃ (s : State), (s.cap.telem ≠ 3) ∧ (s.since s.cap.readAt (us 1000) = true)) ∧
    (∃ (s : State) (t : Nat), (s.cap.telem = 0) ∧ (s.cap.disagree = some t) ∧ (s.since t (us 5000) = true)) ∧
    (∃ (s : State) (t : Nat), (s.cap.telem ≠ 0) ∧ (s.cap.telem ≠ 3) ∧ (s.cap.agree = some t) ∧ (s.since t (us 100000)
      = true)) ∧
    (∃ (s : State) (t : Nat), (s.cap.telem = 3) ∧ (s.cap.valid = some t) ∧ (s.since t (us 100000) = true)) ∧
    (∃ (s : State), (s.cap.telem = 1) ∧ (s.since s.cap.mismatchFrom (us 1000000) = true)) ∧
    (∃ (d : Nat), d < 77) :=
  ⟨⟨(up), _, _, _, (0), (0), rfl, rfl, rfl⟩,
    ⟨(up), by decide +kernel, by decide +kernel⟩,
    ⟨(State.reset), by decide +kernel⟩,
    ⟨(up), by decide +kernel, by decide +kernel⟩,
    ⟨({ up with cap := { up.cap with disagree := some 5 } }), (5), by decide +kernel, by decide +kernel, by decide +kernel⟩,
    ⟨({ up with cap := { up.cap with telem := 2, agree := some 5 } }), (5), by decide +kernel, by decide +kernel,
      by decide +kernel, by decide +kernel⟩,
    ⟨({ up with cap := { up.cap with telem := 3, valid := some 5 } }), (5), by decide +kernel, by decide +kernel,
      by decide +kernel⟩,
    ⟨({ up with cap := { up.cap with telem := 1 } }), by decide +kernel, by decide +kernel⟩,
    ⟨(76), by decide +kernel⟩⟩

/-- The hypotheses of O49 can be met, clause by clause. -/
theorem witness_O49 :
    (∃ (s : State) (i : Nat) (h : Hint), (s.cap.hints[i]? = some h) ∧ (h.begun = false) ∧ (max (h.at_ - us 50) h.from_
      ≤ s.time.half)) ∧
    (∃ (s : State) (i : Nat) (h : Hint), (s.cap.hints[i]? = some h) ∧ (s.since h.at_ (us 1000) = true)) ∧
    (∃ (s : State) (d : Nat), (d < 77) ∧ (s.lockOf d ≠ 0) ∧ (s.domOn d = true)) ∧
    (∃ (d : Nat), d < 77) :=
  ⟨⟨({ up with cap := { up.cap with hints := [⟨20000000000, 5, 0, false⟩] } }), (0), (⟨20000000000, 5, 0, false⟩),
    by decide +kernel, by decide +kernel, by decide +kernel⟩,
    ⟨({ up with cap := { up.cap with hints := [⟨5, 5, 0, false⟩] } }), (0), (⟨5, 5, 0, false⟩), by decide +kernel,
      by decide +kernel⟩,
    ⟨({ up with cap := { up.cap with locked := vset up.cap.locked 76 120 } }), (76), by decide +kernel,
      by decide +kernel, by decide +kernel⟩,
    ⟨(76), by decide +kernel⟩⟩

/-- The hypotheses of O50 can be met, clause by clause. -/
theorem witness_O50 :
    (∃ (s : State), (s.pwr.state ≠ 3) ∧ (s.cap.sag = 0)) ∧
    (∃ (s : State), (s.pwr.state ≠ 3) ∧ (s.cap.sag ≠ 0)) ∧
    (∃ (s : State), s.pwr.state = 3) ∧
    (∃ (s : State), (s.pwr.state ≠ 3) ∧ (s.cap.sag = 1)) ∧
    (∃ (s s1 : State) (d : Nat), (s.cap.sag = 2) ∧ (s.since s.cap.confirmAt (us 1000) = true) ∧ ((d, s1) = s.roundDiv
      (s.cap.confirmAt - s.cap.dipAt) 2000)) ∧
    (∃ (s : State), s.pwr.state ≠ 3) ∧
    (∃ (s : State), s.pwr.state = 3) :=
  ⟨⟨(up), by decide +kernel, by decide +kernel⟩,
    ⟨({ up with cap := { up.cap with sag := 2 } }), by decide +kernel, by decide +kernel⟩,
    ⟨(up.modPwr (fun p => { p with state := 3 })), by decide +kernel⟩,
    ⟨({ up with cap := { up.cap with sag := 1 } }), by decide +kernel, by decide +kernel⟩,
    ⟨({ up with cap := { up.cap with sag := 2 } }), _, _, by decide +kernel, by decide +kernel, pair_eta _⟩,
    ⟨(up), by decide +kernel⟩,
    ⟨(up.modPwr (fun p => { p with state := 3 })), by decide +kernel⟩⟩

/-- The hypotheses of O51 can be met, clause by clause. -/
theorem witness_O51 :
    (∃ (r : Nat), r < 11) ∧
    (∃ (r : Nat), r < 11) ∧
    (∃ (s : State), s.start.stage = .filter) ∧
    (∃ (s u v : State) (a b : Bool), (s.start.stage = .released) ∧ (u =
      { s with cox := { s.cox with version := if a = true then s.cox.current.version else if b = true ∧ s.cox.previous.version ≠ 0 then s.cox.previous.version else 0, bootFallback := !a && (b && s.cox.previous.version != 0), rom := !a && !(b && s.cox.previous.version != 0) }, start := { s.start with stage := .accepting, count := min (s.start.count + 1) 0xFFFF, acceptedAt := s.time.half }, store := { s.store with lapStart := s.time.half, t0LapStart := s.time.half, t0Members := Vector.replicate 128 true }, fault := { s.fault with bridge := { s.fault.bridge with watch := true, watchAt := s.start.t0 + us 400 } }, port := { s.port with releasedEarly := false } })
      ∧ (v = (if s.port.releasedEarly = true then (u.raise 0x0101 90 0 s.start.cause).raise 0x0102 92 0 0 else u.raise
      0x0101 90 0 s.start.cause))) ∧
    (∃ (s : State) (m : Nat), (s.start.stage = .accepting) ∧ (s.milestoneReady m = true) ∧ (s.reached m = false)) ∧
    (∃ (s : State) (v : Nat), ((s.cox.standby = 1 ∨ s.cox.standby = 2)) ∧ (v =
      (match s.cox.staged with | some i => i.version | none => s.cox.version))) :=
  ⟨⟨(10), by decide +kernel⟩,
    ⟨(10), by decide +kernel⟩,
    ⟨(State.reset.modStart (fun x => { x with stage := .filter })), by decide +kernel⟩,
    ⟨(State.reset.modStart (fun x => { x with stage := .released })), _, _, (false), (false), by decide +kernel, rfl, rfl⟩,
    ⟨(up.modStart (fun x => { x with reached := 1 })), (1), by decide +kernel, by decide +kernel, by decide +kernel⟩,
    ⟨(up), _, by decide +kernel, rfl⟩⟩

/-- The hypotheses of O52 can be met, clause by clause. -/
theorem witness_O52 :
    (∃ (i : Instr) (t th w : Nat), (i.wf = true) ∧ (threadWordOf i = some (t, th, w))) ∧
    (∃ (i j : Instr) (t th w : Nat), (i.wf = true) ∧ (j.wf = true) ∧ (threadWordOf i = some (t, th, w)) ∧
      (threadWordOf j = some (t, th, w))) ∧
    (∃ (t th w : Nat) (i : Instr), (t < 128) ∧ (th < 128) ∧ (w < 2 ^ 64) ∧ (listedInstrOf t th w = some i)) ∧
    (∃ (w : Nat), (bits w 25 23 ≠ 0 ∨ bits w 7 0 = 0 ∨ (0x0A < bits w 7 0 ∧ bits w 7 0 < 0x10) ∨ 0x12 < bits w 7 0)) ∧
    (∃ (s : State) (t th : Nat), s.canIssue t th = true) :=
  ⟨⟨(.aluReg 127 127 10 31 31 31), (127), (127), _, by decide +kernel, rfl⟩,
    ⟨(.aluReg 127 127 10 31 31 31), (.aluReg 127 127 10 31 31 31), (127), (127), _, by decide +kernel,
      by decide +kernel, rfl, rfl⟩,
    ⟨(127), (127), (threadFields 0x04 0 0 0 2 0xFFFFFFFF), (.branch 127 127 2 0xFFFFFFFF), by decide +kernel,
      by decide +kernel, by decide +kernel, by decide +kernel⟩,
    ⟨(2 ^ 23), by decide +kernel⟩,
    ⟨(busy), (0), (0), by decide +kernel⟩⟩

/-- The hypotheses of O54 can be met, clause by clause. -/
theorem witness_O54 :
    ∃ (s t : State), (s.memoryOk) ∧ (step s = .next t) :=
  ⟨(State.reset), _, by unfold State.memoryOk; decide +kernel, rfl⟩

/-- The hypotheses of O55 can be met, clause by clause. -/
theorem witness_O55 :
    (∃ (s u : State) (t th mod ra rb imm a x : Nat), (s.memoryOk) ∧ (s.canIssue t th = true) ∧ (mod < 4) ∧ (s.access t
      th (((s.tile t).thread th).effAddr ra imm) (2 ^ mod) (2 ^ mod) true = .ok a) ∧ ((a < tileBlock t ∨ tileBlock t +
      0x1000 ≤ a)) ∧ (exec (.store t th mod ra rb imm) s = .next u) ∧ (isT0 a = true) ∧ (a / t0TileSize = t) ∧ ((x < a
      ∨ a + 2 ^ mod ≤ x))) ∧
    (∃ (s u : State) (t th mod ra rb imm a x : Nat), (s.memoryOk) ∧ (s.canIssue t th = true) ∧ (mod < 4) ∧ (s.access t
      th (((s.tile t).thread th).effAddr ra imm) (2 ^ mod) (2 ^ mod) true = .ok a) ∧ ((a < tileBlock t ∨ tileBlock t +
      0x1000 ≤ a)) ∧ (exec (.store t th mod ra rb imm) s = .next u) ∧ (isT0 a = true) ∧ (a / t0TileSize = t) ∧ ((x / 8
      * 8 + 8 ≤ a ∨ a + 2 ^ mod ≤ x / 8 * 8)) ∧ (s.flawOf (x / 64 * 64) = [])) ∧
    (∃ (s u : State) (t th mod ra rb imm a : Nat), (s.memoryOk) ∧ (s.canIssue t th = true) ∧ (mod < 4) ∧ (s.access t
      th (((s.tile t).thread th).effAddr ra imm) (2 ^ mod) (2 ^ mod) true = .ok a) ∧ ((a < tileBlock t ∨ tileBlock t +
      0x1000 ≤ a)) ∧ (exec (.store t th mod ra rb imm) s = .next u) ∧ (¬(isT0 a = true ∧ a / t0TileSize = t))) ∧
    (∃ (s u : State) (t th rd ra imm a x : Nat) (l : List (Nat × Nat)), (s.memoryOk) ∧ (s.canIssue t th = true) ∧
      (s.access t th (((s.tile t).thread th).effAddr ra imm) 256 64 true = .ok a) ∧ (s.pieces t (((s.tile t).thread
      th).effAddr ra imm).1 256 true = .ok l) ∧ (exec (.vectorStore t th rd ra imm) s = .next u) ∧ ((∀ p ∈ l, isT0 p.1
      = true → p.1 / t0TileSize = t → x < p.1 ∨ p.1 + p.2 ≤ x))) ∧
    (∃ (s u : State) (t th rd ra imm a : Nat) (l : List (Nat × Nat)), (s.memoryOk) ∧ (s.canIssue t th = true) ∧
      (s.access t th (((s.tile t).thread th).effAddr ra imm) 256 64 true = .ok a) ∧ (s.pieces t (((s.tile t).thread
      th).effAddr ra imm).1 256 true = .ok l) ∧ (exec (.vectorStore t th rd ra imm) s = .next u) ∧ ((∀ p ∈ l, ¬(isT0
      p.1 = true ∧ p.1 / t0TileSize = t)))) ∧
    (∃ (s u : State) (q k x : Nat) (c : Cmd), (s.memoryOk) ∧ (s.runs 0x0104 q k c) ∧ (c.p 0 2 = 0x0019) ∧ (s.destOk
      (c.p 2 8) 1120 = true) ∧ ((∀ i, i < 1120 → s.kindOf (c.p 2 8 + i) = .sram)) ∧ (isT1 (c.p 2 8) = false) ∧ (exec
      (.sysStatus q k) s = .next u) ∧ ((x < c.p 2 8 ∨ c.p 2 8 + 1120 ≤ x))) :=
  ⟨⟨(busy.modThread 0 0 (fun h => (h.setX 1 64 false).setX 3 5 false)), _, (0), (0), (3), (1), (3), (0), (64), (0),
    by unfold State.memoryOk; decide +kernel, by decide +kernel, by decide +kernel, ok_is (by decide +kernel),
    by decide +kernel, rfl, by decide +kernel, by decide +kernel, (Or.inl (by decide +kernel))⟩,
    ⟨(busy.modThread 0 0 (fun h => (h.setX 1 64 false).setX 3 5 false)), _, (0), (0), (3), (1), (3), (0), (64), (128),
      by unfold State.memoryOk; decide +kernel, by decide +kernel, by decide +kernel, ok_is (by decide +kernel),
      by decide +kernel, rfl, by decide +kernel, by decide +kernel, (Or.inr (by decide +kernel)), by decide +kernel⟩,
    ⟨(x1 268435448), _, (0), (0), (3), (1), (3), (0), (268435448), by unfold State.memoryOk; decide +kernel,
      by decide +kernel, by decide +kernel, ok_is (by decide +kernel), by decide +kernel, rfl, by decide +kernel⟩,
    ⟨(x1 64), _, (0), (0), (2), (1), (0), (64), (0), ([(64, 256)]), by unfold State.memoryOk; decide +kernel,
      by decide +kernel, ok_is (by decide +kernel), ok_is (by decide +kernel), rfl, by decide +kernel⟩,
    ⟨(x1 268435200), _, (0), (0), (2), (1), (0), (268435200), ([(268435200, 256)]),
      by unfold State.memoryOk; decide +kernel, by decide +kernel, ok_is (by decide +kernel), ok_is
      (by decide +kernel), rfl, by decide +kernel⟩,
    ⟨(wc (up) (mk 0x0104 [(25, 2), (9895604654080, 8)])), _, 0, 0, (0), (mk 0x0104 [(25, 2), (9895604654080, 8)]),
      by unfold State.memoryOk; decide +kernel, by unfold State.runs; decide +kernel, by decide +kernel,
      by decide +kernel, by decide +kernel, by decide +kernel, rfl, by decide +kernel⟩⟩

/-- The hypotheses of O56 can be met, clause by clause. -/
theorem witness_O56 :
    (∃ (s u : State) (t th mod rd ra rb imm : Nat) (i : Instr) (t' : Nat), (s.canIssue t th = true) ∧ (((i = .aluReg t
      th mod rd ra rb ∧ mod < 11) ∨ (i = .aluImm t th mod rd ra imm ∧ mod < 11) ∨ (i = .compare t th mod ra rb ∧ mod <
      6) ∨ (i = .branch t th mod imm ∧ mod < 3 ∧ (mod = 0 ∨ ((s.tile t).thread th).flagP = false)))) ∧ (exec i s =
      .next u) ∧ (t' ≠ t)) ∧
    (∃ (s u : State) (t th mod rd ra rb imm : Nat) (i : Instr) (th' : Nat), (s.canIssue t th = true) ∧ (((i = .aluReg
      t th mod rd ra rb ∧ mod < 11) ∨ (i = .aluImm t th mod rd ra imm ∧ mod < 11) ∨ (i = .compare t th mod ra rb ∧ mod
      < 6) ∨ (i = .branch t th mod imm ∧ mod < 3 ∧ (mod = 0 ∨ ((s.tile t).thread th).flagP = false)))) ∧ (exec i s =
      .next u) ∧ (th' ≠ th)) ∧
    (∃ (s u : State) (t th mod rd ra rb imm : Nat) (i : Instr) (r : Nat), (s.canIssue t th = true) ∧ (((i = .aluReg t
      th mod rd ra rb ∧ mod < 11) ∨ (i = .aluImm t th mod rd ra imm ∧ mod < 11) ∨ (i = .compare t th mod ra rb ∧ mod <
      6) ∨ (i = .branch t th mod imm ∧ mod < 3 ∧ (mod = 0 ∨ ((s.tile t).thread th).flagP = false)))) ∧ (exec i s =
      .next u) ∧ (r < 32) ∧ (r ≠ rd ∨ r = 0 ∨ i = .compare t th mod ra rb ∨ i = .branch t th mod imm)) ∧
    (∃ (s u : State) (t th mod rd ra rb imm : Nat) (i : Instr), (s.canIssue t th = true) ∧ (((i = .aluReg t th mod rd
      ra rb ∧ mod < 11) ∨ (i = .aluImm t th mod rd ra imm ∧ mod < 11) ∨ (i = .compare t th mod ra rb ∧ mod < 6) ∨ (i =
      .branch t th mod imm ∧ mod < 3 ∧ (mod = 0 ∨ ((s.tile t).thread th).flagP = false)))) ∧ (exec i s = .next u) ∧ (i
      ≠ .compare t th mod ra rb)) :=
  ⟨⟨(x1 64), _, (0), (0), (0), (2), (1), (3), (0), (.compare 0 0 0 1 3), (127), by decide +kernel, Or.inr (Or.inr
    (Or.inl ⟨rfl, by decide⟩)), rfl, by decide +kernel⟩,
    ⟨(x1 64), _, (0), (0), (0), (2), (1), (3), (0), (.compare 0 0 0 1 3), (127), by decide +kernel, Or.inr (Or.inr
      (Or.inl ⟨rfl, by decide⟩)), rfl, by decide +kernel⟩,
    ⟨(x1 64), _, (0), (0), (0), (2), (1), (3), (0), (.compare 0 0 0 1 3), (31), by decide +kernel, Or.inr (Or.inr
      (Or.inl ⟨rfl, by decide⟩)), rfl, by decide +kernel, by decide +kernel⟩,
    ⟨(x1 64), _, (0), (0), (0), (2), (1), (3), (0), (.branch 0 0 0 0), by decide +kernel, Or.inr (Or.inr (Or.inr ⟨rfl, by decide, Or.inl rfl⟩)), rfl, by intro h; cases h⟩⟩

/-- The hypotheses of O57 can be met, clause by clause. -/
theorem witness_O57 :
    ∃ (q : List QEntry), q.Pairwise (fun a b => a.f < b.f ∨ (a.f = b.f ∧ (a.g < b.g ∨ (a.g = b.g ∧ a.idx ≤ b.idx)))) :=
  ⟨([]), by decide +kernel⟩

/-- The hypotheses of O58 can be met, clause by clause. -/
theorem witness_O58 :
    (∃ (s : State) (t th mod ra imm a n : Nat), (s.canIssue t th = true) ∧ (mod < 16) ∧ (n ∈ [1, 2, 4, 8]) ∧ (n = 2 ^
      (mod % 4)) ∧ (((s.tile t).thread th).effAddr ra imm = (a, false)) ∧ (a % n ≠ 0)) ∧
    (∃ (s : State) (t th mod ra imm a n : Nat) (v : State), (s.canIssue t th = true) ∧ (mod < 16) ∧ (n ∈ [1, 2, 4, 8])
      ∧ (n = 2 ^ (mod % 4)) ∧ (((s.tile t).thread th).effAddr ra imm = (a, false)) ∧ (a % n = 0) ∧ (s.access t th (a,
      false) n n false = .error v)) ∧
    (∃ (s : State) (t th mod ra imm a n : Nat), (s.canIssue t th = true) ∧ (mod < 4) ∧ (n ∈ [1, 2, 4, 8]) ∧ (n = 2 ^
      mod) ∧ (((s.tile t).thread th).effAddr ra imm = (a, false)) ∧ (a % n ≠ 0)) ∧
    (∃ (s : State) (t th mod ra imm a n : Nat) (v : State), (s.canIssue t th = true) ∧ (mod < 4) ∧ (n ∈ [1, 2, 4, 8])
      ∧ (n = 2 ^ mod) ∧ (((s.tile t).thread th).effAddr ra imm = (a, false)) ∧ (a % n = 0) ∧ (s.access t th (a, false)
      n n true = .error v)) ∧
    (∃ (s : State) (t th ra imm a : Nat), (s.canIssue t th = true) ∧ (((s.tile t).thread th).effAddr ra imm = (a,
      false)) ∧ (a % 64 ≠ 0)) ∧
    (∃ (s : State) (t th ra imm a : Nat) (v : State), (s.canIssue t th = true) ∧ (((s.tile t).thread th).effAddr ra
      imm = (a, false)) ∧ (a % 64 = 0) ∧ (s.access t th (a, false) 256 64 true = .error v)) :=
  ⟨⟨(x1 63), (0), (0), (11), (1), (0), (63), (8), by decide +kernel, by decide +kernel, by decide +kernel,
    by decide +kernel, by decide +kernel, by decide +kernel⟩,
    ⟨(x1 275414777856), (0), (0), (11), (1), (0), (275414777856), (8), _, by decide +kernel, by decide +kernel,
      by decide +kernel, by decide +kernel, by decide +kernel, by decide +kernel, rfl⟩,
    ⟨(x1 63), (0), (0), (3), (1), (0), (63), (8), by decide +kernel, by decide +kernel, by decide +kernel,
      by decide +kernel, by decide +kernel, by decide +kernel⟩,
    ⟨(x1 275414777856), (0), (0), (3), (1), (0), (275414777856), (8), _, by decide +kernel, by decide +kernel,
      by decide +kernel, by decide +kernel, by decide +kernel, by decide +kernel, rfl⟩,
    ⟨(x1 63), (0), (0), (1), (0), (63), by decide +kernel, by decide +kernel, by decide +kernel⟩,
    ⟨(x1 275414777856), (0), (0), (1), (0), (275414777856), _, by decide +kernel, by decide +kernel, by decide +kernel, rfl⟩⟩

/-- The hypotheses of O59 can be met, clause by clause. -/
theorem witness_O59 :
    (∃ (a : Nat), isSram a = true) ∧
    (∃ (a : Nat), isSram a = true) ∧
    (∃ (s : State), s.pwr.state ≠ 3) ∧
    (∃ (s : State), s.pwr.state = 3) ∧
    (∃ (s : State), (s.pwr.state = 3) ∧ (s.pwr.entry = none) ∧ (bit s.pwr.wakeEnabled 2 ≠ 0)) :=
  ⟨⟨(windowBase 1), by decide +kernel⟩,
    ⟨(windowBase 1), by decide +kernel⟩,
    ⟨(up), by decide +kernel⟩,
    ⟨(up.modPwr (fun p => { p with state := 3 })), by decide +kernel⟩,
    ⟨(up.modPwr (fun p => { p with state := 3, wakeEnabled := 4 })), by decide +kernel, by decide +kernel,
      by decide +kernel⟩⟩

/-- The hypotheses of O60 can be met, clause by clause. -/
theorem witness_O60 :
    ∃ (s : State) (r : Nat), (r < 11) ∧ (r ≠ 2) ∧ (s.start.stage = .accepting) ∧ (s.start.railsEn = true) :=
  ⟨(up), (10), by decide +kernel, by decide +kernel, by decide +kernel, by decide +kernel⟩

end Sys2Proof.Tests
end

section
/-! PROOFS. The die bridge (O43): what its loss retires, and its events. -/

namespace Sys2Proof.Proofs

open Sys2Proof.Machine Sys2Proof.Laws

/-! ### Units retired by the die bridge -/

/-- Every unit has its entry among the 445 of R444. -/
theorem unitBase_add_lt {ty n : Nat} (h : n < unitCount ty) : unitBase ty + n < 445 := by
  unfold unitCount at h
  unfold unitBase
  split at h <;> omega

/-- A unit's record after its own change. -/
theorem unit_modUnit_self (s : State) {ty n : Nat} (f : UnitRec → UnitRec) (h : n < unitCount ty) :
    (s.modUnit ty n f).unit ty n = f (s.unit ty n) := by
  simp [State.modUnit, State.unit, h, vget_vmod_self _ _ _ _ (unitBase_add_lt h)]

/-- A unit's record after any unit's change is what it was, or is changed so. -/
theorem unit_modUnit_cases (s : State) (ty n ty' n' : Nat) (f : UnitRec → UnitRec) :
    (s.modUnit ty' n' f).unit ty n = s.unit ty n ∨ (s.modUnit ty' n' f).unit ty n = f (s.unit ty n) := by
  unfold State.modUnit
  split
  · unfold State.unit
    split
    · rw [vget_vmod]
      split
      · exact .inr rfl
      · exact .inl rfl
    · exact .inl rfl
  · exact .inl rfl

/-- A change that retires whatever it meets leaves a retired unit retired, whichever unit it is made to. -/
theorem retired_modUnit {s : State} {ty n : Nat} (ty' n' : Nat) {f : UnitRec → UnitRec} (hf : ∀ u, (f u).state = .retired)
    (h : s.retired ty n = true) : (s.modUnit ty' n' f).retired ty n = true := by
  rcases unit_modUnit_cases s ty n ty' n' f with e | e
  · rwa [State.retired, e]
  · rw [State.retired, e, hf]
    rfl

/-- The table of units is all that tells which are retired. -/
theorem retired_congr {s t : State} (h : t.fault.units = s.fault.units) (ty n : Nat) : t.retired ty n = s.retired ty n := by
  simp only [State.retired, State.unit, h]

/-- What the bridge's record holds does not tell which units are retired. -/
theorem retired_setBridge (s : State) (b : BridgeSt) (ty n : Nat) :
    ({ s with fault := { s.fault with bridge := b } } : State).retired ty n = s.retired ty n := rfl

/-- A retirement under R11 changes the unit's record alone in the table of units: it recovers nothing. -/
theorem retire_bridge_fault {s : State} {ty n : Nat} (h : ¬(unitCount ty ≤ n ∨ s.retired ty n = true)) :
    ∃ f : UnitRec → UnitRec, (∀ u, (f u).state = .retired) ∧ (s.retire ty n 9).fault = (s.modUnit ty n f).fault := by
  unfold State.retire
  rw [if_neg h, if_pos rfl, raise_fault, bump_fault]
  exact ⟨_, fun _ => rfl, rfl⟩

/-- A unit retired under R11 is retired. -/
theorem retire_bridge_retired (s : State) {ty n : Nat} (hn : n < unitCount ty) : (s.retire ty n 9).retired ty n = true := by
  by_cases h : unitCount ty ≤ n ∨ s.retired ty n = true
  · rw [State.retire, if_pos h]
    exact h.resolve_left (by omega)
  · obtain ⟨f, hf, e⟩ := retire_bridge_fault h
    rw [retired_congr (congrArg FaultSt.units e), State.retired, unit_modUnit_self s f hn, hf]
    rfl

/-- A retirement under R11 leaves every retired unit retired. -/
theorem retire_bridge_keeps {s : State} {ty n : Nat} (ty' n' : Nat) (hr : s.retired ty n = true) :
    (s.retire ty' n' 9).retired ty n = true := by
  by_cases h : unitCount ty' ≤ n' ∨ s.retired ty' n' = true
  · rwa [State.retire, if_pos h]
  · obtain ⟨f, hf, e⟩ := retire_bridge_fault h
    rw [retired_congr (congrArg FaultSt.units e)]
    exact retired_modUnit ty' n' hf hr

/-- Retiring a list of units under R11 leaves those of the list retired, and those that were. -/
theorem foldl_retire_bridge {ty n : Nat} (hn : n < unitCount ty) (l : List (Nat × Nat)) (s : State)
    (h : (ty, n) ∈ l ∨ s.retired ty n = true) : (l.foldl (fun s x => s.retire x.1 x.2 9) s).retired ty n = true := by
  induction l generalizing s with
  | nil => simpa using h
  | cons x t ih =>
    refine ih _ ?_
    rcases h with h | h
    · rcases List.mem_cons.mp h with rfl | h
      · exact .inr (retire_bridge_retired s hn)
      · exact .inl h
    · exact .inr (retire_bridge_keeps x.1 x.2 h)

/-- The table of units names every unit. -/
theorem mem_allUnits {ty n : Nat} (ht : ty < 7) (hn : n < unitCount ty) : (ty, n) ∈ allUnits :=
  List.mem_flatMap.mpr ⟨ty, List.mem_range.mpr ht, List.mem_map.mpr ⟨n, List.mem_range.mpr hn, rfl⟩⟩

/-- The state in which the die bridge is lost: every unit retired under R11, before the work is torn down. -/
def bridgeLost (s : State) : State :=
  let t := allUnits.foldl (fun s x => s.retire x.1 x.2 9) s
  { t with fault := { t.fault with bridge := { t.fault.bridge with down := false, lost := true } } }

/-- With the die bridge lost every unit is retired. -/
theorem bridgeLost_retired (s : State) {ty n : Nat} (ht : ty < 7) (hn : n < unitCount ty) : (bridgeLost s).retired ty n = true := by
  rw [bridgeLost, retired_setBridge]
  exact foldl_retire_bridge hn allUnits s (.inl (mem_allUnits ht hn))

/-! ### The events -/

/-- A bridge down for 1 ms is lost, and the work that needs it is torn down (R11). -/
theorem exec_dieBridgeRetrainTimeout {s : State} (hd : s.fault.bridge.down = true) (ht : s.since s.fault.bridge.since (us 1000) = true) :
    exec .dieBridgeRetrainTimeout s = .next (bridgeLost s).loseDie.answerProbes :=
  congrArg Host.Outcome.next (if_pos (by simp [hd, ht]))

/-- Settles O43: each event takes its one branch; at the timeout every unit has been retired in turn. -/
theorem dieBridgeCompletes : Obligations.DieBridgeCompletes := by
  unfold Obligations.DieBridgeCompletes
  refine ⟨?silence, ?watched, ?restored, ?timeout⟩
  case silence =>
    intro s hw hd hl
    exact congrArg Host.Outcome.next (if_pos (by simp [hw, hd, hl]))
  case watched =>
    intro s
    simp [State.watched, and_assoc]
  case restored =>
    rintro s u answers hd ht rfl
    exact congrArg Host.Outcome.next (if_pos (by simp [hd, ht]))
  case timeout =>
    intro s hd ht
    exact ⟨_, bridgeLost s, exec_dieBridgeRetrainTimeout hd ht, rfl, rfl, rfl, fun _ _ hty hn => bridgeLost_retired s hty hn⟩

end Sys2Proof.Proofs
end

section
/-! PROOFS. The fusion engine's events (O37). -/

namespace Sys2Proof.Proofs

open Sys2Proof.Machine

/-- The instant for which the cox writes a record: the oldest open one, else the next the lead would have formed. -/
def recordInstant (s : State) : Instant :=
  match s.fuse.instants with
  | k :: _ => k
  | [] => ⟨s.fuse.nextInstant, s.fuse.tLast + s.leadPeriod, true⟩

/-- The two cases of O37 under which the cox writes a record name that instant. -/
theorem recordInstant_eq {s : State} {k : Instant} (h : (∃ rest, s.fuse.instants = k :: rest) ∨
    (s.fuse.instants = [] ∧ k = ⟨s.fuse.nextInstant, s.fuse.tLast + s.leadPeriod, true⟩)) : recordInstant s = k := by
  rcases h with ⟨rest, h⟩ | ⟨h, rfl⟩ <;> simp only [recordInstant, h]

/-- Settles O37: each event takes its one branch. -/
theorem fusionEventsComplete : Obligations.FusionEventsComplete := by
  unfold Obligations.FusionEventsComplete
  refine ⟨?slot, ?slotHeld, ?coasted, ?close, ?degraded⟩
  case slot =>
    rintro s _ i _ _ _ _ rfl rfl rfl rfl hen hcf hlg hi hrun hheld hrdy rfl
    simp only [exec, execInputSlotReady]
    rw [if_neg (by simp [hen, hcf, hlg, hrun, hi]), if_neg (by simp [hheld]), if_neg (by rw [hrdy]; decide)]
  case slotHeld =>
    rintro s i _ _ _ rfl rfl rfl hen hcf hlg hi hrun hheld
    simp only [exec, execInputSlotReady]
    rw [if_neg (by simp [hen, hcf, hlg, hrun, hi]), if_pos hheld]
  case coasted =>
    intro s hen hst hrun hlate
    exact congrArg Host.Outcome.next (if_pos (by simp [hen, hst, hrun, hlate]))
  case close =>
    intro s k rest hk hen hrun hready
    have ready : ((s.dueList k.n).all (fun i => (s.pairedAt k.n i).isSome) || decide (s.closeDeadline k ≤ (s.elapsed : Int))) = true := by
      simpa using hready
    simp only [exec, execInstantClose, hk]
    rw [if_pos (by simp only [hen, hrun, ready, Bool.and_self])]
  case degraded =>
    rintro s _ _ k haway hst hk hdue rfl rfl
    obtain rfl := recordInstant_eq hk
    refine congrArg Host.Outcome.next ((if_pos (by simp [haway, hst])).trans ((if_neg (not_lt.mpr hdue)).trans ?_))
    simp only [Bool.and_eq_true]
    rfl

end Sys2Proof.Proofs
end

section
/-! PROOFS. The events of the joint chains (O38). -/

namespace Sys2Proof.Proofs

open Sys2Proof.Machine

/-- Settles O38: each event takes its one branch. -/
theorem chainEventsComplete : Obligations.ChainEventsComplete := by
  unfold Obligations.ChainEventsComplete
  refine ⟨?sample, ?straddling, ?returned, ?cutoff, ?fallback, ?stops, ?feedForward⟩
  case sample =>
    rintro s _ _ _ _ c _ hrun hon hdue rfl rfl rfl rfl rfl
    exact congrArg Host.Outcome.next (if_pos ⟨hrun, hon, hdue⟩)
  case straddling =>
    rintro s c n _ frame hc hon rfl hstr hm
    refine congrArg Host.Outcome.next ((if_pos ⟨hc, hon⟩).trans ((if_pos ?_).trans ?_))
    · simp only [hstr, hm]
    · simp only [hstr, Option.some.injEq]
  case returned =>
    rintro s _ c _ frame hc hon rfl hno rfl
    refine congrArg Host.Outcome.next ((if_pos ⟨hc, hon⟩).trans ((if_neg ?_).trans ?_))
    · cases h : (s.chain c).straddle with
      | none => simp
      | some n => simp [hno n h]
    · simp only [Bool.and_eq_true, Bool.not_eq_true', and_assoc]
  case cutoff =>
    rintro s _ c part hrun hbeg hcut rfl
    refine congrArg Host.Outcome.next ((if_pos ⟨hrun, hbeg, hcut⟩).trans ?_)
    simp only [Bool.and_eq_true, Bool.not_eq_true']
  case fallback =>
    rintro s _ c hrun hclk hallow rfl
    exact congrArg Host.Outcome.next ((if_pos ⟨hrun, hclk⟩).trans (if_pos hallow))
  case stops =>
    rintro s _ _ _ c hrun hclk hallow rfl rfl rfl
    exact congrArg Host.Outcome.next ((if_pos ⟨hrun, hclk⟩).trans (if_neg (Bool.eq_false_iff.mp hallow)))
  case feedForward =>
    rintro s _ c _ f rest _ _ _ hf hc rfl rfl rfl rfl rfl
    simp only [exec, execFfCommit, hf]
    rw [if_neg (not_not_intro hc)]
    cases (s.chain c).seq <;>
      simp only [Bool.and_eq_true, Bool.or_eq_true, Bool.not_eq_true', beq_iff_eq, decide_eq_true_eq, and_assoc]

end Sys2Proof.Proofs
end

section
/-! PROOFS. The completion of a start dates the probes of the quarantined units, which O51 leaves out. -/

namespace Sys2Proof.Proofs

open Sys2Proof.Machine Sys2Proof.Laws

/-- At the start's completion the time of every quarantined unit's probe begins (R438, R498). -/
theorem startComplete_units {s : State} (a b : Bool) (h : s.start.stage = .released) :
    ∃ t : State, exec (.startComplete a b) s = .next t ∧
      t.fault.units = s.fault.units.map (fun x => if x.state = .quarantined then { x with since := s.time.half } else x) := by
  refine ⟨_, congrArg Host.Outcome.next (if_pos h), ?_⟩
  simp only [apply_ite State.fault, raise_fault, ite_self, modStart_fault, modCox_fault]

/-- A machine half a nanosecond after power was applied, out of reset, with a unit whose quarantine dates from before. -/
def releasedQuarantined : State :=
  { State.reset with
    time := { State.reset.time with half := 1 }
    start := { State.reset.start with stage := .released }
    fault := { State.reset.fault with units := vset State.reset.fault.units 0 { UnitRec.reset with state := .quarantined } } }

/-- Refutes O51: its clause on the start's completion keeps every unit's record, and the model dates the probes of quarantined units from
that moment: of unit 0 of `releasedQuarantined` the probe dates from 0 by the clause and from 1 in the model. -/
theorem not_startEventsComplete : ¬ Obligations.StartEventsComplete := by
  unfold Obligations.StartEventsComplete
  rintro ⟨-, -, -, -, complete, -, -⟩
  obtain ⟨t, ht, hunits⟩ := startComplete_units (s := releasedQuarantined) true true rfl
  have hnext := ht.symm.trans (complete releasedQuarantined _ _ true true rfl rfl rfl)
  have kept : t.fault.units = releasedQuarantined.fault.units := by
    rw [Host.Outcome.next.inj hnext]
    simp only [if_true, apply_ite State.fault, raise_fault, ite_self]
  have h0 : (vget UnitRec.reset t.fault.units 0).since = 1 := by simp [hunits, releasedQuarantined, vget, vset]
  rw [kept] at h0
  simp [releasedQuarantined, vget, vset, UnitRec.reset] at h0

end Sys2Proof.Proofs
end

section
/-! PROOFS. Memory in its canonical form (O54). `X_mem` says that X leaves memory alone, `wf_X` that X keeps the form of memory;
one of the two for each operation that returns a state, file by file of the model. The theorems are
elaborated one after another: all at once, their threads pass the memory limit of the check. Here: folds and branches. -/

set_option Elab.async false

namespace Sys2Proof.Proofs
open Sys2Proof Sys2Proof.Machine Sys2Proof.Laws

/-- A fold of operations that leave memory leaves memory. -/
theorem foldl_mem {α : Type} (l : List α) (f : State → α → State) (hf : ∀ s x, (f s x).mem = s.mem) (s : State) :
    (l.foldl f s).mem = s.mem :=
  List.foldlRecOn (motive := fun u : State => u.mem = s.mem) l f rfl (fun u hu x _ => (hf u x).trans hu)

/-- A fold of operations that keep the canonical form keeps it. Stated of `State.memoryOk`, it never makes the kernel look inside the
operations. -/
theorem memoryOk_foldl {α : Type} {s : State} (h : s.memoryOk) (l : List α) (f : State → α → State)
    (hf : ∀ s x, s.memoryOk → (f s x).memoryOk) : (l.foldl f s).memoryOk :=
  List.foldlRecOn l f h (fun u hu x _ => hf u x hu)

theorem memoryOk_storeBytes {s : State} (h : s.memoryOk) (a : Nat) (l : List PByte) : (s.storeBytes a l).memoryOk := wf_storeBytes h a l

theorem memoryOk_storeClean {s : State} (h : s.memoryOk) (a : Nat) (l : List Byte) : (s.storeClean a l).memoryOk := wf_storeClean h a l

end Sys2Proof.Proofs
end

section
/-! PROOFS. Memory in its canonical form (O54): the operations of Machine/Ops. -/

set_option Elab.async false

namespace Sys2Proof.Proofs
open Sys2Proof Sys2Proof.Machine Sys2Proof.Laws

@[simp] theorem setFlaw_mem (s : State) (l : Nat) (f : List Byte) : (s.setFlaw l f).mem = s.mem := rfl

@[simp] theorem healPage_mem (s : State) (p : Nat) : (s.healPage p).mem = s.mem := rfl

@[simp] theorem clearCounter_mem (s : State) (id : Nat) : (s.clearCounter id).mem = s.mem := rfl

end Sys2Proof.Proofs
end

section
/-! PROOFS. Memory in its canonical form (O54): the operations of Machine/PowerOps. -/

set_option Elab.async false

namespace Sys2Proof.Proofs
open Sys2Proof Sys2Proof.Machine Sys2Proof.Laws

theorem wf_poisonFill {s : State} (h : s.mem.wf = true) (t : Nat) : (s.poisonFill t).mem.wf = true := wf_clear h _ _

@[simp] theorem wakeDomain_mem (s : State) (d : Nat) : (s.wakeDomain d).mem = s.mem := by unfold State.wakeDomain; split <;> rfl

@[simp] theorem touch_mem (s : State) (d : Nat) : (s.touch d).mem = s.mem := rfl

@[simp] theorem ungate_mem (s : State) : (s.ungate).mem = s.mem := by
  unfold State.ungate; exact foldl_mem _ _ (by grind [wakeDomain_mem]) s

@[simp] theorem addHint_mem (s : State) (at_ watts from_ : Nat) : (s.addHint at_ watts from_).mem = s.mem := rfl

theorem wf_freshStart {s : State} (h : s.mem.wf = true) (cause : Nat) : (s.freshStart cause).mem.wf = true :=
  wf_iff.2 ⟨cellsWf_filter (wf_iff.1 h).1 _, cellsWf_filter (wf_iff.1 h).2 _⟩

theorem wf_mooredReturn {s : State} (h : s.mem.wf = true) (src : Nat) : (s.mooredReturn src).mem.wf = true := by
  unfold State.mooredReturn; grind [wf_freshStart]

@[simp] theorem noteWake_mem (s : State) (src : Nat) : (s.noteWake src).mem = s.mem := by
  unfold State.noteWake; grind

theorem wf_wake {s : State} (h : s.mem.wf = true) (src : Nat) : (s.wake src).mem.wf = true := by
  unfold State.wake; grind [noteWake_mem, wf_raise, ungate_mem, wf_mooredReturn]

end Sys2Proof.Proofs
end

section
/-! PROOFS. Memory in its canonical form (O54): the operations of Machine/HostPort. -/

set_option Elab.async false

namespace Sys2Proof.Proofs
open Sys2Proof Sys2Proof.Machine Sys2Proof.Laws

theorem wf_strikeSram {s : State} (h : s.mem.wf = true) (u : Upset) : (s.strikeSram u).mem.wf = true := by
  unfold State.strikeSram
  split
  · exact wf_puts h _ _
  · exact h

theorem wf_readSramWord {s : State} (h : s.mem.wf = true) (w : Nat) : (s.readSramWord w).1.mem.wf = true := by
  unfold State.readSramWord; grind [wf_raise, wf_bump]

theorem wf_readWords {s : State} (h : s.mem.wf = true) (ch m n : Nat) : (s.readWords ch m n).1.mem.wf = true := by
  fun_induction s.readWords ch m n <;> grind [wf_readSramWord]

@[simp] theorem clearEvLost_mem (s : State) (ch : Nat) : (s.clearEvLost ch).mem = s.mem := rfl

theorem wf_burstRead {s : State} (h : s.mem.wf = true) (ch a n : Nat) : (s.burstRead ch a n).mem.wf = true := by
  unfold State.burstRead; grind [wf_readWords, clearEvLost_mem, modChan_mem]

theorem wf_execHostRead {s : State} (h : s.mem.wf = true) (ch : Nat) (at_ : BurstAddr) (bl32 : Bool) (ups : List Upset) {s' : State}
    (hs : execHostRead ch at_ bl32 ups s = .next s') : s'.mem.wf = true := by
  unfold execHostRead at hs; grind [wf_foldlState, wf_burstRead, wf_strikeSram]

theorem wf_execEvLostRead {s : State} (h : s.mem.wf = true) (ch : Nat) {s' : State} (hs : execEvLostRead ch s = .next s') :
    s'.mem.wf = true := by
  obtain rfl := Host.Outcome.next.inj hs
  split
  · exact wf_burstRead h ..
  · exact h

theorem wf_readSlot {s : State} (h : s.mem.wf = true) (q slot : Nat) : (s.readSlot q slot).mem.wf = true := by
  unfold State.readSlot; exact wf_foldlState h _ _ (by grind [wf_readSramWord])

theorem wf_latchHead {s : State} (h : s.mem.wf = true) (q : Nat) : (s.latchHead q).mem.wf = true := by
  unfold State.latchHead; grind [modQueue_mem, wf_readSlot]

theorem wf_sqTailWrite {s : State} (h : s.mem.wf = true) (q v : Nat) : (s.sqTailWrite q v).mem.wf = true := by
  unfold State.sqTailWrite; grind [wf_bump, modQueue_mem, wf_latchHead, wf_wake]

theorem wf_rqHeadWrite {s : State} (h : s.mem.wf = true) (q v : Nat) : (s.rqHeadWrite q v).mem.wf = true := by
  unfold State.rqHeadWrite; grind [wf_bump, modQueue_mem]

theorem wf_evHeadWrite {s : State} (h : s.mem.wf = true) (ch v : Nat) : (s.evHeadWrite ch v).mem.wf = true := by
  unfold State.evHeadWrite; grind [wf_bump, modChan_mem, wf_raiseTo]

theorem wf_execSqTailWrite {s : State} (h : s.mem.wf = true) (q v : Nat) {s' : State} (hs : execSqTailWrite q v s = .next s') :
    s'.mem.wf = true := by
  obtain rfl := Host.Outcome.next.inj hs
  split
  · exact wf_sqTailWrite h ..
  · exact h

theorem wf_execRqHeadWrite {s : State} (h : s.mem.wf = true) (q v : Nat) {s' : State} (hs : execRqHeadWrite q v s = .next s') :
    s'.mem.wf = true := by
  obtain rfl := Host.Outcome.next.inj hs
  split
  · exact wf_rqHeadWrite h ..
  · exact h

theorem wf_execEvHeadWrite {s : State} (h : s.mem.wf = true) (ch v : Nat) {s' : State} (hs : execEvHeadWrite ch v s = .next s') :
    s'.mem.wf = true := by
  obtain rfl := Host.Outcome.next.inj hs
  split
  · exact wf_evHeadWrite h ..
  · exact h

theorem wf_doorbellWrite {s : State} (h : s.mem.wf = true) (ch off m v : Nat) : (s.doorbellWrite ch off m v).mem.wf = true := by
  unfold State.doorbellWrite; grind [wf_bump, wf_sqTailWrite, wf_rqHeadWrite, wf_evHeadWrite]

theorem wf_doorbellWrites {s : State} (h : s.mem.wf = true) (ch off : Nat) (data : List Byte) (mask : Nat) :
    (s.doorbellWrites ch off data mask).mem.wf = true := by
  unfold State.doorbellWrites; exact wf_foldlState h _ _ (by grind [wf_doorbellWrite])

theorem wf_burstWrite {s : State} (h : s.mem.wf = true) (ch a : Nat) (data : List Byte) (mask : Nat) :
    (s.burstWrite ch a data mask).mem.wf = true := by
  unfold State.burstWrite; grind [wf_storeMasked, wf_bump, wf_doorbellWrites]

theorem wf_burstLinkError {s : State} (h : s.mem.wf = true) (ch a : Nat) (data : List Byte) (mask : Nat) :
    (s.burstLinkError ch a data mask).mem.wf = true := by
  unfold State.burstLinkError; grind [wf_bump, wf_burstWrite, wf_raise]

theorem wf_execHostWrite {s : State} (h : s.mem.wf = true) (ch : Nat) (at_ : BurstAddr) (beats : List Word16) (mask link : Nat)
    {s' : State} (hs : execHostWrite ch at_ beats mask link s = .next s') : s'.mem.wf = true := by
  unfold execHostWrite at hs; grind [wf_burstWrite, wf_bump, wf_burstLinkError]

theorem wf_execModeRegisterWrite {s : State} (h : s.mem.wf = true) (ch mr v : Nat) {s' : State}
    (hs : execModeRegisterWrite ch mr v s = .next s') : s'.mem.wf = true := by
  obtain rfl := Host.Outcome.next.inj hs
  split <;> exact h

theorem wf_execModeRegisterRead {s : State} (h : s.mem.wf = true) (ch mr : Nat) {s' : State}
    (hs : execModeRegisterRead ch mr s = .next s') : s'.mem.wf = true := by
  obtain rfl := Host.Outcome.next.inj hs
  split <;> exact h

theorem wf_execLinkTraining {s : State} (h : s.mem.wf = true) (ch kind result : Nat) {s' : State}
    (hs : execLinkTraining ch kind result s = .next s') : s'.mem.wf = true := by
  obtain rfl := Host.Outcome.next.inj hs
  split <;> exact h

theorem wf_execZqCalibration {s : State} (h : s.mem.wf = true) (ch : Nat) {s' : State} (hs : execZqCalibration ch s = .next s') :
    s'.mem.wf = true := by
  obtain rfl := Host.Outcome.next.inj hs
  split <;> exact h

theorem wf_execPostPackageRepair {s : State} (h : s.mem.wf = true) (m : Nat) {s' : State} (hs : execPostPackageRepair m s = .next s') :
    s'.mem.wf = true := by
  obtain rfl := Host.Outcome.next.inj hs
  exact h

theorem wf_execRefresh {s : State} (h : s.mem.wf = true) (m n : Nat) {s' : State} (hs : execRefresh m n s = .next s') :
    s'.mem.wf = true := by
  obtain rfl := Host.Outcome.next.inj hs
  exact h

theorem wf_execPowerDownEntry {s : State} (h : s.mem.wf = true) (ch : Nat) {s' : State} (hs : execPowerDownEntry ch s = .next s') :
    s'.mem.wf = true := by
  obtain rfl := Host.Outcome.next.inj hs
  split <;> exact h

theorem wf_execPowerDownExit {s : State} (h : s.mem.wf = true) (ch : Nat) {s' : State} (hs : execPowerDownExit ch s = .next s') :
    s'.mem.wf = true := by
  obtain rfl := Host.Outcome.next.inj hs
  split <;> exact h

@[simp] theorem syncIdle_mem (s : State) : (s.syncIdle).mem = s.mem := by
  unfold State.syncIdle; grind [ungate_mem]

@[simp] theorem sleepEntry_mem (s : State) (ch : Nat) (deep low : Bool) : (s.sleepEntry ch deep low).mem = s.mem := by
  unfold State.sleepEntry; grind [syncIdle_mem, modChan_mem]

theorem wf_sleepExit {s : State} (h : s.mem.wf = true) (ch : Nat) : (s.sleepExit ch).mem.wf = true := by
  unfold State.sleepExit; grind [wf_wake, syncIdle_mem, modChan_mem]

theorem wf_execSelfRefreshEntry {s : State} (h : s.mem.wf = true) (ch : Nat) (pd : Bool) {s' : State}
    (hs : execSelfRefreshEntry ch pd s = .next s') : s'.mem.wf = true := by
  unfold execSelfRefreshEntry at hs; grind [sleepEntry_mem]

theorem wf_execSelfRefreshExit {s : State} (h : s.mem.wf = true) (ch : Nat) {s' : State} (hs : execSelfRefreshExit ch s = .next s') :
    s'.mem.wf = true := by
  obtain rfl := Host.Outcome.next.inj hs
  split
  · exact wf_sleepExit h ..
  · exact h

theorem wf_execDeepSleepEntry {s : State} (h : s.mem.wf = true) (ch : Nat) {s' : State} (hs : execDeepSleepEntry ch s = .next s') :
    s'.mem.wf = true := by
  unfold execDeepSleepEntry at hs; grind [sleepEntry_mem]

theorem wf_execDeepSleepExit {s : State} (h : s.mem.wf = true) (ch : Nat) {s' : State} (hs : execDeepSleepExit ch s = .next s') :
    s'.mem.wf = true := by
  obtain rfl := Host.Outcome.next.inj hs
  split
  · exact wf_sleepExit h ..
  · exact h

theorem wf_execResetNAssert {s : State} (h : s.mem.wf = true) {s' : State} (hs : execResetNAssert s = .next s') : s'.mem.wf = true := by
  unfold execResetNAssert at hs; grind [syncIdle_mem]

theorem wf_execResetNRelease {s : State} (h : s.mem.wf = true) {s' : State} (hs : execResetNRelease s = .next s') : s'.mem.wf = true := by
  unfold execResetNRelease at hs; grind [wf_raise]

end Sys2Proof.Proofs
end

section
/-! PROOFS. Memory in its canonical form (O54): the operations of Machine/Commands. -/

set_option Elab.async false

namespace Sys2Proof.Proofs
open Sys2Proof Sys2Proof.Machine Sys2Proof.Laws

theorem wf_writeReply {s : State} (h : s.mem.wf = true) (q : Nat) (r : List Byte) : (s.writeReply q r).mem.wf = true :=
  wf_putSram h _ _

theorem wf_releaseAcks {s : State} (h : s.mem.wf = true) (q m : Nat) : (State.releaseAcks q m s).mem.wf = true := by
  fun_induction State.releaseAcks q m s <;> grind [modQueue_mem, wf_writeReply]

theorem wf_releaseReplies {s : State} (h : s.mem.wf = true) (q m : Nat) : (State.releaseReplies q m s).mem.wf = true := by
  fun_induction State.releaseReplies q m s <;> grind [wf_writeReply, modQueue_mem, wf_raise]

@[simp] theorem finish_mem (s : State) (q k status detail result : Nat) : (s.finish q k status detail result).mem = s.mem := rfl

@[simp] theorem consume_mem (s : State) (q n : Nat) : (s.consume q n).mem = s.mem := rfl

@[simp] theorem enter_mem (s : State) (q : Nat) (c : Cmd) : (s.enter q c).mem = s.mem := rfl

@[simp] theorem reject_mem (s : State) (q : Nat) (c : Cmd) (status detail : Nat) : (s.reject q c status detail).mem = s.mem := rfl

theorem wf_readCommand {s : State} (h : s.mem.wf = true) (check : State → Cmd → Option (Nat × Nat)) (q : Nat) :
    (State.readCommand check s q).mem.wf = true := by
  unfold State.readCommand
  dsimp only
  repeat' split
  all_goals grind [reject_mem, consume_mem, setExpect_mem, enter_mem, wf_bump]

end Sys2Proof.Proofs
end

section
/-! PROOFS. Memory in its canonical form (O54): the operations of Machine/Run. -/

set_option Elab.async false

namespace Sys2Proof.Proofs
open Sys2Proof Sys2Proof.Machine Sys2Proof.Laws

theorem wf_scramble {s : State} (h : s.mem.wf = true) (a n : Nat) : (s.scramble a n).mem.wf = true := wf_storeClean h ..

theorem wf_scrambleOut {s : State} (h : s.mem.wf = true) (c : Cmd) : (s.scrambleOut c).mem.wf = true := by
  unfold State.scrambleOut; exact wf_foldlState h _ _ (by grind [wf_scramble])

theorem wf_runCmd {body : State → Cmd → State × Res} (hb : ∀ {s : State}, s.mem.wf = true → ∀ c, (body s c).1.mem.wf = true)
    {s : State} (h : s.mem.wf = true) (op : Nat) (cheap : Bool) (check : State → Cmd → Check10) (q k : Nat) :
    (s.runCmd op cheap check body q k).mem.wf = true := by
  unfold State.runCmd
  grind [finish_mem, wf_scrambleOut, finishUid_mem, modCmd_mem]

/-- An opcode's row keeps the canonical form when its body does. -/
theorem wf_opcodeRow {body : State → Cmd → State × Res} (hb : ∀ {s : State}, s.mem.wf = true → ∀ c, (body s c).1.mem.wf = true)
    {s s' : State} (h : s.mem.wf = true) {op q k : Nat} {cheap : Bool} {check : State → Cmd → Check10}
    (hs : s.opcodeRow op cheap check body q k = .next s') : s'.mem.wf = true := by
  obtain rfl := Host.Outcome.next.inj hs
  exact wf_runCmd hb h ..

theorem wf_execCommandDispatch {s : State} (h : s.mem.wf = true) (q : Nat) {s' : State} (hs : execCommandDispatch q s = .next s') :
    s'.mem.wf = true := by
  unfold execCommandDispatch at hs; grind [modCmd_mem, wf_releaseAcks, finish_mem]

theorem wf_execCommandComplete {s : State} (h : s.mem.wf = true) (q : Nat) {s' : State} (hs : execCommandComplete q s = .next s') :
    s'.mem.wf = true := by
  obtain rfl := Host.Outcome.next.inj hs
  exact wf_releaseReplies (wf_releaseAcks h ..) ..

end Sys2Proof.Proofs
end

section
/-! PROOFS. Memory in its canonical form (O54): the operations of Machine/Kv. -/

set_option Elab.async false

namespace Sys2Proof.Proofs
open Sys2Proof Sys2Proof.Machine Sys2Proof.Laws

theorem enterFrames_mem (s : State) (n : Nat) {x} {s' : State} (hs : s.enterFrames n = some (x, s')) : s'.mem = s.mem := by
  unfold State.enterFrames at hs; grind [State.draw]

@[simp] theorem freeFrames_mem (s : State) (f : Nat) : (s.freeFrames f).mem = s.mem := rfl

theorem allocSlot_mem (s : State) {x} {s' : State} (hs : s.allocSlot = some (x, s')) : s'.mem = s.mem := by
  unfold State.allocSlot at hs; grind [State.draw]

@[simp] theorem freeSlot_mem (s : State) (x : Nat) : (s.freeSlot x).mem = s.mem := rfl

theorem wf_syncCtx {s : State} (h : s.mem.wf = true) (id : Nat) : (s.syncCtx id).mem.wf = true := by
  unfold State.syncCtx; grind [wf_foldlState, wf_storeClean]

theorem wf_updCtx {s : State} (h : s.mem.wf = true) (id : Nat) (f : Ctx → Ctx) : (s.updCtx id f).mem.wf = true := by
  unfold State.updCtx; grind [wf_syncCtx, modCtx_mem]

theorem wf_putCtx {s : State} (h : s.mem.wf = true) (id : Nat) (c : Ctx) : (s.putCtx id c).mem.wf = true := by
  unfold State.putCtx; grind [wf_syncCtx]

theorem wf_dropCtx {s : State} (h : s.mem.wf = true) (id : Nat) : (s.dropCtx id).mem.wf = true := by
  unfold State.dropCtx; grind [wf_syncCtx]

@[simp] theorem modSeq_mem (s : State) (id : Nat) (f : SeqCtx → SeqCtx) : (s.modSeq id f).mem = s.mem := rfl

@[simp] theorem modList_mem (s : State) (id n : Nat) (f : KvList → KvList) : (s.modList id n f).mem = s.mem := rfl

@[simp] theorem modPage_mem (s : State) (id n i : Nat) (f : Page → Page) : (s.modPage id n i f).mem = s.mem := rfl

theorem wf_syncPage {s : State} (h : s.mem.wf = true) (id n i : Nat) : (s.syncPage id n i).mem.wf = true := by
  unfold State.syncPage; grind [wf_storeClean]

theorem wf_setPage {s : State} (h : s.mem.wf = true) (id n i : Nat) (f : Page → Page) : (s.setPage id n i f).mem.wf = true := by
  unfold State.setPage; grind [wf_syncPage, modPage_mem]

theorem wf_copyBytes {s : State} (h : s.mem.wf = true) (src dst n : Nat) : (s.copyBytes src dst n).mem.wf = true := wf_storeBytes h ..

@[simp] theorem freePage_mem (s : State) (id n i : Nat) : (s.freePage id n i).mem = s.mem := by
  unfold State.freePage; grind [freeFrames_mem, freeSlot_mem, modPage_mem]

@[simp] theorem releasePage_mem (s : State) (id n i : Nat) : (s.releasePage id n i).mem = s.mem := by
  unfold State.releasePage; grind [freePage_mem, modPage_mem]

@[simp] theorem freePending_mem (s : State) (id : Nat) : (s.freePending id).mem = s.mem := by
  unfold State.freePending; exact foldl_mem _ _ (by grind [freePage_mem]) s

theorem wf_startSpill {s : State} (h : s.mem.wf = true) (id n i : Nat) {s' : State} (hs : s.startSpill id n i = some s') :
    s'.mem.wf = true := by
  unfold State.startSpill at hs; grind [allocSlot_mem, wf_copyBytes, wf_bump, wf_setPage]

theorem wf_endSpill {s : State} (h : s.mem.wf = true) (id n i : Nat) : (s.endSpill id n i).mem.wf = true := by
  unfold State.endSpill; grind [wf_setPage, freeFrames_mem]

theorem wf_leaveT1 {s : State} (h : s.mem.wf = true) (id n i : Nat) : (s.leaveT1 id n i).mem.wf = true := by
  unfold State.leaveT1; grind [wf_endSpill, modPage_mem]

theorem wf_spillBackground {s : State} (h : s.mem.wf = true) : s.spillBackground.mem.wf = true := by
  have spill : ∀ s : State, s.mem.wf = true → ∀ id n i, ((s.startSpill id n i).getD s).mem.wf = true := by
    intro s hs id n i
    cases hu : s.startSpill id n i with
    | none => exact hs
    | some u => exact wf_startSpill hs id n i hu
  unfold State.spillBackground
  grind [wf_raise, wf_foldlState]

theorem wf_allocFrames {s : State} (h : s.mem.wf = true) (n : Nat) {x} {s' : State} (hs : s.allocFrames n = some (x, s')) :
    s'.mem.wf = true := by
  unfold State.allocFrames at hs; grind [enterFrames_mem, wf_spillBackground]

theorem wf_freeOne {s : State} (h : s.mem.wf = true) {s' : State} (hs : s.freeOne = .ok s') : s'.mem.wf = true := by
  unfold State.freeOne at hs; grind [wf_leaveT1, wf_startSpill]

theorem wf_takeFrames {s : State} (h : s.mem.wf = true) (n m : Nat) {x} {s' : State} (hs : State.takeFrames n m s = .ok (x, s')) :
    s'.mem.wf = true := by
  fun_induction State.takeFrames n m s <;> grind [wf_allocFrames, wf_freeOne]

theorem wf_takeFrame {s : State} (h : s.mem.wf = true) {x} {s' : State} (hs : s.takeFrame = .ok (x, s')) : s'.mem.wf = true := by
  unfold State.takeFrame at hs; grind [wf_takeFrames]

theorem wf_startFetch {s : State} (h : s.mem.wf = true) (id n i : Nat) {s' : State} (hs : s.startFetch id n i = .ok s') :
    s'.mem.wf = true := by
  unfold State.startFetch at hs; grind [wf_takeFrame, wf_bump, wf_setPage]

theorem wf_endFetch {s : State} (h : s.mem.wf = true) (id n i : Nat) : (s.endFetch id n i).mem.wf = true := by
  unfold State.endFetch; grind [wf_setPage, wf_copyBytes]

theorem wf_fillPage {s : State} (h : s.mem.wf = true) (id n i : Nat) : (s.fillPage id n i).mem.wf = true := by
  unfold State.fillPage; grind [modPage_mem, wf_storeBytes]

theorem wf_growTable {s : State} (h : s.mem.wf = true) (id n : Nat) {s' : State} (hs : s.growTable id n = .ok s') : s'.mem.wf = true := by
  unfold State.growTable at hs; grind [wf_takeFrames, modList_mem]

@[simp] theorem renewPage_mem (s : State) (id n i : Nat) : (s.renewPage id n i).mem = s.mem := by
  unfold State.renewPage; grind [freePage_mem]

theorem wf_appendToken {s : State} (h : s.mem.wf = true) (id n : Nat) (k v : List PByte) {s' : State}
    (hs : s.appendToken id n k v = .ok s') : s'.mem.wf = true := by
  unfold State.appendToken at hs
  repeat' split at hs
  all_goals grind [wf_growTable, renewPage_mem, wf_takeFrame, modPage_mem, wf_storeBytes, modList_mem, wf_fillPage]

theorem wf_countClamped {s : State} (h : s.mem.wf = true) (id k : Nat) : (s.countClamped id k).mem.wf = true := by
  unfold State.countClamped; grind [wf_bump, modSeq_mem]

theorem wf_appendTokens {s : State} (h : s.mem.wf = true) (id n : Nat) (m : List (List (Val × Bool) × List (Val × Bool))) {s' : State}
    (hs : s.appendTokens id n m = .ok s') : s'.mem.wf = true := by
  fun_induction s.appendTokens id n m <;> grind [wf_appendToken, wf_countClamped]

end Sys2Proof.Proofs
end

section
/-! PROOFS. Memory in its canonical form (O54): the operations of Machine/Units. -/

set_option Elab.async false

namespace Sys2Proof.Proofs
open Sys2Proof Sys2Proof.Machine Sys2Proof.Laws

@[simp] theorem rating_mem (s : State) (t : Nat) : (s.rating t).2.mem = s.mem := by unfold State.rating; split <;> rfl

@[simp] theorem raiseFlags_mem (s : State) (t : Nat) (f : BitVec 9) : (s.raiseFlags t f).mem = s.mem := by
  unfold State.raiseFlags; grind [modTile_mem, modJob_mem]

end Sys2Proof.Proofs
end

section
/-! PROOFS. Memory in its canonical form (O54): the operations of Machine/Sched. -/

set_option Elab.async false

namespace Sys2Proof.Proofs
open Sys2Proof Sys2Proof.Machine Sys2Proof.Laws

@[simp] theorem grantSem_mem (s : State) (i : Nat) (w : Nat × Nat) (status : Nat) : (s.grantSem i w status).mem = s.mem := by
  unfold State.grantSem; grind [modThread_mem, modSem_mem, modJob_mem]

@[simp] theorem endBoosts_mem (s : State) (i : Nat) : (s.endBoosts i).mem = s.mem := rfl

@[simp] theorem releaseSem_mem (s : State) (i : Nat) : (s.releaseSem i).mem = s.mem := by
  unfold State.releaseSem; grind [endBoosts_mem, modSem_mem, grantSem_mem]

theorem wf_breakSem {s : State} (h : s.mem.wf = true) (i : Nat) : (s.breakSem i).mem.wf = true := by
  unfold State.breakSem; grind [endBoosts_mem, modSem_mem, wf_raise, wf_bump, grantSem_mem]

theorem wf_breakSems {s : State} (h : s.mem.wf = true) (ctx : Nat) : (s.breakSems ctx).mem.wf = true := by
  unfold State.breakSems; exact wf_foldlState h _ _ (by grind [wf_breakSem])

@[simp] theorem dropWaiters_mem (s : State) (tiles : List Nat) : (s.dropWaiters tiles).mem = s.mem := rfl

@[simp] theorem boost_mem (f : Nat) (s : State) (i cls : Nat) : (State.boost f s i cls).mem = s.mem := by
  induction f generalizing s i cls with
  | zero => rfl
  | succ f ih =>
    unfold State.boost
    grind [foldl_mem, modClient_mem, modJob_mem]

@[simp] theorem permute_mem (s : State) (m : Nat) (l : List Nat) : (State.permute m s l).2.mem = s.mem := by
  fun_induction State.permute m s l <;> grind [State.draw]

@[simp] theorem rankOrder_mem (s : State) (m : Model) (p : Placement) (got : List Nat) : (s.rankOrder m p got).2.mem = s.mem := by
  unfold State.rankOrder; grind [permute_mem]

theorem wf_dropHolds {s : State} (h : s.mem.wf = true) (w : Sweep) : (s.dropHolds w).mem.wf = true := by
  unfold State.dropHolds; grind [wf_foldlState, wf_endSpill, modPage_mem, freePending_mem]

theorem wf_dropRuns {s : State} (h : s.mem.wf = true) (tiles : List Nat) : (s.dropRuns tiles).mem.wf = true := by
  unfold State.dropRuns; exact wf_foldlState h _ _ (by grind [wf_dropHolds])

theorem wf_dissolve {s : State} (h : s.mem.wf = true) (tiles : List Nat) (ctx : Nat) : (s.dissolve tiles ctx).mem.wf = true := by
  unfold State.dissolve; grind [wf_foldlState, touch_mem, modTile_mem, dropWaiters_mem, wf_dropRuns]

theorem wf_snapshot {s : State} (h : s.mem.wf = true) (ctx : Nat) : (s.snapshot ctx).mem.wf = true := wf_updCtx h ..

@[simp] theorem beginPass_mem (s : State) (j : Job) (m : Model) (p : Placement) (tiles : List Nat) :
    (s.beginPass j m p tiles).mem = s.mem := by
  unfold State.beginPass; exact foldl_mem _ _ (by grind [modTile_mem]) s

@[simp] theorem abandonSegment_mem (s : State) (u : Nat) : (s.abandonSegment u).mem = s.mem := rfl

@[simp] theorem countWait_mem (s : State) (j : Job) : (s.countWait j).mem = s.mem := rfl

@[simp] theorem chargeTime_mem (s : State) (j : Job) (p : Placement) : (s.chargeTime j p).mem = s.mem := rfl

theorem wf_goldenRoom {s : State} (h : s.mem.wf = true) (j : Job) (m : Model) {x} {s' : State} (hs : s.goldenRoom j m = some (x, s')) :
    s'.mem.wf = true := by
  unfold State.goldenRoom at hs
  split at hs
  · obtain ⟨⟨f, u⟩, hu, he⟩ := Option.map_eq_some_iff.1 hs
    obtain ⟨-, rfl⟩ := Prod.mk.inj he
    exact wf_allocFrames h _ hu
  · obtain ⟨-, rfl⟩ := Prod.mk.inj (Option.some.inj hs)
    exact h

theorem wf_dispatch {s : State} (h : s.mem.wf = true) (j : Job) (pi : Nat) (p : Placement) (got : List Nat) :
    (s.dispatch j pi p got).mem.wf = true := by
  unfold State.dispatch; grind [wf_foldlState, wf_goldenRoom, rankOrder_mem, abandonSegment_mem, wakeDomain_mem, chargeTime_mem,
    addHint_mem, modModel_mem, wf_updCtx, countWait_mem, wf_snapshot, modJob_mem, modTile_mem, beginPass_mem]

@[simp] theorem drainTime_mem (s : State) (tiles : List Nat) (rating : Nat) : (s.drainTime tiles rating).2.mem = s.mem := by
  unfold State.drainTime; grind [State.draw]

theorem wf_beginSpill {s : State} (h : s.mem.wf = true) (j : Job) (areas : List Nat) (id : Nat) :
    (s.beginSpill j areas id).mem.wf = true := by
  unfold State.beginSpill; grind [wf_foldlState, modJob_mem, wf_putCtx, wf_updCtx, modTile_mem, wf_bump, modClient_mem]

theorem wf_markBoundary {s : State} (h : s.mem.wf = true) (j : Job) : (s.markBoundary j).mem.wf = true := by
  unfold State.markBoundary; grind [wf_bump, modClient_mem, modJob_mem]

theorem wf_preemptOne {s : State} (h : s.mem.wf = true) (j : Job) : (s.preemptOne j).mem.wf = true := by
  have rated : (j.tiles.foldl (fun (acc : List Nat × State) t => let (r, s') := acc.2.rating t; (acc.1 ++ [r], s')) ([],
    s)).2.mem = s.mem :=
    List.foldlRecOn (motive := fun acc : List Nat × State => acc.2.mem = s.mem) _ _ rfl
      (fun acc ha t _ => (rating_mem acc.2 t).trans ha)
  unfold State.preemptOne
  grind [wf_markBoundary, drainTime_mem, wf_beginSpill]

theorem wf_preemptFor {s : State} (h : s.mem.wf = true) (j : Job) (aside : List Nat) : (s.preemptFor j aside).mem.wf = true := by
  unfold State.preemptFor; grind [wf_foldlState, modJob_mem, wf_preemptOne]

@[simp] theorem await_mem (s : State) (j : Job) : (s.await j).mem = s.mem := by unfold State.await; split <;> rfl

@[simp] theorem countLost_mem (s : State) (j : Job) : (s.countLost j).mem = s.mem := rfl

@[simp] theorem resume_mem (s : State) (j : Job) (p : Placement) (got : List Nat) : (s.resume j p got).mem = s.mem := by
  unfold State.resume; grind [foldl_mem, rankOrder_mem, abandonSegment_mem, wakeDomain_mem, chargeTime_mem, modTile_mem, modJob_mem]

theorem wf_scheduleFuel {s : State} (h : s.mem.wf = true) (m : Nat) (l w : List Nat) : (State.scheduleFuel m s l w).mem.wf = true := by
  fun_induction State.scheduleFuel m s l w <;> grind [modJob_mem, wf_bump, resume_mem, wf_dispatch, wf_preemptFor, await_mem]

@[simp] theorem markHeld_mem (s : State) : (s.markHeld).mem = s.mem := by unfold State.markHeld; split <;> rfl

@[simp] theorem markGaps_mem (s : State) : (s.markGaps).mem = s.mem := rfl

theorem wf_schedule {s : State} (h : s.mem.wf = true) : (s.schedule).mem.wf = true := by
  unfold State.schedule; grind [markGaps_mem, markHeld_mem, wf_scheduleFuel]

@[simp] theorem makeReady_mem (s : State) (uid : Nat) : (s.makeReady uid).mem = s.mem := by
  unfold State.makeReady; grind [modClient_mem, modJob_mem]

theorem wf_preemptClasses {s : State} (h : s.mem.wf = true) (from_ : Nat) : (s.preemptClasses from_).mem.wf = true := by
  unfold State.preemptClasses; exact wf_foldlState h _ _ (by grind [wf_preemptOne])

end Sys2Proof.Proofs
end

section
/-! PROOFS. Memory in its canonical form (O54): the operations of Machine/Boat. -/

set_option Elab.async false

namespace Sys2Proof.Proofs
open Sys2Proof Sys2Proof.Machine Sys2Proof.Laws

theorem wf_evictedEvent {s : State} (h : s.mem.wf = true) (h tier : Nat) : (s.evictedEvent h tier).mem.wf = true := by
  unfold State.evictedEvent; grind [wf_raise]

theorem allocNvs_mem (s : State) (n : Nat) {x} {s' : State} (hs : s.allocNvs n = some (x, s')) : s'.mem = s.mem := by
  unfold State.allocNvs at hs; grind [State.draw]

@[simp] theorem freeNvs_mem (s : State) (p : Nat) : (s.freeNvs p).mem = s.mem := rfl

theorem wf_relocate {s : State} (h : s.mem.wf = true) (m : Model) : (s.relocate m).mem.wf = true := by
  unfold State.relocate; exact wf_foldlState h _ _ (by grind [wf_storeClean])

theorem wf_relocateNow {s : State} (h : s.mem.wf = true) (h : Nat) : (s.relocateNow h).mem.wf = true := by
  unfold State.relocateNow; grind [wf_relocate]

theorem wf_dropHot {s : State} (h : s.mem.wf = true) (h : Nat) : (s.dropHot h).mem.wf = true := by
  unfold State.dropHot; grind [wf_foldlState, modTile_mem, wf_relocateNow, modModel_mem]

theorem wf_leaveHot {s : State} (h : s.mem.wf = true) (h : Nat) : (s.leaveHot h).mem.wf = true := by
  unfold State.leaveHot; grind [wf_evictedEvent, wf_dropHot]

theorem wf_leaveWarm {s : State} (h : s.mem.wf = true) (h : Nat) : (s.leaveWarm h).mem.wf = true := by
  unfold State.leaveWarm; grind [wf_leaveHot, wf_evictedEvent, modModel_mem, freeFrames_mem]

@[simp] theorem unmark_mem (s : State) (h : Nat) : (s.unmark h).mem = s.mem := by unfold State.unmark; split <;> rfl

theorem wf_evictNow {s : State} (h : s.mem.wf = true) (h : Nat) : (s.evictNow h).mem.wf = true := by
  unfold State.evictNow; grind [unmark_mem, wf_leaveWarm, freeNvs_mem, freeFrames_mem, wf_evictedEvent]

theorem wf_roomT1 {s : State} (h : s.mem.wf = true) (besides n m : Nat) : (State.roomT1 besides n m s).1.mem.wf = true := by
  fun_induction State.roomT1 besides n m s <;> grind [wf_allocFrames, wf_leaveWarm]

theorem wf_roomNvs {s : State} (h : s.mem.wf = true) (n m : Nat) : (State.roomNvs n m s).1.mem.wf = true := by
  fun_induction State.roomNvs n m s <;> grind [allocNvs_mem, wf_evictNow]

theorem wf_placeWarm {s : State} (h : s.mem.wf = true) (h : Nat) (b : List PByte) : (s.placeWarm h b).1.mem.wf = true := by
  unfold State.placeWarm; grind [wf_roomT1, wf_relocateNow, modModel_mem, wf_storeBytes]

theorem wf_enterWarm {s : State} (h : s.mem.wf = true) (h : Nat) : (s.enterWarm h).1.mem.wf = true := by
  unfold State.enterWarm; grind [wf_raise, wf_evictNow, wf_placeWarm]

theorem wf_roomT0 {s : State} (h : s.mem.wf = true) (besides crew n m : Nat) : (State.roomT0 besides crew n m s).1.mem.wf = true := by
  fun_induction State.roomT0 besides crew n m s <;> grind [permute_mem, wf_leaveHot]

theorem wf_powerPair {s : State} (h : s.mem.wf = true) (t : Nat) : (s.powerPair t).mem.wf = true := by
  unfold State.powerPair; grind [touch_mem, wf_poisonFill, setDom_mem]

theorem wf_enterHot {s : State} (h : s.mem.wf = true) (h : Nat) : (s.enterHot h).1.mem.wf = true := by
  unfold State.enterHot; grind [wf_foldlState, wf_roomT0, wf_powerPair, wf_scramble, modTile_mem, wf_relocateNow, modModel_mem]

@[simp] theorem dropWarm_mem (s : State) (h : Nat) : (s.dropWarm h).mem = s.mem := by unfold State.dropWarm; split <;> rfl

theorem wf_tierNow {s : State} (h : s.mem.wf = true) (h target : Nat) : (s.tierNow h target).1.mem.wf = true := by
  unfold State.tierNow; grind [wf_evictNow, wf_leaveHot, wf_leaveWarm, wf_enterWarm, wf_enterHot, dropWarm_mem]

theorem wf_modelIdle {s : State} (h : s.mem.wf = true) (hd f : Nat) : (State.modelIdle hd f s).mem.wf = true := by
  have absent : ∀ (l : List (Option Nat × Nat)) (s : State), s.mem.wf = true →
      (l.foldl (fun s w => match w.1 with | some u => s.finishUid u false stModelAbsent 0 0 | none => s) s).mem.wf = true :=
    fun l s h => wf_foldlState h l _ (by grind [finishUid_mem])
  have moved : ∀ (t : State) (b b' : Bool) (target : Nat), t.mem.wf = true →
      (if b then (t, stDeadline) else if b' then (t, stPinned) else t.tierNow hd target).1.mem.wf = true := by grind [wf_tierNow]
  induction f generalizing s with
  | zero => exact h
  | succ f ih =>
    unfold State.modelIdle
    split
    · exact h
    · split
      · exact h
      · split
        · exact h
        · rename_i uid target rest _
          cases uid with
          | none =>
            dsimp only
            split
            · exact ih (moved _ _ _ _ h)
            · exact absent _ _ (moved _ _ _ _ h)
          | some u =>
            dsimp only
            split
            · exact ih (by rw [finishUid_mem]; exact moved _ _ _ _ h)
            · exact absent _ _ (by rw [finishUid_mem]; exact moved _ _ _ _ h)

theorem wf_forceTier {s : State} (h : s.mem.wf = true) (hd target : Nat) : (s.forceTier hd target).mem.wf = true := by
  unfold State.forceTier; grind [modModel_mem, wf_modelIdle]

theorem wf_endUse {s : State} (h : s.mem.wf = true) (hd : Nat) : (s.endUse hd).mem.wf = true := by
  unfold State.endUse; grind [modModel_mem, wf_modelIdle]

end Sys2Proof.Proofs
end

section
/-! PROOFS. Memory in its canonical form (O54): the operations of Machine/Recover. -/

set_option Elab.async false

namespace Sys2Proof.Proofs
open Sys2Proof Sys2Proof.Machine Sys2Proof.Laws

theorem wf_freeAreas {s : State} (h : s.mem.wf = true) (j : Job) : (s.freeAreas j).mem.wf = true := by
  unfold State.freeAreas; grind [wf_dropCtx, wf_updCtx, modJob_mem]

@[simp] theorem freeGolden_mem (s : State) (j : Job) : (s.freeGolden j).mem = s.mem := by unfold State.freeGolden; split <;> rfl

@[simp] theorem removeJob_mem (s : State) (j : Job) : (s.removeJob j).mem = s.mem := by
  unfold State.removeJob; grind [makeReady_mem]

theorem wf_dropStep {s : State} (h : s.mem.wf = true) (j : Job) : (s.dropStep j).mem.wf = true := by
  unfold State.dropStep; grind [wf_dissolve, wf_freeAreas, countLost_mem, freeGolden_mem, wf_endUse]

theorem wf_undefineOut {s : State} (h : s.mem.wf = true) (j : Job) : (s.undefineOut j).mem.wf = true := by
  unfold State.undefineOut; grind [wf_scramble]

@[simp] theorem finishCtxCmds_mem (s : State) (ctx status detail : Nat) : (s.finishCtxCmds ctx status detail).mem = s.mem := by
  unfold State.finishCtxCmds; exact foldl_mem _ _ (by grind [finishUid_mem]) s

@[simp] theorem releaseAll_mem (s : State) (ctx : Nat) : (s.releaseAll ctx).mem = s.mem := by
  unfold State.releaseAll; exact foldl_mem _ _ (by grind [releasePage_mem]) s

theorem wf_tearNow {s : State} (h : s.mem.wf = true) (ctx cause : Nat) : (s.tearNow ctx cause).mem.wf = true := by
  unfold State.tearNow; grind [wf_foldlState, wf_dropStep, wf_undefineOut, wf_breakSems, releaseAll_mem, modCtx_mem, finishCtxCmds_mem,
    wf_syncCtx, wf_bump, modClient_mem, wf_raise]

theorem wf_teardown {s : State} (h : s.mem.wf = true) (ctx cause : Nat) : (s.teardown ctx cause).mem.wf = true := by
  unfold State.teardown; grind [modJob_mem, wf_schedule, wf_tearNow]

theorem wf_poisonTable {s : State} (h : s.mem.wf = true) (ctx : Nat) : (s.poisonTable ctx).mem.wf = true := wf_teardown (wf_bump h ..) ..

theorem wf_threadFault {s : State} (h : s.mem.wf = true) (t th cause addr : Nat) : (s.threadFault t th cause addr).mem.wf = true := by
  unfold State.threadFault; grind [modTile_mem, wf_teardown]

theorem wf_faultPc {s : State} (h : s.mem.wf = true) (t th cause : Nat) : (s.faultPc t th cause).mem.wf = true := wf_threadFault h ..

theorem wf_poisonUse {s : State} (h : s.mem.wf = true) (t th addr : Nat) :
    (s.poisonUse t th addr).mem.wf = true := wf_threadFault (wf_bump h ..) ..

theorem wf_execTeardownComplete {s : State} (h : s.mem.wf = true) (ctx : Nat) {s' : State} (hs : execTeardownComplete ctx s = .next s') :
    s'.mem.wf = true := by
  unfold execTeardownComplete at hs; grind [wf_schedule, wf_tearNow]

theorem wf_restart {s : State} (h : s.mem.wf = true) (j : Job) (avoid : List Nat) : (s.restart j avoid).mem.wf = true := by
  unfold State.restart; grind [freeGolden_mem, wf_dissolve, wf_freeAreas, countLost_mem, modJob_mem]

theorem wf_rerun {s : State} (h : s.mem.wf = true) (j : Job) (t : Nat) : (s.rerun j t).mem.wf = true := by
  unfold State.rerun; grind [wf_teardown, wf_schedule, wf_bump, wf_restart]

theorem wf_loseTile {s : State} (h : s.mem.wf = true) (t : Nat) : (s.loseTile t).mem.wf = true := by
  unfold State.loseTile; grind [wf_rerun]

theorem wf_runFault {s : State} (h : s.mem.wf = true) (r : Run) (f : Nat × Option Nat) : (s.runFault r f).mem.wf = true := by
  unfold State.runFault; grind [wf_bump, wf_threadFault]

theorem wf_xfAssign {s : State} (h : s.mem.wf = true) (m : Nat) : (State.xfAssign m s).mem.wf = true := by
  fun_induction State.xfAssign m s <;> grind [wf_runFault, wakeDomain_mem]

theorem wf_prefetch {s : State} (h : s.mem.wf = true) (id n : Nat) (pages : List Nat) (at_ : Nat) :
    (s.prefetch id n pages at_).mem.wf = true := by
  unfold State.prefetch; exact wf_foldlState h _ _ (by grind [wf_startFetch])

theorem wf_walkFrom {s : State} (h : s.mem.wf = true) (p id n grace : Nat) (pages : List Nat) (m : Nat) :
    (s.walkFrom p id n grace pages m).mem.wf = true := by
  fun_induction s.walkFrom p id n grace pages m <;> grind [modPage_mem, wf_prefetch]

theorem wf_walk {s : State} (h : s.mem.wf = true) (p : Nat) : (s.walk p).mem.wf = true := by
  unfold State.walk; grind [wf_walkFrom]

theorem wf_walkAll {s : State} (h : s.mem.wf = true) : (s.walkAll).mem.wf = true := by
  unfold State.walkAll; exact wf_foldlState h _ _ (by grind [wf_walk])

theorem wf_sweepAssign {s : State} (h : s.mem.wf = true) (m : Nat) : (State.sweepAssign m s).mem.wf = true := by
  fun_induction State.sweepAssign m s <;> grind [wf_runFault, wf_poisonTable, wakeDomain_mem, wf_walk]

theorem wf_runsPlace {s : State} (h : s.mem.wf = true) : (s.runsPlace).mem.wf = true := wf_xfAssign (wf_sweepAssign h ..) ..

theorem wf_modPlanCtx {s : State} (h : s.mem.wf = true) (ctx : Nat) (f : PlanCtx → PlanCtx) :
    (s.modPlanCtx ctx f).mem.wf = true := wf_updCtx h ..

@[simp] theorem endCancels_mem (s : State) (q : PlanQuery) : (s.endCancels q).mem = s.mem := by
  unfold State.endCancels; exact foldl_mem _ _ (by grind [finishUid_mem]) s

theorem wf_dropQuery {s : State} (h : s.mem.wf = true) (q : PlanQuery) (status : Nat) : (s.dropQuery q status).mem.wf = true := by
  unfold State.dropQuery; grind [wf_modPlanCtx, endCancels_mem, finishUid_mem]

theorem wf_planAssign {s : State} (h : s.mem.wf = true) (m : Nat) : (State.planAssign m s).mem.wf = true := by
  fun_induction State.planAssign m s <;> grind [wf_modPlanCtx, wakeDomain_mem]

theorem wf_planPrune {s : State} (h : s.mem.wf = true) : (s.planPrune).mem.wf = true := by
  unfold State.planPrune; grind [wf_foldlState, wf_dropQuery]

theorem wf_planPlace {s : State} (h : s.mem.wf = true) : (s.planPlace).mem.wf = true := wf_planAssign (wf_planPrune h ..) ..

theorem wf_pruneRuns {s : State} (h : s.mem.wf = true) (ty : Nat) : (s.pruneRuns ty).mem.wf = true := by
  unfold State.pruneRuns; grind [wf_foldlState, wf_teardown]

theorem wf_reissue {s : State} (h : s.mem.wf = true) (ty n : Nat) : (s.reissue ty n).mem.wf = true := by
  unfold State.reissue; grind [wf_dropHolds, wf_bump, wf_modPlanCtx]

theorem wf_fuseStop {s : State} (h : s.mem.wf = true) : (s.fuseStop).mem.wf = true := by
  unfold State.fuseStop; grind [wf_foldlState, wf_dropCtx]

theorem wf_quarantine {s : State} (h : s.mem.wf = true) (ty n cause : Nat) : (s.quarantine ty n cause).mem.wf = true := by
  unfold State.quarantine; grind [wf_raise, wf_bump, modUnit_mem]

theorem wf_copyFrame {s : State} (h : s.mem.wf = true) (src dst : Nat) : (s.copyFrame src dst).mem.wf = true := wf_storeBytes h ..

theorem wf_frameBelow {s : State} (h : s.mem.wf = true) {x} {s' : State} (hs : s.frameBelow = .ok (x, s')) : s'.mem.wf = true := by
  have taken : ∀ {t : State}, t.mem = s.mem → ∀ {x u}, t.takeFrame = .ok (x, u) → u.mem.wf = true :=
    fun ht _ _ hu => wf_takeFrame (by rw [ht]; exact h) hu
  unfold State.frameBelow at hs
  grind

theorem wf_movePage {s : State} (h : s.mem.wf = true) (id n i : Nat) {s' : State} (hs : s.movePage id n i = some s') :
    s'.mem.wf = true := by
  unfold State.movePage at hs
  grind [wf_leaveT1, wf_startSpill, wf_setPage, freeFrames_mem, wf_copyFrame, wf_frameBelow]

theorem wf_movePages {s : State} (h : s.mem.wf = true) (lo hi : Nat) : (s.movePages lo hi).1.mem.wf = true :=
  List.foldlRecOn (motive := fun acc : State × List Nat => acc.1.mem.wf = true) _ _ h (by grind [wf_movePage])

theorem wf_withdrawT1 {s : State} (h : s.mem.wf = true) (c : Nat) : (s.withdrawT1 c).mem.wf = true := by
  unfold State.withdrawT1; grind [wf_foldlState, wf_spillBackground, wf_movePages, wf_forceTier, wf_teardown]

theorem wf_withdrawNvs {s : State} (h : s.mem.wf = true) (c : Nat) : (s.withdrawNvs c).mem.wf = true := by
  unfold State.withdrawNvs; grind [wf_foldlState, wf_forceTier]

theorem wf_retireEffect {s : State} (h : s.mem.wf = true) (ty n : Nat) : (s.retireEffect ty n).mem.wf = true := by
  unfold State.retireEffect; grind [wf_foldlState, wf_loseTile, wf_forceTier, wf_pruneRuns, wf_runsPlace, wf_reissue, wf_planPlace,
    wf_withdrawT1, wf_withdrawNvs, wf_fuseStop]

theorem wf_retire {s : State} (h : s.mem.wf = true) (ty n cause : Nat) : (s.retire ty n cause).mem.wf = true := by
  unfold State.retire; grind [modUnit_mem, wf_raise, wf_bump, wf_schedule, wf_retireEffect]

theorem wf_charge {s : State} (h : s.mem.wf = true) (ty n cause : Nat) : (s.charge ty n cause).mem.wf = true := by
  unfold State.charge; grind [modUnit_mem, wf_retire]

theorem wf_restore {s : State} (h : s.mem.wf = true) (ty n : Nat) : (s.restore ty n).mem.wf = true := by
  unfold State.restore; grind [wf_raise, wf_bump, modUnit_mem, wf_schedule, wf_runsPlace, wf_planPlace]

end Sys2Proof.Proofs
end

section
/-! PROOFS. Memory in its canonical form (O54): the operations of Machine/Home. -/

set_option Elab.async false

namespace Sys2Proof.Proofs
open Sys2Proof Sys2Proof.Machine Sys2Proof.Laws

theorem wf_poisonWindow {s : State} (h : s.mem.wf = true) (t a n : Nat) : (s.poisonWindow t a n).mem.wf = true := by
  unfold State.poisonWindow; grind [wf_bump, raiseFlags_mem, wf_raise, modJob_mem]

theorem wf_homeStore {s : State} (h : s.mem.wf = true) (t a : Nat) (b : List (Option PByte)) : (s.homeStore t a b).mem.wf = true := by
  unfold State.homeStore; grind [wf_storeMasked, wf_poisonWindow]

theorem wf_settleStores {s : State} (h : s.mem.wf = true) (t : Nat) : (s.settleStores t).mem.wf = true := by
  unfold State.settleStores; exact wf_foldlState h _ _ (by grind [wf_homeStore, modTile_mem])

end Sys2Proof.Proofs
end

section
/-! PROOFS. Memory in its canonical form (O54): the operations of Machine/Access. -/

set_option Elab.async false

namespace Sys2Proof.Proofs
open Sys2Proof Sys2Proof.Machine Sys2Proof.Laws

theorem wf_strike {s : State} (h : s.mem.wf = true) (u : Upset) : (s.strike u).mem.wf = true := by
  unfold State.strike; grind [wf_strikeSram, setFlaw_mem]

@[simp] theorem hold_mem (s : State) (l : List (Nat × Nat)) : (s.hold l).mem = s.mem := by
  unfold State.hold; grind [foldl_mem]

theorem wf_noteT0 {s : State} (h : s.mem.wf = true) (w : Nat) : (s.noteT0 w).mem.wf = true := by
  unfold State.noteT0
  grind [wf_bump, wf_charge, setFlaw_mem, wf_clear]

theorem wf_loseLine {s : State} (h : s.mem.wf = true) (l : Nat) (r : LineRead) : (s.loseLine l r).mem.wf = true :=
  wf_charge (wf_bump (wf_poisonWords h _) ..) ..

theorem wf_noteT1 {s : State} (h : s.mem.wf = true) (demand : Bool) (l : Nat) : (State.noteT1 demand s l).mem.wf = true := by
  unfold State.noteT1; grind [wf_bump, wf_countT1, steady_mem, modChanRec_mem, wf_loseLine]

@[simp] theorem maskWrite_mem (s : State) (p : Nat) : (s.maskWrite p).mem = s.mem := by unfold State.maskWrite; split <;> rfl

theorem wf_noteNvs {s : State} (h : s.mem.wf = true) (a n : Nat) : (s.noteNvs a n).mem.wf = true := by
  unfold State.noteNvs; grind [wf_bump, wf_countNvsCe, steady_mem, wf_charge, wf_countNvsUe, maskWrite_mem, wf_maskPage]

theorem wf_noteRead {s : State} (h : s.mem.wf = true) (a n : Nat) : (s.noteRead a n).mem.wf = true := by
  unfold State.noteRead; grind [wf_foldlState, wf_noteT0, wf_noteT1, wf_noteNvs, wf_readSramWord]

theorem wf_noteReads {s : State} (h : s.mem.wf = true) (l : List (Nat × Nat)) : (s.noteReads l).mem.wf = true := by
  unfold State.noteReads; exact wf_foldlState h _ _ (by grind [wf_noteRead])

theorem wf_readWith {s : State} (h : s.mem.wf = true) (ups : List Upset) (a n : Nat) : (s.readWith ups a n).1.mem.wf = true := by
  unfold State.readWith; grind [wf_foldlState, wf_strike, wf_noteRead]

end Sys2Proof.Proofs
end

section
/-! PROOFS. Memory in its canonical form (O54): the operations of Machine/Tiles. -/

set_option Elab.async false

namespace Sys2Proof.Proofs
open Sys2Proof Sys2Proof.Machine Sys2Proof.Laws

theorem tileReg_mem (s : State) (t off : Nat) {x} {s' : State} (hs : s.tileReg t off = some (x, s')) : s'.mem = s.mem := by
  unfold State.tileReg at hs; grind [rating_mem]

theorem wf_settle {s : State} (h : s.mem.wf = true) (t a n : Nat) : (s.settle t a n).mem.wf = true := by
  unfold State.settle; grind [wf_foldlState, modTile_mem, wf_homeStore]

@[simp] theorem sendLines_mem (s : State) (t : Nat) (p : OutWrite → Bool) : (s.sendLines t p).mem = s.mem := rfl

theorem wf_threadStore {s : State} (h : s.mem.wf = true) (t th a : Nat) (b : List PByte) : (s.threadStore t th a b).mem.wf = true := by
  unfold State.threadStore; grind [wf_foldlState, wf_storeBytes, bufferStore_mem, modTile_mem]

@[simp] theorem cacheLine_mem (s : State) (t line : Nat) (b : List PByte) : (s.cacheLine t line b).mem = s.mem := by
  unfold State.cacheLine; grind [modTile_mem, State.draw]

theorem wf_lineFor {s : State} (h : s.mem.wf = true) (t line : Nat) : (s.lineFor t line).1.mem.wf = true := by
  unfold State.lineFor; grind [cacheLine_mem, wf_noteRead]

theorem wf_threadLoad {s : State} (h : s.mem.wf = true) (t a n : Nat) (nc : Bool) : (s.threadLoad t a n nc).1.mem.wf = true := by
  have lines : ∀ (l : List Nat) (o : Nat → Nat), (l.foldl (fun (acc : State × List PByte) i =>
      ((acc.1.lineFor t (o i)).1, acc.2 ++ (acc.1.lineFor t (o i)).2)) (s, [])).1.mem.wf = true := fun l o =>
    List.foldlRecOn (motive := fun acc : State × List PByte => acc.1.mem.wf = true) _ _ h (fun acc ha i _ => wf_lineFor ha ..)
  unfold State.threadLoad
  dsimp only
  split
  · exact lines _ _
  · split
    · exact wf_settle h ..
    · exact wf_noteRead (wf_settle h ..) ..

@[simp] theorem sendOwn_mem (s : State) (t th : Nat) : (s.sendOwn t th).mem = s.mem := rfl

@[simp] theorem wakeStores_mem (s : State) (t : Nat) : (s.wakeStores t).mem = s.mem := by
  unfold State.wakeStores; exact foldl_mem _ _ (by grind [modThread_mem, modTile_mem, releaseSem_mem]) s

end Sys2Proof.Proofs
end

section
/-! PROOFS. Memory in its canonical form (O54): the operations of Machine/Barrier. -/

set_option Elab.async false

namespace Sys2Proof.Proofs
open Sys2Proof Sys2Proof.Machine Sys2Proof.Laws

@[simp] theorem startLayer_mem (s : State) (t : Nat) (l : Nat × Fetch) (at_ : Nat) : (s.startLayer t l at_).mem = s.mem := rfl

@[simp] theorem startWaited_mem (s : State) (t : Nat) : (s.startWaited t).mem = s.mem := by
  unfold State.startWaited; exact foldl_mem _ _ (by grind [startLayer_mem]) s

@[simp] theorem arrive_mem (s : State) (t : Nat) (l : List Arriver) : (s.arrive t l).mem = s.mem := by
  unfold State.arrive; grind [modTile_mem, State.draw]

@[simp] theorem barrierArrivals_mem (s : State) (j : Job) : (s.barrierArrivals j).mem = s.mem := by
  unfold State.barrierArrivals; exact foldl_mem _ _ (by grind [modJob_mem, arrive_mem]) s

@[simp] theorem barrierRun_mem (uid f : Nat) (s : State) : (State.barrierRun uid f s).mem = s.mem := by
  induction f generalizing s with
  | zero => rfl
  | succ f ih =>
    unfold State.barrierRun
    grind [foldl_mem, barrierArrivals_mem, modTile_mem, modJob_mem]

@[simp] theorem layerArrivals_mem (s : State) (j : Job) : (s.layerArrivals j).mem = s.mem := by
  unfold State.layerArrivals; exact foldl_mem _ _ (by grind [modJob_mem, arrive_mem, startLayer_mem]) s

@[simp] theorem layerDone_mem (s : State) (j : Job) (late : Nat) : (s.layerDone j late).mem = s.mem := by
  unfold State.layerDone; exact foldl_mem _ _ (by grind [modTile_mem, modJob_mem]) s

@[simp] theorem wakeBuf_mem (s : State) (t i v : Nat) : (s.wakeBuf t i v).mem = s.mem := rfl

@[simp] theorem hitLayer_mem (s : State) (t i : Nat) : (s.hitLayer t i).mem = s.mem := by
  unfold State.hitLayer; grind [modTile_mem]

@[simp] theorem skipLoads_mem (s : State) (t lo hi : Nat) : (s.skipLoads t lo hi).mem = s.mem := by
  unfold State.skipLoads; exact foldl_mem _ _ (by grind [wakeBuf_mem, modTile_mem, hitLayer_mem]) s

theorem wf_layerRun {s : State} (h : s.mem.wf = true) (uid f : Nat) : (State.layerRun uid f s).mem.wf = true := by
  induction f generalizing s with
  | zero => exact h
  | succ f ih =>
    unfold State.layerRun
    split
    · exact h
    · rename_i j _
      have h1 : (s.layerArrivals j).mem.wf = true := by rwa [layerArrivals_mem]
      dsimp only
      split
      · exact h1
      · split
        · exact h1
        · split
          · exact ih (by rwa [layerDone_mem])
          · split
            · exact h1
            · split
              · refine ih (wf_foldlState ?_ _ _ (fun s t hs => by rwa [skipLoads_mem]))
                exact wf_bump (by rwa [layerDone_mem]) ..
              · exact ih (by rwa [layerDone_mem])

theorem wf_crewProgress {s : State} (h : s.mem.wf = true) (t : Nat) : (s.crewProgress t).mem.wf = true := by
  unfold State.crewProgress; grind [startWaited_mem, wakeStores_mem, wf_layerRun, barrierRun_mem]

end Sys2Proof.Proofs
end

section
/-! PROOFS. Memory in its canonical form (O54): the operations of Machine/Alu. -/

set_option Elab.async false

namespace Sys2Proof.Proofs
open Sys2Proof Sys2Proof.Machine Sys2Proof.Laws

theorem wf_runAlu {s : State} (h : s.mem.wf = true) (t th mod rd : Nat) (a b : PVal) : (s.runAlu t th mod rd a b).mem.wf = true := by
  unfold State.runAlu; grind [wf_faultPc, modThread_mem, State.draw]

theorem wf_execAluReg {s : State} (h : s.mem.wf = true) (t th mod rd ra rb : Nat) {s' : State}
    (hs : execAluReg t th mod rd ra rb s = .next s') : s'.mem.wf = true := by
  obtain rfl := Host.Outcome.next.inj hs
  split
  · exact wf_runAlu h ..
  · exact h

theorem wf_execAluImm {s : State} (h : s.mem.wf = true) (t th mod rd ra imm : Nat) {s' : State}
    (hs : execAluImm t th mod rd ra imm s = .next s') : s'.mem.wf = true := by
  obtain rfl := Host.Outcome.next.inj hs
  split
  · exact wf_runAlu h ..
  · exact h

theorem wf_execCompare {s : State} (h : s.mem.wf = true) (t th mod ra rb : Nat) {s' : State}
    (hs : execCompare t th mod ra rb s = .next s') : s'.mem.wf = true := by
  unfold execCompare at hs; grind [wf_faultPc, modThread_mem]

theorem wf_execBranch {s : State} (h : s.mem.wf = true) (t th mod imm : Nat) {s' : State} (hs : execBranch t th mod imm s = .next s') :
    s'.mem.wf = true := by
  unfold execBranch at hs; grind [wf_faultPc, wf_poisonUse, modThread_mem]

end Sys2Proof.Proofs
end

section
/-! PROOFS. Memory in its canonical form (O54): the operations of Machine/Safety16. -/

set_option Elab.async false

namespace Sys2Proof.Proofs
open Sys2Proof Sys2Proof.Machine Sys2Proof.Laws

theorem wf_putTail {s : State} (h : s.mem.wf = true) (base tail : Nat) : (s.putTail base tail).mem.wf = true := wf_storeClean h ..

theorem wf_putRecord {s : State} (h : s.mem.wf = true) (base n w tail : Nat) (r : List Byte) :
    (s.putRecord base n w tail r).1.mem.wf = true := by
  unfold State.putRecord; grind [wf_foldlState, wf_storeClean, wf_putTail]

theorem wf_putVerdict {s : State} (h : s.mem.wf = true) (j : Job) (verdict : Nat) : (s.putVerdict j verdict).mem.wf = true := by
  unfold State.putVerdict; grind [wf_bump, wf_putRecord]

@[simp] theorem finishJob_mem (s : State) (j : Job) (invalid : Bool) : (s.finishJob j invalid).mem = s.mem := by
  unfold State.finishJob; grind [removeJob_mem, finishUid_mem]

@[simp] theorem wakeKv_mem (s : State) (ctx : Nat) : (s.wakeKv ctx).mem = s.mem := by
  unfold State.wakeKv; grind [foldl_mem, modCmd_mem]

@[simp] theorem countAbandoned_mem (s : State) (j : Job) : (s.countAbandoned j).mem = s.mem := by
  unfold State.countAbandoned; grind [modJob_mem, modClient_mem]

theorem wf_leaveStep {s : State} (h : s.mem.wf = true) (ctx : Nat) : (s.leaveStep ctx).mem.wf = true := by
  unfold State.leaveStep; grind [wakeKv_mem, wf_syncCtx, freePending_mem, wf_updCtx]

theorem wf_endStep {s : State} (h : s.mem.wf = true) (j : Job) (invalid : Bool) : (s.endStep j invalid).mem.wf = true := by
  unfold State.endStep; grind [wf_dissolve, wf_updCtx, wf_leaveStep, modClient_mem, modJob_mem, freeGolden_mem, wf_endUse, wf_schedule,
    finishJob_mem, makeReady_mem]

@[simp] theorem judged_mem (s : State) (uid : Nat) (tiles : List Nat) (flags : Nat) : (s.judged uid tiles flags).mem = s.mem := rfl

theorem wf_poisonOut {s : State} (h : s.mem.wf = true) (j : Job) : (s.poisonOut j).mem.wf = true := by
  unfold State.poisonOut
  split
  · exact wf_storeBytes h ..
  · exact h

theorem wf_giveVerdict {s : State} (h : s.mem.wf = true) (j : Job) (verdict : Nat) : (s.giveVerdict j verdict).mem.wf = true := by
  unfold State.giveVerdict; grind [wf_putVerdict, wf_endStep, wf_bump, wf_poisonOut]

theorem wf_chargeTiles {s : State} (h : s.mem.wf = true) (j : Job) : (s.chargeTiles j).mem.wf = true := by
  unfold State.chargeTiles; grind [wf_foldlState, modJob_mem, wf_charge, wf_raise]

theorem wf_verdict {s : State} (h : s.mem.wf = true) (j : Job) : (s.verdict j).mem.wf = true := by
  unfold State.verdict; grind [wf_giveVerdict, wf_chargeTiles, wf_schedule, wf_bump, modJob_mem, wf_restart]

theorem wf_tryVerdict {s : State} (h : s.mem.wf = true) (uid : Nat) : (s.tryVerdict uid).mem.wf = true := by
  unfold State.tryVerdict; grind [wf_verdict]

theorem wf_disagree {s : State} (h : s.mem.wf = true) (uid t : Nat) (charged : Bool) : (s.disagree uid t charged).mem.wf = true := by
  unfold State.disagree; grind [wf_bump, modJob_mem]

theorem wf_judge {s : State} (h : s.mem.wf = true) (j : Job) (i : Nat) (c : Check) : (s.judge j i c).mem.wf = true := by
  unfold State.judge; grind [judged_mem, modJob_mem, wf_bump, wf_disagree, wf_tryVerdict]

theorem wf_execCheckRecord {s : State} (h : s.mem.wf = true) (t a : Nat) {s' : State} (hs : execCheckRecord t a s = .next s') :
    s'.mem.wf = true := by
  unfold execCheckRecord at hs; grind [wf_judge]

theorem wf_execCheckRecordTimeout {s : State} (h : s.mem.wf = true) (t a : Nat) {s' : State}
    (hs : execCheckRecordTimeout t a s = .next s') : s'.mem.wf = true := by
  unfold execCheckRecordTimeout at hs; grind [wf_tryVerdict, wf_disagree, judged_mem, modJob_mem]

theorem wf_execGoldenCompare {s : State} (h : s.mem.wf = true) (ctx : Nat) {s' : State} (hs : execGoldenCompare ctx s = .next s') :
    s'.mem.wf = true := by
  unfold execGoldenCompare at hs; grind [judged_mem, freeGolden_mem, wf_tryVerdict, wf_bump, modJob_mem]

theorem wf_execTileTestDone {s : State} (h : s.mem.wf = true) (ctx : Nat) (fails : List Byte) {s' : State}
    (hs : execTileTestDone ctx fails s = .next s') : s'.mem.wf = true := by
  unfold execTileTestDone at hs; grind [modJob_mem, wf_raise, wf_bump, wf_tryVerdict]

theorem wf_execStepEnd {s : State} (h : s.mem.wf = true) (ctx : Nat) {s' : State} (hs : execStepEnd ctx s = .next s') :
    s'.mem.wf = true := by
  unfold execStepEnd at hs; grind [wf_tryVerdict, modJob_mem, countAbandoned_mem, beginPass_mem, wf_endStep]

end Sys2Proof.Proofs
end

section
/-! PROOFS. Memory in its canonical form (O54): the operations of Machine/Jobs. -/

set_option Elab.async false

namespace Sys2Proof.Proofs
open Sys2Proof Sys2Proof.Machine Sys2Proof.Laws

theorem wf_runJobSubmit {s : State} (h : s.mem.wf = true) (c : Cmd) : (runJobSubmit s c).1.mem.wf = true := by
  unfold runJobSubmit; grind [wf_poisonTable, wf_schedule, makeReady_mem]

theorem wf_execJobSubmit {s : State} (h : s.mem.wf = true) (q k : Nat) {s' : State} (hs : execJobSubmit q k s = .next s') :
    s'.mem.wf = true :=
  wf_opcodeRow wf_runJobSubmit h hs

theorem wf_runJobCancel {s : State} (h : s.mem.wf = true) (c : Cmd) : (runJobCancel s c).1.mem.wf = true := by
  unfold runJobCancel; grind [modJob_mem, wf_schedule, finishJob_mem, wf_leaveStep, wf_dropStep, wf_undefineOut]

theorem wf_execJobCancel {s : State} (h : s.mem.wf = true) (q k : Nat) {s' : State} (hs : execJobCancel q k s = .next s') :
    s'.mem.wf = true :=
  wf_opcodeRow wf_runJobCancel h hs

theorem wf_runSchedClient {s : State} (h : s.mem.wf = true) (c : Cmd) : (runSchedClient s c).1.mem.wf = true := wf_schedule h ..

theorem wf_execSchedClient {s : State} (h : s.mem.wf = true) (q k : Nat) {s' : State} (hs : execSchedClient q k s = .next s') :
    s'.mem.wf = true :=
  wf_opcodeRow wf_runSchedClient h hs

theorem wf_runSchedStats {s : State} (h : s.mem.wf = true) (c : Cmd) : (runSchedStats s c).1.mem.wf = true := by
  unfold runSchedStats; grind [wf_foldlState, wf_storeClean, modClient_mem]

theorem wf_execSchedStats {s : State} (h : s.mem.wf = true) (q k : Nat) {s' : State} (hs : execSchedStats q k s = .next s') :
    s'.mem.wf = true :=
  wf_opcodeRow wf_runSchedStats h hs

theorem wf_runSemAlloc {s : State} (h : s.mem.wf = true) (c : Cmd) : (runSemAlloc s c).1.mem.wf = true := by
  unfold runSemAlloc; grind

theorem wf_execSemAlloc {s : State} (h : s.mem.wf = true) (q k : Nat) {s' : State} (hs : execSemAlloc q k s = .next s') :
    s'.mem.wf = true :=
  wf_opcodeRow wf_runSemAlloc h hs

theorem wf_runSemFree {s : State} (h : s.mem.wf = true) (c : Cmd) : (runSemFree s c).1.mem.wf = true := by
  unfold runSemFree; grind

theorem wf_execSemFree {s : State} (h : s.mem.wf = true) (q k : Nat) {s' : State} (hs : execSemFree q k s = .next s') : s'.mem.wf = true :=
  wf_opcodeRow wf_runSemFree h hs

theorem wf_execBoostExpired {s : State} (h : s.mem.wf = true) (sem : Nat) {s' : State} (hs : execBoostExpired sem s = .next s') :
    s'.mem.wf = true := by
  obtain rfl := Host.Outcome.next.inj hs
  split
  · exact wf_teardown h ..
  · exact h

theorem wf_execSpillDrainComplete {s : State} (h : s.mem.wf = true) (ctx : Nat) {s' : State}
    (hs : execSpillDrainComplete ctx s = .next s') : s'.mem.wf = true := by
  unfold execSpillDrainComplete at hs; grind [wf_foldlState, modJob_mem, wf_settleStores]

theorem wf_saveTile {s : State} (h : s.mem.wf = true) (j : Job) (p : Placement) (t area : Nat) : (s.saveTile j p t area).mem.wf = true :=
  wf_storeClean (wf_storeBytes (wf_storeBytes (wf_copyBytes (s := s.draw.2) h ..) ..) ..) ..

theorem wf_foldl_saveTile {s : State} (h : s.mem.wf = true) (j : Job) (p : Placement) (l : List (Nat × Nat)) :
    (l.foldl (fun s (t, a) => s.saveTile j p t a) s).mem.wf = true := by
  induction l generalizing s with
  | nil => exact h
  | cons x l ih =>
    obtain ⟨t, a⟩ := x
    simpa only [List.foldl_cons] using ih (wf_saveTile h j p t a)

theorem wf_execSpillSaveComplete {s : State} (h : s.mem.wf = true) (ctx : Nat) {s' : State} (hs : execSpillSaveComplete ctx s = .next s') :
    s'.mem.wf = true := by
  obtain rfl := Host.Outcome.next.inj hs
  split
  · exact h
  · split
    · split
      · exact h
      · refine wf_schedule ?_
        rw [modJob_mem]
        exact wf_dissolve (wf_foldl_saveTile h ..) ..
    · exact h

theorem wf_restoreTile {s : State} (h : s.mem.wf = true) (p : Placement) (t area : Nat) (sv : Tile) (pause : Nat) :
    (s.restoreTile p t area sv pause).mem.wf = true := by
  unfold State.restoreTile; grind [wf_copyBytes, modTile_mem]

theorem wf_resumeLost {s : State} (h : s.mem.wf = true) (lost : List (Nat × Nat)) : (s.resumeLost lost).mem.wf = true := by
  unfold State.resumeLost; exact wf_foldlState h _ _ (by grind [wf_poisonUse])

theorem wf_execResumeIssue {s : State} (h : s.mem.wf = true) (ctx : Nat) {s' : State} (hs : execResumeIssue ctx s = .next s') :
    s'.mem.wf = true := by
  unfold execResumeIssue at hs; grind [wf_foldlState, wf_restoreTile, wf_freeAreas, countLost_mem, modJob_mem, wf_resumeLost]

end Sys2Proof.Proofs
end

section
/-! PROOFS. Memory in its canonical form (O54): the operations of Machine/Contexts. -/

set_option Elab.async false

namespace Sys2Proof.Proofs
open Sys2Proof Sys2Proof.Machine Sys2Proof.Laws

@[simp] theorem ctxSeed_mem (s : State) (m : Model) : (s.ctxSeed m).2.2.mem = s.mem := by unfold State.ctxSeed; split <;> rfl

theorem wf_runCtxOpen {s : State} (h : s.mem.wf = true) (c : Cmd) : (runCtxOpen s c).1.mem.wf = true := by
  unfold runCtxOpen; grind [wf_putCtx, ctxSeed_mem, wf_allocFrames]

theorem wf_execCtxOpen {s : State} (h : s.mem.wf = true) (q k : Nat) {s' : State} (hs : execCtxOpen q k s = .next s') : s'.mem.wf = true :=
  wf_opcodeRow wf_runCtxOpen h hs

@[simp] theorem freeSeq_mem (s : State) (id : Nat) : (s.freeSeq id).mem = s.mem := by
  unfold State.freeSeq; grind [foldl_mem, freePage_mem, freeFrames_mem]

theorem wf_runCtxClose {s : State} (h : s.mem.wf = true) (c : Cmd) : (runCtxClose s c).1.mem.wf = true := by
  unfold runCtxClose; grind [wf_poisonTable, wf_schedule, wf_dropCtx, freeSeq_mem, wf_breakSems]

theorem wf_execCtxClose {s : State} (h : s.mem.wf = true) (q k : Nat) {s' : State} (hs : execCtxClose q k s = .next s') :
    s'.mem.wf = true :=
  wf_opcodeRow wf_runCtxClose h hs

theorem wf_onSeq {s : State} (h : s.mem.wf = true) (c : Cmd) {f : Nat → SeqCtx → State × Res} (hf : ∀ id q, (f id q).1.mem.wf = true) :
    (s.onSeq c f).1.mem.wf = true := by
  unfold State.onSeq
  grind [wf_poisonTable]

theorem wf_deferKv {s : State} (h : s.mem.wf = true) (c : Cmd) (id : Nat) : (s.deferKv c id).1.mem.wf = true := h

/-- What each round of a fold over answers keeps, its answer keeps. -/
theorem wf_foldlExcept {α : Type} {s s' : State} (h : s.mem.wf = true) (l : List α) (f : Except Nat State → α → Except Nat State)
    (hf : ∀ acc x, (∀ t, acc = .ok t → t.mem.wf = true) → ∀ t, f acc x = .ok t → t.mem.wf = true)
    (hs : l.foldl f (.ok s) = .ok s') : s'.mem.wf = true :=
  List.foldlRecOn (motive := fun acc : Except Nat State => ∀ t, acc = .ok t → t.mem.wf = true) l f
    (fun _ ht => Except.ok.inj ht ▸ h) (fun acc ha x _ => hf acc x ha) s' hs

theorem wf_appendAll {s : State} (h : s.mem.wf = true) (id base n tokens src d : Nat) {s' : State}
    (hs : s.appendAll id base n tokens src d = .ok s') : s'.mem.wf = true :=
  wf_foldlExcept h _ _ (by grind [wf_appendTokens]) hs

theorem wf_runKvAppend {s : State} (h : s.mem.wf = true) (c : Cmd) : (runKvAppend s c).1.mem.wf = true := by
  refine wf_onSeq h c (fun id q => ?_)
  dsimp only
  repeat' split
  all_goals grind [wf_deferKv, wf_appendAll, wf_spillBackground, wf_syncCtx, wf_noteRead]

theorem wf_execKvAppend {s : State} (h : s.mem.wf = true) (q k : Nat) {s' : State} (hs : execKvAppend q k s = .next s') :
    s'.mem.wf = true :=
  wf_opcodeRow wf_runKvAppend h hs

theorem wf_refill {s : State} (h : s.mem.wf = true) (id n i j : Nat) {s' : State} (hs : s.refill id n i j = .ok s') : s'.mem.wf = true := by
  have fetched : ∀ {u}, (s.startFetch id n i).map (fun s => s.endFetch id n i) = .ok u → u.mem.wf = true := by
    intro u hu
    cases ht : s.startFetch id n i with
    | error e => rw [ht] at hu; cases hu
    | ok t =>
      rw [ht] at hu
      exact Except.ok.inj hu ▸ wf_endFetch (wf_startFetch h _ _ _ ht) ..
  unfold State.refill at hs
  grind [wf_endFetch, freeSlot_mem, modPage_mem]

theorem wf_trimList {s : State} (h : s.mem.wf = true) (id n tpp first len : Nat) {s' : State}
    (hs : s.trimList id n tpp first len = .ok s') : s'.mem.wf = true := by
  unfold State.trimList at hs; grind [wf_foldlState, wf_refill, releasePage_mem, modList_mem]

theorem wf_trimAll {s : State} (h : s.mem.wf = true) (id : Nat) (q : SeqCtx) (front back : Nat) {s' : State}
    (hs : s.trimAll id q front back = .ok s') : s'.mem.wf = true :=
  wf_foldlExcept h _ _ (by grind [wf_trimList]) hs

theorem wf_runKvTrim {s : State} (h : s.mem.wf = true) (c : Cmd) : (runKvTrim s c).1.mem.wf = true := by
  refine wf_onSeq h c (fun id q => ?_)
  dsimp only
  repeat' split
  all_goals grind [wf_deferKv, wf_trimAll, wf_syncCtx]

theorem wf_execKvTrim {s : State} (h : s.mem.wf = true) (q k : Nat) {s' : State} (hs : execKvTrim q k s = .next s') : s'.mem.wf = true :=
  wf_opcodeRow wf_runKvTrim h hs

theorem wf_unmove {s : State} (h : s.mem.wf = true) (w : KvWait) (x : Nat × Nat) : (State.unmove w s x).mem.wf = true := by
  unfold State.unmove; grind [wf_setPage, freeSlot_mem, wf_leaveT1, enterFrames_mem, wf_copyBytes]

theorem wf_endKvWait {s : State} (h : s.mem.wf = true) (w : KvWait) : (s.endKvWait w).mem.wf = true := by
  unfold State.endKvWait; grind [wf_foldlState, finishUid_mem, wf_unmove]

theorem wf_endKvWaits {s : State} (h : s.mem.wf = true) : (s.endKvWaits).mem.wf = true := by
  unfold State.endKvWaits; grind [wf_foldlState, wf_endKvWait]

theorem wf_awaitPages {s : State} (h : s.mem.wf = true) (w : KvWait) : (s.awaitPages w).1.mem.wf = true := by
  unfold State.awaitPages
  split <;> exact h

theorem wf_moveOut {s : State} (h : s.mem.wf = true) (c : Cmd) (id : Nat) (q : SeqCtx) : (s.moveOut c id q).1.mem.wf = true := by
  have spilled : ∀ (l : List (Nat × Nat)), (l.foldl (fun s x => (s.startSpill id x.1 x.2).getD s) s).mem.wf = true := fun l =>
    wf_foldlState h l _ (fun s x hs => by
      cases hu : s.startSpill id x.1 x.2 with
      | none => exact hs
      | some u => exact wf_startSpill hs _ _ _ hu)
  unfold State.moveOut
  dsimp only
  repeat' split
  any_goals exact h
  exact wf_awaitPages (wf_syncCtx (wf_foldlState (spilled _) _ _ (fun _ x hs => wf_leaveT1 hs ..)) _) _

theorem wf_fetchAll {s : State} (h : s.mem.wf = true) (id : Nat) (l : List (Nat × Nat)) {s' : State} (hs : s.fetchAll id l = .ok s') :
    s'.mem.wf = true :=
  wf_foldlExcept h _ _ (by grind [wf_startFetch]) hs

theorem wf_moveIn {s : State} (h : s.mem.wf = true) (c : Cmd) (id : Nat) (q : SeqCtx) : (s.moveIn c id q).1.mem.wf = true := by
  unfold State.moveIn; grind [wf_fetchAll, wf_awaitPages, wf_syncCtx]

theorem wf_runKvMove {s : State} (h : s.mem.wf = true) (c : Cmd) : (runKvMove s c).1.mem.wf = true := by
  refine wf_onSeq h c (fun id q => ?_)
  split
  · exact wf_moveOut h ..
  · exact wf_moveIn h ..

theorem wf_execKvMove {s : State} (h : s.mem.wf = true) (q k : Nat) {s' : State} (hs : execKvMove q k s = .next s') : s'.mem.wf = true :=
  wf_opcodeRow wf_runKvMove h hs

theorem wf_tryFetch {s : State × Nat} (h : s.1.mem.wf = true) (x : Nat × Nat) : (State.tryFetch s x).1.mem.wf = true := by
  unfold State.tryFetch
  split
  · rename_i t ht
    exact wf_startFetch h _ _ _ ht
  · exact h

theorem wf_runKvFetch {s : State} (h : s.mem.wf = true) (c : Cmd) : (runKvFetch s c).1.mem.wf = true :=
  wf_onSeq h c (fun _ _ => wf_syncCtx (List.foldlRecOn (motive := fun acc : State × Nat => acc.1.mem.wf = true) _ _ h
    (fun _ ha x _ => wf_tryFetch ha x)) _)

theorem wf_execKvFetch {s : State} (h : s.mem.wf = true) (q k : Nat) {s' : State} (hs : execKvFetch q k s = .next s') : s'.mem.wf = true :=
  wf_opcodeRow wf_runKvFetch h hs

theorem wf_runKvStats {s : State} (h : s.mem.wf = true) (c : Cmd) : (runKvStats s c).1.mem.wf = true := by
  have answer : ∀ q : SeqCtx, (if s.destOk (c.p 0 8) q.stats.length then (s.storeClean (c.p 0 8) q.stats, Res.done q.stats.length)
      else (s, .bad 0)).1.mem.wf = true := fun q => by grind [wf_storeClean]
  have onSeq := wf_onSeq h c (fun _ q => answer q)
  unfold runKvStats
  grind

theorem wf_execKvStats {s : State} (h : s.mem.wf = true) (q k : Nat) {s' : State} (hs : execKvStats q k s = .next s') : s'.mem.wf = true :=
  wf_opcodeRow wf_runKvStats h hs

theorem wf_execKvFetchComplete {s : State} (h : s.mem.wf = true) (ctx list page : Nat) {s' : State}
    (hs : execKvFetchComplete ctx list page s = .next s') : s'.mem.wf = true := by
  unfold execKvFetchComplete at hs; grind [wf_endKvWaits, wf_syncCtx, wf_walkAll, wf_endFetch]

theorem wf_execKvSpillDurable {s : State} (h : s.mem.wf = true) (ctx list page : Nat) {s' : State}
    (hs : execKvSpillDurable ctx list page s = .next s') : s'.mem.wf = true := by
  unfold execKvSpillDurable at hs; grind [wf_endKvWaits, wf_syncCtx, wf_walkAll, wf_endSpill, modPage_mem]

end Sys2Proof.Proofs
end

section
/-! PROOFS. Memory in its canonical form (O54): the operations of Machine/SweepCalc. -/

set_option Elab.async false

namespace Sys2Proof.Proofs
open Sys2Proof Sys2Proof.Machine Sys2Proof.Laws

theorem wf_putRow {s : State} (h : s.mem.wf = true) (t o fmt d r : Nat) (b sc : List PByte) :
    (s.putRow t o fmt d r b sc).mem.wf = true := by
  unfold State.putRow; grind [wf_storeBytes]

theorem wf_countEmpty {s : State} (h : s.mem.wf = true) (id k : Nat) : (s.countEmpty id k).mem.wf = true := by
  unfold State.countEmpty; grind [wf_bump, modSeq_mem]

theorem wf_forwardOut (s0 : State) {s : State} (h : s.mem.wf = true) (t : Nat) (d : List Byte) (q : SeqCtx) (l : KvList)
    (items : List Item) :
    (s0.forwardOut s t d q l items).1.mem.wf = true := by
  unfold State.forwardOut
  exact List.foldlRecOn (motive := fun acc : State × BitVec 9 × Nat => acc.1.mem.wf = true) _ _ h (by grind [wf_putRow, wf_storeBytes])

end Sys2Proof.Proofs
end

section
/-! PROOFS. Memory in its canonical form (O54): the operations of Machine/Sweep. -/

set_option Elab.async false

namespace Sys2Proof.Proofs
open Sys2Proof Sys2Proof.Machine Sys2Proof.Laws

theorem wf_descOffset {s : State} (h : s.mem.wf = true) (t th ra al n : Nat) {s'} (hs : s.descOffset t th ra al n = .error s') :
    s'.mem.wf = true := by
  unfold State.descOffset at hs; grind [wf_poisonUse, wf_threadFault]

theorem wf_execSweepRun {s : State} (h : s.mem.wf = true) (t th ra : Nat) {s' : State} (hs : execSweepRun t th ra s = .next s') :
    s'.mem.wf = true := by
  unfold execSweepRun at hs; grind [wf_descOffset, wf_teardown, modTile_mem, wf_runsPlace]

theorem wf_execSweepWait {s : State} (h : s.mem.wf = true) (t th : Nat) {s' : State} (hs : execSweepWait t th s = .next s') :
    s'.mem.wf = true := by
  obtain rfl := Host.Outcome.next.inj hs
  split <;> exact h

@[simp] theorem sweepDone_mem (s : State) (t th : Nat) : (s.sweepDone t th).mem = s.mem := rfl

theorem wf_execKvGraceExpired {s : State} (h : s.mem.wf = true) (p list page : Nat) {s' : State}
    (hs : execKvGraceExpired p list page s = .next s') : s'.mem.wf = true := by
  unfold execKvGraceExpired at hs; grind [wf_walk]

theorem wf_appendRows {s : State} (h : s.mem.wf = true) (id n : Nat) (m : List Item) {s' : State} (hs : s.appendRows id n m = .ok s') :
    s'.mem.wf = true := by
  fun_induction s.appendRows id n m <;> grind [wf_appendToken]

theorem wf_sweepAppend {s : State} (h : s.mem.wf = true) (r : Run) (id n : Nat) (l : KvList) (items : List Item) :
    (s.sweepAppend r id n l items).mem.wf = true := by
  unfold State.sweepAppend; grind [modJob_mem, modList_mem, wf_appendRows]

theorem wf_countApprox {s : State} (h : s.mem.wf = true) (r : Run) (id k : Nat) : (s.countApprox r id k).mem.wf = true := by
  unfold State.countApprox; grind [wf_bump, modSeq_mem, modJob_mem]

theorem wf_finishForward {s : State} (h : s.mem.wf = true) (w : Sweep) (id n : Nat) (q : SeqCtx) (l : KvList) (d : List Byte) :
    (s.finishForward w id n q l d).mem.wf = true := by
  have out := fun items => wf_forwardOut s h w.run.tile d q l items
  unfold State.finishForward
  grind [wf_countApprox, wf_countEmpty, raiseFlags_mem, wf_countClamped, wf_sweepAppend]

theorem wf_finishBackward {s : State} (h : s.mem.wf = true) (w : Sweep) (id n : Nat) (q : SeqCtx) (l : KvList) (d : List Byte)
    {s' : State} (hs : s.finishBackward w id n q l d = .ok s') : s'.mem.wf = true := by
  unfold State.finishBackward at hs
  dsimp only at hs
  split at hs
  · cases hs
  · split at hs
    · cases hs
    · rename_i u poisoned hm
      have merged : u.mem.wf = true := by
        refine List.foldlRecOn (motive := fun acc : Except Nat (State × Bool) => ∀ t b, acc = .ok (t, b) → t.mem.wf = true) _ _ ?_
          ?_ u poisoned hm
        · intro t b ht
          obtain ⟨rfl, -⟩ := Prod.mk.inj (Except.ok.inj ht)
          exact h
        · intro acc ha x _ t b ht
          split at ht
          · cases ht
          · split at ht
            · cases ht
            · obtain ⟨rfl, -⟩ := Prod.mk.inj (Except.ok.inj ht)
              exact wf_storeBytes (ha _ _ rfl) ..
      split at hs <;> obtain rfl := Except.ok.inj hs
      on_goal 1 => rw [apply_ite State.mem, modJob_mem, ite_self]
      all_goals
        refine wf_countClamped (wf_countEmpty ?_ ..) ..
        rw [raiseFlags_mem]
        refine wf_foldlState merged _ _ (fun u x hu => ?_)
        split
        · exact wf_storeBytes hu ..
        · rw [raiseFlags_mem]; exact wf_putRow hu ..

theorem wf_freePipe {s : State} (h : s.mem.wf = true) (p : Nat) (w : Sweep) : (s.freePipe p w).mem.wf = true := wf_dropHolds h ..

theorem wf_execSweepComplete {s : State} (h : s.mem.wf = true) (p : Nat) {s' : State} (hs : execSweepComplete p s = .next s') :
    s'.mem.wf = true := by
  unfold execSweepComplete at hs
  dsimp only at hs
  repeat' split at hs
  all_goals grind [hold_mem, wf_finishBackward, wf_finishForward, wf_freePipe, wf_runFault, wf_runsPlace, wf_walkAll, wf_spillBackground,
    wf_syncCtx, wf_endKvWaits, wf_noteReads]

end Sys2Proof.Proofs
end

section
/-! PROOFS. Memory in its canonical form (O54): the operations of Machine/Xform. -/

set_option Elab.async false

namespace Sys2Proof.Proofs
open Sys2Proof Sys2Proof.Machine Sys2Proof.Laws

theorem wf_runSpectrum {s : State} (h : s.mem.wf = true) (d : List Byte) : (s.runSpectrum d).mem.wf = true := wf_storeBytes h ..

theorem wf_runConvolve {s : State} (h : s.mem.wf = true) (t : Nat) (d : List Byte) : (s.runConvolve t d).mem.wf = true := by
  unfold State.runConvolve; grind [wf_foldlState, raiseFlags_mem, wf_storeBytes, wf_bump]

theorem wf_execXfRun {s : State} (h : s.mem.wf = true) (t th ra : Nat) {s' : State} (hs : execXfRun t th ra s = .next s') :
    s'.mem.wf = true := by
  unfold execXfRun at hs; grind [wf_descOffset, wf_teardown, modTile_mem, wf_runsPlace]

theorem wf_execXfWait {s : State} (h : s.mem.wf = true) (t th : Nat) {s' : State} (hs : execXfWait t th s = .next s') :
    s'.mem.wf = true := by
  obtain rfl := Host.Outcome.next.inj hs
  split <;> exact h

@[simp] theorem xfDone_mem (s : State) (t th : Nat) : (s.xfDone t th).mem = s.mem := rfl

theorem wf_execXfRunComplete {s : State} (h : s.mem.wf = true) (e : Nat) {s' : State} (hs : execXfRunComplete e s = .next s') :
    s'.mem.wf = true := by
  unfold execXfRunComplete at hs
  dsimp only at hs
  repeat' split at hs
  all_goals grind [hold_mem, wf_runSpectrum, wf_runConvolve, xfDone_mem, touch_mem, wf_noteReads, wf_runsPlace]

end Sys2Proof.Proofs
end

section
/-! PROOFS. Memory in its canonical form (O54): the operations of Machine/Arrays. -/

set_option Elab.async false

namespace Sys2Proof.Proofs
open Sys2Proof Sys2Proof.Machine Sys2Proof.Laws

theorem wf_arrIssue {s : State} (h : s.mem.wf = true) (t th ra rb : Nat) (conv : Bool) : (s.arrIssue t th ra rb conv).mem.wf = true := by
  unfold State.arrIssue; grind [wf_poisonUse, wf_faultPc, wf_descOffset, wf_threadFault, wf_noteRead, modTile_mem]

theorem wf_execArrRun {s : State} (h : s.mem.wf = true) (t th ra rb : Nat) {s' : State} (hs : execArrRun t th ra rb s = .next s') :
    s'.mem.wf = true := by
  obtain rfl := Host.Outcome.next.inj hs
  exact wf_arrIssue h ..

theorem wf_execArrConv {s : State} (h : s.mem.wf = true) (t th ra rb : Nat) {s' : State} (hs : execArrConv t th ra rb s = .next s') :
    s'.mem.wf = true := by
  obtain rfl := Host.Outcome.next.inj hs
  exact wf_arrIssue h ..

theorem wf_execArrWait {s : State} (h : s.mem.wf = true) (t th rb : Nat) {s' : State} (hs : execArrWait t th rb s = .next s') :
    s'.mem.wf = true := by
  unfold execArrWait at hs; grind [wf_poisonUse, wf_faultPc, modThread_mem]

theorem wf_execArrayReductionDone {s : State} (h : s.mem.wf = true) (t a : Nat) {s' : State}
    (hs : execArrayReductionDone t a s = .next s') : s'.mem.wf = true := by
  unfold execArrayReductionDone at hs; grind [wf_threadFault, modTile_mem, wf_noteReads, wf_bump]

theorem wf_execOutputConversionDone {s : State} (h : s.mem.wf = true) (t a : Nat) {s' : State}
    (hs : execOutputConversionDone t a s = .next s') :
    s'.mem.wf = true := by
  obtain rfl := Host.Outcome.next.inj hs
  dsimp only
  split
  · exact h
  · split
    · exact h
    · rw [modTile_mem]
      split
      all_goals
        simp only [modJob_mem, raiseFlags_mem]
        show State.memoryOk _
        exact memoryOk_foldl (memoryOk_foldl h _ _ (fun _ _ hu => memoryOk_storeBytes hu ..)) _ _ (fun _ _ hu => memoryOk_storeBytes hu ..)

end Sys2Proof.Proofs
end

section
/-! PROOFS. Memory in its canonical form (O54): the operations of Machine/Loads. -/

set_option Elab.async false

namespace Sys2Proof.Proofs
open Sys2Proof Sys2Proof.Machine Sys2Proof.Laws

theorem wf_access {s : State} (h : s.mem.wf = true) (t th : Nat) (ea : PVal) (n al : Nat) (write : Bool) {s'}
    (hs : s.access t th ea n al write = .error s') : s'.mem.wf = true := by
  unfold State.access at hs; grind [wf_poisonUse, wf_threadFault]

@[simp] theorem readTileReg_mem (s : State) (t a n : Nat) : (s.readTileReg t a n).2.mem = s.mem := by
  unfold State.readTileReg; grind [tileReg_mem, State.draw]

theorem wf_execLoad {s : State} (h : s.mem.wf = true) (t th mod rd ra imm : Nat) (ups : List Upset) {s' : State}
    (hs : execLoad t th mod rd ra imm ups s = .next s') : s'.mem.wf = true := by
  unfold execLoad at hs; grind [wf_foldlState, wf_faultPc, wf_access, readTileReg_mem, modThread_mem, hold_mem, wf_threadLoad, wf_strike,
    wf_crewProgress]

theorem wf_execStore {s : State} (h : s.mem.wf = true) (t th mod ra rb imm : Nat) {s' : State}
    (hs : execStore t th mod ra rb imm s = .next s') : s'.mem.wf = true := by
  unfold execStore at hs; grind [wf_faultPc, wf_access, modTile_mem, modThread_mem, wf_threadStore, State.draw]

theorem wf_execAtomic {s : State} (h : s.mem.wf = true) (t th mod rd ra rb : Nat) {s' : State}
    (hs : execAtomic t th mod rd ra rb s = .next s') : s'.mem.wf = true := by
  unfold execAtomic at hs; grind [wf_faultPc, wf_access, wf_threadFault, hold_mem, wf_settle, wf_noteRead, wf_storeBytes, modTile_mem,
    wf_crewProgress, modThread_mem]

theorem wf_loadPieces {s : State} (h : s.mem.wf = true) (t : Nat) (l : List (Nat × Nat)) : (s.loadPieces t l).1.mem.wf = true :=
  List.foldlRecOn (motive := fun acc : State × List PByte => acc.1.mem.wf = true) _ _ h (fun _ ha _ _ => wf_threadLoad ha ..)

theorem wf_storePieces {s : State} (h : s.mem.wf = true) (t th : Nat) (l : List (Nat × Nat)) (b : List PByte) :
    (s.storePieces t th l b).mem.wf = true :=
  List.foldlRecOn (motive := fun acc : State × List PByte => acc.1.mem.wf = true) _ _ h (fun _ ha _ _ => wf_threadStore ha ..)

theorem wf_execVectorLoad {s : State} (h : s.mem.wf = true) (t th rd ra imm : Nat) {s' : State}
    (hs : execVectorLoad t th rd ra imm s = .next s') :
    s'.mem.wf = true := by
  have words : ∀ (l : List Nat) a, (l.foldl (fun (acc : List Nat × State) i =>
      (acc.1 ++ [(acc.2.readTileReg t (a + 8 * i) 8).1], (acc.2.readTileReg t (a + 8 * i) 8).2)) ([], s)).2.mem = s.mem := fun l a =>
    List.foldlRecOn (motive := fun acc : List Nat × State => acc.2.mem = s.mem) _ _ rfl
      (fun acc ha i _ => (readTileReg_mem acc.2 t (a + 8 * i) 8).trans ha)
  obtain rfl := Host.Outcome.next.inj hs
  split
  · split
    · rename_i s1 hs1
      exact wf_access h _ _ _ _ _ _ hs1
    · dsimp only
      split
      · rw [modThread_mem, words]; exact h
      · split
        · rw [hold_mem]; exact h
        · refine wf_crewProgress ?_ ..
          rw [modThread_mem]; exact wf_loadPieces h ..
  · exact h

theorem wf_execVectorStore {s : State} (h : s.mem.wf = true) (t th rd ra imm : Nat) {s' : State}
    (hs : execVectorStore t th rd ra imm s = .next s') : s'.mem.wf = true := by
  unfold execVectorStore at hs; grind [wf_access, modThread_mem, wf_storePieces]

end Sys2Proof.Proofs
end

section
/-! PROOFS. Memory in its canonical form (O54): the operations of Machine/VecUnit. -/

set_option Elab.async false

namespace Sys2Proof.Proofs
open Sys2Proof Sys2Proof.Machine Sys2Proof.Laws

theorem wf_execVectorOp {s : State} (h : s.mem.wf = true) (t th mod rd ra rb : Nat) {s' : State}
    (hs : execVectorOp t th mod rd ra rb s = .next s') : s'.mem.wf = true := by
  unfold execVectorOp at hs; grind [wf_faultPc, raiseFlags_mem, modThread_mem]

theorem wf_execPrefixScan {s : State} (h : s.mem.wf = true) (t th mod rd ra rb : Nat) {s' : State}
    (hs : execPrefixScan t th mod rd ra rb s = .next s') : s'.mem.wf = true := by
  unfold execPrefixScan at hs; grind [wf_faultPc, raiseFlags_mem, modThread_mem]

end Sys2Proof.Proofs
end

section
/-! PROOFS. Memory in its canonical form (O54): the operations of Machine/Bows. -/

set_option Elab.async false

namespace Sys2Proof.Proofs
open Sys2Proof Sys2Proof.Machine Sys2Proof.Laws

theorem wf_execBowStart {s : State} (h : s.mem.wf = true) (t th ra rb : Nat) {s' : State} (hs : execBowStart t th ra rb s = .next s') :
    s'.mem.wf = true := by
  unfold execBowStart at hs; grind [wf_poisonUse, wf_faultPc, sendOwn_mem, modThread_mem, startWaited_mem, modTile_mem]

@[simp] theorem wakeBow_mem (s : State) (t e : Nat) : (s.wakeBow t e).mem = s.mem := rfl

theorem wf_execBowWait {s : State} (h : s.mem.wf = true) (t th rb : Nat) {s' : State} (hs : execBowWait t th rb s = .next s') :
    s'.mem.wf = true := by
  unfold execBowWait at hs; grind [wf_poisonUse, wf_faultPc, modThread_mem]

@[simp] theorem bowNext_mem (s : State) (t e : Nat) : (s.bowNext t e).mem = s.mem := rfl

@[simp] theorem slotStart_mem (s : State) (t e i : Nat) (st : SlotState) (d : List PByte) : (s.slotStart t e i st d).mem = s.mem := rfl

@[simp] theorem bowMove_mem (s : State) (j : Job) (t e : Nat) (d : List PByte) : (s.bowMove j t e d).mem = s.mem := by
  unfold State.bowMove; grind [bowNext_mem, modTile_mem, modBow_mem, modSlot_mem, slotStart_mem]

theorem wf_bowExec {s : State} (h : s.mem.wf = true) (j : Job) (t e : Nat) (d : List PByte) : (s.bowExec j t e d).mem.wf = true := by
  unfold State.bowExec; grind [wf_poisonUse, wf_threadFault, modBow_mem, bowNext_mem, wf_crewProgress, wakeBow_mem, bowMove_mem]

theorem wf_readPieces {s : State} (h : s.mem.wf = true) (ups : List Upset) (l : List (Nat × Nat)) :
    (s.readPieces ups l).1.mem.wf = true := by
  unfold State.readPieces; grind [wf_foldlState, wf_strike, wf_noteReads]

theorem wf_execBowDescriptor {s : State} (h : s.mem.wf = true) (t e : Nat) (ups : List Upset) {s' : State}
    (hs : execBowDescriptor t e ups s = .next s') : s'.mem.wf = true := by
  unfold execBowDescriptor at hs; grind [wf_threadFault, hold_mem, wf_readPieces, modBow_mem, wf_bowExec]

theorem wf_outerStore {s : State} (h : s.mem.wf = true) (t : Nat) (l : List (Nat × Nat)) (b : List PByte) :
    (s.outerStore t l b).mem.wf = true :=
  List.foldlRecOn (motive := fun acc : State × List PByte => acc.1.mem.wf = true) _ _ h (fun _ ha _ _ => wf_homeStore ha ..)

@[simp] theorem setSlot_mem (s : State) (t i : Nat) (st : SlotState) : (s.setSlot t i st).mem = s.mem := rfl

theorem wf_execFillComplete {s : State} (h : s.mem.wf = true) (t slot : Nat) {s' : State} (hs : execFillComplete t slot s = .next s') :
    s'.mem.wf = true := by
  have hit : (s.hitLayer t slot).memoryOk := by unfold State.memoryOk; rwa [hitLayer_mem]
  have noted : ∀ l : List (List (Nat × Nat)), State.memoryOk (l.foldl State.noteReads (s.hitLayer t slot)) := fun l =>
    memoryOk_foldl hit l _ (fun _ _ hu => wf_noteReads hu _)
  obtain rfl := Host.Outcome.next.inj hs
  dsimp only
  repeat' split
  any_goals exact h
  · rw [hold_mem]; exact h
  · refine wf_crewProgress ?_ ..
    rw [setSlot_mem]
    exact noted _
  · refine wf_crewProgress ?_ ..
    rw [wakeBuf_mem, setSlot_mem]
    exact memoryOk_foldl (noted _) _ _ (fun _ _ hu => memoryOk_storeBytes hu ..)

theorem wf_execDrainComplete {s : State} (h : s.mem.wf = true) (t slot : Nat) {s' : State} (hs : execDrainComplete t slot s = .next s') :
    s'.mem.wf = true := by
  unfold execDrainComplete at hs; grind [wf_foldlState, setSlot_mem, hold_mem, wf_outerStore, wf_noteRead, wf_crewProgress, wakeBow_mem]

theorem wf_execBufWait {s : State} (h : s.mem.wf = true) (t th rd imm : Nat) {s' : State} (hs : execBufWait t th rd imm s = .next s') :
    s'.mem.wf = true := by
  unfold execBufWait at hs; grind [wf_faultPc, modThread_mem, hitLayer_mem, startWaited_mem]

theorem wf_execBufPost {s : State} (h : s.mem.wf = true) (t th imm : Nat) {s' : State} (hs : execBufPost t th imm s = .next s') :
    s'.mem.wf = true := by
  unfold execBufPost at hs; grind [wf_faultPc, modThread_mem, setSlot_mem]

theorem wf_execBufRelease {s : State} (h : s.mem.wf = true) (t th imm : Nat) {s' : State} (hs : execBufRelease t th imm s = .next s') :
    s'.mem.wf = true := by
  unfold execBufRelease at hs; grind [wf_faultPc, modThread_mem, setSlot_mem, modSlot_mem]

theorem wf_execStepDone {s : State} (h : s.mem.wf = true) (t th : Nat) {s' : State} (hs : execStepDone t th s = .next s') :
    s'.mem.wf = true := by
  obtain rfl := Host.Outcome.next.inj hs
  split <;> exact h

theorem wf_execFetchDeadline {s : State} (h : s.mem.wf = true) (t slot : Nat) {s' : State} (hs : execFetchDeadline t slot s = .next s') :
    s'.mem.wf = true := by
  unfold execFetchDeadline at hs; grind [wf_crewProgress, wakeBuf_mem, hitLayer_mem]

end Sys2Proof.Proofs
end

section
/-! PROOFS. Memory in its canonical form (O54): the operations of Machine/Stroke. -/

set_option Elab.async false

namespace Sys2Proof.Proofs
open Sys2Proof Sys2Proof.Machine Sys2Proof.Laws

theorem wf_endTune {s : State} (h : s.mem.wf = true) (l status : Nat) : (s.endTune l status).mem.wf = true := by
  unfold State.endTune; grind [modLoop_mem, finishUid_mem, wf_storeClean, wf_raise]

theorem wf_followingError {s : State} (h : s.mem.wf = true) (l action reason : Nat) :
    (s.followingError l action reason).mem.wf = true := wf_raise h ..

theorem wf_loopFault {s : State} (h : s.mem.wf = true) (l action reason : Nat) : (s.loopFault l action reason).mem.wf = true := by
  unfold State.loopFault; grind [wf_endTune, modLoop_mem, wf_followingError]

theorem wf_applyStaged {s : State} (h : s.mem.wf = true) (c l : Nat) (x : Staged) : (s.applyStaged c l x).mem.wf = true := by
  unfold State.applyStaged; grind [modLoop_mem, wf_endTune, finishUid_mem, State.draw]

theorem wf_applyAllStaged {s : State} (h : s.mem.wf = true) (c l : Nat) : (s.applyAllStaged c l).mem.wf = true := by
  unfold State.applyAllStaged; grind [wf_foldlState, modLoop_mem, wf_applyStaged]

theorem wf_stage {s : State} (h : s.mem.wf = true) (l : Nat) (x : Staged) : (s.stage l x).mem.wf = true := by
  unfold State.stage; grind [modLoop_mem, wf_applyAllStaged]

@[simp] theorem markTune_mem (s : State) (l : Nat) : (s.markTune l).mem = s.mem := by
  unfold State.markTune; grind [modLoop_mem]

theorem wf_loopSample {s : State} (h : s.mem.wf = true) (l f : Nat) : (s.loopSample l f).mem.wf = true := by
  unfold State.loopSample; grind [modLoop_mem, markTune_mem, wf_raise]

theorem wf_loopMiss {s : State} (h : s.mem.wf = true) (l : Nat) : (s.loopMiss l).mem.wf = true := by
  unfold State.loopMiss; grind [markTune_mem, wf_bump, modLoop_mem]

@[simp] theorem sendPositions_mem (s : State) (c : Nat) : (s.sendPositions c).mem = s.mem := by unfold State.sendPositions; split <;> rfl

theorem wf_cutoff {s : State} (h : s.mem.wf = true) (c : Nat) : (s.cutoff c).mem.wf = true := by
  unfold State.cutoff; grind [wf_foldlState, modChain_mem, sendPositions_mem, wf_loopMiss]

theorem wf_lateCycle {s : State} (h : s.mem.wf = true) (c : Nat) : (s.lateCycle c).mem.wf = true := by
  unfold State.lateCycle; grind [wf_bump, modChain_mem, wf_raise]

theorem wf_leaveTune {s : State} (h : s.mem.wf = true) (l : Nat) : (s.leaveTune l).mem.wf = true := by
  unfold State.leaveTune
  split
  · exact wf_endTune h ..
  · exact h

theorem wf_loopInstant {s : State} (h : s.mem.wf = true) (c l : Nat) : (s.loopInstant c l).mem.wf = true := by
  unfold State.loopInstant; grind [wf_leaveTune, modLoop_mem, wf_applyAllStaged, wf_loopFault]

theorem wf_execSampleInstant {s : State} (h : s.mem.wf = true) (c : Nat) {s' : State} (hs : execSampleInstant c s = .next s') :
    s'.mem.wf = true := by
  unfold execSampleInstant at hs; grind [wf_foldlState, wf_cutoff, modChain_mem, wf_lateCycle, wf_loopInstant]

theorem wf_takeWords {s : State} (h : s.mem.wf = true) (c : Nat) (frame : List Byte) : (s.takeWords c frame).mem.wf = true := by
  unfold State.takeWords; exact wf_foldlState h _ _ (by grind [wf_loopSample])

theorem wf_checkFcs {s : State} (h : s.mem.wf = true) (c : Nat) (frame : List Byte) : (s.checkFcs c frame).mem.wf = true := by
  unfold State.checkFcs
  split
  · exact h
  · exact wf_bump h ..

theorem wf_execChainFrameReturn {s : State} (h : s.mem.wf = true) (c : Nat) (frame : List Byte) {s' : State}
    (hs : execChainFrameReturn c frame s = .next s') : s'.mem.wf = true := by
  unfold execChainFrameReturn at hs; grind [wf_checkFcs, modChain_mem, wf_takeWords, wf_bump]

theorem wf_execFeedbackCutoff {s : State} (h : s.mem.wf = true) (cut : ChainCut) {s' : State} (hs : execFeedbackCutoff cut s = .next s') :
    s'.mem.wf = true := by
  unfold execFeedbackCutoff at hs; grind [wf_cutoff, wf_takeWords, modChain_mem]

@[simp] theorem dropEnables_mem (s : State) (l : Nat) : (s.dropEnables l).mem = s.mem := rfl

theorem wf_chainClockLost {s : State} (h : s.mem.wf = true) (c : Nat) : (s.chainClockLost c).mem.wf = true := by
  unfold State.chainClockLost; grind [wf_foldlState, wf_raise, wf_bump, modChain_mem, sendPositions_mem, wf_loopFault, wf_applyAllStaged,
    dropEnables_mem]

theorem wf_execChainClockLost {s : State} (h : s.mem.wf = true) (c : Nat) {s' : State} (hs : execChainClockLost c s = .next s') :
    s'.mem.wf = true := by
  unfold execChainClockLost at hs; grind [wf_chainClockLost]

theorem wf_execFfCommit {s : State} (h : s.mem.wf = true) (c : Nat) {s' : State} (hs : execFfCommit c s = .next s') : s'.mem.wf = true := by
  unfold execFfCommit at hs; grind [modChain_mem, wf_bump, wf_raise]

theorem wf_runStrokeChain {s : State} (h : s.mem.wf = true) (c : Cmd) : (runStrokeChain s c).1.mem.wf = true := by
  unfold runStrokeChain; grind [wf_cutoff, modChain_mem]

theorem wf_execStrokeChain {s : State} (h : s.mem.wf = true) (q k : Nat) {s' : State} (hs : execStrokeChain q k s = .next s') :
    s'.mem.wf = true :=
  wf_opcodeRow wf_runStrokeChain h hs

theorem wf_runStrokeLoop {s : State} (h : s.mem.wf = true) (c : Cmd) : (runStrokeLoop s c).1.mem.wf = true := by
  unfold runStrokeLoop; grind [modLoop_mem]

theorem wf_execStrokeLoop {s : State} (h : s.mem.wf = true) (q k : Nat) {s' : State} (hs : execStrokeLoop q k s = .next s') :
    s'.mem.wf = true :=
  wf_opcodeRow wf_runStrokeLoop h hs

theorem wf_runStrokeProfile {s : State} (h : s.mem.wf = true) (c : Cmd) : (runStrokeProfile s c).1.mem.wf = true := by
  unfold runStrokeProfile; grind [wf_stage, modLoop_mem]

theorem wf_execStrokeProfile {s : State} (h : s.mem.wf = true) (q k : Nat) {s' : State} (hs : execStrokeProfile q k s = .next s') :
    s'.mem.wf = true :=
  wf_opcodeRow wf_runStrokeProfile h hs

theorem wf_runStrokeLimit {s : State} (h : s.mem.wf = true) (c : Cmd) : (runStrokeLimit s c).1.mem.wf = true := wf_stage h ..

theorem wf_execStrokeLimit {s : State} (h : s.mem.wf = true) (q k : Nat) {s' : State} (hs : execStrokeLimit q k s = .next s') :
    s'.mem.wf = true :=
  wf_opcodeRow wf_runStrokeLimit h hs

theorem wf_runStrokeTarget {s : State} (h : s.mem.wf = true) (c : Cmd) : (runStrokeTarget s c).1.mem.wf = true := by
  unfold runStrokeTarget
  split
  · exact h
  · exact wf_stage h ..

theorem wf_execStrokeTarget {s : State} (h : s.mem.wf = true) (q k : Nat) {s' : State} (hs : execStrokeTarget q k s = .next s') :
    s'.mem.wf = true :=
  wf_opcodeRow wf_runStrokeTarget h hs

theorem wf_runStrokeEnable {s : State} (h : s.mem.wf = true) (c : Cmd) : (runStrokeEnable s c).1.mem.wf = true := by
  unfold runStrokeEnable; grind [wf_stage]

theorem wf_execStrokeEnable {s : State} (h : s.mem.wf = true) (q k : Nat) {s' : State} (hs : execStrokeEnable q k s = .next s') :
    s'.mem.wf = true :=
  wf_opcodeRow wf_runStrokeEnable h hs

theorem wf_runStrokeTune {s : State} (h : s.mem.wf = true) (c : Cmd) : (runStrokeTune s c).1.mem.wf = true := by
  unfold runStrokeTune; grind [wf_stage]

theorem wf_execStrokeTune {s : State} (h : s.mem.wf = true) (q k : Nat) {s' : State} (hs : execStrokeTune q k s = .next s') :
    s'.mem.wf = true :=
  wf_opcodeRow wf_runStrokeTune h hs

theorem wf_runStrokeFf {s : State} (h : s.mem.wf = true) (c : Cmd) : (runStrokeFf s c).1.mem.wf = true := h

theorem wf_execStrokeFf {s : State} (h : s.mem.wf = true) (q k : Nat) {s' : State} (hs : execStrokeFf q k s = .next s') :
    s'.mem.wf = true :=
  wf_opcodeRow wf_runStrokeFf h hs

@[simp] theorem clearSat_mem (s : State) (l w : Nat) : (s.clearSat l w).mem = s.mem := rfl

@[simp] theorem strokeWrite_mem (s : State) (o v mask : Nat) : (s.strokeWrite o v mask).mem = s.mem := by
  unfold State.strokeWrite; grind [modChain_mem, clearSat_mem, modLoop_mem]

end Sys2Proof.Proofs
end

section
/-! PROOFS. Memory in its canonical form (O54): the operations of Machine/Tracks. -/

set_option Elab.async false

namespace Sys2Proof.Proofs
open Sys2Proof Sys2Proof.Machine Sys2Proof.Laws

@[simp] theorem poseAt_mem (s : State) (t : ℤ) : (s.poseAt t).2.mem = s.mem := by unfold State.poseAt; split <;> rfl

@[simp] theorem placeFrame_mem (s : State) (f : ObsFrame) (reused : Bool) : (s.placeFrame f reused).2.mem = s.mem := by
  unfold State.placeFrame; grind [poseAt_mem]

theorem wf_birth (tn : Int) {acc : State × List Live} (h : acc.1.mem.wf = true) (z : Placed) : (State.birth tn acc z).1.mem.wf = true := by
  unfold State.birth
  grind [wf_bump, wf_putCtx]

theorem wf_dropPoisoned {s : State} (h : s.mem.wf = true) : (s.dropPoisoned).mem.wf = true := by
  unfold State.dropPoisoned; exact wf_foldlState h _ _ (by grind [wf_raise, wf_bump, wf_dropCtx])

@[simp] theorem refinePairs_mem (s : State) (i : Nat) (ls : List Live) : (s.refinePairs i ls).2.mem = s.mem := by
  unfold State.refinePairs
  exact List.foldlRecOn (motive := fun acc : List V3 × State => acc.2.mem = s.mem) _ _ rfl (by grind [poseAt_mem])

@[simp] theorem refine_mem (s : State) (ls : List Live) (i : Nat) : (s.refine ls i).mem = s.mem := by
  unfold State.refine; grind [refinePairs_mem, modStream_mem]

end Sys2Proof.Proofs
end

section
/-! PROOFS. Memory in its canonical form (O54): the operations of Machine/Fusion. -/

set_option Elab.async false

namespace Sys2Proof.Proofs
open Sys2Proof Sys2Proof.Machine Sys2Proof.Laws

theorem wf_fuseGate {s : State} (h : s.mem.wf = true) {r : State × Res} (hr : r.1.mem.wf = true) : (s.fuseGate r).1.mem.wf = true := by
  unfold State.fuseGate; grind

theorem wf_fuseSetup {s : State} (h : s.mem.wf = true) {r : State × Res} (hr : r.1.mem.wf = true) : (s.fuseSetup r).1.mem.wf = true := by
  unfold State.fuseSetup; grind [wf_fuseGate]

theorem wf_runFuseStream {s : State} (h : s.mem.wf = true) (c : Cmd) : (runFuseStream s c).1.mem.wf = true := wf_fuseSetup h h

theorem wf_execFuseStream {s : State} (h : s.mem.wf = true) (q k : Nat) {s' : State} (hs : execFuseStream q k s = .next s') :
    s'.mem.wf = true :=
  wf_opcodeRow wf_runFuseStream h hs

theorem wf_runFuseXform {s : State} (h : s.mem.wf = true) (c : Cmd) : (runFuseXform s c).1.mem.wf = true := wf_fuseGate h h

theorem wf_execFuseXform {s : State} (h : s.mem.wf = true) (q k : Nat) {s' : State} (hs : execFuseXform q k s = .next s') :
    s'.mem.wf = true :=
  wf_opcodeRow wf_runFuseXform h hs

theorem wf_runFuseLink {s : State} (h : s.mem.wf = true) (c : Cmd) : (runFuseLink s c).1.mem.wf = true := wf_fuseSetup h h

theorem wf_execFuseLink {s : State} (h : s.mem.wf = true) (q k : Nat) {s' : State} (hs : execFuseLink q k s = .next s') :
    s'.mem.wf = true :=
  wf_opcodeRow wf_runFuseLink h hs

theorem wf_runFuseTracks {s : State} (h : s.mem.wf = true) (c : Cmd) : (runFuseTracks s c).1.mem.wf = true := by
  unfold runFuseTracks; grind [wf_fuseSetup, modFuse_mem]

theorem wf_execFuseTracks {s : State} (h : s.mem.wf = true) (q k : Nat) {s' : State} (hs : execFuseTracks q k s = .next s') :
    s'.mem.wf = true :=
  wf_opcodeRow wf_runFuseTracks h hs

theorem wf_runFuseOut {s : State} (h : s.mem.wf = true) (c : Cmd) : (runFuseOut s c).1.mem.wf = true := by
  unfold runFuseOut; grind [wf_fuseSetup, modFuse_mem, wf_storeClean]

theorem wf_execFuseOut {s : State} (h : s.mem.wf = true) (q k : Nat) {s' : State} (hs : execFuseOut q k s = .next s') : s'.mem.wf = true :=
  wf_opcodeRow wf_runFuseOut h hs

theorem wf_runFuseEnable {s : State} (h : s.mem.wf = true) (c : Cmd) : (runFuseEnable s c).1.mem.wf = true := by
  unfold runFuseEnable; grind [wf_fuseGate, touch_mem, modFuse_mem, wf_fuseStop, wakeDomain_mem]

theorem wf_execFuseEnable {s : State} (h : s.mem.wf = true) (q k : Nat) {s' : State} (hs : execFuseEnable q k s = .next s') :
    s'.mem.wf = true :=
  wf_opcodeRow wf_runFuseEnable h hs

@[simp] theorem writeSRing_mem (s : State) (i v mask : Nat) : (s.writeSRing i v mask).mem = s.mem := by
  unfold State.writeSRing; grind [modStream_mem]

theorem wf_execFuseSRingWrite {s : State} (h : s.mem.wf = true) (i v mask : Nat) {s' : State}
    (hs : execFuseSRingWrite i v mask s = .next s') : s'.mem.wf = true := by
  unfold execFuseSRingWrite at hs; grind [writeSRing_mem]

@[simp] theorem slotField_mem (s : State) (pd : List PByte) (o n : Nat) : (s.slotField pd o n).2.mem = s.mem := by
  unfold State.slotField; grind [State.draw]

theorem wf_takeFrame_ {s : State} (h : s.mem.wf = true) (i : Nat) (pd : List PByte) : (s.takeFrame_ i pd).2.mem.wf = true := by
  unfold State.takeFrame_; grind [slotField_mem, wf_bump]

theorem wf_lateFrame {s : State} (h : s.mem.wf = true) (f : ObsFrame) : (s.lateFrame f).mem.wf = true := by
  unfold State.lateFrame; grind [modFuse_mem, wf_bump, placeFrame_mem]

@[simp] theorem pairFrame_mem (s : State) (n : Nat) (f : ObsFrame) (reused : Bool) (expected : Option Nat) :
    (s.pairFrame n f reused expected).mem = s.mem := rfl

theorem wf_leadFrame {s : State} (h : s.mem.wf = true) (f : ObsFrame) (expected : Option Nat) : (s.leadFrame f expected).mem.wf = true := by
  unfold State.leadFrame; grind [modFuse_mem, pairFrame_mem, wf_lateFrame]

theorem wf_toInstant {s : State} (h : s.mem.wf = true) (n : ℤ) (f : ObsFrame) (expected : Option Nat) :
    (s.toInstant n f expected).mem.wf = true := by
  unfold State.toInstant
  split
  · exact wf_lateFrame h ..
  · exact h

theorem wf_followFrame {s : State} (h : s.mem.wf = true) (lead i : Nat) (f : ObsFrame) (prev : Option ObsFrame) (expected : Option Nat) :
    (s.followFrame lead i f prev expected).mem.wf = true := by
  unfold State.followFrame; grind [wf_toInstant, modStream_mem, wf_bump, wf_raise, modFuse_mem, pairFrame_mem]

theorem wf_takeObs {s : State} (h : s.mem.wf = true) (i : Nat) (f : ObsFrame) : (s.takeObs i f).mem.wf = true := by
  unfold State.takeObs; grind [modStream_mem, wf_leadFrame, wf_followFrame]

theorem wf_takeEgo {s : State} (h : s.mem.wf = true) (i : Nat) (pd : List PByte) : (s.takeEgo i pd).mem.wf = true := by
  unfold State.takeEgo; grind [wf_bump, modStream_mem, modFuse_mem]

theorem wf_execInputSlotReady {s : State} (h : s.mem.wf = true) (i : Nat) {s' : State} (hs : execInputSlotReady i s = .next s') :
    s'.mem.wf = true := by
  unfold execInputSlotReady at hs; grind [hold_mem, modStream_mem, wf_storeClean, wf_noteRead, wf_takeFrame_, wf_takeObs, wf_takeEgo]

theorem wf_execCoastedInstant {s : State} (h : s.mem.wf = true) {s' : State} (hs : execCoastedInstant s = .next s') : s'.mem.wf = true := by
  unfold execCoastedInstant at hs; grind [modFuse_mem]

theorem wf_setLevel {s : State} (h : s.mem.wf = true) (l : Nat) : (s.setLevel l).mem.wf = true := by
  unfold State.setLevel; grind [wf_raise, modFuse_mem]

theorem wf_moveLevel {s : State} (h : s.mem.wf = true) (c : Nat) : (s.moveLevel c).mem.wf = true := by
  unfold State.moveLevel; grind [modFuse_mem, wf_setLevel]

@[simp] theorem deadReckon_mem (s : State) (tn : ℤ) (present : List Nat) : (s.deadReckon tn present).mem = s.mem := rfl

theorem wf_writeRecord {s : State} (h : s.mem.wf = true) (hd : RecHead) (body : List (List Byte)) :
    (s.writeRecord hd body).mem.wf = true := by
  unfold State.writeRecord
  dsimp only
  split
  · rw [modFuse_mem]
    exact wf_bump (by rw [slotField_mem]; exact h) ..
  · rw [modFuse_mem]
    exact wf_storeClean (wf_foldlState (by rw [slotField_mem]; exact h) _ _ (fun _ _ hu => wf_storeClean hu ..)) ..

theorem wf_trackInstant {s : State} (h : s.mem.wf = true) (tn : Int) (frames : List Paired) :
    (s.trackInstant tn frames).1.mem.wf = true := by
  have placed : ∀ (l : List Paired), (l.foldl (fun (acc : List (List Placed) × State) p =>
      (acc.1 ++ [(acc.2.placeFrame p.frame p.reused).1], (acc.2.placeFrame p.frame p.reused).2)) ([], s)).2.mem = s.mem := fun l =>
    List.foldlRecOn (motive := fun acc : List (List Placed) × State => acc.2.mem = s.mem) _ _ rfl
      (fun acc ha p _ => (placeFrame_mem acc.2 p.frame p.reused).trans ha)
  have born : ∀ (l : List Placed) (acc : State × List Live), acc.1.mem.wf = true → (l.foldl (State.birth tn) acc).1.mem.wf = true :=
    fun l acc ha => List.foldlRecOn (motive := fun acc : State × List Live => acc.1.mem.wf = true) l _ ha (fun _ hb z _ => wf_birth tn hb z)
  have kept : ∀ (l : List Live) (u : State), u.mem.wf = true → (l.foldl (fun s l => s.putCtx l.id (trackCtx l.t)) u).mem.wf = true :=
    fun l u hu => wf_foldlState hu l _ (fun _ _ hv => wf_putCtx hv ..)
  have gone : ∀ (l : List Live) (u : State), u.mem.wf = true → (l.foldl (fun s l => s.dropCtx l.id) u).mem.wf = true :=
    fun l u hu => wf_foldlState hu l _ (fun _ _ hv => wf_dropCtx hv ..)
  unfold State.trackInstant
  dsimp only
  split
  · refine wf_foldlState (kept _ _ (gone _ _ (born _ _ ?_))) _ _ (fun u i hu => ?_)
    · rw [placed]; exact h
    · split
      · rw [refine_mem]; exact hu
      · exact hu
  · exact kept _ _ (gone _ _ (born _ _ h))

theorem wf_outputInstant {s : State} (h : s.mem.wf = true) (k : Instant) (due : List Nat) (frames : List Paired) (carried : Bool)
    (births deletions : Nat) : (s.outputInstant k due frames carried births deletions).mem.wf = true := by
  unfold State.outputInstant; grind [wf_writeRecord, poseAt_mem]

@[simp] theorem afterClose_mem (s : State) (n : Nat) (due present : List Nat) : (s.afterClose n due present).mem = s.mem := rfl

theorem wf_closeInstant {s : State} (h : s.mem.wf = true) (k : Instant) : (s.closeInstant k).mem.wf = true := by
  unfold State.closeInstant
  dsimp only
  rw [afterClose_mem]
  refine wf_outputInstant ?_ ..
  simp only [modFuse_mem]
  refine wf_trackInstant (wf_moveLevel ?_ ..) ..
  rw [deadReckon_mem]
  exact wf_dropPoisoned h

theorem wf_execInstantClose {s : State} (h : s.mem.wf = true) {s' : State} (hs : execInstantClose s = .next s') : s'.mem.wf = true := by
  unfold execInstantClose at hs; grind [hold_mem, wf_closeInstant]

theorem wf_execDegradedRecord {s : State} (h : s.mem.wf = true) {s' : State} (hs : execDegradedRecord s = .next s') : s'.mem.wf = true := by
  unfold execDegradedRecord at hs; grind [wf_setLevel, modFuse_mem, wf_writeRecord, afterClose_mem]

end Sys2Proof.Proofs
end

section
/-! PROOFS. Memory in its canonical form (O54): the operations of Machine/Image. -/

set_option Elab.async false

namespace Sys2Proof.Proofs
open Sys2Proof Sys2Proof.Machine Sys2Proof.Laws

theorem wf_poisonedTable {s : State} (h : s.mem.wf = true) : (s.poisonedTable).1.mem.wf = true := wf_bump h ..

theorem wf_runSecKey {s : State} (h : s.mem.wf = true) (c : Cmd) : (runSecKey s c).1.mem.wf = true := by
  unfold runSecKey; grind [wf_noteRead, wf_poisonedTable]

theorem wf_execSecKey {s : State} (h : s.mem.wf = true) (q k : Nat) {s' : State} (hs : execSecKey q k s = .next s') : s'.mem.wf = true :=
  wf_opcodeRow wf_runSecKey h hs

theorem wf_runSecVerify {s : State} (h : s.mem.wf = true) (c : Cmd) : (runSecVerify s c).1.mem.wf = true := by
  unfold runSecVerify; grind [wf_noteRead, wf_poisonedTable]

theorem wf_execSecVerify {s : State} (h : s.mem.wf = true) (q k : Nat) {s' : State} (hs : execSecVerify q k s = .next s') :
    s'.mem.wf = true :=
  wf_opcodeRow wf_runSecVerify h hs

end Sys2Proof.Proofs
end

section
/-! PROOFS. Memory in its canonical form (O54): the operations of Machine/Net. -/

set_option Elab.async false

namespace Sys2Proof.Proofs
open Sys2Proof Sys2Proof.Machine Sys2Proof.Laws

theorem wf_linkTo {s : State} (h : s.mem.wf = true) (p : Nat) (up : Bool) : (s.linkTo p up).mem.wf = true := by
  unfold State.linkTo; grind [modPort_mem, wf_bump, modNet_mem, wf_raise]

theorem wf_execPortLink {s : State} (h : s.mem.wf = true) (port : Nat) (up : Bool) {s' : State} (hs : execPortLink port up s = .next s') :
    s'.mem.wf = true := by
  obtain rfl := Host.Outcome.next.inj hs
  split
  · exact h
  · exact wf_linkTo h ..

theorem wf_execFdbAgeOut {s : State} (h : s.mem.wf = true) (i : Nat) {s' : State} (hs : execFdbAgeOut i s = .next s') :
    s'.mem.wf = true := by
  unfold execFdbAgeOut at hs; grind [modNet_mem]

theorem wf_runNetPort {s : State} (h : s.mem.wf = true) (c : Cmd) : (runNetPort s c).1.mem.wf = true := by
  unfold runNetPort; grind [wf_linkTo, modPort_mem, modNet_mem]

theorem wf_execNetPort {s : State} (h : s.mem.wf = true) (q k : Nat) {s' : State} (hs : execNetPort q k s = .next s') : s'.mem.wf = true :=
  wf_opcodeRow wf_runNetPort h hs

theorem wf_runNetVlan {s : State} (h : s.mem.wf = true) (c : Cmd) : (runNetVlan s c).1.mem.wf = true := by
  unfold runNetVlan
  split <;> exact h

theorem wf_execNetVlan {s : State} (h : s.mem.wf = true) (q k : Nat) {s' : State} (hs : execNetVlan q k s = .next s') : s'.mem.wf = true :=
  wf_opcodeRow wf_runNetVlan h hs

theorem wf_runNetShaper {s : State} (h : s.mem.wf = true) (c : Cmd) : (runNetShaper s c).1.mem.wf = true := h

theorem wf_execNetShaper {s : State} (h : s.mem.wf = true) (q k : Nat) {s' : State} (hs : execNetShaper q k s = .next s') :
    s'.mem.wf = true :=
  wf_opcodeRow wf_runNetShaper h hs

theorem wf_runNetFilter {s : State} (h : s.mem.wf = true) (c : Cmd) : (runNetFilter s c).1.mem.wf = true := h

theorem wf_execNetFilter {s : State} (h : s.mem.wf = true) (q k : Nat) {s' : State} (hs : execNetFilter q k s = .next s') :
    s'.mem.wf = true :=
  wf_opcodeRow wf_runNetFilter h hs

theorem wf_runNetTemplate {s : State} (h : s.mem.wf = true) (c : Cmd) : (runNetTemplate s c).1.mem.wf = true := by
  unfold runNetTemplate; grind [wf_noteRead, wf_poisonedTable, modNet_mem]

theorem wf_execNetTemplate {s : State} (h : s.mem.wf = true) (q k : Nat) {s' : State} (hs : execNetTemplate q k s = .next s') :
    s'.mem.wf = true :=
  wf_opcodeRow wf_runNetTemplate h hs

theorem wf_runNetKey {s : State} (h : s.mem.wf = true) (c : Cmd) : (runNetKey s c).1.mem.wf = true := by
  unfold runNetKey; grind [modPort_mem]

theorem wf_execNetKey {s : State} (h : s.mem.wf = true) (q k : Nat) {s' : State} (hs : execNetKey q k s = .next s') : s'.mem.wf = true :=
  wf_opcodeRow wf_runNetKey h hs

end Sys2Proof.Proofs
end

section
/-! PROOFS. Memory in its canonical form (O54): the operations of Machine/Frames. -/

set_option Elab.async false

namespace Sys2Proof.Proofs
open Sys2Proof Sys2Proof.Machine Sys2Proof.Laws

theorem wf_unprotect {s : State} (h : s.mem.wf = true) (p : Nat) (f : List Byte) : (s.unprotect p f).1.mem.wf = true := by
  unfold State.unprotect; grind [wf_bump, modPort_mem]

theorem wf_meter {s : State} (h : s.mem.wf = true) (p len : Nat) (x : Classified) : (s.meter p len x).1.mem.wf = true := by
  unfold State.meter; grind [modNet_mem, wf_bump]

theorem wf_frameFrozen {s : State} (h : s.mem.wf = true) (p counter : Nat) : (s.frameFrozen p counter).mem.wf = true := by
  unfold State.frameFrozen; grind [wf_foldlState, wf_bump, wf_raise, modStream_mem]

theorem wf_judgeImage {s : State} (h : s.mem.wf = true) (p i hash counter : Nat) : (s.judgeImage p i hash counter).mem.wf = true := by
  unfold State.judgeImage; grind [modNet_mem, wf_frameFrozen]

@[simp] theorem modTemplate_mem (s : State) (i : Nat) (f : Template → Template) : (s.modTemplate i f).mem = s.mem := rfl

theorem wf_intakeDrop {s : State} (h : s.mem.wf = true) (p : Nat) : (s.intakeDrop p).mem.wf = true := wf_bump h ..

@[simp] theorem stamp_mem (s : State) : (s.stamp).2.mem = s.mem := rfl

theorem wf_endImage {s : State} (h : s.mem.wf = true) (i p tObs arrival : Nat) : (s.endImage i p tObs arrival).mem.wf = true := by
  unfold State.endImage; grind [modTemplate_mem, wf_intakeDrop, wf_storeClean, wf_judgeImage, State.draw]

theorem wf_takeLines {s : State} (h : s.mem.wf = true) (i p : Nat) (t : Template) (x : Classified) :
    (s.takeLines i p t x).mem.wf = true := by
  unfold State.takeLines; grind [wf_intakeDrop, stamp_mem, modTemplate_mem, wf_storeClean, wf_endImage]

theorem wf_putCopy {s : State} (h : s.mem.wf = true) (a : Nat) (payload e : List Byte) :
    (s.putCopy a payload e).mem.wf = true := wf_storeClean h ..

@[simp] theorem datagramCounter_mem (s : State) (t : Template) (payload : List Byte) : (s.datagramCounter t payload).2.mem = s.mem := by
  unfold State.datagramCounter; grind [State.draw]

theorem wf_takeDatagram {s : State} (h : s.mem.wf = true) (i p : Nat) (t : Template) (payload : List Byte) :
    (s.takeDatagram i p t payload).mem.wf = true := by
  unfold State.takeDatagram; grind [wf_foldlState, wf_intakeDrop, stamp_mem, datagramCounter_mem, modTemplate_mem, wf_storeClean,
    wf_putCopy]

theorem wf_intake {s : State} (h : s.mem.wf = true) (i p : Nat) (t : Template) (x : Classified) : (s.intake i p t x).mem.wf = true := by
  unfold State.intake; grind [wf_takeLines, wf_takeDatagram]

theorem wf_sendFrame {s : State} (h : s.mem.wf = true) (p q : Nat) (f : List Byte) (bad : Bool) :
    (s.sendFrame p q f bad).mem.wf = true := by
  unfold State.sendFrame; grind [modPort_mem, wf_bump]

theorem wf_execFrameTransmit {s : State} (h : s.mem.wf = true) (port : Nat) {s' : State} (hs : execFrameTransmit port s = .next s') :
    s'.mem.wf = true := by
  unfold execFrameTransmit at hs; grind [modPort_mem, wf_sendFrame]

@[simp] theorem enqueue_mem (s : State) (x : Classified) (p : Nat) : (s.enqueue x p).mem = s.mem := rfl

theorem wf_forward {s : State} (h : s.mem.wf = true) (p len : Nat) (x : Classified) : (s.forward p len x).mem.wf = true := by
  unfold State.forward; grind [wf_foldlState, wf_sendFrame, wf_bump, enqueue_mem, modNet_mem]

theorem wf_bridge {s : State} (h : s.mem.wf = true) (p len : Nat) (f : List Byte) : (s.bridge p len f).mem.wf = true := by
  unfold State.bridge; grind [wf_bump, wf_meter, modNet_mem, wf_forward, wf_intake]

theorem wf_badFrame {s : State} (h : s.mem.wf = true) (p : Nat) (f : List Byte) : (s.badFrame p f).mem.wf = true := by
  unfold State.badFrame; grind [wf_bump, wf_sendFrame]

theorem wf_execFrameReceive {s : State} (h : s.mem.wf = true) (port : Nat) (frame : List Byte) (bad : Bool) {s' : State}
    (hs : execFrameReceive port frame bad s = .next s') : s'.mem.wf = true := by
  unfold execFrameReceive at hs; grind [wf_bump, wf_badFrame, wf_unprotect, wf_bridge]

end Sys2Proof.Proofs
end

section
/-! PROOFS. Memory in its canonical form (O54): the operations of Machine/Umpires. -/

set_option Elab.async false

namespace Sys2Proof.Proofs
open Sys2Proof Sys2Proof.Machine Sys2Proof.Laws

theorem wf_copyIn {s : State} (h : s.mem.wf = true) (f a n : Nat) : (s.copyIn f a n).mem.wf = true := wf_storeBytes (wf_noteRead h ..) ..

theorem wf_mark {s : State} (h : s.mem.wf = true) (hd inp outp nIn nOut : Nat) : (s.mark hd inp outp nIn nOut).1.mem.wf = true := by
  have h0 : (s.unmark hd).mem.wf = true := by rwa [unmark_mem]
  unfold State.mark
  dsimp only
  split
  · exact h
  · rename_i i s1 hs1
    split
    · exact h
    · rename_i o s2 hs2
      rw [modModel_mem]
      exact wf_copyIn (wf_copyIn (wf_allocFrames (wf_allocFrames h0 _ hs1) _ hs2) ..) ..

theorem wf_runSafeJob {s : State} (h : s.mem.wf = true) (c : Cmd) : (runSafeJob s c).1.mem.wf = true := by
  unfold runSafeJob; grind [unmark_mem, wf_mark]

theorem wf_execSafeJob {s : State} (h : s.mem.wf = true) (q k : Nat) {s' : State} (hs : execSafeJob q k s = .next s') : s'.mem.wf = true :=
  wf_opcodeRow wf_runSafeJob h hs

theorem wf_runSafeFrozen {s : State} (h : s.mem.wf = true) (c : Cmd) : (runSafeFrozen s c).1.mem.wf = true := h

theorem wf_execSafeFrozen {s : State} (h : s.mem.wf = true) (q k : Nat) {s' : State} (hs : execSafeFrozen q k s = .next s') :
    s'.mem.wf = true :=
  wf_opcodeRow wf_runSafeFrozen h hs

theorem wf_runSafeSelftest {s : State} (h : s.mem.wf = true) (c : Cmd) : (runSafeSelftest s c).1.mem.wf = true := wf_storeClean h ..

theorem wf_execSafeSelftest {s : State} (h : s.mem.wf = true) (q k : Nat) {s' : State} (hs : execSafeSelftest q k s = .next s') :
    s'.mem.wf = true :=
  wf_opcodeRow wf_runSafeSelftest h hs

theorem wf_writeVerdict {s : State} (h : s.mem.wf = true) (v mask : Nat) : (s.writeVerdict v mask).mem.wf = true := by
  unfold State.writeVerdict
  dsimp only
  repeat' split
  all_goals grind [wf_putTail]

theorem wf_execSafeVerdictWrite {s : State} (h : s.mem.wf = true) (v mask : Nat) {s' : State}
    (hs : execSafeVerdictWrite v mask s = .next s') : s'.mem.wf = true := by
  obtain rfl := Host.Outcome.next.inj hs
  exact wf_writeVerdict h ..

theorem wf_execSegmentStart {s : State} (h : s.mem.wf = true) (u : Nat) {s' : State} (hs : execSegmentStart u s = .next s') :
    s'.mem.wf = true := by
  unfold execSegmentStart at hs; grind [modUmpire_mem]

theorem wf_askGap {s : State} (h : s.mem.wf = true) (u : Nat) : (s.askGap u).mem.wf = true := by
  unfold State.askGap; grind [markGaps_mem, markHeld_mem, wf_bump]

@[simp] theorem dropGap_mem (s : State) (u : Nat) : (s.dropGap u).mem = s.mem := rfl

theorem wf_segmentFail {s : State} (h : s.mem.wf = true) (u : Nat) : (s.segmentFail u).mem.wf = true := by
  unfold State.segmentFail; grind [wf_bump, wf_raise, dropGap_mem, modUmpire_mem]

theorem wf_execSegmentEnd {s : State} (h : s.mem.wf = true) (u : Nat) (pass : Bool) {s' : State} (hs : execSegmentEnd u pass s = .next s') :
    s'.mem.wf = true := by
  unfold execSegmentEnd at hs; grind [wf_schedule, wf_segmentFail, modUmpire_mem, wf_askGap, dropGap_mem]

theorem wf_execTestDeferral {s : State} (h : s.mem.wf = true) (u : Nat) {s' : State} (hs : execTestDeferral u s = .next s') :
    s'.mem.wf = true := by
  unfold execTestDeferral at hs; grind [wf_askGap, modUmpire_mem]

theorem wf_execCheckerTestOverdue {s : State} (h : s.mem.wf = true) (u : Nat) {s' : State} (hs : execCheckerTestOverdue u s = .next s') :
    s'.mem.wf = true := by
  unfold execCheckerTestOverdue at hs; grind [wf_bump, wf_raise, modUmpire_mem]

theorem wf_execGapHoldElapsed {s : State} (h : s.mem.wf = true) (u : Nat) {s' : State} (hs : execGapHoldElapsed u s = .next s') :
    s'.mem.wf = true := by
  unfold execGapHoldElapsed at hs; grind [wf_schedule, dropGap_mem]

end Sys2Proof.Proofs
end

section
/-! PROOFS. Memory in its canonical form (O54): the operations of Machine/Cap. -/

set_option Elab.async false

namespace Sys2Proof.Proofs
open Sys2Proof Sys2Proof.Machine Sys2Proof.Laws

@[simp] theorem roundDiv_mem (s : State) (a b : Nat) : (s.roundDiv a b).2.mem = s.mem := by unfold State.roundDiv; split <;> rfl

@[simp] theorem setVcore_mem (s : State) : (s.setVcore).mem = s.mem := by
  unfold State.setVcore; grind [roundDiv_mem, modCap_mem]

theorem wf_execTemperatureBandChange {s : State} (h : s.mem.wf = true) (d : Nat) (temp : ℤ) {s' : State}
    (hs : execTemperatureBandChange d temp s = .next s') : s'.mem.wf = true := by
  unfold execTemperatureBandChange at hs; grind [setVcore_mem, modCap_mem]

@[simp] theorem lowerDomain_mem (s : State) (d : Nat) : (s.lowerDomain d).mem = s.mem := by
  unfold State.lowerDomain; grind [modCap_mem]

@[simp] theorem raiseDomain_mem (s : State) (d : Nat) : (s.raiseDomain d).mem = s.mem := by unfold State.raiseDomain; split <;> rfl

theorem cutGroup_mem (s : State) (g : Nat) {s' : State} (hs : s.cutGroup g = some s') : s'.mem = s.mem := by
  unfold State.cutGroup at hs
  split at hs
  · grind [modCap_mem]
  · split at hs
    · grind [modCap_mem]
    · obtain ⟨d, -, rfl⟩ := Option.map_eq_some_iff.1 hs
      exact lowerDomain_mem ..

theorem restoreGroup_mem (s : State) (g : Nat) {s' : State} (hs : s.restoreGroup g = some s') : s'.mem = s.mem := by
  unfold State.restoreGroup at hs
  split at hs
  · grind [modCap_mem]
  · split at hs
    · grind [modCap_mem]
    · obtain ⟨d, -, rfl⟩ := Option.map_eq_some_iff.1 hs
      exact raiseDomain_mem ..

theorem dropBoost_mem (s : State) {s' : State} (hs : s.dropBoost = some s') : s'.mem = s.mem := by
  obtain ⟨d, -, rfl⟩ := Option.map_eq_some_iff.1 hs
  rfl

theorem throttleOne_mem (s : State) {s' : State} (hs : s.throttleOne = some s') : s'.mem = s.mem := by
  unfold State.throttleOne at hs
  split at hs
  · rename_i s1 h1
    obtain rfl := Option.some.inj hs
    exact dropBoost_mem s h1
  · obtain ⟨g, -, hg⟩ := List.exists_of_findSome?_eq_some hs
    exact cutGroup_mem s g hg

theorem undoOne_mem (s : State) {s' : State} (hs : s.undoOne = some s') : s'.mem = s.mem := by
  obtain ⟨g, -, hg⟩ := List.exists_of_findSome?_eq_some hs
  exact restoreGroup_mem s g hg

theorem boostOne_mem (s : State) {s' : State} (hs : s.boostOne = some s') : s'.mem = s.mem := by
  unfold State.boostOne at hs
  split at hs
  · cases hs
  · obtain ⟨d, -, rfl⟩ := Option.map_eq_some_iff.1 hs
    rfl

theorem notches_mem {f : State → Option State} (hf : ∀ s {s'}, f s = some s' → s'.mem = s.mem) (n : Nat) (s : State) :
    (State.notches f n s).mem = s.mem := by
  induction n generalizing s with
  | zero => rfl
  | succ n ih =>
    unfold State.notches
    split
    · rename_i s1 h1
      exact (ih s1).trans (hf s h1)
    · rfl

@[simp] theorem measure_mem (s : State) (est meas : Nat) : (s.measure est meas).mem = s.mem := rfl

theorem wf_execCapControlTick {s : State} (h : s.mem.wf = true) (est meas : Nat) {s' : State}
    (hs : execCapControlTick est meas s = .next s') :
    s'.mem.wf = true := by
  have lowered : ∀ (l : List Nat) (s : State), (l.foldl State.lowerDomain s).mem = s.mem := fun l s => foldl_mem l _ lowerDomain_mem s
  have throttled := notches_mem throttleOne_mem
  have undone := notches_mem undoOne_mem
  have boosted := notches_mem boostOne_mem
  obtain rfl := Host.Outcome.next.inj hs
  grind [measure_mem, setVcore_mem, modCap_mem, State.draw]

theorem wf_execThermalLimit {s : State} (h : s.mem.wf = true) (temp : ℤ) {s' : State} (hs : execThermalLimit temp s = .next s') :
    s'.mem.wf = true := by
  unfold execThermalLimit at hs; grind [modCap_mem]

theorem wf_mismatchEvent {s : State} (h : s.mem.wf = true) : (s.mismatchEvent).mem.wf = true := by
  unfold State.mismatchEvent; grind [roundDiv_mem, wf_raise]

theorem wf_execTelemetryLost {s : State} (h : s.mem.wf = true) {s' : State} (hs : execTelemetryLost s = .next s') : s'.mem.wf = true := by
  unfold execTelemetryLost at hs; grind [wf_bump, wf_mismatchEvent, modCap_mem]

theorem wf_execMismatchTimer {s : State} (h : s.mem.wf = true) {s' : State} (hs : execMismatchTimer s = .next s') : s'.mem.wf = true := by
  unfold execMismatchTimer at hs; grind [wf_bump, wf_mismatchEvent, modCap_mem]

theorem wf_execAgreementTimer {s : State} (h : s.mem.wf = true) {s' : State} (hs : execAgreementTimer s = .next s') : s'.mem.wf = true := by
  unfold execAgreementTimer at hs; grind [modCap_mem]

theorem wf_execUnreliableTimer {s : State} (h : s.mem.wf = true) {s' : State} (hs : execUnreliableTimer s = .next s') :
    s'.mem.wf = true := by
  obtain rfl := Host.Outcome.next.inj hs
  split <;> exact h

theorem wf_runPwrCap {s : State} (h : s.mem.wf = true) (c : Cmd) : (runPwrCap s c).1.mem.wf = true := h

theorem wf_execPwrCap {s : State} (h : s.mem.wf = true) (q k : Nat) {s' : State} (hs : execPwrCap q k s = .next s') : s'.mem.wf = true :=
  wf_opcodeRow wf_runPwrCap h hs

@[simp] theorem writeLimit_mem (s : State) (v mask : Nat) : (s.writeLimit v mask).mem = s.mem := rfl

theorem wf_execCapLimitWrite {s : State} (h : s.mem.wf = true) (v mask : Nat) {s' : State} (hs : execCapLimitWrite v mask s = .next s') :
    s'.mem.wf = true := by
  obtain rfl := Host.Outcome.next.inj hs
  exact h

theorem wf_runPwrSag {s : State} (h : s.mem.wf = true) (c : Cmd) : (runPwrSag s c).1.mem.wf = true := h

theorem wf_execPwrSag {s : State} (h : s.mem.wf = true) (q k : Nat) {s' : State} (hs : execPwrSag q k s = .next s') : s'.mem.wf = true :=
  wf_opcodeRow wf_runPwrSag h hs

theorem mem_ite_modCap (p : Prop) [Decidable p] (s : State) (f : CapSt → CapSt) : (if p then s else s.modCap f).mem = s.mem := by
  split
  · rfl
  · exact modCap_mem ..

theorem mem_modCap_ite (p : Prop) [Decidable p] (s : State) (f : CapSt → CapSt) : (if p then s.modCap f else s).mem = s.mem := by
  split
  · exact modCap_mem ..
  · rfl

@[simp] theorem writeSag_mem (s : State) (v mask : Nat) : (s.writeSag v mask).mem = s.mem :=
  (mem_modCap_ite _ _ _).trans (mem_ite_modCap _ _ _)

theorem wf_execCapSagWrite {s : State} (h : s.mem.wf = true) (v mask : Nat) {s' : State} (hs : execCapSagWrite v mask s = .next s') :
    s'.mem.wf = true := by
  unfold execCapSagWrite at hs; grind [writeSag_mem]

theorem wf_runPwrHint {s : State} (h : s.mem.wf = true) (c : Cmd) : (runPwrHint s c).1.mem.wf = true := h

theorem wf_execPwrHint {s : State} (h : s.mem.wf = true) (q k : Nat) {s' : State} (hs : execPwrHint q k s = .next s') : s'.mem.wf = true :=
  wf_opcodeRow wf_runPwrHint h hs

theorem wf_execHintIntervalBegin {s : State} (h : s.mem.wf = true) (i : Nat) {s' : State} (hs : execHintIntervalBegin i s = .next s') :
    s'.mem.wf = true := by
  unfold execHintIntervalBegin at hs; grind [setVcore_mem, modCap_mem]

theorem wf_execHintLapse {s : State} (h : s.mem.wf = true) (i : Nat) {s' : State} (hs : execHintLapse i s = .next s') :
    s'.mem.wf = true := by
  unfold execHintLapse at hs
  repeat' split at hs
  all_goals grind [setVcore_mem, modCap_mem]

@[simp] theorem lockDomains_mem (s : State) (r mask : Nat) : (s.lockDomains r mask).mem = s.mem := by
  unfold State.lockDomains; grind [foldl_mem, modCap_mem, modTile_mem]

theorem wf_runPwrLock {s : State} (h : s.mem.wf = true) (c : Cmd) : (runPwrLock s c).1.mem.wf = true := by
  unfold runPwrLock; grind [setVcore_mem, lockDomains_mem]

theorem wf_execPwrLock {s : State} (h : s.mem.wf = true) (q k : Nat) {s' : State} (hs : execPwrLock q k s = .next s') : s'.mem.wf = true :=
  wf_opcodeRow wf_runPwrLock h hs

theorem wf_execRatingSlip {s : State} (h : s.mem.wf = true) (d : Nat) {s' : State} (hs : execRatingSlip d s = .next s') :
    s'.mem.wf = true := by
  unfold execRatingSlip at hs; grind [wf_bump, modCap_mem]

theorem wf_execRatingSlipReport {s : State} (h : s.mem.wf = true) {s' : State} (hs : execRatingSlipReport s = .next s') :
    s'.mem.wf = true := by
  unfold execRatingSlipReport at hs; grind [wf_foldlState, wf_raise, modCap_mem]

end Sys2Proof.Proofs
end

section
/-! PROOFS. Memory in its canonical form (O54): the operations of Machine/Planner. -/

set_option Elab.async false

namespace Sys2Proof.Proofs
open Sys2Proof Sys2Proof.Machine Sys2Proof.Laws

@[simp] theorem putLattice_mem (s : State) (x : Machine.Lattice) : (s.putLattice x).mem = s.mem := rfl

theorem wf_registerLattice {s : State} (h : s.mem.wf = true) (a n dims h : Nat) : (s.registerLattice a n dims h).1.mem.wf = true := by
  unfold State.registerLattice; grind [wf_noteRead, wf_bump, putLattice_mem]

theorem wf_runPlanLattice {s : State} (h : s.mem.wf = true) (c : Cmd) : (runPlanLattice s c).1.mem.wf = true := by
  unfold runPlanLattice; grind [wf_registerLattice]

theorem wf_execPlanLattice {s : State} (h : s.mem.wf = true) (q k : Nat) {s' : State} (hs : execPlanLattice q k s = .next s') :
    s'.mem.wf = true :=
  wf_opcodeRow wf_runPlanLattice h hs

theorem wf_runPlanMap {s : State} (h : s.mem.wf = true) (c : Cmd) : (runPlanMap s c).1.mem.wf = true := by
  unfold runPlanMap; grind

theorem wf_execPlanMap {s : State} (h : s.mem.wf = true) (q k : Nat) {s' : State} (hs : execPlanMap q k s = .next s') : s'.mem.wf = true :=
  wf_opcodeRow wf_runPlanMap h hs

@[simp] theorem answerUid_mem (s : State) (uid status detail result : Nat) : (s.answerUid uid status detail result).mem = s.mem := by
  unfold State.answerUid; split <;> rfl

@[simp] theorem dropPlan_mem (s : State) (uid : Nat) : (s.dropPlan uid).mem = s.mem := rfl

theorem wf_planFail {s : State} (h : s.mem.wf = true) (q : PlanQuery) (status : Nat) : (s.planFail q status).mem.wf = true := by
  unfold State.planFail; grind [wf_bump, wf_modPlanCtx, dropPlan_mem, wf_planPlace, endCancels_mem, answerUid_mem]

theorem wf_planEnd {s : State} (h : s.mem.wf = true) (q : PlanQuery) (e : PlanEnd) (cancelled : Bool) (ns : Nat) :
    (s.planEnd q e cancelled ns).mem.wf = true := by
  unfold State.planEnd; grind [wf_storeClean, dropPlan_mem, wf_modPlanCtx, wf_bump, wf_planPlace, endCancels_mem, answerUid_mem]

theorem wf_endWaiting {s : State} (h : s.mem.wf = true) (q : PlanQuery) (cancelled : Bool) : (s.endWaiting q cancelled).mem.wf = true := by
  unfold State.endWaiting; grind [wf_planFail, wf_scramble, wf_bump, wf_noteRead, wf_planEnd, State.draw]

theorem wf_runPlanQuery {s : State} (h : s.mem.wf = true) (c : Cmd) : (runPlanQuery s c).1.mem.wf = true := by
  unfold runPlanQuery; grind [wf_poisonTable, wf_noteRead, wf_bump, wf_modPlanCtx, wf_planPlace]

theorem wf_execPlanQuery {s : State} (h : s.mem.wf = true) (q k : Nat) {s' : State} (hs : execPlanQuery q k s = .next s') :
    s'.mem.wf = true :=
  wf_opcodeRow wf_runPlanQuery h hs

theorem wf_runPlanCancel {s : State} (h : s.mem.wf = true) (c : Cmd) : (runPlanCancel s c).1.mem.wf = true := by
  unfold runPlanCancel; grind [wf_poisonTable, wf_endWaiting]

theorem wf_execPlanCancel {s : State} (h : s.mem.wf = true) (q k : Nat) {s' : State} (hs : execPlanCancel q k s = .next s') :
    s'.mem.wf = true :=
  wf_opcodeRow wf_runPlanCancel h hs

theorem wf_planReads {s : State} (h : s.mem.wf = true) (r : Search) : (s.planReads r).mem.wf = true := by
  unfold State.planReads; grind [wf_foldlState, wf_bump, wf_noteRead]

theorem wf_closeQuery {s : State} (h : s.mem.wf = true) (q : PlanQuery) (r : Search) (e : PlanEnd) (cancelled : Bool) :
    (s.closeQuery q r e cancelled).mem.wf = true := wf_planEnd (wf_planReads h ..) ..

theorem wf_poisonQuery {s : State} (h : s.mem.wf = true) (q : PlanQuery) (r : Search) :
    (s.poisonQuery q r).mem.wf = true := wf_planFail (wf_planReads h ..) ..

theorem wf_unlessHeld {s t : State} (h : s.mem.wf = true) (ht : t.mem.wf = true) (q : PlanQuery) (n : Nat) (r : Search) :
    (s.unlessHeld q n r t).mem.wf = true := by
  unfold State.unlessHeld; grind [hold_mem]

theorem wf_putQuery {s : State} (h : s.mem.wf = true) (u : Nat) (q : PlanQuery) : (s.putQuery u q).mem.wf = true := by
  unfold State.putQuery; grind [wf_modPlanCtx]

theorem wf_beginCheck {s : State} (h : s.mem.wf = true) (u : Nat) (q : PlanQuery) (r : Search) (k : Nat) :
    (s.beginCheck u q r k).mem.wf = true := wf_putQuery (wf_planReads h ..) ..

theorem wf_ite {c : Prop} [Decidable c] {s t : State} (hs : s.mem.wf = true) (ht : t.mem.wf = true) :
    (if c then s else t).mem.wf = true := by
  split
  · exact hs
  · exact ht

theorem wf_endCheck {s : State} (h : s.mem.wf = true) (u : Nat) (q : PlanQuery) (j : PlanJob) (c : PlanCheck) :
    (s.endCheck u q j c).mem.wf = true := by
  have closed : ∀ (t : State), t.mem.wf = true → ∀ n r e b, (s.unlessHeld q n r (t.closeQuery q r e b)).mem.wf = true :=
    fun t ht n r e b => wf_unlessHeld h (wf_closeQuery ht ..) ..
  have poisoned : ∀ n r, (s.unlessHeld q n r (s.poisonQuery q r)).mem.wf = true := fun n r => wf_unlessHeld h (wf_poisonQuery h ..) ..
  refine wf_ite (closed s h ..) (wf_ite (poisoned ..) (wf_ite ?_ ?_))
  · exact wf_unlessHeld h (wf_bump (wf_putQuery (wf_planReads h _) ..) ..) ..
  · dsimp only
    split
    · exact closed s h ..
    · exact wf_ite (poisoned ..) (closed s.draw.2 h ..)

theorem wf_endSearch {s : State} (h : s.mem.wf = true) (u cut : Nat) (q : PlanQuery) (j : PlanJob) :
    (s.endSearch u cut q j).mem.wf = true := by
  refine wf_unlessHeld h ?_ ..
  split
  · exact wf_closeQuery h ..
  · exact wf_beginCheck h ..
  · exact wf_poisonQuery h ..
  · split
    · exact wf_planFail (wf_scramble (wf_planReads h _) ..) ..
    · exact wf_closeQuery h ..

theorem wf_execPlanSearchEnd {s : State} (h : s.mem.wf = true) (u cut : Nat) {s' : State} (hs : execPlanSearchEnd u cut s = .next s') :
    s'.mem.wf = true := by
  unfold execPlanSearchEnd at hs; grind [hold_mem, wf_planFail, wf_bump, wf_noteRead, wf_endSearch, wf_endCheck]

theorem wf_execDeadlinePassed {s : State} (h : s.mem.wf = true) (q k : Nat) {s' : State} (hs : execDeadlinePassed q k s = .next s') :
    s'.mem.wf = true := by
  unfold execDeadlinePassed at hs; grind [wf_releaseAcks, finish_mem, modCmd_mem, wf_endWaiting]

end Sys2Proof.Proofs
end

section
/-! PROOFS. Memory in its canonical form (O54): the operations of Machine/Pages. -/

set_option Elab.async false

namespace Sys2Proof.Proofs
open Sys2Proof Sys2Proof.Machine Sys2Proof.Laws

theorem wf_moveTo {s : State} (h : s.mem.wf = true) (a : Nat) (b : List PByte) : (s.moveTo a b).mem.wf = true := wf_storeBytes h ..

@[simp] theorem modWrite_mem (s : State) (uid : Nat) (f : NvsWrite → NvsWrite) : (s.modWrite uid f).mem = s.mem := rfl

@[simp] theorem startPages_mem (s : State) (uid m : Nat) : (State.startPages uid m s).mem = s.mem := by
  fun_induction State.startPages uid m s <;> grind [modWrite_mem]

@[simp] theorem pumpWrite_mem (s : State) (uid : Nat) : (s.pumpWrite uid).mem = s.mem := by
  unfold State.pumpWrite; grind [startPages_mem, State.draw]

theorem wf_putPage {s : State} (h : s.mem.wf = true) (w : NvsWrite) (p : Nat) : (s.putPage w p).mem.wf = true := wf_moveTo h ..

@[simp] theorem startWrite_mem (s : State) (uid dst : Nat) (b : List PByte) : (s.startWrite uid dst b).mem = s.mem := by
  unfold State.startWrite; grind [pumpWrite_mem]

end Sys2Proof.Proofs
end

section
/-! PROOFS. Memory in its canonical form (O54): the operations of Machine/Models. -/

set_option Elab.async false

namespace Sys2Proof.Proofs
open Sys2Proof Sys2Proof.Machine Sys2Proof.Laws

theorem wf_placeVariants {s : State} (h : s.mem.wf = true) (h : Nat) (b : List PByte) : (s.placeVariants h b).1.mem.wf = true := by
  unfold State.placeVariants; grind [wf_roomT1, modModel_mem, wf_storeBytes]

theorem wf_unload {s : State} (h : s.mem.wf = true) (h : Nat) : (s.unload h).mem.wf = true := by
  unfold State.unload; grind [dropWarm_mem, wf_dropHot, freeNvs_mem, freeFrames_mem]

theorem wf_loadTier {s : State} (h : s.mem.wf = true) (h tier : Nat) (b : List PByte) : (s.loadTier h tier b).1.mem.wf = true := by
  unfold State.loadTier; grind [wf_placeVariants, wf_placeWarm, wf_enterHot]

theorem wf_loadImage {s : State} (h : s.mem.wf = true) (uid : Nat) (b : List Byte) (tier : Nat) :
    (s.loadImage uid b tier).1.mem.wf = true := by
  unfold State.loadImage; grind [wf_roomNvs, wf_loadTier, wf_unload, startWrite_mem]

@[simp] theorem enterLoaded_mem (s : State) (l : Loading) : (s.enterLoaded l).mem = s.mem := rfl

theorem wf_endLoad {s : State} (h : s.mem.wf = true) (l : Loading) : (s.endLoad l).mem.wf = true := by
  unfold State.endLoad; grind [enterLoaded_mem, wf_forceTier]

theorem wf_stopLoad {s : State} (h : s.mem.wf = true) (l : Loading) : (s.stopLoad l).mem.wf = true := by
  unfold State.stopLoad; grind [wf_unload, enterLoaded_mem]

theorem wf_runModelLoad {s : State} (h : s.mem.wf = true) (c : Cmd) : (runModelLoad s c).1.mem.wf = true := by
  unfold runModelLoad; grind [wf_noteRead, wf_poisonedTable, wf_loadImage]

theorem wf_execModelLoad {s : State} (h : s.mem.wf = true) (q k : Nat) {s' : State} (hs : execModelLoad q k s = .next s') :
    s'.mem.wf = true :=
  wf_opcodeRow wf_runModelLoad h hs

theorem wf_waitModel {s : State} (h : s.mem.wf = true) (c : Cmd) (h target : Nat) : (s.waitModel c h target).1.mem.wf = true := by
  unfold State.waitModel; grind [modModel_mem]

theorem wf_runModelEvict {s : State} (h : s.mem.wf = true) (c : Cmd) : (runModelEvict s c).1.mem.wf = true := by
  unfold runModelEvict; grind [wf_waitModel, wf_evictNow]

theorem wf_execModelEvict {s : State} (h : s.mem.wf = true) (q k : Nat) {s' : State} (hs : execModelEvict q k s = .next s') :
    s'.mem.wf = true :=
  wf_opcodeRow wf_runModelEvict h hs

theorem wf_setPin {s : State} (h : s.mem.wf = true) (h : Nat) (pin : Bool) : (s.setPin h pin).mem.wf = true := by
  unfold State.setPin; grind [wf_foldlState, modModel_mem, wf_updCtx]

theorem wf_runModelPin {s : State} (h : s.mem.wf = true) (c : Cmd) : (runModelPin s c).1.mem.wf = true := by
  unfold runModelPin
  split
  · exact h
  · exact wf_spillBackground (wf_setPin h ..) ..

theorem wf_execModelPin {s : State} (h : s.mem.wf = true) (q k : Nat) {s' : State} (hs : execModelPin q k s = .next s') :
    s'.mem.wf = true :=
  wf_opcodeRow wf_runModelPin h hs

theorem wf_runModelTier {s : State} (h : s.mem.wf = true) (c : Cmd) : (runModelTier s c).1.mem.wf = true := by
  unfold runModelTier; grind [wf_waitModel, wf_tierNow, wf_schedule]

theorem wf_execModelTier {s : State} (h : s.mem.wf = true) (q k : Nat) {s' : State} (hs : execModelTier q k s = .next s') :
    s'.mem.wf = true :=
  wf_opcodeRow wf_runModelTier h hs

theorem wf_runModelSwap {s : State} (h : s.mem.wf = true) (c : Cmd) : (runModelSwap s c).1.mem.wf = true := by
  unfold runModelSwap; grind [modModel_mem]

theorem wf_execModelSwap {s : State} (h : s.mem.wf = true) (q k : Nat) {s' : State} (hs : execModelSwap q k s = .next s') :
    s'.mem.wf = true :=
  wf_opcodeRow wf_runModelSwap h hs

theorem wf_swapNow {s : State} (h : s.mem.wf = true) (old new : Nat) (a b : Model) : (s.swapNow old new a b).mem.wf = true := by
  unfold State.swapNow; grind [wf_foldlState, wf_updCtx, modModel_mem, wf_evictNow, finishUid_mem, wf_raise, wf_setPin, wf_schedule,
    wf_modelIdle]

theorem wf_execModelSwapEffect {s : State} (h : s.mem.wf = true) (old : Nat) {s' : State} (hs : execModelSwapEffect old s = .next s') :
    s'.mem.wf = true := by
  unfold execModelSwapEffect at hs; grind [finishUid_mem, modModel_mem, wf_schedule, wf_modelIdle, wf_swapNow]

theorem wf_runModelInfo {s : State} (h : s.mem.wf = true) (c : Cmd) : (runModelInfo s c).1.mem.wf = true := by
  unfold runModelInfo
  split
  · exact h
  · exact wf_storeClean h ..

theorem wf_execModelInfo {s : State} (h : s.mem.wf = true) (q k : Nat) {s' : State} (hs : execModelInfo q k s = .next s') :
    s'.mem.wf = true :=
  wf_opcodeRow wf_runModelInfo h hs

end Sys2Proof.Proofs
end

section
/-! PROOFS. Memory in its canonical form (O54): the operations of Machine/Faults. -/

set_option Elab.async false

namespace Sys2Proof.Proofs
open Sys2Proof Sys2Proof.Machine Sys2Proof.Laws

theorem wf_execInternalCheckError {s : State} (h : s.mem.wf = true) (ty n : Nat) {s' : State}
    (hs : execInternalCheckError ty n s = .next s') : s'.mem.wf = true := by
  unfold execInternalCheckError at hs; grind [wf_charge, wf_quarantine, wf_loseTile, wf_runsPlace, wf_reissue, wf_planPlace]

@[simp] theorem answerProbes_mem (s : State) : (s.answerProbes).mem = s.mem := by
  unfold State.answerProbes; exact foldl_mem _ _ (by grind [finishUid_mem]) s

@[simp] theorem probeCause_mem (s : State) (ty : Nat) : (s.probeCause ty).2.mem = s.mem := by unfold State.probeCause; split <;> rfl

theorem wf_execProbeResult {s : State} (h : s.mem.wf = true) (ty n : Nat) (pass : Bool) {s' : State}
    (hs : execProbeResult ty n pass s = .next s') : s'.mem.wf = true := by
  unfold execProbeResult at hs; grind [answerProbes_mem, wf_restore, probeCause_mem, wf_retire]

theorem wf_execProbeTimeout {s : State} (h : s.mem.wf = true) (ty n : Nat) {s' : State} (hs : execProbeTimeout ty n s = .next s') :
    s'.mem.wf = true := by
  unfold execProbeTimeout at hs; grind [answerProbes_mem, wf_retire]

theorem wf_execPathCompare {s : State} (h : s.mem.wf = true) {s' : State} (hs : execPathCompare s = .next s') : s'.mem.wf = true := by
  unfold execPathCompare at hs; grind [wf_foldlState, wf_quarantine, modUnit_mem]

theorem wf_execFenceNotConfirmed {s : State} (h : s.mem.wf = true) (ty n : Nat) {s' : State}
    (hs : execFenceNotConfirmed ty n s = .next s') : s'.mem.wf = true := by
  unfold execFenceNotConfirmed at hs; grind [wf_foldlState, setDom_mem, wf_poisonFill, wf_retire, wf_bump, answerProbes_mem]

theorem wf_invalidSafe {s : State} (h : s.mem.wf = true) : (s.invalidSafe).mem.wf = true := by
  unfold State.invalidSafe; exact wf_foldlState h _ _ (by grind [wf_giveVerdict])

theorem wf_execDieBridgeSilence {s : State} (h : s.mem.wf = true) {s' : State} (hs : execDieBridgeSilence s = .next s') :
    s'.mem.wf = true := by
  unfold execDieBridgeSilence at hs; grind [wf_invalidSafe, wf_raise]

theorem wf_execDieBridgeRestored {s : State} (h : s.mem.wf = true) (answers : List Byte) {s' : State}
    (hs : execDieBridgeRestored answers s = .next s') : s'.mem.wf = true := by
  unfold execDieBridgeRestored at hs; grind [wf_foldlState, wf_restore, answerProbes_mem, wf_planPlace, wf_runsPlace, wf_schedule, wf_raise]

theorem wf_loseDie {s : State} (h : s.mem.wf = true) : (s.loseDie).mem.wf = true := by
  unfold State.loseDie; grind [wf_foldlState, wf_tearNow, wf_dropQuery, finishUid_mem, wf_stopLoad]

theorem wf_retireAll {s : State} (h : s.mem.wf = true) : (allUnits.foldl (fun s x => s.retire x.1 x.2 9) s).mem.wf = true :=
  wf_foldlState h _ _ (fun _ _ hu => wf_retire hu ..)

theorem wf_dieLost {s : State} (h : s.mem.wf = true) (f : FaultSt) :
    ({ s with fault := f } : State).loseDie.answerProbes.mem.wf = true := by
  rw [answerProbes_mem]
  exact wf_loseDie h

theorem wf_execDieBridgeRetrainTimeout {s : State} (h : s.mem.wf = true) {s' : State} (hs : execDieBridgeRetrainTimeout s = .next s') :
    s'.mem.wf = true := by
  obtain rfl := Host.Outcome.next.inj hs
  dsimp only
  refine wf_ite ?_ h
  exact wf_dieLost (wf_retireAll h) _

theorem wf_runFaultStatus {s : State} (h : s.mem.wf = true) (c : Cmd) : (runFaultStatus s c).1.mem.wf = true := wf_storeClean h ..

theorem wf_execFaultStatus {s : State} (h : s.mem.wf = true) (q k : Nat) {s' : State} (hs : execFaultStatus q k s = .next s') :
    s'.mem.wf = true :=
  wf_opcodeRow wf_runFaultStatus h hs

theorem wf_runFaultRetire {s : State} (h : s.mem.wf = true) (c : Cmd) : (runFaultRetire s c).1.mem.wf = true := by
  unfold runFaultRetire; grind [answerProbes_mem, modUnit_mem, wf_retire]

theorem wf_execFaultRetire {s : State} (h : s.mem.wf = true) (q k : Nat) {s' : State} (hs : execFaultRetire q k s = .next s') :
    s'.mem.wf = true :=
  wf_opcodeRow wf_runFaultRetire h hs

theorem wf_runFaultProbe {s : State} (h : s.mem.wf = true) (c : Cmd) : (runFaultProbe s c).1.mem.wf = true := by
  unfold runFaultProbe; grind

theorem wf_execFaultProbe {s : State} (h : s.mem.wf = true) (q k : Nat) {s' : State} (hs : execFaultProbe q k s = .next s') :
    s'.mem.wf = true :=
  wf_opcodeRow wf_runFaultProbe h hs

theorem wf_runFaultBucket {s : State} (h : s.mem.wf = true) (c : Cmd) : (runFaultBucket s c).1.mem.wf = true := h

theorem wf_execFaultBucket {s : State} (h : s.mem.wf = true) (q k : Nat) {s' : State} (hs : execFaultBucket q k s = .next s') :
    s'.mem.wf = true :=
  wf_opcodeRow wf_runFaultBucket h hs

end Sys2Proof.Proofs
end

section
/-! PROOFS. Memory in its canonical form (O54): the operations of Machine/Store. -/

set_option Elab.async false

namespace Sys2Proof.Proofs
open Sys2Proof Sys2Proof.Machine Sys2Proof.Laws

theorem wf_memRow {body : State → Cmd → State × Res} (hb : ∀ {s : State}, s.mem.wf = true → ∀ c, (body s c).1.mem.wf = true)
    {s s' : State} (h : s.mem.wf = true) {op q k : Nat} {check : State → Cmd → Check10} (hs : s.memRow op check body q k = .next s') :
    s'.mem.wf = true := by
  unfold State.memRow at hs
  split at hs
  · obtain rfl := Host.Outcome.next.inj hs
    rw [hold_mem]; exact h
  · exact wf_opcodeRow hb h hs

theorem wf_endWrite {s : State} (h : s.mem.wf = true) (uid : Nat) : (s.endWrite uid).mem.wf = true := by
  unfold State.endWrite
  split
  · exact h
  · rename_i w _
    refine wf_ite ?_ h
    have kept : ∀ st : StoreSt, ({ s with store := st } : State).mem.wf = true := fun _ => h
    generalize ({ s.store with nvsWrites := s.store.nvsWrites.filter (fun x => x.uid != uid) } : StoreSt) = st at kept ⊢
    have h1 := kept st
    dsimp only
    generalize ({ s with store := st } : State) = s1 at h1 ⊢
    split
    · rename_i l _
      have stopped := wf_stopLoad h1 l
      refine wf_ite ?_ (wf_ite ?_ (wf_ite ?_ (wf_schedule ?_))) <;> rw [finishUid_mem]
      · exact stopped
      · exact stopped
      · exact stopped
      · exact wf_endLoad h1 l
    · refine wf_ite ?_ ?_ <;> rw [finishUid_mem]
      · exact h1
      · exact wf_ite (wf_scramble h1 ..) h1

theorem wf_execNvsPageWriteDurable {s : State} (h : s.mem.wf = true) (page : Nat) {s' : State}
    (hs : execNvsPageWriteDurable page s = .next s') : s'.mem.wf = true := by
  unfold execNvsPageWriteDurable at hs; grind [wf_endWrite, pumpWrite_mem, wf_putPage]

@[simp] theorem warnCmds_mem (s : State) : (s.warnCmds).mem = s.mem := rfl

theorem wf_stopWrites {s : State} (h : s.mem.wf = true) : (s.stopWrites).mem.wf = true := by
  unfold State.stopWrites; grind [wf_foldlState, wf_endWrite, modWrite_mem, warnCmds_mem]

theorem wf_holdUp {s : State} (h : s.mem.wf = true) : (s.holdUp).mem.wf = true := by
  unfold State.holdUp; grind [wf_foldlState, wf_moveTo]

theorem wf_deliver {s : State} (h : s.mem.wf = true) (c : Cmd) (dst : Nat) (b : List PByte) : (s.deliver c dst b).1.mem.wf = true := by
  unfold State.deliver; grind [startWrite_mem, wf_moveTo]

theorem wf_runMemPull {s : State} (h : s.mem.wf = true) (ups : List Upset) (c : Cmd) :
    (runMemPull ups s c).1.mem.wf = true := wf_deliver (wf_readWith h ..) ..

theorem wf_execMemPull {s : State} (h : s.mem.wf = true) (q k : Nat) (ups : List Upset) {s' : State}
    (hs : execMemPull q k ups s = .next s') :
    s'.mem.wf = true := wf_memRow (fun h c => wf_runMemPull h ups c) h hs

theorem wf_runMemPush {s : State} (h : s.mem.wf = true) (ups : List Upset) (c : Cmd) : (runMemPush ups s c).1.mem.wf = true := by
  unfold runMemPush; grind [wf_readWith, wf_moveTo, wf_raise, wf_bump]

theorem wf_execMemPush {s : State} (h : s.mem.wf = true) (q k : Nat) (ups : List Upset) {s' : State}
    (hs : execMemPush q k ups s = .next s') :
    s'.mem.wf = true := wf_memRow (fun h c => wf_runMemPush h ups c) h hs

theorem wf_runMemCopy {s : State} (h : s.mem.wf = true) (ups : List Upset) (c : Cmd) :
    (runMemCopy ups s c).1.mem.wf = true := wf_deliver (wf_readWith h ..) ..

theorem wf_execMemCopy {s : State} (h : s.mem.wf = true) (q k : Nat) (ups : List Upset) {s' : State}
    (hs : execMemCopy q k ups s = .next s') :
    s'.mem.wf = true := wf_memRow (fun h c => wf_runMemCopy h ups c) h hs

theorem wf_runMemFill {s : State} (h : s.mem.wf = true) (c : Cmd) : (runMemFill s c).1.mem.wf = true := wf_deliver h ..

theorem wf_execMemFill {s : State} (h : s.mem.wf = true) (q k : Nat) {s' : State} (hs : execMemFill q k s = .next s') :
    s'.mem.wf = true := wf_memRow wf_runMemFill h hs

theorem wf_convertLine {s : State} (h : s.mem.wf = true) (l : Nat) : (s.convertLine l).mem.wf = true := wf_countT1 (wf_rewrite h ..) ..

theorem wf_convertLines {s : State} (h : s.mem.wf = true) (x : Convert) (n : Nat) : (s.convertLines x n).mem.wf = true := by
  unfold State.convertLines; grind [wf_foldlState, wf_convertLine, finishUid_mem]

theorem wf_convertStep {s : State} (h : s.mem.wf = true) (x : Convert) : (s.convertStep x).mem.wf = true := by
  unfold State.convertStep; grind [wf_convertLines, hold_mem, State.draw]

theorem wf_runMemMode {s : State} (h : s.mem.wf = true) (c : Cmd) : (runMemMode s c).1.mem.wf = true := by
  unfold runMemMode; grind

theorem wf_execMemMode {s : State} (h : s.mem.wf = true) (q k : Nat) {s' : State} (hs : execMemMode q k s = .next s') :
    s'.mem.wf = true := by
  unfold execMemMode at hs; grind [wf_convertStep, wf_opcodeRow, wf_runMemMode]

theorem wf_runMemScrub {s : State} (h : s.mem.wf = true) (c : Cmd) : (runMemScrub s c).1.mem.wf = true := h

theorem wf_execMemScrub {s : State} (h : s.mem.wf = true) (q k : Nat) {s' : State} (hs : execMemScrub q k s = .next s') :
    s'.mem.wf = true :=
  wf_opcodeRow wf_runMemScrub h hs

theorem wf_runMemSpillarea {s : State} (h : s.mem.wf = true) (c : Cmd) : (runMemSpillarea s c).1.mem.wf = true := by
  unfold runMemSpillarea; grind [wf_spillBackground]

theorem wf_execMemSpillarea {s : State} (h : s.mem.wf = true) (q k : Nat) {s' : State} (hs : execMemSpillarea q k s = .next s') :
    s'.mem.wf = true :=
  wf_opcodeRow wf_runMemSpillarea h hs

theorem wf_execLineFrameArrival {s : State} (h : s.mem.wf = true) (a : Nat) (write : Bool) (errs : List Byte) (ups : List Upset)
    {s' : State} (hs : execLineFrameArrival a write errs ups s = .next s') : s'.mem.wf = true := by
  unfold execLineFrameArrival at hs; grind [wf_bump, wf_quarantine, wf_charge, wf_readWith, wf_storeBytes]

theorem wf_execStackRefresh {s : State} (h : s.mem.wf = true) (m : Nat) {s' : State} (hs : execStackRefresh m s = .next s') :
    s'.mem.wf = true := by
  obtain rfl := Host.Outcome.next.inj hs
  exact h

theorem wf_execNvsPatrol {s : State} (h : s.mem.wf = true) (page corrected : Nat) {s' : State}
    (hs : execNvsPatrol page corrected s = .next s') : s'.mem.wf = true := by
  unfold execNvsPatrol at hs; grind [wf_foldlState, modChanRec_mem, healPage_mem]

theorem wf_scrubLine {s : State} (h : s.mem.wf = true) (l : Nat) : (s.scrubLine l).mem.wf = true := by
  unfold State.scrubLine; grind [wf_noteT1, wf_rewrite, modChanRec_mem]

@[simp] theorem lapEnd_mem (s : State) : (s.lapEnd).mem = s.mem := by unfold State.lapEnd; split <;> rfl

theorem memoryOk_ite {c : Prop} [Decidable c] {s t : State} (hs : s.memoryOk) (ht : t.memoryOk) : (if c then s else t).memoryOk := by
  split
  · exact hs
  · exact ht

theorem memoryOk_withStore {s : State} (h : s.memoryOk) (st : StoreSt) : ({ s with store := st } : State).memoryOk := h

theorem memoryOk_scrubLine {s : State} (h : s.memoryOk) (l : Nat) : (s.scrubLine l).memoryOk := wf_scrubLine h l

theorem memoryOk_lap {s : State} (h : s.memoryOk) (c : Nat) (f : ChanRec → ChanRec) : (s.modChanRec c f).lapEnd.memoryOk := by
  unfold State.memoryOk
  rw [lapEnd_mem, modChanRec_mem]
  exact h

theorem wf_scrubT1 {s : State} (h : s.mem.wf = true) (a : Nat) : (s.scrubT1 a).mem.wf = true := by
  change (s.scrubT1 a).memoryOk
  unfold State.scrubT1
  extract_lets o g c r covered done bad s1 store s2
  have h1 : s1.memoryOk := memoryOk_foldl h _ _ (fun _ _ hu => memoryOk_scrubLine hu _)
  have h2 : s2.memoryOk := memoryOk_ite h1 (memoryOk_withStore h1 _)
  exact memoryOk_ite h (memoryOk_ite h (memoryOk_ite h2 (memoryOk_lap h2 ..)))

@[simp] theorem freshT0Lap_mem (s : State) : (s.freshT0Lap).mem = s.mem := by unfold State.freshT0Lap; split <;> rfl

theorem wf_scrubT0 {s : State} (h : s.mem.wf = true) (a : Nat) : (s.scrubT0 a).mem.wf = true := by
  unfold State.scrubT0; grind [wf_noteRead, wf_rewrite]

theorem wf_execScrubAccess {s : State} (h : s.mem.wf = true) (a : Nat) (ups : List Upset) {s' : State}
    (hs : execScrubAccess a ups s = .next s') : s'.mem.wf = true := by
  unfold execScrubAccess at hs; grind [wf_foldlState, wf_scrubT0, freshT0Lap_mem, wf_strike, wf_scrubT1]

theorem wf_execScrubLapAlarm {s : State} (h : s.mem.wf = true) {s' : State} (hs : execScrubLapAlarm s = .next s') : s'.mem.wf = true := by
  unfold execScrubLapAlarm at hs; grind [wf_raise, State.draw]

@[simp] theorem newRotation_mem (s : State) : (s.newRotation).mem = s.mem := rfl

theorem wf_execT1CheckSelftest {s : State} (h : s.mem.wf = true) (pass : Bool) {s' : State} (hs : execT1CheckSelftest pass s = .next s') :
    s'.mem.wf = true := by
  unfold execT1CheckSelftest at hs; grind [newRotation_mem, wf_retire, State.draw]

theorem wf_rebuildLine {s : State} (h : s.mem.wf = true) (l : Nat) (lost : Bool) : (s.rebuildLine l lost).mem.wf = true := by
  unfold State.rebuildLine; grind [wf_noteT1, wf_rewrite]

theorem wf_execRebuildGranuleCopy {s : State} (h : s.mem.wf = true) (g lost : Nat) {s' : State}
    (hs : execRebuildGranuleCopy g lost s = .next s') : s'.mem.wf = true := by
  unfold execRebuildGranuleCopy at hs; grind [wf_foldlState, wf_rebuildLine]

theorem wf_rebuildPage {s : State} (h : s.mem.wf = true) (p : Nat) (lost : Bool) : (s.rebuildPage p lost).mem.wf = true := by
  unfold State.rebuildPage
  split
  · exact wf_clear h ..
  · split
    · exact h
    · split
      · exact wf_countNvsCe (by rw [healPage_mem]; exact h) _
      · exact wf_countNvsUe (wf_maskPage h _) _

theorem wf_execNvsRebuildPage {s : State} (h : s.mem.wf = true) (page : Nat) (lost : Bool) {s' : State}
    (hs : execNvsRebuildPage page lost s = .next s') : s'.mem.wf = true := by
  unfold execNvsRebuildPage at hs; grind [wf_rebuildPage, State.draw]

end Sys2Proof.Proofs
end

section
/-! PROOFS. Memory in its canonical form (O54): the operations of Machine/Power. -/

set_option Elab.async false

namespace Sys2Proof.Proofs
open Sys2Proof Sys2Proof.Machine Sys2Proof.Laws

theorem wf_gateOff {s : State} (h : s.mem.wf = true) (d : Nat) : (s.gateOff d).mem.wf = true := by
  unfold State.gateOff; grind [setDom_mem, wf_poisonFill]

theorem wf_execDomainGate {s : State} (h : s.mem.wf = true) (d : Nat) {s' : State} (hs : execDomainGate d s = .next s') :
    s'.mem.wf = true := by
  obtain rfl := Host.Outcome.next.inj hs
  split
  · exact wf_bump (wf_gateOff h ..) ..
  · exact h

@[simp] theorem startWaking_mem (s : State) : (s.startWaking).mem = s.mem := rfl

theorem wf_execDomainWakeComplete {s : State} (h : s.mem.wf = true) (d : Nat) {s' : State} (hs : execDomainWakeComplete d s = .next s') :
    s'.mem.wf = true := by
  unfold execDomainWakeComplete at hs; grind [modPwr_mem, touch_mem, setDom_mem, wf_poisonFill, startWaking_mem]

theorem wf_runPwrState {s : State} (h : s.mem.wf = true) (c : Cmd) : (runPwrState s c).1.mem.wf = true := by
  unfold runPwrState; grind [ungate_mem, modPwr_mem]

theorem wf_execPwrState {s : State} (h : s.mem.wf = true) (q k : Nat) {s' : State} (hs : execPwrState q k s = .next s') :
    s'.mem.wf = true :=
  wf_opcodeRow wf_runPwrState h hs

@[simp] theorem answer_mem (s : State) (d : Nat) (a : Answer) : (s.answer d a).mem = s.mem := rfl

theorem wf_execAgentAnswer {s : State} (h : s.mem.wf = true) (d : Nat) {s' : State} (hs : execAgentAnswer d s = .next s') :
    s'.mem.wf = true := by
  unfold execAgentAnswer at hs; grind [answer_mem]

theorem wf_execAgentDelayTimeout {s : State} (h : s.mem.wf = true) (d : Nat) {s' : State} (hs : execAgentDelayTimeout d s = .next s') :
    s'.mem.wf = true := by
  unfold execAgentDelayTimeout at hs; grind [answer_mem]

theorem wf_abandonEntry {s : State} (h : s.mem.wf = true) (e : Entry) (cause src : Nat) : (s.abandonEntry e cause src).mem.wf = true := by
  unfold State.abandonEntry; grind [modPwr_mem, wf_bump, wf_raise, wf_schedule, finishUid_mem]

theorem wf_replyNow {s : State} (h : s.mem.wf = true) (uid : Nat) : (s.replyNow uid).mem.wf = true := by
  unfold State.replyNow
  split
  · exact wf_releaseReplies h ..
  · exact h

theorem wf_execEntryPointReached {s : State} (h : s.mem.wf = true) {s' : State} (hs : execEntryPointReached s = .next s') :
    s'.mem.wf = true := by
  unfold execEntryPointReached at hs; grind [wf_abandonEntry, modPwr_mem, wf_replyNow, finishUid_mem]

theorem wf_switchOff {s : State} (h : s.mem.wf = true) : (s.switchOff).mem.wf = true := by
  unfold State.switchOff; grind [wf_foldlState, wf_linkTo, modNet_mem]

theorem wf_enterEasy {s : State} (h : s.mem.wf = true) (e : Entry) : (s.enterEasy e).mem.wf = true := by
  unfold State.enterEasy; grind [wf_foldlState, modPwr_mem, wf_switchOff, wf_gateOff]

theorem wf_enterMoored {s : State} (h : s.mem.wf = true) (e : Entry) : (s.enterMoored e).mem.wf = true := by
  unfold State.enterMoored; grind [modPwr_mem, wf_switchOff]

theorem wf_execRailsOff {s : State} (h : s.mem.wf = true) {s' : State} (hs : execRailsOff s = .next s') : s'.mem.wf = true := by
  unfold execRailsOff at hs; grind [wf_enterMoored, wf_enterEasy, wf_wake]

theorem wf_execTimerWake {s : State} (h : s.mem.wf = true) {s' : State} (hs : execTimerWake s = .next s') : s'.mem.wf = true := by
  obtain rfl := Host.Outcome.next.inj hs
  split
  · exact wf_wake h ..
  · exact h

theorem wf_execSagRise {s : State} (h : s.mem.wf = true) {s' : State} (hs : execSagRise s = .next s') : s'.mem.wf = true := by
  obtain rfl := Host.Outcome.next.inj hs
  exact wf_wake h ..

theorem wf_execLinkEnergy {s : State} (h : s.mem.wf = true) (port : Nat) {s' : State} (hs : execLinkEnergy port s = .next s') :
    s'.mem.wf = true := by
  obtain rfl := Host.Outcome.next.inj hs
  split
  · exact wf_wake h ..
  · exact h

theorem wf_execCallToken {s : State} (h : s.mem.wf = true) (b : Bool) {s' : State} (hs : execCallToken b s = .next s') :
    s'.mem.wf = true := by
  unfold execCallToken at hs; grind [modPwr_mem, wf_wake, wf_bump]

@[simp] theorem powerUp_mem (s : State) (ds : List Nat) : (s.powerUp ds).mem = s.mem := by
  unfold State.powerUp; exact foldl_mem _ _ (by grind [touch_mem, setDom_mem]) s

theorem wf_restoreHot {s : State} (h : s.mem.wf = true) : (s.restoreHot).mem.wf = true := by
  unfold State.restoreHot; grind [wf_foldlState, wf_scramble]

theorem wf_execEasyReturnStage {s : State} (h : s.mem.wf = true) {s' : State} (hs : execEasyReturnStage s = .next s') :
    s'.mem.wf = true := by
  unfold execEasyReturnStage at hs; grind [modPwr_mem, powerUp_mem, wf_raise, wf_planPlace, wf_runsPlace, wf_schedule, startWaking_mem,
    wf_restoreHot]

theorem wf_execSagWarnFall {s : State} (h : s.mem.wf = true) {s' : State} (hs : execSagWarnFall s = .next s') : s'.mem.wf = true := by
  unfold execSagWarnFall at hs; grind [wf_bump, modCap_mem, wf_preemptClasses, wf_spillBackground, wf_stopWrites]

theorem wf_execSagWarnRise {s : State} (h : s.mem.wf = true) {s' : State} (hs : execSagWarnRise s = .next s') : s'.mem.wf = true := by
  obtain rfl := Host.Outcome.next.inj hs
  split <;> exact h

@[simp] theorem flushDeferred_mem (s : State) : (s.flushDeferred).mem = s.mem := rfl

theorem wf_execSagConfirmed {s : State} (h : s.mem.wf = true) {s' : State} (hs : execSagConfirmed s = .next s') : s'.mem.wf = true := by
  unfold execSagConfirmed at hs; grind [roundDiv_mem, wf_spillBackground, flushDeferred_mem, modCap_mem, wf_raise, wf_schedule]

end Sys2Proof.Proofs
end

section
/-! PROOFS. Memory in its canonical form (O54): the operations of Machine/Clocks. -/

set_option Elab.async false

namespace Sys2Proof.Proofs
open Sys2Proof Sys2Proof.Machine Sys2Proof.Laws

theorem wf_crystalLost {s : State} (h : s.mem.wf = true) : (s.crystalLost).mem.wf = true := by
  unfold State.crystalLost; grind [wf_bump]

theorem wf_candLost {s : State} (h : s.mem.wf = true) (c : Nat) : (s.candLost c).mem.wf = true := by
  unfold State.candLost; grind [modClk_mem, wf_crystalLost, wf_chainClockLost]

theorem wf_execJudgeWindow {s : State} (h : s.mem.wf = true) (c n : Nat) {s' : State} (hs : execJudgeWindow c n s = .next s') :
    s'.mem.wf = true := by
  unfold execJudgeWindow at hs; grind [modClk_mem, wf_candLost]

theorem wf_execClockNoEdge {s : State} (h : s.mem.wf = true) (c : Nat) {s' : State} (hs : execClockNoEdge c s = .next s') :
    s'.mem.wf = true := by
  obtain rfl := Host.Outcome.next.inj hs
  split
  · exact wf_candLost h ..
  · exact h

theorem wf_runClkSource {s : State} (h : s.mem.wf = true) (c : Cmd) : (runClkSource s c).1.mem.wf = true := by
  unfold runClkSource; grind [modClk_mem, wf_raise]

theorem wf_execClkSource {s : State} (h : s.mem.wf = true) (q k : Nat) {s' : State} (hs : execClkSource q k s = .next s') :
    s'.mem.wf = true :=
  wf_opcodeRow wf_runClkSource h hs

theorem wf_runClkOut {s : State} (h : s.mem.wf = true) (c : Cmd) : (runClkOut s c).1.mem.wf = true := by
  unfold runClkOut; grind [modClk_mem]

theorem wf_execClkOut {s : State} (h : s.mem.wf = true) (q k : Nat) {s' : State} (hs : execClkOut q k s = .next s') : s'.mem.wf = true :=
  wf_opcodeRow wf_runClkOut h hs

end Sys2Proof.Proofs
end

section
/-! PROOFS. Memory in its canonical form (O54): the operations of Machine/Pool. -/

set_option Elab.async false

namespace Sys2Proof.Proofs
open Sys2Proof Sys2Proof.Machine Sys2Proof.Laws

theorem wf_runPool {s : State} (h : s.mem.wf = true) (t : Nat) (d : List Byte) : (s.runPool t d).mem.wf = true := by
  unfold State.runPool; exact wf_foldlState h _ _ (by grind [raiseFlags_mem, wf_storeBytes, wf_bump])

theorem wf_execPoolRun {s : State} (h : s.mem.wf = true) (t th ra : Nat) {s' : State} (hs : execPoolRun t th ra s = .next s') :
    s'.mem.wf = true := by
  unfold execPoolRun at hs; grind [wf_descOffset, wf_poisonUse, wf_threadFault, wf_noteRead, modTile_mem]

theorem wf_execPoolComplete {s : State} (h : s.mem.wf = true) (t : Nat) {s' : State} (hs : execPoolComplete t s = .next s') :
    s'.mem.wf = true := by
  unfold execPoolComplete at hs; grind [modTile_mem, wf_runPool, wf_noteReads]

end Sys2Proof.Proofs
end

section
/-! PROOFS. Memory in its canonical form (O54): the operations of Machine/Starts. -/

set_option Elab.async false

namespace Sys2Proof.Proofs
open Sys2Proof Sys2Proof.Machine Sys2Proof.Laws

@[simp] theorem suppliesIn_mem (s : State) : (s.suppliesIn).mem = s.mem := by unfold State.suppliesIn; split <;> rfl

theorem wf_startOver {s : State} (h : s.mem.wf = true) (cause : Nat) : (s.startOver cause).mem.wf = true := by
  unfold State.startOver; grind [suppliesIn_mem, modStart_mem, wf_freshStart]

theorem wf_execSupplyValid {s : State} (h : s.mem.wf = true) (r : Nat) {s' : State} (hs : execSupplyValid r s = .next s') :
    s'.mem.wf = true := by
  unfold execSupplyValid at hs; grind [suppliesIn_mem, modStart_mem]

theorem wf_tearWrites {s : State} (h : s.mem.wf = true) : (s.tearWrites).mem.wf = true := by
  unfold State.tearWrites; grind [wf_foldlState, wf_moveTo, State.draw]

theorem wf_execSupplyLoss {s : State} (h : s.mem.wf = true) (r : Nat) {s' : State} (hs : execSupplyLoss r s = .next s') :
    s'.mem.wf = true := by
  unfold execSupplyLoss at hs; grind [modStart_mem, wf_startOver, wf_tearWrites]

theorem wf_execAonBrownout {s : State} (h : s.mem.wf = true) {s' : State} (hs : execAonBrownout s = .next s') : s'.mem.wf = true := by
  obtain rfl := Host.Outcome.next.inj hs
  split
  · exact wf_startOver h ..
  · exact h

theorem wf_execSagResetFall {s : State} (h : s.mem.wf = true) {s' : State} (hs : execSagResetFall s = .next s') : s'.mem.wf = true := by
  unfold execSagResetFall at hs; grind [wf_bump, wf_startOver, wf_holdUp]

theorem wf_execPorRelease {s : State} (h : s.mem.wf = true) {s' : State} (hs : execPorRelease s = .next s') : s'.mem.wf = true := by
  obtain rfl := Host.Outcome.next.inj hs
  split <;> exact h

theorem wf_execStartComplete {s : State} (h : s.mem.wf = true) (currentOk previousOk : Bool) {s' : State}
    (hs : execStartComplete currentOk previousOk s = .next s') : s'.mem.wf = true := by
  unfold execStartComplete at hs; grind [modCox_mem, modStart_mem, wf_raise]

theorem wf_execBringupMilestone {s : State} (h : s.mem.wf = true) (m : Nat) {s' : State} (hs : execBringupMilestone m s = .next s') :
    s'.mem.wf = true := by
  unfold execBringupMilestone at hs; grind [modStart_mem, modCox_mem, wf_schedule]

theorem wf_runFwStage {s : State} (h : s.mem.wf = true) (c : Cmd) : (runFwStage s c).1.mem.wf = true := by
  unfold runFwStage; grind [wf_noteRead, wf_poisonedTable, modCox_mem]

theorem wf_execFwStage {s : State} (h : s.mem.wf = true) (q k : Nat) {s' : State} (hs : execFwStage q k s = .next s') : s'.mem.wf = true :=
  wf_opcodeRow wf_runFwStage h hs

theorem wf_takeOver {s : State} (h : s.mem.wf = true) (version : Nat) : (s.takeOver version).mem.wf = true := by
  unfold State.takeOver; grind [wf_raise, modCox_mem]

theorem wf_runFwHandover {s : State} (h : s.mem.wf = true) (m : Cmd) : (runFwHandover s m).1.mem.wf = true := by
  unfold runFwHandover; grind [wf_bump, modCox_mem, wf_takeOver]

theorem wf_execFwHandover {s : State} (h : s.mem.wf = true) (q k : Nat) {s' : State} (hs : execFwHandover q k s = .next s') :
    s'.mem.wf = true :=
  wf_opcodeRow wf_runFwHandover h hs

theorem wf_execStartImageSlotWrite {s : State} (h : s.mem.wf = true) {s' : State} (hs : execStartImageSlotWrite s = .next s') :
    s'.mem.wf = true := by
  unfold execStartImageSlotWrite at hs; grind [modCox_mem]

theorem wf_execStandbyReloaded {s : State} (h : s.mem.wf = true) (pass : Bool) {s' : State} (hs : execStandbyReloaded pass s = .next s') :
    s'.mem.wf = true := by
  obtain rfl := Host.Outcome.next.inj hs
  split <;> exact h

theorem wf_execCoxLockstepFail {s : State} (h : s.mem.wf = true) {s' : State} (hs : execCoxLockstepFail s = .next s') :
    s'.mem.wf = true := by
  unfold execCoxLockstepFail at hs; grind [wf_bump, modCox_mem, wf_takeOver]

end Sys2Proof.Proofs
end

section
/-! PROOFS. Memory in its canonical form (O54): the operations of Machine/Regs. -/

set_option Elab.async false

namespace Sys2Proof.Proofs
open Sys2Proof Sys2Proof.Machine Sys2Proof.Laws

theorem capReg_mem (s : State) (o : Nat) {x} {s' : State} (hs : s.capReg o = some (x, s')) : s'.mem = s.mem := by
  unfold State.capReg at hs; grind [roundDiv_mem]

/-- What a register read leaves: the memory of the state it was read in. -/
def readKeeps (s : State) (r : Option (Nat × State)) : Prop := ∀ p, r = some p → p.2.mem = s.mem

theorem readKeeps_none (s : State) : readKeeps s none := by
  intro p hp
  exact absurd hp (by simp)

theorem readKeeps_some (s : State) (v : Nat) : readKeeps s (some (v, s)) := by
  intro p hp
  rw [← Option.some.inj hp]

theorem readKeeps_map (s : State) (v : Option Nat) (f : Nat → Nat) : readKeeps s (v.map (fun v => (f v, s))) := by
  intro p hp
  obtain ⟨w, -, rfl⟩ := Option.map_eq_some_iff.1 hp
  rfl

theorem readKeeps_ite {c : Prop} [Decidable c] {s : State} {r r' : Option (Nat × State)} (hr : readKeeps s r) (hr' : readKeeps s r') :
    readKeeps s (if c then r else r') := by
  split
  · exact hr
  · exact hr'

theorem readKeeps_tileReg (s : State) (t r : Nat) : readKeeps s (s.tileReg t r) := fun _ hp => tileReg_mem s t r hp

theorem readKeeps_capReg (s : State) (r : Nat) : readKeeps s (s.capReg r) := fun _ hp => capReg_mem s r hp

theorem readKeeps_reg (s : State) (a : Nat) : readKeeps s (s.reg a) := by
  refine readKeeps_ite (readKeeps_none s) (readKeeps_ite (readKeeps_some s _) ?_)
  split
  case h_2 => exact readKeeps_ite (readKeeps_tileReg s _ _) (readKeeps_none s)
  case h_16 => exact readKeeps_capReg s _
  all_goals exact readKeeps_map s _ (· % 2 ^ 64)

theorem reg_mem (s : State) (a : Nat) {x} {s' : State} (hs : s.reg a = some (x, s')) : s'.mem = s.mem :=
  readKeeps_reg s a _ hs

theorem mem_ite {c : Prop} [Decidable c] {s t u : State} (hs : s.mem = u.mem) (ht : t.mem = u.mem) : (if c then s else t).mem = u.mem := by
  split
  · exact hs
  · exact ht

@[simp] theorem clearRc_mem (s : State) (a : Nat) : (s.clearRc a).mem = s.mem :=
  mem_ite (clearCounter_mem ..) (mem_ite (by rfl) (mem_ite (by exact modNet_mem ..) (by rfl)))

@[simp] theorem readReg_mem (s : State) (a : Nat) : (s.readReg a).2.mem = s.mem := by
  unfold State.readReg; grind [reg_mem, clearRc_mem]

theorem wf_writePool {s : State} (h : s.mem.wf = true) (o v mask : Nat) : (s.writePool o v mask).mem.wf = true := by
  unfold State.writePool; grind [wf_spillBackground]

@[simp] theorem writeFuse_mem (s : State) (o v mask old : Nat) : (s.writeFuse o v mask old).mem = s.mem := by
  unfold State.writeFuse; grind [modFuse_mem, writeSRing_mem, modStream_mem]

@[simp] theorem writeClk_mem (s : State) (o v mask old : Nat) : (s.writeClk o v mask old).mem = s.mem := by
  unfold State.writeClk; grind [modClk_mem]

@[simp] theorem writePwr_mem (s : State) (o v mask old : Nat) : (s.writePwr o v mask old).mem = s.mem := by
  unfold State.writePwr; split <;> rfl

@[simp] theorem writeCap_mem (s : State) (o v mask old : Nat) : (s.writeCap o v mask old).mem = s.mem := by
  unfold State.writeCap; grind [writeLimit_mem, modCap_mem, writeSag_mem]

theorem memoryOk_of_mem_eq {s t : State} (h : s.memoryOk) (e : t.mem = s.mem) : t.memoryOk := by
  unfold State.memoryOk
  rw [e]
  exact h

theorem memoryOk_writePool {s : State} (h : s.memoryOk) (o v mask : Nat) : (s.writePool o v mask).memoryOk := wf_writePool h ..

theorem memoryOk_spillBackground {s : State} (h : s.memoryOk) (b : BoatSt) : ({ s with boat := b } : State).spillBackground.memoryOk :=
  wf_spillBackground (by exact h)

theorem memoryOk_writeVerdict {s : State} (h : s.memoryOk) (v mask : Nat) : (s.writeVerdict v mask).memoryOk := wf_writeVerdict h ..

theorem memoryOk_withPort {s : State} (h : s.memoryOk) (p : PortSt) : ({ s with port := p } : State).memoryOk := h

theorem memoryOk_withPlan {s : State} (h : s.memoryOk) (p : PlanSt) : ({ s with plan := p } : State).memoryOk := h

theorem memoryOk_withSafe {s : State} (h : s.memoryOk) (p : SafeSt) : ({ s with safe := p } : State).memoryOk := h

theorem memoryOk_writeFuse {s : State} (h : s.memoryOk) (o v mask old : Nat) : (s.writeFuse o v mask old).memoryOk :=
  memoryOk_of_mem_eq h (writeFuse_mem ..)

theorem memoryOk_strokeWrite {s : State} (h : s.memoryOk) (o v mask : Nat) : (s.strokeWrite o v mask).memoryOk :=
  memoryOk_of_mem_eq h (strokeWrite_mem ..)

theorem memoryOk_writePwr {s : State} (h : s.memoryOk) (o v mask old : Nat) : (s.writePwr o v mask old).memoryOk :=
  memoryOk_of_mem_eq h (writePwr_mem ..)

theorem memoryOk_writeClk {s : State} (h : s.memoryOk) (o v mask old : Nat) : (s.writeClk o v mask old).memoryOk :=
  memoryOk_of_mem_eq h (writeClk_mem ..)

theorem memoryOk_writeCap {s : State} (h : s.memoryOk) (o v mask old : Nat) : (s.writeCap o v mask old).memoryOk :=
  memoryOk_of_mem_eq h (writeCap_mem ..)

theorem wf_writeReg {s : State} (h : s.mem.wf = true) (a v mask : Nat) : (s.writeReg a v mask).mem.wf = true := by
  change (s.writeReg a v mask).memoryOk
  have hs : s.memoryOk := h
  unfold State.writeReg
  generalize a - ctrlBase = o
  refine memoryOk_ite hs ?_
  generalize o / 2 ^ 24 = b
  generalize o % 2 ^ 24 = r
  extract_lets +onlyGivenNames old w
  clear_value w old
  split
  case h_1 => exact memoryOk_ite (memoryOk_of_mem_eq (memoryOk_withPort hs _) (syncIdle_mem _)) hs
  case h_2 => exact memoryOk_ite (memoryOk_of_mem_eq hs (modTile_mem ..)) hs
  case h_3 => exact memoryOk_writePool hs ..
  case h_4 => exact memoryOk_ite (memoryOk_withStore hs _) (memoryOk_ite (memoryOk_withStore hs _) hs)
  case h_5 => exact memoryOk_ite (memoryOk_spillBackground hs _) hs
  case h_6 => exact memoryOk_ite (memoryOk_withPlan hs _) hs
  case h_7 => exact memoryOk_writeFuse hs ..
  case h_8 => exact memoryOk_strokeWrite hs ..
  case h_9 => exact memoryOk_ite (memoryOk_of_mem_eq hs (modNet_mem ..)) hs
  case h_10 => exact memoryOk_ite (memoryOk_withSafe hs _) (memoryOk_ite (memoryOk_writeVerdict hs ..) hs)
  case h_11 => exact memoryOk_writePwr hs ..
  case h_12 => exact memoryOk_writeClk hs ..
  case h_13 => exact memoryOk_writeCap hs ..
  case h_14 => exact hs

theorem wf_execRegisterWrite {s : State} (h : s.mem.wf = true) (a v mask : Nat) {s' : State}
    (hs : execRegisterWrite a v mask s = .next s') : s'.mem.wf = true := by
  obtain rfl := Host.Outcome.next.inj hs
  exact wf_writeReg h ..

theorem wf_execTileArithStatusWrite {s : State} (h : s.mem.wf = true) (t v mask : Nat) {s' : State}
    (hs : execTileArithStatusWrite t v mask s = .next s') : s'.mem.wf = true := by
  obtain rfl := Host.Outcome.next.inj hs
  exact h

theorem wf_execLoopSatClear {s : State} (h : s.mem.wf = true) (l v mask : Nat) {s' : State} (hs : execLoopSatClear l v mask s = .next s') :
    s'.mem.wf = true := by
  obtain rfl := Host.Outcome.next.inj hs
  exact h

theorem wf_execTierPoolWrite {s : State} (h : s.mem.wf = true) (a v mask : Nat) {s' : State}
    (hs : execTierPoolWrite a v mask s = .next s') : s'.mem.wf = true := by
  obtain rfl := Host.Outcome.next.inj hs
  exact wf_writePool h ..

end Sys2Proof.Proofs
end

section
/-! PROOFS. Memory in its canonical form (O54): the operations of Machine/Sync. -/

set_option Elab.async false

namespace Sys2Proof.Proofs
open Sys2Proof Sys2Proof.Machine Sys2Proof.Laws

theorem wf_execFenceTile {s : State} (h : s.mem.wf = true) (t th : Nat) {s' : State} (hs : execFenceTile t th s = .next s') :
    s'.mem.wf = true := by
  obtain rfl := Host.Outcome.next.inj hs
  split <;> exact h

theorem wf_execFenceDev {s : State} (h : s.mem.wf = true) (t th : Nat) {s' : State} (hs : execFenceDev t th s = .next s') :
    s'.mem.wf = true := by
  obtain rfl := Host.Outcome.next.inj hs
  split <;> exact h

theorem wf_execFlush {s : State} (h : s.mem.wf = true) (t th ra rb : Nat) {s' : State} (hs : execFlush t th ra rb s = .next s') :
    s'.mem.wf = true := by
  unfold execFlush at hs; grind [wf_poisonUse, sendLines_mem, modThread_mem]

theorem wf_execInval {s : State} (h : s.mem.wf = true) (t th ra rb : Nat) {s' : State} (hs : execInval t th ra rb s = .next s') :
    s'.mem.wf = true := by
  unfold execInval at hs; grind [wf_poisonUse, modTile_mem, sendLines_mem]

theorem wf_execCrewBarrier {s : State} (h : s.mem.wf = true) (t th : Nat) {s' : State} (hs : execCrewBarrier t th s = .next s') :
    s'.mem.wf = true := by
  unfold execCrewBarrier at hs; grind [wf_crewProgress, modThread_mem, sendOwn_mem]

theorem wf_execLayerLate {s : State} (h : s.mem.wf = true) (t th rd imm : Nat) {s' : State} (hs : execLayerLate t th rd imm s = .next s') :
    s'.mem.wf = true := by
  unfold execLayerLate at hs; grind [wf_crewProgress, modThread_mem, sendOwn_mem]

theorem wf_execSemAcquire {s : State} (h : s.mem.wf = true) (t th rd ra : Nat) {s' : State} (hs : execSemAcquire t th rd ra s = .next s') :
    s'.mem.wf = true := by
  unfold execSemAcquire at hs; grind [wf_poisonUse, wf_faultPc, modThread_mem, modSem_mem, wf_schedule, boost_mem, grantSem_mem]

theorem wf_execSemRelease {s : State} (h : s.mem.wf = true) (t th ra : Nat) {s' : State} (hs : execSemRelease t th ra s = .next s') :
    s'.mem.wf = true := by
  unfold execSemRelease at hs; grind [wf_poisonUse, wf_faultPc, sendOwn_mem, modThread_mem, wf_schedule, releaseSem_mem]

theorem wf_execThreadExit {s : State} (h : s.mem.wf = true) (t th : Nat) {s' : State} (hs : execThreadExit t th s = .next s') :
    s'.mem.wf = true := by
  unfold execThreadExit at hs; grind [modThread_mem, sendLines_mem]

theorem wf_execWriteAcknowledged {s : State} (h : s.mem.wf = true) (t i : Nat) {s' : State} (hs : execWriteAcknowledged t i s = .next s') :
    s'.mem.wf = true := by
  unfold execWriteAcknowledged at hs; grind [hold_mem, modTile_mem, wf_homeStore, wf_schedule, wf_crewProgress]

end Sys2Proof.Proofs
end

section
/-! PROOFS. Memory in its canonical form (O54): the operations of Machine/Sys. -/

set_option Elab.async false

namespace Sys2Proof.Proofs
open Sys2Proof Sys2Proof.Machine Sys2Proof.Laws

theorem wf_runSysPing {s : State} (h : s.mem.wf = true) (c : Cmd) : (runSysPing s c).1.mem.wf = true := h

theorem wf_execSysPing {s : State} (h : s.mem.wf = true) (q k : Nat) {s' : State} (hs : execSysPing q k s = .next s') : s'.mem.wf = true :=
  wf_opcodeRow wf_runSysPing h hs

theorem wf_runSysQueueSync {s : State} (h : s.mem.wf = true) (c : Cmd) : (runSysQueueSync s c).1.mem.wf = true := h

theorem wf_execSysQueueSync {s : State} (h : s.mem.wf = true) (q k : Nat) {s' : State} (hs : execSysQueueSync q k s = .next s') :
    s'.mem.wf = true :=
  wf_opcodeRow wf_runSysQueueSync h hs

theorem wf_runSysRegRead {s : State} (h : s.mem.wf = true) (c : Cmd) : (runSysRegRead s c).1.mem.wf = true := by
  unfold runSysRegRead; grind [readReg_mem]

theorem wf_execSysRegRead {s : State} (h : s.mem.wf = true) (q k : Nat) {s' : State} (hs : execSysRegRead q k s = .next s') :
    s'.mem.wf = true :=
  wf_opcodeRow wf_runSysRegRead h hs

theorem wf_runSysRegWrite {s : State} (h : s.mem.wf = true) (c : Cmd) : (runSysRegWrite s c).1.mem.wf = true := by
  unfold runSysRegWrite; grind [wf_writeReg, reg_mem]

theorem wf_execSysRegWrite {s : State} (h : s.mem.wf = true) (q k : Nat) {s' : State} (hs : execSysRegWrite q k s = .next s') :
    s'.mem.wf = true :=
  wf_opcodeRow wf_runSysRegWrite h hs

theorem wf_runSysCounterRead {s : State} (h : s.mem.wf = true) (c : Cmd) : (runSysCounterRead s c).1.mem.wf = true := by
  unfold runSysCounterRead
  split <;> exact h

theorem wf_execSysCounterRead {s : State} (h : s.mem.wf = true) (q k : Nat) {s' : State} (hs : execSysCounterRead q k s = .next s') :
    s'.mem.wf = true :=
  wf_opcodeRow wf_runSysCounterRead h hs

theorem wf_runSysEventMask {s : State} (h : s.mem.wf = true) (c : Cmd) : (runSysEventMask s c).1.mem.wf = true := h

theorem wf_execSysEventMask {s : State} (h : s.mem.wf = true) (q k : Nat) {s' : State} (hs : execSysEventMask q k s = .next s') :
    s'.mem.wf = true :=
  wf_opcodeRow wf_runSysEventMask h hs

theorem wf_runSysStatus {s : State} (h : s.mem.wf = true) (c : Cmd) : (runSysStatus s c).1.mem.wf = true := by
  unfold runSysStatus
  split
  · exact wf_storeClean h ..
  · exact h

theorem wf_execSysStatus {s : State} (h : s.mem.wf = true) (q k : Nat) {s' : State} (hs : execSysStatus q k s = .next s') :
    s'.mem.wf = true :=
  wf_opcodeRow wf_runSysStatus h hs

theorem wf_readSlots {s : State} (h : s.mem.wf = true) (q : Nat) : (s.readSlots q).mem.wf = true := by
  unfold State.readSlots; grind [wf_foldlState, wf_latchHead, wf_readSlot]

theorem wf_readTurn {s : State} (h : s.mem.wf = true) (q : Nat) : (s.readTurn q).mem.wf = true := by
  unfold State.readTurn; grind [wf_readCommand, wf_readSlots, wf_latchHead]

theorem wf_execCommandRead {s : State} (h : s.mem.wf = true) (ups : List Upset) {s' : State} (hs : execCommandRead ups s = .next s') :
    s'.mem.wf = true := by
  unfold execCommandRead at hs; grind [wf_foldlState, wf_readTurn, wf_strikeSram]

end Sys2Proof.Proofs
end

section
/-! PROOFS. Memory in its canonical form (O54): every command, and one step. -/

set_option Elab.async false

namespace Sys2Proof.Proofs
open Sys2Proof Sys2Proof.Machine Sys2Proof.Laws

theorem tick_mem (s : State) : s.tick.mem = s.mem := by
  unfold State.tick
  split <;> rfl

/-- One command: each row of the table keeps the form. -/
theorem wf_exec {s s' : State} (h : s.mem.wf = true) (c : Instr) (hs : exec c s = .next s') : s'.mem.wf = true := by
  cases c with
  | hostRead ch a bl32 ups => exact wf_execHostRead h ch a bl32 ups hs
  | evLostRead ch => exact wf_execEvLostRead h ch hs
  | hostWrite ch a beats mask link => exact wf_execHostWrite h ch a beats mask link hs
  | modeRegisterWrite ch mr v => exact wf_execModeRegisterWrite h ch mr v hs
  | modeRegisterRead ch mr => exact wf_execModeRegisterRead h ch mr hs
  | linkTraining ch kind result => exact wf_execLinkTraining h ch kind result hs
  | zqCalibration ch => exact wf_execZqCalibration h ch hs
  | postPackageRepair ch => exact wf_execPostPackageRepair h ch hs
  | refresh ch kind => exact wf_execRefresh h ch kind hs
  | powerDownEntry ch => exact wf_execPowerDownEntry h ch hs
  | powerDownExit ch => exact wf_execPowerDownExit h ch hs
  | selfRefreshEntry ch pd => exact wf_execSelfRefreshEntry h ch pd hs
  | selfRefreshExit ch => exact wf_execSelfRefreshExit h ch hs
  | deepSleepEntry ch => exact wf_execDeepSleepEntry h ch hs
  | deepSleepExit ch => exact wf_execDeepSleepExit h ch hs
  | resetNAssert => exact wf_execResetNAssert h hs
  | resetNRelease => exact wf_execResetNRelease h hs
  | sqTailWrite q v => exact wf_execSqTailWrite h q v hs
  | rqHeadWrite q v => exact wf_execRqHeadWrite h q v hs
  | evHeadWrite ch v => exact wf_execEvHeadWrite h ch v hs
  | commandRead ups => exact wf_execCommandRead h ups hs
  | commandDispatch q => exact wf_execCommandDispatch h q hs
  | commandComplete q => exact wf_execCommandComplete h q hs
  | deadlinePassed q k => exact wf_execDeadlinePassed h q k hs
  | sysPing q k => exact wf_execSysPing h q k hs
  | sysRegRead q k => exact wf_execSysRegRead h q k hs
  | sysRegWrite q k => exact wf_execSysRegWrite h q k hs
  | registerWrite a v mask => exact wf_execRegisterWrite h a v mask hs
  | tileArithStatusWrite t v mask => exact wf_execTileArithStatusWrite h t v mask hs
  | loopSatClear l v mask => exact wf_execLoopSatClear h l v mask hs
  | capLimitWrite v mask => exact wf_execCapLimitWrite h v mask hs
  | capSagWrite v mask => exact wf_execCapSagWrite h v mask hs
  | tierPoolWrite a v mask => exact wf_execTierPoolWrite h a v mask hs
  | fuseSRingWrite idx v mask => exact wf_execFuseSRingWrite h idx v mask hs
  | safeVerdictWrite v mask => exact wf_execSafeVerdictWrite h v mask hs
  | sysStatus q k => exact wf_execSysStatus h q k hs
  | sysCounterRead q k => exact wf_execSysCounterRead h q k hs
  | sysEventMask q k => exact wf_execSysEventMask h q k hs
  | sysQueueSync q k => exact wf_execSysQueueSync h q k hs
  | memPull q k ups => exact wf_execMemPull h q k ups hs
  | memPush q k ups => exact wf_execMemPush h q k ups hs
  | memCopy q k ups => exact wf_execMemCopy h q k ups hs
  | memFill q k => exact wf_execMemFill h q k hs
  | memMode q k => exact wf_execMemMode h q k hs
  | memScrub q k => exact wf_execMemScrub h q k hs
  | memSpillarea q k => exact wf_execMemSpillarea h q k hs
  | modelLoad q k => exact wf_execModelLoad h q k hs
  | modelEvict q k => exact wf_execModelEvict h q k hs
  | modelPin q k => exact wf_execModelPin h q k hs
  | modelSwap q k => exact wf_execModelSwap h q k hs
  | modelSwapEffect old => exact wf_execModelSwapEffect h old hs
  | modelTier q k => exact wf_execModelTier h q k hs
  | modelInfo q k => exact wf_execModelInfo h q k hs
  | jobSubmit q k => exact wf_execJobSubmit h q k hs
  | jobCancel q k => exact wf_execJobCancel h q k hs
  | schedClient q k => exact wf_execSchedClient h q k hs
  | schedStats q k => exact wf_execSchedStats h q k hs
  | semAlloc q k => exact wf_execSemAlloc h q k hs
  | semFree q k => exact wf_execSemFree h q k hs
  | ctxOpen q k => exact wf_execCtxOpen h q k hs
  | ctxClose q k => exact wf_execCtxClose h q k hs
  | kvAppend q k => exact wf_execKvAppend h q k hs
  | kvTrim q k => exact wf_execKvTrim h q k hs
  | kvMove q k => exact wf_execKvMove h q k hs
  | kvFetch q k => exact wf_execKvFetch h q k hs
  | kvStats q k => exact wf_execKvStats h q k hs
  | planLattice q k => exact wf_execPlanLattice h q k hs
  | planMap q k => exact wf_execPlanMap h q k hs
  | planQuery q k => exact wf_execPlanQuery h q k hs
  | planCancel q k => exact wf_execPlanCancel h q k hs
  | planSearchEnd u cut => exact wf_execPlanSearchEnd h u cut hs
  | fuseStream q k => exact wf_execFuseStream h q k hs
  | fuseXform q k => exact wf_execFuseXform h q k hs
  | fuseLink q k => exact wf_execFuseLink h q k hs
  | fuseTracks q k => exact wf_execFuseTracks h q k hs
  | fuseOut q k => exact wf_execFuseOut h q k hs
  | fuseEnable q k => exact wf_execFuseEnable h q k hs
  | strokeChain q k => exact wf_execStrokeChain h q k hs
  | strokeLoop q k => exact wf_execStrokeLoop h q k hs
  | strokeProfile q k => exact wf_execStrokeProfile h q k hs
  | strokeLimit q k => exact wf_execStrokeLimit h q k hs
  | strokeTarget q k => exact wf_execStrokeTarget h q k hs
  | strokeEnable q k => exact wf_execStrokeEnable h q k hs
  | strokeTune q k => exact wf_execStrokeTune h q k hs
  | strokeFf q k => exact wf_execStrokeFf h q k hs
  | safeJob q k => exact wf_execSafeJob h q k hs
  | safeFrozen q k => exact wf_execSafeFrozen h q k hs
  | safeSelftest q k => exact wf_execSafeSelftest h q k hs
  | pwrCap q k => exact wf_execPwrCap h q k hs
  | pwrSag q k => exact wf_execPwrSag h q k hs
  | pwrHint q k => exact wf_execPwrHint h q k hs
  | pwrState q k => exact wf_execPwrState h q k hs
  | pwrLock q k => exact wf_execPwrLock h q k hs
  | clkSource q k => exact wf_execClkSource h q k hs
  | clkOut q k => exact wf_execClkOut h q k hs
  | netPort q k => exact wf_execNetPort h q k hs
  | netVlan q k => exact wf_execNetVlan h q k hs
  | netShaper q k => exact wf_execNetShaper h q k hs
  | netFilter q k => exact wf_execNetFilter h q k hs
  | netTemplate q k => exact wf_execNetTemplate h q k hs
  | netKey q k => exact wf_execNetKey h q k hs
  | faultStatus q k => exact wf_execFaultStatus h q k hs
  | faultRetire q k => exact wf_execFaultRetire h q k hs
  | faultProbe q k => exact wf_execFaultProbe h q k hs
  | faultBucket q k => exact wf_execFaultBucket h q k hs
  | fwStage q k => exact wf_execFwStage h q k hs
  | fwHandover q k => exact wf_execFwHandover h q k hs
  | startImageSlotWrite => exact wf_execStartImageSlotWrite h hs
  | standbyReloaded pass => exact wf_execStandbyReloaded h pass hs
  | secKey q k => exact wf_execSecKey h q k hs
  | secVerify q k => exact wf_execSecVerify h q k hs
  | aluReg t th mod rd ra rb => exact wf_execAluReg h t th mod rd ra rb hs
  | aluImm t th mod rd ra imm => exact wf_execAluImm h t th mod rd ra imm hs
  | compare t th mod ra rb => exact wf_execCompare h t th mod ra rb hs
  | branch t th mod imm => exact wf_execBranch h t th mod imm hs
  | load t th mod rd ra imm ups => exact wf_execLoad h t th mod rd ra imm ups hs
  | store t th mod ra rb imm => exact wf_execStore h t th mod ra rb imm hs
  | atomic t th mod rd ra rb => exact wf_execAtomic h t th mod rd ra rb hs
  | vectorLoad t th rd ra imm => exact wf_execVectorLoad h t th rd ra imm hs
  | vectorStore t th rd ra imm => exact wf_execVectorStore h t th rd ra imm hs
  | vectorOp t th mod rd ra rb => exact wf_execVectorOp h t th mod rd ra rb hs
  | prefixScan t th mod rd ra rb => exact wf_execPrefixScan h t th mod rd ra rb hs
  | arrRun t th ra rb => exact wf_execArrRun h t th ra rb hs
  | arrConv t th ra rb => exact wf_execArrConv h t th ra rb hs
  | arrWait t th rb => exact wf_execArrWait h t th rb hs
  | arrayReductionDone t a => exact wf_execArrayReductionDone h t a hs
  | outputConversionDone t a => exact wf_execOutputConversionDone h t a hs
  | sweepRun t th ra => exact wf_execSweepRun h t th ra hs
  | sweepWait t th => exact wf_execSweepWait h t th hs
  | sweepComplete p => exact wf_execSweepComplete h p hs
  | kvGraceExpired p list page => exact wf_execKvGraceExpired h p list page hs
  | kvFetchComplete ctx list page => exact wf_execKvFetchComplete h ctx list page hs
  | kvSpillDurable ctx list page => exact wf_execKvSpillDurable h ctx list page hs
  | xfRun t th ra => exact wf_execXfRun h t th ra hs
  | xfWait t th => exact wf_execXfWait h t th hs
  | xfRunComplete e => exact wf_execXfRunComplete h e hs
  | poolRun t th ra => exact wf_execPoolRun h t th ra hs
  | poolComplete t => exact wf_execPoolComplete h t hs
  | bowStart t th ra rb => exact wf_execBowStart h t th ra rb hs
  | bowWait t th rb => exact wf_execBowWait h t th rb hs
  | bowDescriptor t e ups => exact wf_execBowDescriptor h t e ups hs
  | fillComplete t slot => exact wf_execFillComplete h t slot hs
  | drainComplete t slot => exact wf_execDrainComplete h t slot hs
  | bufWait t th rd imm => exact wf_execBufWait h t th rd imm hs
  | bufPost t th imm => exact wf_execBufPost h t th imm hs
  | bufRelease t th imm => exact wf_execBufRelease h t th imm hs
  | stepDone t th => exact wf_execStepDone h t th hs
  | fenceTile t th => exact wf_execFenceTile h t th hs
  | fenceDev t th => exact wf_execFenceDev h t th hs
  | flush t th ra rb => exact wf_execFlush h t th ra rb hs
  | inval t th ra rb => exact wf_execInval h t th ra rb hs
  | crewBarrier t th => exact wf_execCrewBarrier h t th hs
  | layerLate t th rd imm => exact wf_execLayerLate h t th rd imm hs
  | fetchDeadline t slot => exact wf_execFetchDeadline h t slot hs
  | semAcquire t th rd ra => exact wf_execSemAcquire h t th rd ra hs
  | semRelease t th ra => exact wf_execSemRelease h t th ra hs
  | boostExpired sem => exact wf_execBoostExpired h sem hs
  | threadExit t th => exact wf_execThreadExit h t th hs
  | stepEnd ctx => exact wf_execStepEnd h ctx hs
  | spillDrainComplete ctx => exact wf_execSpillDrainComplete h ctx hs
  | spillSaveComplete ctx => exact wf_execSpillSaveComplete h ctx hs
  | resumeIssue ctx => exact wf_execResumeIssue h ctx hs
  | teardownComplete ctx => exact wf_execTeardownComplete h ctx hs
  | lineFrameArrival a write errs ups => exact wf_execLineFrameArrival h a write errs ups hs
  | stackRefresh stack => exact wf_execStackRefresh h stack hs
  | nvsPageWriteDurable page => exact wf_execNvsPageWriteDurable h page hs
  | nvsPatrol page corrected => exact wf_execNvsPatrol h page corrected hs
  | scrubAccess a ups => exact wf_execScrubAccess h a ups hs
  | scrubLapAlarm => exact wf_execScrubLapAlarm h hs
  | t1CheckSelftest pass => exact wf_execT1CheckSelftest h pass hs
  | rebuildGranuleCopy g lost => exact wf_execRebuildGranuleCopy h g lost hs
  | nvsRebuildPage page lost => exact wf_execNvsRebuildPage h page lost hs
  | inputSlotReady idx => exact wf_execInputSlotReady h idx hs
  | coastedInstant => exact wf_execCoastedInstant h hs
  | instantClose => exact wf_execInstantClose h hs
  | degradedRecord => exact wf_execDegradedRecord h hs
  | sampleInstant c => exact wf_execSampleInstant h c hs
  | chainFrameReturn c frame => exact wf_execChainFrameReturn h c frame hs
  | feedbackCutoff c => exact wf_execFeedbackCutoff h c hs
  | chainClockLost c => exact wf_execChainClockLost h c hs
  | ffCommit c => exact wf_execFfCommit h c hs
  | frameReceive port frame bad => exact wf_execFrameReceive h port frame bad hs
  | frameTransmit port => exact wf_execFrameTransmit h port hs
  | portLink port up => exact wf_execPortLink h port up hs
  | fdbAgeOut idx => exact wf_execFdbAgeOut h idx hs
  | checkRecord t a => exact wf_execCheckRecord h t a hs
  | checkRecordTimeout t a => exact wf_execCheckRecordTimeout h t a hs
  | goldenCompare ctx => exact wf_execGoldenCompare h ctx hs
  | tileTestDone ctx fails => exact wf_execTileTestDone h ctx fails hs
  | segmentStart u => exact wf_execSegmentStart h u hs
  | segmentEnd u pass => exact wf_execSegmentEnd h u pass hs
  | testDeferral u => exact wf_execTestDeferral h u hs
  | checkerTestOverdue u => exact wf_execCheckerTestOverdue h u hs
  | gapHoldElapsed u => exact wf_execGapHoldElapsed h u hs
  | internalCheckError ty n => exact wf_execInternalCheckError h ty n hs
  | probeResult ty n pass => exact wf_execProbeResult h ty n pass hs
  | probeTimeout ty n => exact wf_execProbeTimeout h ty n hs
  | pathCompare => exact wf_execPathCompare h hs
  | fenceNotConfirmed ty n => exact wf_execFenceNotConfirmed h ty n hs
  | dieBridgeSilence => exact wf_execDieBridgeSilence h hs
  | dieBridgeRestored answers => exact wf_execDieBridgeRestored h answers hs
  | dieBridgeRetrainTimeout => exact wf_execDieBridgeRetrainTimeout h hs
  | domainGate d => exact wf_execDomainGate h d hs
  | agentAnswer d => exact wf_execAgentAnswer h d hs
  | agentDelayTimeout d => exact wf_execAgentDelayTimeout h d hs
  | entryPointReached => exact wf_execEntryPointReached h hs
  | railsOff => exact wf_execRailsOff h hs
  | timerWake => exact wf_execTimerWake h hs
  | sagRise => exact wf_execSagRise h hs
  | linkEnergy port => exact wf_execLinkEnergy h port hs
  | callToken b => exact wf_execCallToken h b hs
  | easyReturnStage => exact wf_execEasyReturnStage h hs
  | judgeWindow c n => exact wf_execJudgeWindow h c n hs
  | clockNoEdge c => exact wf_execClockNoEdge h c hs
  | capControlTick est meas => exact wf_execCapControlTick h est meas hs
  | telemetryLost => exact wf_execTelemetryLost h hs
  | mismatchTimer => exact wf_execMismatchTimer h hs
  | agreementTimer => exact wf_execAgreementTimer h hs
  | unreliableTimer => exact wf_execUnreliableTimer h hs
  | thermalLimit temp => exact wf_execThermalLimit h temp hs
  | temperatureBandChange d temp => exact wf_execTemperatureBandChange h d temp hs
  | hintIntervalBegin idx => exact wf_execHintIntervalBegin h idx hs
  | hintLapse idx => exact wf_execHintLapse h idx hs
  | ratingSlip d => exact wf_execRatingSlip h d hs
  | ratingSlipReport => exact wf_execRatingSlipReport h hs
  | sagWarnFall => exact wf_execSagWarnFall h hs
  | sagWarnRise => exact wf_execSagWarnRise h hs
  | sagConfirmed => exact wf_execSagConfirmed h hs
  | sagResetFall => exact wf_execSagResetFall h hs
  | supplyValid r => exact wf_execSupplyValid h r hs
  | supplyLoss r => exact wf_execSupplyLoss h r hs
  | aonBrownout => exact wf_execAonBrownout h hs
  | porRelease => exact wf_execPorRelease h hs
  | startComplete currentOk previousOk => exact wf_execStartComplete h currentOk previousOk hs
  | bringupMilestone m => exact wf_execBringupMilestone h m hs
  | coxLockstepFail => exact wf_execCoxLockstepFail h hs
  | domainWakeComplete d => exact wf_execDomainWakeComplete h d hs
  | writeAcknowledged t idx => exact wf_execWriteAcknowledged h t idx hs

/-- Settles O54: a step is one command's row, each of which writes memory through the operations that keep the form, or one clock
cycle, which leaves memory alone. -/
theorem memoryStaysCanonical : Obligations.MemoryStaysCanonical := by
  intro s t h ht
  unfold step at ht
  split at ht
  · obtain rfl := Host.Outcome.next.inj ht
    unfold State.memoryOk
    rw [tick_mem]
    exact h
  · rename_i c rest _
    exact wf_exec (s := { s with pending := rest }) h c ht

end Sys2Proof.Proofs
end

section
/-! PROOFS. The state right after reset (O53). -/

namespace Sys2Proof.Proofs
open Sys2Proof Sys2Proof.Machine Sys2Proof.Laws

/-- Every entry of a uniform table. -/
theorem vget_replicate {α : Type} {n : Nat} (d x : α) (i : Nat) (h : i < n) : vget d (Vector.replicate n x) i = x := by
  simp [vget, h]

theorem queue_reset {q : Nat} (h : q < 128) : State.reset.queue q = Queue.reset := vget_replicate _ _ q h

theorem chan_reset {ch : Nat} (h : ch < 2) : State.reset.chan ch = PortChan.reset := vget_replicate _ _ ch h

theorem nport_reset {p : Nat} (h : p < 12) : State.reset.nport p = NetPort.reset 0 false := by
  have h16 : p < 16 := by omega
  change vget _ (Vector.ofFn _) p = _
  simp [vget, h16, h]

/-- Settles O53: the tables are uniform at reset, and every other field is a literal. -/
theorem resetState : Obligations.ResetState := by
  refine ⟨rfl, rfl, rfl, rfl, rfl, rfl, rfl, ?queues, ?channels, rfl, rfl, rfl, rfl, ?ports, rfl, rfl, rfl, rfl, rfl, rfl, rfl, rfl, rfl⟩
  case queues => exact fun q hq => queue_reset hq
  case channels =>
    intro ch hch
    rw [chan_reset hch]
    exact ⟨rfl, rfl, rfl⟩
  case ports =>
    intro p hp
    rw [nport_reset hp]
    rfl

end Sys2Proof.Proofs
end

section
/-! PROOFS. The mode-register, training, calibration, repair and refresh rows (O19). -/

namespace Sys2Proof.Proofs
open Sys2Proof Sys2Proof.Machine Sys2Proof.Laws

/-- The copy of a mode register that a set point reaches. -/
def mrCopy (fsp mr : Nat) : Nat := if mrShared mr then 0 else fsp

/-- The bits of a register that take a value, merged in. -/
def mrMerge (old new takes : Byte) : Byte := (old &&& ~~~takes) ||| (new &&& takes)

/-- The bits of MR16 that keep their value: a set-point field whose new value is 3. -/
def mrKeeps (mr : Nat) (new : Byte) : Byte :=
  if mr = 16 then (if new &&& 3 = 3 then 3 else 0) ||| (if new &&& 12 = 12 then 12 else 0) else 0

theorem modeReg_eq (c : PortChan) (f x : Nat) :
    c.modeReg f x = vget 0 (vget (Vector.replicate 256 0) c.modeRegs (mrCopy f x)) x := rfl

/-- The registers after a write. -/
theorem modeRegs_mrw (c : PortChan) (mr v : Nat) :
    (c.mrw mr v).modeRegs =
      let new := mrMerge (c.modeReg c.fspWr mr) (BitVec.ofNat 8 v) (mrTakes mr)
      vmod c.modeRegs (mrCopy c.fspWr mr) (fun m =>
        vset m mr ((new &&& ~~~mrKeeps mr new) ||| (c.modeReg c.fspWr mr &&& mrKeeps mr new))) := rfl

/-- A write leaves the other registers, and the other copies of a register a set point has of its own. -/
theorem modeReg_mrw_ne (c : PortChan) (mr v f x : Nat) (h : x ≠ mr ∨ (mrShared mr = false ∧ f ≠ c.fspWr)) :
    (c.mrw mr v).modeReg f x = c.modeReg f x := by
  rw [modeReg_eq, modeRegs_mrw, vget_vmod]
  split
  case isFalse => exact (modeReg_eq c f x).symm
  case isTrue hi =>
    rw [vget_vset, if_neg]
    · exact (modeReg_eq c f x).symm
    · rintro ⟨rfl, -⟩
      rcases h with h | ⟨hs, hf⟩
      · exact h rfl
      · simp only [mrCopy, hs, Bool.false_eq_true, if_false] at hi
        exact hf hi.1

/-- The written register in its copy, when no bit keeps its value. -/
theorem modeReg_mrw_same (c : PortChan) (mr v : Nat) (hmr : mr < 256) (hf : c.fspWr < 3)
    (hk : mrKeeps mr (mrMerge (c.modeReg c.fspWr mr) (BitVec.ofNat 8 v) (mrTakes mr)) = 0) :
    (c.mrw mr v).modeReg c.fspWr mr = mrMerge (c.modeReg c.fspWr mr) (BitVec.ofNat 8 v) (mrTakes mr) := by
  have hcopy : mrCopy c.fspWr mr < 3 := by
    unfold mrCopy
    split
    · decide
    · exact hf
  have hnone : ∀ new old : Byte, (new &&& ~~~0) ||| (old &&& 0) = new := by
    intro new old
    change (new &&& BitVec.allOnes 8) ||| (old &&& 0#8) = new
    rw [BitVec.and_zero, BitVec.or_zero, BitVec.and_allOnes]
  rw [modeReg_eq, modeRegs_mrw]
  dsimp only
  rw [vget_vmod_self _ _ _ _ hcopy, vget_vset, if_pos ⟨rfl, hmr⟩, hk, hnone]

theorem mrMerge_low (old new t : Byte) : mrMerge old new (0x0F ||| t) &&& 3 = new &&& 3 := by
  unfold mrMerge
  ext i hi
  interval_cases i <;> simp

theorem mrMerge_low12 (old new t : Byte) : mrMerge old new (0x0F ||| t) &&& 12 = new &&& 12 := by
  unfold mrMerge
  ext i hi
  interval_cases i <;> simp

/-- The two set-point fields of a byte, as `bits` reads them. -/
theorem setPoints_ofNat (v : Nat) :
    (BitVec.ofNat 8 v &&& 3 = 3 → bits v 1 0 = 3) ∧ (BitVec.ofNat 8 v &&& 12 = 12 → bits v 3 2 = 3) := by
  have hbit : ∀ (k : Byte) (i : Nat), i < 8 → BitVec.ofNat 8 v &&& k = k → k.getLsbD i = true → v / 2 ^ i % 2 = 1 := by
    intro k i hi e hk
    have hg : (BitVec.ofNat 8 v &&& k).getLsbD i = true := by rw [e]; exact hk
    rw [BitVec.getLsbD_and, Bool.and_eq_true, BitVec.getLsbD_ofNat, Bool.and_eq_true, Nat.testBit_eq_decide_div_mod_eq] at hg
    obtain ⟨⟨-, hv⟩, -⟩ := hg
    exact of_decide_eq_true hv
  constructor
  · intro e
    have h0 := hbit 3 0 (by decide) e (by decide)
    have h1 := hbit 3 1 (by decide) e (by decide)
    simp only [bits]
    omega
  · intro e
    have h2 := hbit 12 2 (by decide) e (by decide)
    have h3 := hbit 12 3 (by decide) e (by decide)
    simp only [bits]
    omega

/-- MR16 takes every bit of its two set-point fields, so neither keeps its value when neither is written as 3. -/
theorem mrKeeps_eq_zero (mr v : Nat) (old : Byte) (h : mr = 16 → bits v 1 0 ≠ 3 ∧ bits v 3 2 ≠ 3) :
    mrKeeps mr (mrMerge old (BitVec.ofNat 8 v) (mrTakes mr)) = 0 := by
  unfold mrKeeps
  split
  case isFalse => rfl
  case isTrue h16 =>
    obtain ⟨hw, ho⟩ := h h16
    have hnew : mrMerge old (BitVec.ofNat 8 v) (mrTakes mr) = mrMerge old (BitVec.ofNat 8 v) (0x0F ||| mrTakes mr) := by
      subst h16
      simp [mrTakes, ← BitVec.or_assoc]
    rw [hnew, mrMerge_low, mrMerge_low12, if_neg (fun e => hw ((setPoints_ofNat v).1 e)), if_neg (fun e => ho ((setPoints_ofNat v).2 e))]
    rfl

/-- MR4 reads the standard refresh rate and no update. -/
theorem mrr_four (c : PortChan) : c.mrr 4 &&& 0x9F = 0x09 := by
  have rate : ∀ b : Byte, ((b &&& 0x60) ||| 0x09) &&& 0x9F = 0x09 := by decide
  exact rate _

/-- Settles O19: each row is its branch while the channel answers, and a mode-register write is read back through the copy that FSP-WR
selects. -/
theorem portModesComplete : Obligations.PortModesComplete := by
  refine ⟨?write, ?read, ?training, ?zq, fun _ _ => rfl, fun _ _ _ => rfl⟩
  case write =>
    intro s ch mr v hup hmr
    refine ⟨congrArg Host.Outcome.next (if_pos ⟨hup, hmr⟩), fun hf h16 => ?_, fun f x h => modeReg_mrw_ne _ _ _ _ _ h⟩
    exact modeReg_mrw_same _ mr v hmr hf (mrKeeps_eq_zero mr v _ h16)
  case read =>
    intro s ch mr hup hmr
    exact ⟨congrArg Host.Outcome.next (if_pos ⟨hup, hmr⟩), fun h => if_pos h, rfl, mrr_four _⟩
  case training =>
    intro s ch kind result hup hkind
    refine ⟨_, congrArg Host.Outcome.next (if_pos ⟨hup, hkind⟩), rfl, ?_, ?_⟩
    · rw [chan_modChan_same (portUp_lt hup)]
    · rw [chan_modChan_same (portUp_lt hup)]
      simp only [List.all_eq_true, List.mem_range, bne_iff_ne]
      by_cases hm : (s.chan ch).mode = .untrained <;> simp [hm]
  case zq =>
    intro s ch hup
    exact congrArg Host.Outcome.next (if_pos hup)

end Sys2Proof.Proofs
end

section
/-! PROOFS. Power-down, self-refresh, deep sleep and RESET_N (O20). -/

namespace Sys2Proof.Proofs
open Sys2Proof Sys2Proof.Machine Sys2Proof.Laws

/-- A serving channel is up, active or untrained. -/
theorem portServes_iff (s : State) (ch : Nat) :
    s.portServes ch = true ↔ s.portUp ch = true ∧ ((s.chan ch).mode = .active ∨ (s.chan ch).mode = .untrained) := by
  simp [State.portServes]

theorem portServes_not_powerDown {s : State} {ch : Nat} (h : s.portServes ch = true) : (s.chan ch).mode ≠ .powerDown := by
  obtain ⟨-, hm | hm⟩ := (portServes_iff s ch).1 h <;> simp [hm]

/-- Judging whether the host is idle leaves the channels. -/
theorem syncIdle_chan (s : State) (ch : Nat) : s.syncIdle.chan ch = s.chan ch := by
  obtain ⟨p, hp⟩ := syncIdle_shape s
  rw [hp]
  rfl

/-- A serving channel put to sleep: its mode, the mode it comes back to, and what else changes. -/
theorem sleepEntry_serving {s : State} {ch : Nat} (h : s.portServes ch = true) (deep low : Bool) :
    ((s.sleepEntry ch deep low).chan ch).mode = .asleep ∧ ((s.sleepEntry ch deep low).chan ch).awake = (s.chan ch).mode ∧
      ((s.sleepEntry ch deep low).chan ch).deep = deep ∧ ((s.sleepEntry ch deep low).chan ch).rxLow = low ∧
      { s.sleepEntry ch deep low with port := s.port, pwr := s.pwr } = s := by
  have hch : (s.sleepEntry ch deep low).chan ch =
      { s.chan ch with mode := .asleep, awake := (s.chan ch).mode, rxLow := low, deep := deep } := by
    unfold State.sleepEntry
    rw [syncIdle_chan, chan_modChan_same (portServes_lt h), if_neg (portServes_not_powerDown h)]
  rw [hch]
  refine ⟨rfl, rfl, rfl, rfl, ?_⟩
  obtain ⟨p, hp⟩ := syncIdle_shape (s.modChan ch (fun c =>
    { c with mode := .asleep, awake := if c.mode = .powerDown then c.awake else c.mode, rxLow := low, deep := deep }))
  unfold State.sleepEntry
  rw [hp]
  rfl

/-- A channel with RESET_N held: power-up values, its event doorbells kept. -/
theorem chan_interfaceReset (s : State) {ch : Nat} (h : ch < 2) :
    State.chan { s with port := { s.port with chans := s.port.chans.map PortChan.interfaceReset, resetN := false } } ch =
      (s.chan ch).interfaceReset := by
  simp [State.chan, vget, h]

/-- Settles O20: each row is its branch, and the judgement of host idle that follows leaves the channels. -/
theorem portSleepComplete : Obligations.PortSleepComplete := by
  refine ⟨?powerDown, ?powerUp, ?selfRefresh, ?selfRefreshExit, ?deepSleep, ?deepSleepExit, ?assert, ?release, ?early⟩
  case powerDown => exact fun s ch h => congrArg Host.Outcome.next (if_pos h)
  case powerUp => exact fun s ch h hm => congrArg Host.Outcome.next (if_pos ⟨h, hm⟩)
  case selfRefresh => exact fun s ch pd h => ⟨_, congrArg Host.Outcome.next (if_pos h), sleepEntry_serving h false pd⟩
  case selfRefreshExit => exact fun s ch h hm hd => congrArg Host.Outcome.next (if_pos ⟨h, hm, hd⟩)
  case deepSleep => exact fun s ch h => ⟨_, congrArg Host.Outcome.next (if_pos h), sleepEntry_serving h true true⟩
  case deepSleepExit => exact fun s ch h hm hd => congrArg Host.Outcome.next (if_pos ⟨h, hm, hd⟩)
  case assert =>
    intro s
    refine ⟨_, rfl, ?_, fun ch hch => ?_⟩
    · obtain ⟨p, hp⟩ :=
        syncIdle_shape { s with port := { s.port with chans := s.port.chans.map PortChan.interfaceReset, resetN := false } }
      rw [hp]
    · rw [syncIdle_chan, chan_interfaceReset s hch]
      exact ⟨rfl, rfl, rfl, rfl, rfl, rfl⟩
  case release =>
    intro s hn hacc
    exact congrArg Host.Outcome.next ((if_neg (by rw [hn]; exact Bool.false_ne_true)).trans (if_pos hacc))
  case early =>
    intro s hn hacc
    exact congrArg Host.Outcome.next ((if_neg (by rw [hn]; exact Bool.false_ne_true)).trans (if_neg hacc))

end Sys2Proof.Proofs
end

section
/-! PROOFS. Every start clears the host window (O59). -/

namespace Sys2Proof.Proofs
open Sys2Proof Sys2Proof.Machine Sys2Proof.Laws

/-- An address that a filter drops reads 0. -/
theorem cellGet_filter_drop (p : Nat → Bool) (l : List Host.Cell) {a : Nat} (h : p a = false) :
    cellGet (l.filter (fun c => p c.1)) a = 0 := by
  induction l with
  | nil => rfl
  | cons c t ih =>
    obtain ⟨k, v⟩ := c
    by_cases hk : p k = true
    · have hne : a ≠ k := by
        rintro rfl
        rw [h] at hk
        exact Bool.false_ne_true hk
      rw [List.filter_cons_of_pos (p := fun c : Host.Cell => p c.1) hk, cellGet, if_neg hne, ih, ite_self]
    · rw [List.filter_cons_of_neg (p := fun c : Host.Cell => p c.1) hk, ih]

/-- Host-window SRAM is no NVS. -/
theorem isNvs_of_isSram {a : Nat} (h : isSram a = true) : isNvs a = false := by
  have hw : windowBase 0 ≤ a := by
    by_contra hlt
    simp [isSram, hostAddr, hlt] at h
  exact (window_not_tier hw).2.2

/-- A start keeps the NVS alone. -/
theorem freshStart_window (s : State) (cause : Nat) {a : Nat} (h : isSram a = true) :
    (s.freshStart cause).mem.byte a = 0 ∧ (s.freshStart cause).mem.mark a = 0 :=
  ⟨cellGet_filter_drop isNvs _ (isNvs_of_isSram h), cellGet_filter_drop isNvs _ (isNvs_of_isSram h)⟩

theorem suppliesIn_stage (s : State) (h : s.start.stage ≠ .accepting) : s.suppliesIn.start.stage ≠ .accepting := by
  unfold State.suppliesIn
  split
  · exact fun h => nomatch h
  · exact h

theorem startOver_stage (s : State) (cause : Nat) : (s.startOver cause).start.stage ≠ .accepting :=
  suppliesIn_stage _ (by exact fun h => nomatch h)

/-- Settles O59: a start keeps the cells of the NVS alone, and each of the four events that start the TZ8 is such a start. -/
theorem startsClearTheWindow : Obligations.StartsClearTheWindow := by
  refine ⟨?startOver, ?returns, ?cold, ?sag, ?brownout, ?moored⟩
  case startOver =>
    intro s cause a ha
    obtain ⟨hb, hm⟩ := freshStart_window s cause ha
    have hmem : (s.startOver cause).mem = (s.freshStart cause).mem := by
      unfold State.startOver
      rw [suppliesIn_mem, modStart_mem]
    rw [hmem]
    exact ⟨hb, hm, startOver_stage s cause⟩
  case returns =>
    intro s src a ha
    obtain ⟨hb, hm⟩ := freshStart_window { s with pwr := { s.pwr with wakeLast := src } } 3 ha
    exact ⟨hb, hm, fun h => nomatch h⟩
  case cold => exact fun s => ⟨_, rfl⟩
  case sag => exact fun s h => ⟨_, congrArg Host.Outcome.next (if_neg h)⟩
  case brownout => exact fun s h => congrArg Host.Outcome.next (if_pos h)
  case moored =>
    intro s h3 hentry hbit
    have hnote : s.noteWake 2 = s := by
      unfold State.noteWake
      rw [hentry]
    refine congrArg Host.Outcome.next ?_
    unfold State.wake
    dsimp only
    rw [hnote, if_neg hbit, if_neg (by rw [h3]; decide), if_neg (by rw [h3]; decide), if_pos h3]

end Sys2Proof.Proofs
end

section
/-! PROOFS. Read bursts (O17). -/

namespace Sys2Proof.Proofs
open Sys2Proof Sys2Proof.Machine Sys2Proof.Laws

/-- The eight bytes of a word with no stored error that a read burst returns. -/
def portWord (s : State) (ch a : Nat) : List Byte :=
  if sramBacked a then cellGets s.mem.data (windowBase ch + a) 8
  else if 0x04D00000 ≤ a ∧ a < 0x04D11000 then s.pageWord ch a ++ s.pageWord ch (a + 4)
  else fill 8

/-- A word with no mark is read as it stands. -/
theorem readSramWord_clean {s : State} {w : Nat} (h : ∀ i, i < 8 → cellGet s.mem.tag (w + i) = 0) :
    s.readSramWord w = (s, cellGets s.mem.data w 8, false) := by
  have hmarks : s.mem.wordMarks w = List.replicate 8 0 := by
    simp only [Memory.wordMarks, cellGets_eq]
    rw [List.eq_replicate_iff]
    simpa using h
  simp [State.readSramWord, hmarks]

/-- Words with no stored error are read one after another, and the reads change nothing. -/
theorem readWords_clean (s : State) (ch : Nat) : ∀ n a, (∀ i, i < n → sramBacked (a + 8 * i) = true →
      ∀ j, j < 8 → cellGet s.mem.tag (windowBase ch + (a + 8 * i) + j) = 0) →
    s.readWords ch a n = (s, (List.range n).flatMap (fun i => portWord s ch (a + 8 * i))) := by
  intro n
  induction n with
  | zero => exact fun _ _ => rfl
  | succ n ih =>
    intro a h
    have hrest : s.readWords ch (a + 8) n = (s, (List.range n).flatMap (fun i => portWord s ch (a + 8 * (i + 1)))) := by
      have e : ∀ i, a + 8 * (i + 1) = a + 8 + 8 * i := by omega
      simp only [e]
      refine ih (a + 8) (fun i hi hb => ?_)
      rw [← e] at hb ⊢
      exact h (i + 1) (by omega) hb
    rw [List.range_succ_eq_map, List.flatMap_cons, List.flatMap_map, State.readWords]
    by_cases hb : sramBacked a = true
    · have hword := readSramWord_clean (w := windowBase ch + a) (h 0 (by omega) hb)
      simp [hword, portWord, hb, hrest]
    · by_cases hp : 0x04D00000 ≤ a ∧ a < 0x04D11000 <;> simp [portWord, hb, hp, hrest]

/-- A burst that meets no stored error: its data, EV_LOST, and what else changes. -/
theorem burstRead_clean {s : State} {ch a n : Nat} {l : List Byte} (hch : ch < 2) (h : s.readWords ch a n = (s, l)) :
    ((s.burstRead ch a n).chan ch).readData = beatsOf l ∧
      ((s.burstRead ch a n).chan ch).evLost =
        (if a ≤ 0x04D01000 ∧ 0x04D01000 < a + 8 * n then Ctr.zero else (s.chan ch).evLost) ∧
      { s.burstRead ch a n with port := s.port } = s := by
  unfold State.burstRead
  rw [h]
  dsimp only
  rw [chan_modChan_same hch]
  refine ⟨rfl, ?_, ?_⟩
  · split
    · unfold State.clearEvLost
      rw [chan_modChan_same hch]
    · rfl
  · split <;> rfl

/-- A read burst of a serving channel with no error to strike. -/
theorem exec_hostRead {s : State} {ch : Nat} (h : s.portServes ch = true) (p : BurstAddr) (bl32 : Bool) :
    exec (.hostRead ch p bl32 []) s = .next (s.burstRead ch
      (portAddr p.bank p.row p.col - portAddr p.bank p.row p.col % (8 * if bl32 then 8 else 4)) (if bl32 then 8 else 4)) :=
  congrArg Host.Outcome.next (if_pos h)

/-- The blocks of a burst: 32 or 64 bytes from a multiple of that. -/
theorem block_align (bl32 : Bool) {n b a : Nat} (hn : n = if bl32 then 8 else 4) (hb : b = a - a % (8 * n)) :
    (n = 4 ∨ n = 8) ∧ b % 32 = 0 ∧ (n = 8 → b % 64 = 0) := by
  cases bl32 <;> simp only [Bool.false_eq_true, if_false, if_true] at hn <;> subst hn <;> omega

theorem sramBacked_iff (a : Nat) :
    sramBacked a = true ↔ a < 0x04400000 ∨ (0x04800000 ≤ a ∧ a < 0x04A00000) ∨ (0x04C00000 ≤ a ∧ a < 0x04D00000) := by
  simp [sramBacked, or_assoc]

/-- A block lies in backed SRAM with its first byte. -/
theorem block_sram {b n i : Nat} (hal : (n = 4 ∨ n = 8) ∧ b % 32 = 0 ∧ (n = 8 → b % 64 = 0)) (hi : i < n) (h : sramBacked b = true) :
    sramBacked (b + 8 * i) = true := by
  rw [sramBacked_iff] at h ⊢
  omega

/-- A block lies where nothing is with its first byte. -/
theorem block_unbacked {b n i : Nat} (hal : (n = 4 ∨ n = 8) ∧ b % 32 = 0 ∧ (n = 8 → b % 64 = 0)) (hi : i < n)
    (h : (0x04400000 ≤ b ∧ b < 0x04800000) ∨ (0x04A00000 ≤ b ∧ b < 0x04C00000) ∨ 0x04D11000 ≤ b) :
    ¬sramBacked (b + 8 * i) = true ∧ ¬(0x04D00000 ≤ b + 8 * i ∧ b + 8 * i < 0x04D11000) := by
  rw [sramBacked_iff]
  omega

/-- A block lies in the doorbell page and the ID window with its first byte. -/
theorem block_page {b n i : Nat} (hal : (n = 4 ∨ n = 8) ∧ b % 32 = 0 ∧ (n = 8 → b % 64 = 0)) (hi : i < n)
    (hlo : 0x04D00000 ≤ b) (hhi : b < 0x04D11000) :
    ¬sramBacked (b + 8 * i) = true ∧ 0x04D00000 ≤ b + 8 * i ∧ b + 8 * i < 0x04D11000 := by
  rw [sramBacked_iff]
  omega

theorem portWord_sram {s : State} {ch a : Nat} (h : sramBacked a = true) : portWord s ch a = cellGets s.mem.data (windowBase ch + a) 8 :=
  if_pos h

theorem portWord_fill {s : State} {ch a : Nat} (h : ¬sramBacked a = true ∧ ¬(0x04D00000 ≤ a ∧ a < 0x04D11000)) :
    portWord s ch a = fill 8 := by
  obtain ⟨hb, hp⟩ := h
  rw [portWord, if_neg hb, if_neg hp]

theorem portWord_page {s : State} {ch a : Nat} (h : ¬sramBacked a = true ∧ 0x04D00000 ≤ a ∧ a < 0x04D11000) :
    portWord s ch a = s.pageWord ch a ++ s.pageWord ch (a + 4) := by
  obtain ⟨hb, hp⟩ := h
  rw [portWord, if_neg hb, if_pos hp]

/-- Settles O17: a burst reads its words one after another; each word is what its place in the window says. -/
theorem hostReadsComplete : Obligations.HostReadsComplete := by
  refine ⟨?struck, ?fill, ?sram, ?page, ?events⟩
  case struck =>
    rintro s ch bank row col n a bl32 ups h rfl rfl
    exact congrArg Host.Outcome.next (if_pos h)
  case fill =>
    rintro s ch bank row col n b bl32 h hn hb hrange
    have hal := block_align bl32 hn hb
    have hwords := readWords_clean s ch n b (fun i hi hs => absurd hs (block_unbacked hal hi hrange).1)
    rw [List.flatMap_congr (fun i hi => portWord_fill (block_unbacked hal (List.mem_range.1 hi) hrange))] at hwords
    obtain ⟨hdata, -, hrest⟩ := burstRead_clean (portServes_lt h) hwords
    refine ⟨_, ?_, hdata.trans ?_, hrest⟩
    · rw [exec_hostRead h, hb, hn]
    · obtain ⟨rfl | rfl, -⟩ := hal <;> rfl
  case sram =>
    rintro s ch bank row col n b bl32 h hn hb hs htag
    have hal := block_align bl32 hn hb
    have hwords := readWords_clean s ch n b (fun i hi _ j hj => by
      have := htag (8 * i + j) (by omega)
      rwa [← Nat.add_assoc, Nat.add_assoc (windowBase ch)] at this)
    rw [List.flatMap_congr (fun i hi => portWord_sram (block_sram hal (List.mem_range.1 hi) hs))] at hwords
    obtain ⟨hdata, -, hrest⟩ := burstRead_clean (portServes_lt h) hwords
    refine ⟨_, ?_, hdata.trans (congrArg beatsOf ?_), hrest⟩
    · rw [exec_hostRead h, hb, hn]
    · obtain ⟨rfl | rfl, -⟩ := hal <;> simp [cellGets_eq, List.range_succ, Nat.add_assoc]
  case page =>
    rintro s ch bank row col n b bl32 h hn hb hlo hhi
    have hal := block_align bl32 hn hb
    have hwords := readWords_clean s ch n b (fun i hi hs => absurd hs (block_page hal hi hlo hhi).1)
    rw [List.flatMap_congr (fun i hi => portWord_page (block_page hal (List.mem_range.1 hi) hlo hhi))] at hwords
    obtain ⟨hdata, hlost, hrest⟩ := burstRead_clean (portServes_lt h) hwords
    refine ⟨_, ?_, hdata.trans (congrArg beatsOf ?_), hlost, hrest⟩
    · rw [exec_hostRead h, hb, hn]
    · obtain ⟨rfl | rfl, -⟩ := hal <;> simp [List.range_succ, Nat.add_assoc]
  case events =>
    intro s ch h
    obtain ⟨hdata, hlost, hrest⟩ := burstRead_clean (portServes_lt h) (readWords_events s ch)
    exact ⟨_, congrArg Host.Outcome.next (if_pos h), hdata, hlost.trans (if_pos (by decide)), hrest⟩

end Sys2Proof.Proofs
end

section
/-! PROOFS. Write bursts and doorbell writes (O18). -/

namespace Sys2Proof.Proofs
open Sys2Proof Sys2Proof.Machine Sys2Proof.Laws

theorem length_bytesOf (l : List Word16) : (bytesOf l).length = 2 * l.length := by
  simp [bytesOf, Nat.mul_comm]

/-- A burst of 16 or 32 beats carries 32 or 64 bytes. -/
theorem length_bytesOf_burst {beats : List Word16} {data : List Byte} (hl : beats.length = 16 ∨ beats.length = 32)
    (hd : data = bytesOf beats) : data.length = 32 ∨ data.length = 64 := by
  rw [hd, length_bytesOf]
  omega

/-! ### The data window -/

theorem kindOf_window (s : State) (ch k : Nat) : s.kindOf (windowBase ch + k) = .sram := by
  obtain ⟨h0, h1, hn⟩ := window_not_tier (ch := ch) (x := windowBase ch + k) (by omega)
  simp [State.kindOf, h0, h1, hn]

/-- The bytes a burst stores: those its mask enables. -/
def enabledBytes (data : List Byte) (mask : Nat) : List (Option PByte) :=
  (List.range data.length).map (fun i => if bit mask i = 1 then some (PByte.mk (data.getD i 0) false) else none)

theorem length_enabledBytes (data : List Byte) (mask : Nat) : (enabledBytes data mask).length = data.length := by
  simp [enabledBytes]

theorem enabledBytes_getD {data : List Byte} (mask : Nat) {i : Nat} (h : i < data.length) :
    (enabledBytes data mask).getD i none = if bit mask i = 1 then some (PByte.mk (data.getD i 0) false) else none := by
  simp [enabledBytes, h]

/-- A byte of memory after a burst into the data window. -/
theorem byte_burstWrite {s : State} (hwf : s.memoryOk) {ch a : Nat} (hch : ch < 2) (ha : a < 0x04400000) (data : List Byte)
    (mask x : Nat) :
    (s.burstWrite ch a data mask).mem.byte x =
      if windowBase ch + a ≤ x ∧ x < windowBase ch + a + data.length then
        (((enabledBytes data mask).getD (x - (windowBase ch + a)) none).map PByte.v).getD (s.mem.byte x)
      else s.mem.byte x := by
  rw [burstWrite_window hch a mask data ha]
  have h := byte_putList_sram hwf s.kindOf (data.length + 1) (windowBase ch + a) (enabledBytes data mask)
    (by rw [length_enabledBytes]; omega) (fun i => by rw [Nat.add_assoc]; exact kindOf_window s ch (a + i)) x
  rwa [length_enabledBytes] at h

/-! ### One doorbell of a burst -/

/-- The four enables of register `i` of a burst. -/
theorem mask_register (mask len i : Nat) (h : 4 * i + 4 ≤ len) : mask / 2 ^ (4 * i) % 16 = mask % 2 ^ len / 2 ^ (4 * i) % 16 := by
  have hd : 2 ^ (4 * i) * 16 ∣ 2 ^ len := by
    rw [show (16 : Nat) = 2 ^ 4 by rfl, ← Nat.pow_add]
    exact Nat.pow_dvd_pow 2 h
  rw [← Nat.mod_mul_right_div_self, ← Nat.mod_mul_right_div_self, Nat.mod_mod_of_dvd mask hd]

/-- A fold over a range that moves at one index alone. -/
theorem foldl_range_single {α : Type} (f : α → Nat → α) {n k : Nat} (hk : k < n) (h : ∀ s i, i < n → i ≠ k → f s i = s) (s : α) :
    (List.range n).foldl f s = f s k := by
  induction n with
  | zero => omega
  | succ n ih =>
    rw [List.range_succ, List.foldl_append, List.foldl_cons, List.foldl_nil]
    by_cases hkn : k = n
    · subst hkn
      have hnone : (List.range k).foldl f s = s :=
        List.foldlRecOn (motive := fun t => t = s) _ f rfl (fun t ht i hi => by
          have := List.mem_range.1 hi
          rw [h t i (by omega) (by omega), ht])
      rw [hnone]
    · rw [ih (by omega) (fun t i hi => h t i (by omega)), h _ n (by omega) (Ne.symm hkn)]

/-- A doorbell that no byte of a burst reaches. -/
theorem doorbellWrite_masked (s : State) (ch off v : Nat) : s.doorbellWrite ch off 0 v = s := by
  simp [State.doorbellWrite]

/-- A burst that enables one register whole writes that doorbell. -/
theorem doorbellWrites_single (s : State) (ch off : Nat) {data : List Byte} {mask k M : Nat} (hl : data.length = 32 ∨ data.length = 64)
    (hm : mask % 2 ^ data.length = M) (hk : k < 8) (hM : ∀ i, i < 16 → M / 2 ^ (4 * i) % 16 = if i = k then 15 else 0) :
    s.doorbellWrites ch off data mask = s.doorbellWrite ch (off + 4 * k) 15 (leAt data (4 * k) 4) := by
  have hreg : ∀ i, i < data.length / 4 → mask / 2 ^ (4 * i) % 16 = if i = k then 15 else 0 := by
    intro i hi
    rw [mask_register mask data.length i (by omega), hm]
    exact hM i (by omega)
  unfold State.doorbellWrites
  rw [foldl_range_single _ (k := k) (by omega) (fun t i hi hik => by rw [hreg i hi, if_neg hik, doorbellWrite_masked]),
    hreg k (by omega), if_pos rfl]

theorem enables_first : ∀ i, i < 16 → 0xF / 2 ^ (4 * i) % 16 = if i = 0 then 15 else 0 := by decide

theorem enables_third : ∀ i, i < 16 → 0xF00 / 2 ^ (4 * i) % 16 = if i = 2 then 15 else 0 := by decide

/-- A burst on the doorbell page whose mask enables bytes writes doorbells. -/
theorem burstWrite_doorbells (s : State) (ch : Nat) {a o mask : Nat} {data : List Byte} (ha : a = 0x04D00000 + o) (ho : o < 0x10000)
    (hm : mask % 2 ^ data.length ≠ 0) : s.burstWrite ch a data mask = s.doorbellWrites ch o data mask := by
  have hram : ¬sramBacked a = true := by
    simp [sramBacked]
    omega
  unfold State.burstWrite
  dsimp only
  rw [if_neg (by omega), if_neg hm, if_neg hram, if_pos (by omega), ha, Nat.add_sub_cancel_left]

theorem doorbellWrite_sqTail (s : State) (ch v : Nat) {o : Nat} (ho : o < 0x1000) (hq : o % 0x40 = 0) :
    s.doorbellWrite ch o 15 v = s.sqTailWrite (64 * ch + o / 0x40) v := by
  simp [State.doorbellWrite, ho, hq]

theorem doorbellWrite_rqHead (s : State) (ch v : Nat) {o : Nat} (ho : o < 0x1000) (hq : o % 0x40 = 0) :
    s.doorbellWrite ch (o + 8) 15 v = s.rqHeadWrite (64 * ch + o / 0x40) v := by
  have h8 : (o + 8) % 0x40 = 8 := by omega
  have hd : (o + 8) / 0x40 = o / 0x40 := by omega
  have hlt : o + 8 < 0x1000 := by omega
  simp [State.doorbellWrite, hlt, h8, hd]

theorem doorbellWrite_evHead (s : State) (ch v : Nat) : s.doorbellWrite ch 0x1000 15 v = s.evHeadWrite ch v := by
  simp [State.doorbellWrite]

/-! ### The row -/

section
variable {s : State} {ch mask link : Nat} {p : BurstAddr} {beats : List Word16}
  (h : s.portServes ch = true) (hl : beats.length = 16 ∨ beats.length = 32)
include h hl

/-- A burst without a link error, or with write link ECC disabled. -/
theorem exec_hostWrite (hlink : link = 0 ∨ (s.chan ch).wecc = false) :
    exec (.hostWrite ch p beats mask link) s = .next (s.burstWrite ch
      (portAddr p.bank p.row p.col - portAddr p.bank p.row p.col % (bytesOf beats).length) (bytesOf beats) mask) := by
  have hecc : ¬(link ≠ 0 ∧ (s.chan ch).wecc = true) := by
    rintro ⟨h0, hw⟩
    rcases hlink with e | e
    · exact h0 e
    · rw [e] at hw
      exact Bool.false_ne_true hw
  exact congrArg Host.Outcome.next ((if_pos ⟨h, hl⟩).trans (if_neg hecc))

/-- A burst with a single-bit link error. -/
theorem exec_hostWrite_corrected (hw : (s.chan ch).wecc = true) :
    exec (.hostWrite ch p beats mask 1) s = .next ((s.bump (portCtr ch 0) 1).burstWrite ch
      (portAddr p.bank p.row p.col - portAddr p.bank p.row p.col % (bytesOf beats).length) (bytesOf beats) mask) :=
  congrArg Host.Outcome.next ((if_pos ⟨h, hl⟩).trans ((if_pos ⟨Nat.one_ne_zero, hw⟩).trans (if_pos rfl)))

/-- A burst with an uncorrectable link error. -/
theorem exec_hostWrite_lost (hw : (s.chan ch).wecc = true) :
    exec (.hostWrite ch p beats mask 2) s = .next (s.burstLinkError ch
      (portAddr p.bank p.row p.col - portAddr p.bank p.row p.col % (bytesOf beats).length) (bytesOf beats) mask) :=
  congrArg Host.Outcome.next ((if_pos ⟨h, hl⟩).trans ((if_pos ⟨by decide, hw⟩).trans (if_neg (by decide))))

end

/-- Settles O18: a burst's row is the burst itself, a doorbell of it is the doorbell's own row, and each of those is its branch. -/
theorem hostWritesComplete : Obligations.HostWritesComplete := by
  refine ⟨?window, ?elsewhere, ?sqTail, ?rqHead, ?evHead, ?corrected, ?lost, ?sqTailRow, ?rqHeadRow, ?evHeadRow⟩
  case window =>
    intro s ch bank row col a mask link beats data hwf h hl hd ha hlink hwin
    have hch := portServes_lt h
    have hbyte := byte_burstWrite hwf hch hwin data mask
    refine ⟨s.burstWrite ch a data mask, ?_, ?_, fun i hi => ?_, fun x hx => ?_⟩
    · rw [exec_hostWrite h hl hlink, ha, hd]
    · rw [burstWrite_window hch a mask data hwin]
    · rw [hbyte, if_pos (by omega), Nat.add_sub_cancel_left, enabledBytes_getD mask hi]
      split <;> rfl
    · rw [hbyte, if_neg (by omega)]
  case elsewhere =>
    intro s ch bank row col a n mask link beats h hl hn ha hlink hlo hpage
    rw [exec_hostWrite h hl hlink, length_bytesOf, ← hn, ← ha]
    unfold State.burstWrite
    dsimp only
    rw [if_neg (by omega), length_bytesOf, ← hn, if_neg (by omega : ¬(0x04D00000 ≤ a ∧ a < 0x04D10000))]
  case sqTail =>
    intro s ch bank row col a o mask link beats data h hl hd ha hlink hao ho hq hm
    have hlen := length_bytesOf_burst hl hd
    rw [exec_hostWrite h hl hlink, ← hd, ← ha, burstWrite_doorbells s ch hao (by omega) (by rw [hm]; decide),
      doorbellWrites_single s ch o hlen hm (by decide) enables_first, Nat.mul_zero, Nat.add_zero, doorbellWrite_sqTail s ch _ ho hq]
  case rqHead =>
    intro s ch bank row col a o mask link beats data h hl hd ha hlink hao ho hq hm
    have hlen := length_bytesOf_burst hl hd
    rw [exec_hostWrite h hl hlink, ← hd, ← ha, burstWrite_doorbells s ch hao (by omega) (by rw [hm]; decide),
      doorbellWrites_single s ch o hlen hm (by decide) enables_third, doorbellWrite_rqHead s ch _ ho hq]
  case evHead =>
    intro s ch bank row col mask link beats data h hl hd ha hlink hm
    have hlen := length_bytesOf_burst hl hd
    rw [exec_hostWrite h hl hlink, ← hd, ha, burstWrite_doorbells s ch (o := 0x1000) rfl (by decide) (by rw [hm]; decide),
      doorbellWrites_single s ch _ hlen hm (by decide) enables_first, Nat.mul_zero, Nat.add_zero, doorbellWrite_evHead]
  case corrected =>
    intro s ch bank row col a mask beats data h hl hd ha hw
    rw [exec_hostWrite_corrected h hl hw, ← hd, ← ha]
  case lost =>
    intro s u ch bank row col a n mask beats h hl hn ha hw hu
    rw [exec_hostWrite_lost h hl hw, length_bytesOf, ← hn, ← ha, State.burstLinkError, length_bytesOf, ← hn, ← hu]
    rfl
  case sqTailRow =>
    rintro s u q v old new h rfl rfl rfl
    exact congrArg Host.Outcome.next (if_pos h)
  case rqHeadRow =>
    intro s q v h
    exact congrArg Host.Outcome.next (if_pos h)
  case evHeadRow =>
    rintro s ch v new c h rfl rfl
    exact congrArg Host.Outcome.next (if_pos h)

end Sys2Proof.Proofs
end

section
/-! PROOFS. Where a store of a thread leaves more than it stores changed (O55): stored errors kept out of order. -/

namespace Sys2Proof.Proofs
open Sys2Proof Sys2Proof.Machine Sys2Proof.Laws

/-- The command whose job holds the crew below. -/
def crewCmd : Cmd :=
  { uid := 0, opcode := 0, flags := 0, seq := 0, client := 0, ctx := some 1, deadline := none, decoded := 0, params := []
    phase := .ready, inFlight := true, late := false, sag := false, ackDue := false }

/-- Thread 0 of tile 0 runs, X1 holding 64. Word 0 holds eight clean zeros. One bit of byte 64 is inverted, and two of byte 0; the list
of stored errors, which lookups take to rise, has line 64 first, so that no lookup finds the error of line 0. -/
def unsortedFlaws : State :=
  (State.modTile { State.reset with
      sched := { State.reset.sched with jobs := [{ jobOfCmd crewCmd State.reset 1 with state := .running }] }
      mem := ⟨[], (List.range 8).map (fun i => (i, 1))⟩
      store := { State.reset.store with flaws := [(64, 1 :: List.replicate 103 0), (0, 3 :: List.replicate 103 0)] } } 0
    (fun x => { x with ctx := some 1 })).modThread 0 0 (fun h => { h.setX 1 64 false with started := true })

theorem unsortedFlaws_memoryOk : unsortedFlaws.memoryOk := by
  unfold State.memoryOk
  decide +kernel

theorem unsortedFlaws_access :
    unsortedFlaws.access 0 0 (((unsortedFlaws.tile 0).thread 0).effAddr 1 0) 8 8 true = .ok 64 := by
  have haddr : ((unsortedFlaws.tile 0).thread 0).effAddr 1 0 = (64, false) := by decide +kernel
  have hreach : unsortedFlaws.reach 0 64 8 true = .ok 64 := by decide +kernel
  rw [haddr, State.access, hreach]
  rfl

theorem unsortedFlaws_read : unsortedFlaws.readPByte 0 = ⟨0, false⟩ := by decide +kernel

/-- The store of eight bytes to address 64 takes away the error of that line, and lookups then find that of line 0. -/
theorem unsortedFlaws_store : ∃ u, exec (.store 0 0 3 1 0 0) unsortedFlaws = .next u ∧ u.readPByte 0 = ⟨0, true⟩ :=
  ⟨_, rfl, by decide +kernel⟩

/-- Refutes O55: its first clause asks of the state that its memory is in canonical form, and not that its list of stored errors rises. In
`unsortedFlaws` a store to line 64 takes that line's entry off the list, and word 0, of whose line no error was found before, then reads
as poisoned. -/
theorem not_storesTouchOnlyTheirBytes : ¬ Obligations.StoresTouchOnlyTheirBytes := by
  rintro ⟨store, -, -⟩
  obtain ⟨u, hu, hread⟩ := unsortedFlaws_store
  obtain ⟨own, -⟩ := store unsortedFlaws u 0 0 3 1 0 0 64 0 unsortedFlaws_memoryOk (by decide +kernel) (by decide) unsortedFlaws_access
    (.inl (by decide)) hu
  obtain ⟨-, word⟩ := own (by decide) (by decide)
  have same : u.readPByte 0 = unsortedFlaws.readPByte 0 := word (.inl (by decide)) (by decide +kernel)
  rw [hread, unsortedFlaws_read] at same
  exact absurd same (by decide)

end Sys2Proof.Proofs
end

section
/-! PROOFS. Completing a command (O3). -/

namespace Sys2Proof.Proofs
open Sys2Proof Sys2Proof.Machine Sys2Proof.Laws

/-- A command that is not late completes as it is told. -/
theorem completed_eq_finish {s : State} {q k : Nat} {c : Cmd} (st de re : Nat) (hc : s.cmd q k = some c)
    (hf : s.findUid c.uid = some (q, k)) (hl : s.isLate c = false) : s.completed c st de re = s.finish q k st de re :=
  finishUid_eq hf hc hl

theorem cmd_finish_self {s : State} {q k : Nat} {c : Cmd} (st de re : Nat) (hq : q < 128) (hc : s.cmd q k = some c) :
    (s.finish q k st de re).cmd q k = some { c with phase := .done st (de % 2 ^ 32) (re % 2 ^ 64) s.elapsed } := by
  rw [State.finish, cmd_modCmd, if_pos ⟨rfl, rfl, hq⟩, hc]
  rfl

theorem cmd_finish_ne (s : State) {q k q' k' : Nat} (st de re : Nat) (h : (q', k') ≠ (q, k)) :
    (s.finish q k st de re).cmd q' k' = s.cmd q' k' := by
  rw [State.finish, cmd_modCmd, if_neg]
  rintro ⟨rfl, rfl, -⟩
  exact h rfl

/-- Of a queue, a completion changes the commands alone. -/
theorem queue_finish (s : State) (q k st de re q' : Nat) :
    { (s.finish q k st de re).queue q' with cmds := (s.queue q').cmds } = s.queue q' := by
  rw [State.finish, State.modCmd, queue_modQueue]
  split <;> rfl

/-- Settles O3: such a completion is `State.finish`, whose laws say what it changes. -/
theorem completionTouchesOneCommand : Obligations.CompletionTouchesOneCommand := by
  intro s q k c st de re hq hc hf hl hde hre
  rw [completed_eq_finish st de re hc hf hl]
  refine ⟨?own, fun q' k' => cmd_finish_ne s st de re, queue_finish s q k st de re, rfl⟩
  rw [cmd_finish_self st de re hq hc, Nat.mod_eq_of_lt hde, Nat.mod_eq_of_lt hre]

end Sys2Proof.Proofs
end

section
/-! PROOFS. The system opcodes (O4). -/

namespace Sys2Proof.Proofs
open Sys2Proof Sys2Proof.Machine Sys2Proof.Laws

theorem mem_insertSorted (l : List Nat) (x y : Nat) : y ∈ insertSorted l x ↔ y = x ∨ y ∈ l := by
  induction l with
  | nil => simp [insertSorted]
  | cons z t ih =>
    rw [insertSorted]
    split
    · next h => simp [h]
    · split
      · rw [List.mem_cons]
      · rw [List.mem_cons, ih, List.mem_cons, or_left_comm]

theorem chkSysReg_none {s : State} {c : Cmd} (h : (s.reg (c.p 0 8)).isSome = true) : chkSysReg s c = none := by
  simp [chkSysReg, firstBad, Option.isNone_eq_false_iff.mpr h]

theorem runSysRegRead_eq {s t : State} {c : Cmd} {v : Nat} (h : s.reg (c.p 0 8) = some (v, t)) :
    runSysRegRead s c = (t.clearRc (c.p 0 8), .done v) := by
  simp only [runSysRegRead, State.readReg, h]

theorem runSysRegWrite_eq {s t : State} {c : Cmd} {v : Nat}
    (h : (s.writeReg (c.p 0 8) (c.p 8 8) (c.p 16 8)).reg (c.p 0 8) = some (v, t)) : runSysRegWrite s c = (t, .done v) := by
  simp only [runSysRegWrite, h]

/-- A table of R68 whose place is a destination passes the checks of sys.status. -/
theorem chkSysStatus_none {s : State} {c : Cmd} (ht : c.p 0 2 = 0x0007 ∨ c.p 0 2 = 0x0019)
    (hd : s.destOk (c.p 2 8) (statusLen (c.p 0 2)) = true) : chkSysStatus s c = none := by
  have listed : ¬(c.p 0 2 ≠ 0x0007 ∧ c.p 0 2 ≠ 0x0019) := fun h => ht.elim h.1 h.2
  simp only [chkSysStatus, hd, decide_eq_false listed, firstBad, Bool.not_true, Bool.false_eq_true, if_false]

theorem runSysStatus_eq {s : State} {c : Cmd} {l : List Byte} (h : s.statusTable (c.p 0 2) = some l) :
    runSysStatus s c = (s.storeClean (c.p 2 8) l, .done (statusLen (c.p 0 2))) := by
  simp only [runSysStatus, h]

theorem exec_sysStatus {s : State} {q k n : Nat} {c : Cmd} {l : List Byte} (h : s.runs 0x0104 q k c)
    (ht : c.p 0 2 = 0x0007 ∨ c.p 0 2 = 0x0019) (hl : s.statusTable (c.p 0 2) = some l) (hn : statusLen (c.p 0 2) = n)
    (hd : s.destOk (c.p 2 8) n = true) :
    exec (.sysStatus q k) s = .next ((s.storeClean (c.p 2 8) l).completed c 0 0 n) := by
  subst hn
  exact opcodeRow_reply h (chkSysStatus_none ht hd) (runSysStatus_eq hl)

theorem chkSysCounterRead_none {s : State} {c : Cmd} (hid : isCounter (c.p 0 4) = true) (hclear : c.p 4 1 ≤ 1) :
    chkSysCounterRead s c = none := by
  simp [chkSysCounterRead, firstBad, hid, hclear]

theorem chkSysEventMask_none {s : State} {c : Cmd} (hcode : c.p 0 2 ∈ eventCodes) (hclass : eventClass (c.p 0 2) < 2)
    (hon : c.p 2 1 ≤ 1) : chkSysEventMask s c = none := by
  simp [chkSysEventMask, firstBad, hcode, Nat.not_le.mpr hclass, Nat.not_lt.mpr hon]

/-- The masked codes after sys.event.mask sets a code's enable. -/
def maskedAfter (s : State) (code enable : Nat) : List Nat :=
  if enable = 1 then s.host.masked.filter (· != code) else insertSorted s.host.masked code

theorem mem_maskedAfter (s : State) {code enable : Nat} (h : enable ≤ 1) (x : Nat) :
    x ∈ maskedAfter s code enable ↔ (if x = code then enable = 0 else x ∈ s.host.masked) := by
  obtain rfl | rfl : enable = 0 ∨ enable = 1 := by omega
  · rw [maskedAfter, if_neg (by decide), mem_insertSorted]
    by_cases hx : x = code <;> simp [hx]
  · rw [maskedAfter, if_pos rfl, List.mem_filter]
    by_cases hx : x = code <;> simp [hx]

theorem runSysEventMask_eq (s : State) (c : Cmd) :
    runSysEventMask s c = ({ s with host := { s.host with masked := maskedAfter s (c.p 0 2) (c.p 2 1) } },
      .done (if c.p 0 2 ∈ s.host.masked then 0 else 1)) := by
  by_cases h : c.p 0 2 ∈ s.host.masked <;> simp [runSysEventMask, maskedAfter, b2n, h]

/-- Settles O4: each opcode's checks pass, and its body replies (`opcodeRow_reply`). -/
theorem systemOpcodesComplete : Obligations.SystemOpcodesComplete := by
  unfold Obligations.SystemOpcodesComplete
  refine ⟨?ping, ?regRead, ?regWrite, ?voltage, ?integ, ?counter, ?mask, ?sync⟩
  case ping => exact fun s q k c h => opcodeRow_reply h rfl rfl
  case regRead =>
    exact fun s t q k v c h hr => opcodeRow_reply h (chkSysReg_none (by rw [hr]; rfl)) (runSysRegRead_eq hr)
  case regWrite => exact fun s t q k v c h hr hw => opcodeRow_reply h (chkSysReg_none hr) (runSysRegWrite_eq hw)
  case voltage => exact fun s q k c h ht hd => exec_sysStatus h (.inr ht) (by rw [ht]; rfl) (by rw [ht]; rfl) hd
  case integ => exact fun s q k c h ht hd => exec_sysStatus h (.inl ht) (by rw [ht]; rfl) (by rw [ht]; rfl) hd
  case counter =>
    intro s q k c h hid hclear
    refine opcodeRow_reply h (chkSysCounterRead_none hid hclear) ?_
    cases hs : (s.counter (c.p 0 4)).sat <;> simp [runSysCounterRead, Res.done, stDone, b2n, hs]
  case mask =>
    intro s q k c h hcode hclass hon
    exact ⟨_, opcodeRow_reply h (chkSysEventMask_none hcode hclass hon) (runSysEventMask_eq s c), rfl, mem_maskedAfter s hon⟩
  case sync => exact fun s q k c h => opcodeRow_reply h rfl rfl

end Sys2Proof.Proofs
end

section
/-! PROOFS. Command flow (O21): reading a head packet, dispatch, replies and deadlines. -/

namespace Sys2Proof.Proofs
open Sys2Proof Sys2Proof.Machine Sys2Proof.Laws

/-! ### What counting and reporting errors keeps of the host's side -/

/-- Of the host's side, at most the next event NUMBER has changed. -/
def SameHost (s t : State) : Prop := ∃ n, t.host = { s.host with number := n }

theorem SameHost.refl (s : State) : SameHost s s := ⟨s.host.number, rfl⟩

theorem SameHost.trans {s t u : State} (h : SameHost s t) (k : SameHost t u) : SameHost s u := by
  obtain ⟨_, h⟩ := h
  obtain ⟨n, k⟩ := k
  exact ⟨n, by rw [k, h]⟩

theorem SameHost.foldl {α : Type} {f : State → α → State} (h : ∀ s a, SameHost s (f s a)) (l : List α) (s : State) :
    SameHost s (l.foldl f s) := by
  induction l generalizing s with
  | nil => exact SameHost.refl s
  | cons a t ih => exact (h s a).trans (ih _)

theorem SameHost.queue {s t : State} (h : SameHost s t) (q : Nat) : t.queue q = s.queue q := by
  obtain ⟨_, h⟩ := h
  rw [State.queue, h]
  rfl

theorem SameHost.turn {s t : State} (h : SameHost s t) : t.host.turn = s.host.turn := by
  obtain ⟨_, h⟩ := h
  rw [h]

theorem writeRing_host (s : State) (ch : Nat) (r : List Byte) : (s.writeRing ch r).host = s.host := by
  obtain ⟨_, _, h⟩ := writeRing_shape s ch r
  rw [h]

theorem raise_sameHost (s : State) (code source unit detail : Nat) : SameHost s (s.raise code source unit detail) := by
  have ring : ∀ (u : State) (b : Bool) ch r, (if b = true then u.writeRing ch r else u).host = u.host := by
    intro u b ch r
    cases b
    · rfl
    · exact writeRing_host u ch r
  unfold State.raise
  split
  · exact ⟨_, (ring _ _ _ _).trans (ring _ _ _ _)⟩
  · exact SameHost.refl s

theorem bump_sameHost (s : State) (id n : Nat) : SameHost s (s.bump id n) := by
  unfold State.bump
  dsimp only
  split
  · exact SameHost.refl s
  · split
    · exact raise_sameHost (s.setCounter id ⟨0xFFFFFFFF, true⟩) _ _ _ _
    · exact SameHost.refl s

/-- Reading a word of the window counts and reports its error, and changes no queue. -/
theorem readSramWord_sameHost (s : State) (w : Nat) : SameHost s (s.readSramWord w).1 := by
  unfold State.readSramWord
  dsimp only
  split
  · exact (bump_sameHost s _ _).trans (raise_sameHost _ _ _ _ _)
  · split
    · exact bump_sameHost s _ _
    · split
      · exact SameHost.refl s
      · split
        · exact bump_sameHost s _ _
        · exact SameHost.refl s

theorem readSlot_sameHost (s : State) (q slot : Nat) : SameHost s (s.readSlot q slot) :=
  SameHost.foldl (fun s _ => readSramWord_sameHost s _) _ s

/-! ### Reading the next head packet (R51) -/

theorem queue_latchHead_self (s : State) {q : Nat} (hq : q < 128) :
    ∃ h, (s.latchHead q).queue q = { s.queue q with head := h } := by
  unfold State.latchHead
  dsimp only
  split
  · rw [queue_modQueue, if_pos ⟨rfl, hq⟩, (readSlot_sameHost s q _).queue]
    exact ⟨_, rfl⟩
  · exact ⟨(s.queue q).head, rfl⟩

theorem queue_latchHead_ne (s : State) {p q : Nat} (h : p ≠ q) : (s.latchHead q).queue p = s.queue p := by
  unfold State.latchHead
  dsimp only
  split
  · rw [queue_modQueue, if_neg (fun e => h e.1), (readSlot_sameHost s q _).queue]
  · rfl

theorem turn_latchHead (s : State) (q : Nat) : (s.latchHead q).host.turn = s.host.turn := by
  unfold State.latchHead
  dsimp only
  split
  · simpa only [modQueue_host] using (readSlot_sameHost s q (s.queue q).sqHead).turn
  · rfl

/-! ### A head packet whose CRC fails (R54) -/

/-- A rejected command as it is entered: answered at once, with the next command number. -/
def rejected (s : State) (c : Cmd) (status detail : Nat) : Cmd :=
  { c with phase := .done status detail 0 s.elapsed, uid := s.host.nextUid }

theorem queue_reject (s : State) (p q : Nat) (c : Cmd) (status detail : Nat) :
    (s.reject q c status detail).queue p =
      if p = q ∧ q < 128 then { s.queue p with cmds := (s.queue p).cmds ++ [rejected s c status detail] } else s.queue p :=
  queue_modQueue _ p q _

theorem queue_consume (s : State) (p q n : Nat) :
    (s.consume q n).queue p = if p = q ∧ q < 128 then
      { s.queue p with sqHead := ((s.queue p).sqHead + n) % 1024, cover := (s.queue p).cover.drop n, head := none } else s.queue p :=
  queue_modQueue s p q _

theorem queue_setExpect (s : State) (p q v : Nat) :
    (s.setExpect q v).queue p = if p = q ∧ q < 128 then { s.queue p with expectSeq := v % 65536 } else s.queue p :=
  queue_modQueue s p q _

/-- The command that answers a head packet whose CRC fails: no opcode, the slot as DETAIL, the SEQ the queue expected. -/
def badCrcCmd (s : State) (q : Nat) : Cmd :=
  rejected s { s.headCmd q with opcode := 0xFFFF, seq := (s.queue q).expectSeq, flags := 0, ctx := none } stBadCrc (s.queue q).sqHead

theorem readCommand_badCrc_self {s : State} {q : Nat} (hq : q < 128) (h : (s.headPacket q).crcOk = false) :
    (s.readCommand paramCheck q).queue q =
      { s.queue q with
        sqHead := ((s.queue q).sqHead + 1) % 1024, cover := (s.queue q).cover.drop 1, head := none
        expectSeq := ((s.queue q).expectSeq + 1) % 65536, cmds := (s.queue q).cmds ++ [badCrcCmd s q] } := by
  have own : q = q ∧ q < 128 := ⟨rfl, hq⟩
  rw [readCommand_badCrc h, queue_reject, if_pos own, queue_setExpect, if_pos own, queue_consume, if_pos own]
  rfl

theorem readCommand_badCrc_ne {s : State} {p q : Nat} (hp : p ≠ q) (h : (s.headPacket q).crcOk = false) :
    (s.readCommand paramCheck q).queue p = s.queue p := by
  have other : ¬(p = q ∧ q < 128) := fun e => hp e.1
  rw [readCommand_badCrc h, queue_reject, if_neg other, queue_setExpect, if_neg other, queue_consume, if_neg other]

/-- The state in which a turn has read its command and passed on, before it reads the next head packet. -/
def turnRead (s : State) (q : Nat) : State :=
  let s1 := (s.readSlots q).readCommand paramCheck q
  { s1 with host := { s1.host with turn := (q + 1) % 128 } }

theorem readTurn_eq (s : State) (q : Nat) : s.readTurn q = (turnRead s q).latchHead q := rfl

theorem queue_turnRead (s : State) (p q : Nat) : (turnRead s q).queue p = ((s.readSlots q).readCommand paramCheck q).queue p := rfl

/-! ### The first waiting command (R61, R62) -/

theorem findIdx?_place {α : Type} {l : List α} {p : α → Bool} {k : Nat} {a : α} (hk : l[k]? = some a) (hp : p a = true)
    (hfirst : ∀ j, j < k → ∀ b, l[j]? = some b → p b = false) : l.findIdx? p = some k := by
  obtain ⟨hlt, rfl⟩ := List.getElem?_eq_some_iff.mp hk
  refine List.findIdx?_eq_some_iff_getElem.mpr ⟨hlt, hp, fun j hj => ?_⟩
  simp [hfirst j hj _ (List.getElem?_eq_getElem (hj.trans hlt))]

/-- A command that may be dispatched is the first that waits, and the reply ring has room for two more. -/
theorem dispatchable_first {s : State} {q k : Nat} (h : s.dispatchable q = some k) :
    (∀ j, j < k → ∀ c, s.cmd q j = some c → c.phase ≠ .waiting) ∧ 2 ≤ (s.queue q).rqFree := by
  unfold State.dispatchable Queue.firstWaiting at h
  cases hi : (s.queue q).cmds.findIdx? (fun c => c.phase == .waiting) with
  | none => simp [hi] at h
  | some i =>
    obtain ⟨hlt, -, hfirst⟩ := List.findIdx?_eq_some_iff_getElem.mp hi
    simp only [hi, List.getElem?_eq_getElem hlt, Option.map_some, Option.ite_none_right_eq_some, Bool.and_eq_true,
      List.length_take, Nat.min_eq_left hlt.le, Option.some.injEq] at h
    obtain ⟨⟨⟨-, hroom⟩, -⟩, rfl⟩ := h
    refine ⟨fun j hj c hc => ?_, ?_⟩
    · obtain ⟨hj', rfl⟩ := List.getElem?_eq_some_iff.mp hc
      simpa using hfirst j hj
    · have := of_decide_eq_true hroom
      omega

/-! ### The ACCEPTED replies that are due (R59) -/

theorem ackNext_none {u : Queue} (h : ∀ c ∈ u.cmds, c.ackDue = false) : u.ackNext = none := by
  unfold Queue.ackNext
  split
  · split
    · next k _ c hc => rw [if_neg]; rw [h c (List.mem_of_getElem? hc)]; decide
    · rfl
  · rfl

theorem ackNext_some {u : Queue} {k : Nat} {c : Cmd} (hk : u.cmds[k]? = some c) (hc : c.ackDue = true)
    (hfirst : ∀ j, j < k → ∀ b, u.cmds[j]? = some b → b.ackDue = false ∧ b.phase ≠ .waiting) : u.ackNext = some k := by
  have place : u.cmds.findIdx? (fun c => c.ackDue || c.phase == .waiting) = some k :=
    findIdx?_place hk (by simp [hc]) (fun j hj b hb => by simpa using hfirst j hj b hb)
  simp only [Queue.ackNext, place, hk, hc, if_true]

theorem releaseAcks_of_none {s : State} {q : Nat} (f : Nat) (h : (s.queue q).ackNext = none) : s.releaseAcks q f = s := by
  cases f with
  | zero => rfl
  | succ f => rw [State.releaseAcks, h]; rfl

/-- The ACCEPTED reply of command `k` is written, and no longer due. -/
def accepted (s : State) (q k : Nat) (c : Cmd) : State :=
  (s.writeReply q (replyBytes c.seq c.opcode stAccepted 0 0 s.elapsed)).modCmd q k (fun c => { c with ackDue := false })

theorem releaseAcks_succ {s : State} {q k : Nat} {c : Cmd} (f : Nat) (h : (s.queue q).ackNext = some k)
    (hk : (s.queue q).cmds[k]? = some c) (hroom : (s.queue q).rqFree ≠ 0) :
    State.releaseAcks q (f + 1) s = State.releaseAcks q f (accepted s q k c) := by
  rw [State.releaseAcks, h]
  simp only [Option.bind_some, hk, Option.map_some]
  exact if_neg hroom

theorem cmd_accepted {s : State} {q : Nat} (hq : q < 128) (k j : Nat) (c : Cmd) :
    (accepted s q k c).cmd q j = if j = k then (s.cmd q j).map (fun c => { c with ackDue := false }) else s.cmd q j := by
  have reply : ∀ r, (s.writeReply q r).cmd q j = s.cmd q j := by
    intro r
    rw [State.cmd, State.writeReply, queue_modQueue, if_pos ⟨rfl, hq⟩]
    rfl
  rw [accepted, cmd_modCmd, reply]
  simp [hq]

/-- With one ACCEPTED reply due, and room for it, that reply is all that is written. -/
theorem releaseAcks_one {s : State} {q k : Nat} {c : Cmd} (f : Nat) (hq : q < 128) (hk : s.cmd q k = some c) (hc : c.ackDue = true)
    (hone : ∀ j, j ≠ k → ∀ b, s.cmd q j = some b → b.ackDue = false)
    (hfirst : ∀ j, j < k → ∀ b, s.cmd q j = some b → b.phase ≠ .waiting) (hroom : (s.queue q).rqFree ≠ 0) :
    State.releaseAcks q (f + 1) s = accepted s q k c := by
  rw [releaseAcks_succ f (ackNext_some hk hc (fun j hj b hb => ⟨hone j hj.ne b hb, hfirst j hj b hb⟩)) hk hroom]
  refine releaseAcks_of_none f (ackNext_none fun b hb => ?_)
  obtain ⟨j, hj⟩ := List.mem_iff_getElem?.mp hb
  have e := cmd_accepted (s := s) hq k j c
  by_cases h : j = k
  · subst h
    rw [if_pos rfl, hk] at e
    exact congrArg Cmd.ackDue (Option.some.inj (hj.symm.trans e))
  · rw [if_neg h] at e
    exact hone j h b (e.symm.trans hj)

/-! ### Dispatch (R59 to R62) -/

/-- Command `k` dispatched: ready and in flight, its ACCEPTED reply due when asked for. -/
def dispatched (s : State) (q k : Nat) : State :=
  s.modCmd q k (fun c => { c with phase := .ready, inFlight := true, sag := s.sagging, ackDue := c.ackReq })

theorem cmd_dispatched_self {s : State} {q k : Nat} {c : Cmd} (hq : q < 128) (hc : s.cmd q k = some c) :
    (dispatched s q k).cmd q k = some { c with phase := .ready, inFlight := true, sag := s.sagging, ackDue := c.ackReq } := by
  rw [dispatched, cmd_modCmd, if_pos ⟨rfl, rfl, hq⟩, hc]
  rfl

theorem cmd_dispatched_ne (s : State) (q : Nat) {j k : Nat} (h : j ≠ k) : (dispatched s q k).cmd q j = s.cmd q j := by
  rw [dispatched, cmd_modCmd, if_neg (fun e => h e.2.1)]

theorem rqFree_dispatched (s : State) (q k : Nat) : ((dispatched s q k).queue q).rqFree = (s.queue q).rqFree := by
  rw [dispatched, State.modCmd, queue_modQueue]
  split <;> rfl

theorem exec_commandDispatch {s : State} {q k : Nat} {c : Cmd} (hd : s.dispatchable q = some k) (hc : s.cmd q k = some c) :
    exec (.commandDispatch q) s = .next ((if s.isLate c = true then (dispatched s q k).finish q k stDeadline 0 0
      else dispatched s q k).releaseAcks q 1024) := by
  simp only [exec, execCommandDispatch, hd, hc, dispatched]

/-- No earlier ACCEPTED reply being due, the dispatch of a command that asks for one writes it at once. -/
theorem dispatched_releaseAcks {s : State} {q k : Nat} {c : Cmd} (f : Nat) (hq : q < 128) (hd : s.dispatchable q = some k)
    (hc : s.cmd q k = some c) (hreq : c.ackReq = true) (hdue : ∀ x ∈ (s.queue q).cmds, x.ackDue = false) :
    State.releaseAcks q (f + 1) (dispatched s q k) =
      accepted (dispatched s q k) q k { c with phase := .ready, inFlight := true, sag := s.sagging, ackDue := c.ackReq } := by
  obtain ⟨hfirst, hroom⟩ := dispatchable_first hd
  refine releaseAcks_one f hq (cmd_dispatched_self hq hc) hreq ?_ ?_ ?_
  · intro j hj b hb
    rw [cmd_dispatched_ne s q hj] at hb
    exact hdue b (List.mem_of_getElem? hb)
  · intro j hj b hb
    rw [cmd_dispatched_ne s q hj.ne] at hb
    exact hfirst j hj b hb
  · rw [rqFree_dispatched]
    omega

/-! ### Final replies (R59, R60) -/

/-- The final reply of a queue's oldest command is written, and COMMAND_DONE raised when asked for. -/
def answered (s : State) (q : Nat) (c : Cmd) (st de re el : Nat) (rest : List Cmd) : State :=
  let u := (s.writeReply q (replyBytes c.seq c.opcode st de (resultOf st re) el)).modQueue q (fun u => { u with cmds := rest })
  if c.eventOnDone = true then u.raise 0x0106 90 q (c.seq + st * 2 ^ 16 + c.opcode * 2 ^ 32) else u

theorem releaseReplies_succ {s : State} {q st de re el : Nat} {c : Cmd} {rest : List Cmd} (f : Nat)
    (hcmds : (s.queue q).cmds = c :: rest) (hdone : c.phase = .done st de re el) (hdue : c.ackDue = false)
    (hroom : (s.queue q).rqFree ≠ 0) :
    State.releaseReplies q (f + 1) s = State.releaseReplies q f (answered s q c st de re el rest) := by
  rw [State.releaseReplies, hcmds]
  simp only [hdone]
  exact if_neg (by simp [hroom, hdue])

theorem releaseReplies_of_empty {s : State} {q : Nat} (f : Nat) (h : (s.queue q).cmds = []) : s.releaseReplies q f = s := by
  cases f with
  | zero => rfl
  | succ f => rw [State.releaseReplies, h]

theorem cmds_answered {s : State} {q : Nat} (hq : q < 128) (c : Cmd) (st de re el : Nat) (rest : List Cmd) :
    ((answered s q c st de re el rest).queue q).cmds = rest := by
  unfold answered
  dsimp only
  split
  · rw [(raise_sameHost _ _ _ _ _).queue, queue_modQueue, if_pos ⟨rfl, hq⟩]
  · rw [queue_modQueue, if_pos ⟨rfl, hq⟩]

/-- Settles O21: reading, dispatch, replies and deadlines, each by its lemma above. -/
theorem commandFlowCompletes : Obligations.CommandFlowCompletes := by
  unfold Obligations.CommandFlowCompletes
  refine ⟨?read, ?badCrc, ?dispatch, ?accept, ?complete, ?answer, ?missed, ?late⟩
  case read =>
    intro s q ups hstop hnext
    simp only [exec, execCommandRead, hstop, hnext, Bool.false_eq_true, if_false]
  case badCrc =>
    rintro s _ q hq rfl hcrc
    obtain ⟨h, own⟩ := queue_latchHead_self (turnRead s q) hq
    rw [queue_turnRead, readCommand_badCrc_self hq hcrc, ← readTurn_eq] at own
    refine ⟨badCrcCmd (s.readSlots q) q, by rw [own], rfl, rfl, rfl, by rw [own], by rw [own], fun p hp => ?_,
      turn_latchHead (turnRead s q) q⟩
    rw [readTurn_eq, queue_latchHead_ne _ hp, queue_turnRead, readCommand_badCrc_ne hp hcrc]
  case dispatch =>
    rintro s _ q k c hd hc rfl
    exact exec_commandDispatch hd hc
  case accept =>
    rintro s _ q k c hq hd hc hlate hreq hdue rfl
    rw [exec_commandDispatch hd hc, if_neg (by rw [hlate]; decide),
      dispatched_releaseAcks 1023 hq hd hc hreq (by simpa using hdue)]
    rfl
  case complete => exact fun s q => rfl
  case answer =>
    rintro s _ q st de re el c hq hcmds hdone hdue hroom rfl
    have acks : s.releaseAcks q 1024 = s :=
      releaseAcks_of_none 1024 (ackNext_none (by rw [hcmds]; simpa using hdue))
    have replies : State.releaseReplies q 1024 s = answered s q c st de re el [] :=
      (releaseReplies_succ 1023 hcmds hdone hdue hroom).trans (releaseReplies_of_empty 1023 (cmds_answered hq c st de re el []))
    simp only [exec, execCommandComplete]
    rw [acks, replies]
    rfl
  case missed =>
    intro s q k c hc hlate hwait
    simp only [exec, execDeadlinePassed, hc, hlate, hwait, if_true]
    rfl
  case late =>
    rintro s _ q k c hc hlate hphase rfl
    rcases hphase with h | h <;>
    · simp only [exec, execDeadlinePassed, hc, hlate, h, if_true]
      rfl

end Sys2Proof.Proofs
end

section
/-! PROOFS. The scrubber and the check-logic self-test (O35). -/

namespace Sys2Proof.Proofs
open Sys2Proof Sys2Proof.Machine Sys2Proof.Laws

/-- The entry of a list that a free value picks is one of its entries. -/
theorem getD_mod_mem {l : List Nat} (h : l ≠ []) (k : Nat) : l.getD (k % l.length) 0 ∈ l := by
  have hk : k % l.length < l.length := Nat.mod_lt k (List.length_pos_iff.mpr h)
  rw [List.getD_eq_getElem l 0 hk]
  exact List.getElem_mem hk

/-- The least value over a list, found from a bound that no value exceeds, is one of its values. -/
theorem foldl_min_attained {l : List Nat} (f : Nat → Nat) {b : Nat} (hl : l ≠ []) (hb : ∀ c ∈ l, f c ≤ b) :
    (∃ c ∈ l, f c = l.foldl (fun a c => min a (f c)) b) ∧ ∀ c ∈ l, l.foldl (fun a c => min a (f c)) b ≤ f c := by
  obtain ⟨hm, hle⟩ := List.min?_eq_some_iff.mp (List.min?_cons' (x := b) (xs := l.map f))
  rw [List.foldl_map] at hm hle
  have least : ∀ c ∈ l, l.foldl (fun a c => min a (f c)) b ≤ f c :=
    fun c hc => hle _ (List.mem_cons_of_mem b (List.mem_map_of_mem hc))
  refine ⟨?_, least⟩
  rcases List.mem_cons.mp hm with h | h
  · obtain ⟨c, hc⟩ := List.exists_mem_of_ne_nil l hl
    exact ⟨c, hc, le_antisymm ((hb c hc).trans_eq h.symm) (least c hc)⟩
  · obtain ⟨c, hc, e⟩ := List.mem_map.mp h
    exact ⟨c, hc, e⟩

/-- The channels of the lap that are furthest behind. -/
def lapBehind (s : State) : List Nat :=
  s.lapChans.filter (fun c => s.lapDone c == s.lapChans.foldl (fun a c => min a (s.lapDone c)) (2 ^ 22))

/-- The channel that the lap alarm names. -/
def lapAlarmChan (s : State) : Nat := (lapBehind s).getD (s.draw.1 % max 1 (lapBehind s).length) 0

theorem lapAlarmChan_furthest {s : State} (hl : s.lapChans ≠ []) (hb : ∀ c ∈ s.lapChans, s.lapDone c ≤ 2 ^ 22) :
    lapAlarmChan s ∈ s.lapChans ∧ ∀ d ∈ s.lapChans, s.lapDone (lapAlarmChan s) ≤ s.lapDone d := by
  obtain ⟨⟨c, hc, hleast⟩, least⟩ := foldl_min_attained s.lapDone hl hb
  have hne : lapBehind s ≠ [] := List.ne_nil_of_mem (List.mem_filter.mpr ⟨hc, beq_iff_eq.mpr hleast⟩)
  have hmem : lapAlarmChan s ∈ lapBehind s := by
    rw [lapAlarmChan, Nat.max_eq_right (List.length_pos_iff.mpr hne)]
    exact getD_mod_mem hne _
  obtain ⟨hin, hle⟩ := List.mem_filter.mp hmem
  exact ⟨hin, fun d hd => (beq_iff_eq.mp hle).trans_le (least d hd)⟩

theorem exec_scrubLapAlarm {s : State} (hlim : s.store.limitMs ≠ 0) (hfirst : s.store.lapAlarmed = false)
    (hdue : s.since s.store.lapStart (us (s.store.limitMs * 1000)) = true) :
    exec .scrubLapAlarm s = .next (State.raise { s.draw.2 with store := { s.draw.2.store with lapAlarmed := true } } 0x0201
      (78 + lapAlarmChan s % 8) (lapAlarmChan s) s.store.limitMs) :=
  congrArg Host.Outcome.next (if_pos ⟨hlim, hfirst, hdue⟩)

/-- Settles O35: each event takes its one branch, and the channel a free value picks is one of those it is picked from. -/
theorem scrubbingCompletes : Obligations.ScrubbingCompletes := by
  unfold Obligations.ScrubbingCompletes
  refine ⟨?tile, ?stack, ?alarm, ?selftest⟩
  case tile =>
    intro s a ups hon hpwr ha
    exact congrArg Host.Outcome.next ((if_pos (by simp [hon, hpwr])).trans (if_pos ha))
  case stack =>
    intro s a ups hon hpwr h0 h1 hdom
    exact congrArg Host.Outcome.next ((if_pos (by simp [hon, hpwr])).trans
      ((if_neg (by simp [h0])).trans (if_pos (by rw [h1, hdom]; rfl))))
  case alarm =>
    intro s hlim hfirst hdue hl hb
    obtain ⟨hin, hleast⟩ := lapAlarmChan_furthest hl hb
    exact ⟨lapAlarmChan s, hin, hleast, exec_scrubLapAlarm hlim hfirst hdue⟩
  case selftest =>
    rintro s _ pass hdown rfl hne
    refine ⟨_, _, _, getD_mod_mem hne (Config.freeValue (if s.untested = [] then s.newRotation else s).free), rfl, rfl, ?_⟩
    simp only [exec, execT1CheckSelftest, List.isEmpty_iff, State.draw]
    rw [if_neg (not_or.mpr ⟨hne, by simp [hdown]⟩)]

end Sys2Proof.Proofs
end

section
/-! PROOFS. Register writes (O22). -/

namespace Sys2Proof.Proofs
open Sys2Proof Sys2Proof.Machine Sys2Proof.Laws

/-- A field from bit 0. -/
theorem bits_zero (x hi : Nat) : bits x hi 0 = x % 2 ^ (hi + 1) := by
  rw [bits, pow_zero, Nat.div_one, Nat.sub_zero]

theorem keep_decide (p : Prop) [Decidable p] (new old : Nat) : keep (decide p) new old = if p then new else old := by
  by_cases h : p <;> simp [keep, h]

/-- An address that names no register ignores a write, and so does a counter (R443). -/
theorem writeReg_ignored {s : State} {a : Nat} (h : s.reg a = none ∨ isCounter (ctrId (a - ctrlBase)) = true) (v mask : Nat) :
    s.writeReg a v mask = s :=
  if_pos (by rcases h with h | h <;> simp [h])

/-- A sticky bit of a tile's arithmetic status survives a write that leaves it out of its mask or writes it 1 (R98). -/
theorem getLsbD_arith_clearArith (x : Tile) (v mask : Nat) {i : Nat} (hi : i < 9) :
    (x.clearArith v mask).arith.getLsbD i = (x.arith.getLsbD i && (v.testBit i || !mask.testBit i)) := by
  simp only [Tile.clearArith, BitVec.getLsbD_and, BitVec.getLsbD_not, BitVec.getLsbD_ofNat, Nat.testBit_xor, Nat.testBit_and,
    hi, decide_true, Bool.true_and]
  cases v.testBit i <;> cases mask.testBit i <;> rfl

/-- The levels and the cap that CAP.SAG and pwr.sag take (R489). -/
theorem sagFaults_none {warn rst cap : Nat} : (sagFaults warn rst cap).any Prod.fst = false ↔
    800 ≤ warn ∧ warn ≤ 1050 ∧ 700 ≤ rst ∧ rst ≤ 950 ∧ rst + 50 ≤ warn ∧ 30 ≤ cap ∧ cap ≤ 420 := by
  simp only [sagFaults, List.any_cons, List.any_nil, Bool.or_false, Bool.or_eq_false_iff, decide_eq_false_iff_not]
  omega

/-- CAP.SAG takes its levels and its cap together, and PREEMPT_FROM by itself (R495). -/
theorem writeSag_eq (s : State) {v mask w : Nat} (hw : w = mergeBits s.cap.sagWord v mask) : s.writeSag v mask =
    let u := if 800 ≤ w % 2 ^ 11 ∧ w % 2 ^ 11 ≤ 1050 ∧ 700 ≤ bits w 26 16 ∧ bits w 26 16 ≤ 950 ∧ bits w 26 16 + 50 ≤ w % 2 ^ 11 ∧
        30 ≤ bits w 40 32 ∧ bits w 40 32 ≤ 420 then
      s.modCap (fun c => { c with warnMv := w % 2 ^ 11, resetMv := bits w 26 16, sagCap := bits w 40 32 }) else s
    if 1 ≤ bits w 43 41 ∧ bits w 43 41 ≤ 5 then u.modCap (fun c => { c with preemptFrom := bits w 43 41 }) else u := by
  subst hw
  simp only [State.writeSag, bits_zero, ← sagFaults_none, ← Bool.not_eq_true, ite_not]

/-- SAFE.VERDICT takes a new ring, which begins empty, where the ring is aligned, of a size listed and within a destination (R421). -/
theorem writeVerdict_eq (s : State) {v mask w base lg : Nat} (hw : w = mergeBits s.safe.verdictWord v (mask % 2 ^ 53))
    (hb : base = w % 2 ^ 48) (hl : lg = w / 2 ^ 48 % 32) : s.writeVerdict v mask =
    if mask % 2 ^ 53 ≠ 0 ∧ base % 64 = 0 ∧ (lg = 0 ∨ (4 ≤ lg ∧ lg ≤ 16 ∧ s.destOk base (64 + 32 * 2 ^ lg) = true)) then
      let u : State := { s with safe := { s.safe with ringBase := base, ringLog2 := lg, tail := 0 } }
      if lg = 0 then u else u.putTail base 0
    else s := by
  subst hw hb hl
  simp only [State.writeVerdict, bits_zero]
  rw [← ite_not]
  refine if_congr ?_ rfl rfl
  simp only [not_or, Bool.not_eq_true', Bool.not_eq_false, Bool.and_eq_true, beq_iff_eq, Bool.or_eq_true, decide_eq_true_eq, and_assoc]
  rfl

/-- FUSE.S_RING of a stream takes a new ring while fusion is disabled, where the ring is aligned, and of a size the field admits within
the T1 host region (R352). -/
theorem writeSRing_eq (s : State) {i v mask w base lg : Nat} (hi : i < 36)
    (hw : w = mergeBits ((s.stream i).ringBase + (s.stream i).ringLog2 * 2 ^ 48) v mask)
    (hb : base = w % 2 ^ 48) (hl : lg = w / 2 ^ 48 % 16) : s.writeSRing i v mask =
    if s.fuse.enabled = false ∧ base % 64 = 0 ∧ (lg = 0 ∨ (4 ≤ lg ∧ lg ≤ 12 ∧ s.inT1Host base (ringSlotBytes i * 2 ^ lg) = true)) then
      s.modStream i (fun x => { x with ringBase := base, ringLog2 := lg, next := 0 }) else s := by
  subst hw hb hl
  simp only [State.writeSRing, decide_eq_false (Nat.not_le_of_lt hi), Bool.or_false]
  rw [← ite_not]
  refine if_congr ?_ rfl rfl
  simp only [not_or, Bool.not_eq_true, Bool.not_eq_false', Bool.and_eq_true, beq_iff_eq, Bool.or_eq_true,
    decide_eq_true_eq, and_assoc]
  rfl

/-- Settles O22: each register named takes its one branch, a field that keeps its old value out of range being the model's `keep`; the
checks of SAFE.VERDICT, CAP.SAG and FUSE.S_RING are those that the lemmas above give. -/
theorem registerWritesComplete : Obligations.RegisterWritesComplete := by
  unfold Obligations.RegisterWritesComplete
  refine ⟨?ignored, ?named, ?arith, ?loop, ?limit, ?sag, ?reserve, ?cox, ?nvs, ?ring, ?verdict⟩
  case ignored => exact fun s a v mask h => congrArg Host.Outcome.next (writeReg_ignored h v mask)
  case named =>
    rintro s s' u o v mask x _ h rfl hu
    simp only [← keep_decide] at hu
    simp only [exec, execRegisterWrite, State.writeReg, Nat.add_sub_cancel_left, h]
    rcases hu with ⟨rfl, rfl⟩ | ⟨rfl, rfl⟩ | ⟨rfl, rfl⟩ | ⟨rfl, rfl⟩ | ⟨rfl, rfl⟩ | ⟨rfl, rfl⟩ | ⟨rfl, rfl⟩ | ⟨rfl, rfl⟩ | ⟨rfl, rfl⟩ |
      ⟨rfl, rfl⟩ | ⟨rfl, rfl⟩ | ⟨rfl, rfl⟩ | ⟨rfl, rfl⟩ <;> rfl
  case arith =>
    intro s t v mask ht
    refine ⟨_, rfl, rfl, fun t' h => ?_, ?_, fun i hi => ?_⟩
    · rw [tile_modTile, if_neg fun e => h e.1]
    · rw [tile_modTile, if_pos ⟨rfl, ht⟩]
      rfl
    · rw [tile_modTile, if_pos ⟨rfl, ht⟩, getLsbD_arith_clearArith _ _ _ hi]
  case loop =>
    intro s l v mask hl
    have own : (s.clearSat l (v &&& mask)).loop l = _ := (loop_modLoop _ _ _ _).trans (if_pos ⟨rfl, hl⟩)
    refine ⟨_, rfl, rfl, fun l' h => ?_, by rw [own], by rw [own]; simp, fun i z hz => ?_⟩
    · exact (loop_modLoop _ _ _ _).trans (if_neg fun e => h e.1)
    · rw [own]
      simp [hz]
  case limit =>
    rintro s v mask _ rfl
    simp only [exec, execCapLimitWrite, State.writeLimit, bits_zero]
    rfl
  case sag =>
    rintro s _ v mask w _ _ _ _ hw rfl rfl rfl rfl rfl
    exact congrArg Host.Outcome.next (writeSag_eq s hw)
  case reserve =>
    rintro s v mask _ rfl
    simp only [exec, execTierPoolWrite, State.writePool, bits_zero]
  case cox =>
    rintro s v mask _ _ _ rfl rfl rfl
    simp only [exec, execTierPoolWrite, State.writePool, bits_zero, List.all_eq_true, decide_eq_true_eq]
    rfl
  case nvs =>
    rintro s v mask _ _ _ rfl rfl rfl
    simp only [exec, execTierPoolWrite, State.writePool, bits_zero, List.all_eq_true, decide_eq_true_eq]
    rfl
  case ring =>
    intro s i v mask w base lg hi hw hb hl
    exact congrArg Host.Outcome.next (writeSRing_eq s hi hw hb hl)
  case verdict =>
    rintro s _ v mask w base lg hw hb hl rfl
    exact congrArg Host.Outcome.next (writeVerdict_eq s hw hb hl)

end Sys2Proof.Proofs
end

section
/-! PROOFS. Vector loads, stores, operations and scans (O25). -/

namespace Sys2Proof.Proofs
open Sys2Proof Sys2Proof.Machine Sys2Proof.Laws

theorem vecPieces_eq {s : State} {t th ra imm : Nat} {write : Bool} {l : List (Nat × Nat)}
    (h : s.pieces t (((s.tile t).thread th).effAddr ra imm).1 256 write = .ok l) : s.vecPieces t th ra imm write = l := by
  simp only [State.vecPieces, h]

/-- A bit of the word that the flags of a range spell. -/
theorem getLsbD_ofBits_range (f : Nat → Bool) {n i : Nat} (h : i < n) :
    (BitVec.ofNat n (ofBits ((List.range n).map f))).getLsbD i = f i := by
  rw [BitVec.getLsbD_ofNat, testBit_ofBits]
  simp [h]

/-- A vector load whose address is sound, and not the tile's own block, waits while a part is held, and else loads its parts. -/
theorem exec_vectorLoad_memory {s : State} {t th rd ra imm a : Nat} {l : List (Nat × Nat)} (hi : s.canIssue t th = true)
    (ha : s.access t th (((s.tile t).thread th).effAddr ra imm) 256 64 false = .ok a) (hout : a < tileBlock t ∨ tileBlock t + 0x1000 ≤ a)
    (hl : s.pieces t (((s.tile t).thread th).effAddr ra imm).1 256 false = .ok l) :
    exec (.vectorLoad t th rd ra imm) s = .next
      (if l.any (fun p => s.loadHeld t p.1 p.2 false) = true then s.hold l
      else (((s.loadPieces t l).1.modThread t th (fun x => (x.putV rd
        (Vector.ofFn (fun i : Fin 64 => BitVec.ofNat 32 (leAt (vals (s.loadPieces t l).2) (4 * i.val) 4)))
        (BitVec.ofNat 32 (ofBits ((List.range 32).map (fun w => (((s.loadPieces t l).2.drop (8 * w)).take 8).any PByte.p))))).next)).crewProgress
        t)) := by
  simp only [exec, execVectorLoad, ha, vecPieces_eq hl]
  rw [if_pos hi, if_neg (by omega)]

/-- Settles O25: each instruction takes its one branch, and the lanes and poison bits of a result are those of the vectors written. -/
theorem vectorInstructionsComplete : Obligations.VectorInstructionsComplete := by
  unfold Obligations.VectorInstructionsComplete
  refine ⟨?load, ?loadHeld, ?loadOwn, ?store, ?fault, ?op, ?scan, ?unlisted⟩
  case load =>
    intro s s1 t th rd ra imm a l b hi ha hout hl hfree hload
    have run := exec_vectorLoad_memory (rd := rd) hi ha hout hl
    rw [if_neg (by rw [hfree]; decide), hload] at run
    exact ⟨_, _, run, fun i h => Vector.getElem_ofFn h, fun w hw => getLsbD_ofBits_range _ hw⟩
  case loadHeld =>
    intro s t th rd ra imm a l hi ha hout hl hheld
    rw [exec_vectorLoad_memory hi ha hout hl, if_pos hheld]
  case loadOwn =>
    intro s s1 t th rd ra imm a ws hi ha hlo hhi hws
    refine ⟨Vector.ofFn (fun i : Fin 64 => BitVec.ofNat 32 (ws.getD (i.val / 2) 0 / 2 ^ (32 * (i.val % 2)))), ?_,
      fun i h => Vector.getElem_ofFn h⟩
    simp only [exec, execVectorLoad, ha]
    rw [if_pos hi, if_pos ⟨hlo, hhi⟩, ← hws]
  case store =>
    rintro s t th rd ra imm a _ l hi rfl ha hl
    simp only [exec, execVectorStore, ha, vecPieces_eq hl]
    rw [if_pos hi]
  case fault =>
    intro s u t th rd ra imm hi
    refine ⟨fun h => ?_, fun h => ?_⟩
    · simp only [exec, execVectorLoad, h, hi, if_true]
    · simp only [exec, execVectorStore, h, hi, if_true]
  case op =>
    rintro s t th mod rd ra rb _ hi hmod rfl
    exact ⟨_, _, congrArg Host.Outcome.next ((if_pos hi).trans (if_neg (by omega))), fun i h => Vector.getElem_ofFn h, rfl⟩
  case scan =>
    rintro s t th mod rd ra rb _ _ _ _ _ _ hi hmod rfl rfl rfl rfl rfl rfl
    exact ⟨_, _, congrArg Host.Outcome.next ((if_pos hi).trans (if_neg (by omega))), fun i h => Vector.getElem_ofFn h,
      fun w hw => getLsbD_ofBits_range _ hw⟩
  case unlisted =>
    intro s t th mod rd ra rb hi
    exact ⟨fun h => congrArg Host.Outcome.next ((if_pos hi).trans (if_pos h)),
      fun h => congrArg Host.Outcome.next ((if_pos hi).trans (if_pos h))⟩

end Sys2Proof.Proofs
end

section
/-! PROOFS. Array operations and their events (O26). -/

namespace Sys2Proof.Proofs
open Sys2Proof Sys2Proof.Machine Sys2Proof.Laws

theorem exec_arrIssue (s : State) (t th ra rb : Nat) (conv : Bool) :
    exec (if conv then .arrConv t th ra rb else .arrRun t th ra rb) s = .next (s.arrIssue t th ra rb conv) := by
  cases conv <;> rfl

/-- A reduction's end goes through on a working tile where the second set is free or not asked for. -/
theorem reduction_goes {s : State} {t : Nat} {y : Arr} {o : ArrOp} (hrun : s.tileRuns t = true)
    (hfree : o.converts = false ∨ y.converting = none) : ¬(!s.tileRuns t || (o.converts && y.converting.isSome)) = true := by
  rcases hfree with h | h <;> simp [hrun, h]

/-- A conversion's end goes through on a working tile where it sends no check record or fewer than four records of its tile wait. -/
theorem conversion_goes {s : State} {t n : Nat} {y : Arr} (hrun : s.tileRuns t = true) (hroom : y.outLane = none ∨ n < 4) :
    ¬(!s.tileRuns t || (y.outLane.isSome && decide (4 ≤ n))) = true := by
  rcases hroom with h | h <;> simp [hrun, h]

/-- Settles O26: each instruction and each event takes its one branch; a checked chain's sums go to the tile's job, if it has one. -/
theorem arrayInstructionsComplete : Obligations.ArrayInstructionsComplete := by
  unfold Obligations.ArrayInstructionsComplete
  refine ⟨?issue, ?busy, ?wait, ?reduced, ?faulted, ?converted⟩
  case issue =>
    rintro s t th ra rb _ off _ conv _ _ hi rfl rfl hp ha rfl hoff hidle rfl hsound
    rw [exec_arrIssue]
    simp only [State.arrIssue, hoff, hidle, hsound, Option.isSome_none, Bool.false_eq_true, if_false]
    rw [if_pos hi, if_neg (by rw [hp]; decide), if_neg (by omega)]
  case busy =>
    rintro s t th ra rb _ off _ conv _ hi rfl rfl hp ha rfl hoff hbusy
    rw [exec_arrIssue]
    simp only [State.arrIssue, hoff]
    rw [if_pos hi, if_neg (by rw [hp]; decide), if_neg (by omega), if_pos (Option.isSome_iff_ne_none.mpr hbusy)]
  case wait =>
    rintro s t th rb _ hi rfl hp ha
    simp only [exec, execArrWait, Bool.and_eq_true, Option.isNone_iff_eq_none]
    rw [if_pos hi, if_neg (by rw [hp]; decide), if_neg (by omega)]
    rfl
  case reduced =>
    rintro s t a _ _ o y _ _ hred hrun hfree hsum rfl rfl rfl rfl
    simp only [exec, execArrayReductionDone, hred, hsum]
    rw [if_neg (reduction_goes hrun hfree)]
  case faulted =>
    intro s t a e o hred hrun hfree hsum
    simp only [exec, execArrayReductionDone, hred, hsum]
    rw [if_neg (reduction_goes hrun hfree)]
  case converted =>
    rintro s _ _ s3 s4 t a o _ rnds uf rows scales cf _ ht ha rfl hconv hrun hroom hrnd htile rfl rfl rfl hs3 hsent
    simp only [exec, execOutputConversionDone, hconv, hrnd, htile]
    rw [if_neg (conversion_goes hrun hroom), ← hs3]
    rcases hsent with ⟨unchecked, rfl⟩ | ⟨noJob, rfl⟩ | ⟨l, j, checked, job, rfl⟩
    · simp only [unchecked]
    · cases ((s.tile t).arr a).outLane <;> simp only [noJob]
    · simp only [checked, job]

end Sys2Proof.Proofs
end

section
/-! PROOFS. What the scalar instructions leave unchanged (O56). -/

namespace Sys2Proof.Proofs
open Sys2Proof Sys2Proof.Machine Sys2Proof.Laws

/-! ### A scalar register written -/

/-- A register other than the one written, and register 0, keep their value. -/
theorem getX_put (y : Thread) (v : PVal) {r rd : Nat} (h : r ≠ rd ∨ r = 0) : (y.put rd v).getX r = y.getX r := by
  by_cases hr : r = 0
  · simp [Thread.getX, hr]
  · have hne : r ≠ rd := h.resolve_right hr
    unfold Thread.put Thread.setX
    split
    · rfl
    · simp only [Thread.getX, hr, if_false, vget_vset, hne, false_and]

/-- A register other than the one written, and register 0, keep their poison bit. -/
theorem poisonX_put (y : Thread) (v : PVal) {r rd : Nat} (h : r ≠ rd ∨ r = 0) : (y.put rd v).poisonX r = y.poisonX r := by
  by_cases hr : r = 0
  · simp [Thread.poisonX, hr]
  · have hne : r ≠ rd := h.resolve_right hr
    have hbit : (1#32 <<< rd).getLsbD r = false := by
      simp only [BitVec.getLsbD_shiftLeft, BitVec.getLsbD_one, Bool.and_eq_false_iff, decide_eq_false_iff_not, Bool.not_eq_false',
        decide_eq_true_eq]
      omega
    unfold Thread.put Thread.setX
    split
    · rfl
    · cases v.2
      · simpa [Thread.poisonX, hr, hbit] using BitVec.lt_of_getLsbD
      · simp [Thread.poisonX, hr, hbit]

/-- A register written changes the scalar registers and their poison bits alone. -/
theorem put_shape (y : Thread) (rd : Nat) (v : PVal) : ∃ x xp, y.put rd v = { y with x := x, xp := xp } := by
  unfold Thread.put Thread.setX
  split
  · exact ⟨y.x, y.xp, rfl⟩
  · exact ⟨_, _, rfl⟩

/-! ### One thread changed -/

/-- The frame of a change to one thread, a free value drawn before it or not: the rest of the state, the other tiles, the rest of the
tile and its other threads are kept. -/
theorem modThread_frame (s : State) (k : Nat) {t th : Nat} (ht : t < 128) (hth : th < 128) (f : Thread → Thread) {u : State}
    (hu : u = State.modThread { s with free := k } t th f) :
    { u with tiles := s.tiles, free := s.free } = s ∧ (∀ t', t' ≠ t → u.tile t' = s.tile t') ∧
      { u.tile t with threads := (s.tile t).threads } = s.tile t ∧
      (∀ th', th' ≠ th → (u.tile t).thread th' = (s.tile t).thread th') ∧ (u.tile t).thread th = f ((s.tile t).thread th) := by
  have own : u.tile t = (s.tile t).modThread th f := by
    rw [hu]; exact (tile_modTile ..).trans (if_pos ⟨rfl, ht⟩)
  refine ⟨by rw [hu]; rfl, fun t' h => ?_, by rw [own]; rfl, fun th' h => ?_, ?_⟩
  · rw [hu]; exact (tile_modTile ..).trans (if_neg fun e => h e.1)
  · rw [own, thread_modThread, if_neg fun e => h e.1]
  · rw [own, thread_modThread, if_pos ⟨rfl, hth⟩]

/-! ### The instructions -/

/-- Every listed operation has a result. -/
theorem aluVal_listed {mod : Nat} (h : mod < 11) (a b k : Nat) : ∃ v, aluVal mod a b k = some v := by
  interval_cases mod <;> exact ⟨_, rfl⟩

/-- A listed operation writes RD and moves the program counter on. -/
theorem runAlu_listed (s : State) (t th rd : Nat) (a b : PVal) {mod : Nat} (h : mod < 11) :
    ∃ k v, s.runAlu t th mod rd a b = State.modThread { s with free := k } t th (fun y => (y.put rd v).next) := by
  have drawn : ∃ k, (if aluOpen mod b.1 then s.draw else (0, s)).2 = { s with free := k } := by
    split
    · exact ⟨_, rfl⟩
    · exact ⟨s.free, rfl⟩
  unfold State.runAlu
  generalize (if aluOpen mod b.1 then s.draw else (0, s)) = r at drawn ⊢
  obtain ⟨d, s1⟩ := r
  obtain ⟨k, rfl⟩ := drawn
  obtain ⟨v, hv⟩ := aluVal_listed h a.1 b.1 d
  exact ⟨k, _, by simp only [hv]; rfl⟩

/-- A listed condition has a value. -/
theorem condVal_listed {mod : Nat} (h : mod < 6) (a b : Nat) : ∃ c, condVal mod a b = some c := by
  interval_cases mod <;> exact ⟨_, rfl⟩

/-- A listed compare writes the condition flag and its poison bit and moves the program counter on. -/
theorem exec_compare_listed {s : State} {t th mod : Nat} (ra rb : Nat) (hi : s.canIssue t th = true) (h : mod < 6) :
    ∃ c p, exec (.compare t th mod ra rb) s = .next (s.modThread t th (fun y => { y.next with flag := c, flagP := p })) := by
  obtain ⟨v, hv⟩ := condVal_listed h (((s.tile t).thread th).operand ra).1 (((s.tile t).thread th).operand rb).1
  simp only [exec, execCompare, hv]
  rw [if_pos hi]
  exact ⟨_, _, rfl⟩

/-- A listed branch whose condition may be used changes the program counter alone. -/
theorem exec_branch_listed {s : State} {t th mod : Nat} (imm : Nat) (hi : s.canIssue t th = true) (h : mod < 3)
    (hp : mod = 0 ∨ ((s.tile t).thread th).flagP = false) :
    ∃ f : Nat → Nat, exec (.branch t th mod imm) s = .next (s.modThread t th (fun y => { y with pc := f y.pc })) := by
  have usable : ¬(mod ≠ 0 ∧ ((s.tile t).thread th).flagP = true) := by
    rcases hp with h | h <;> simp [h]
  simp only [exec, execBranch]
  rw [if_pos hi, if_neg (by omega), if_neg usable]
  split
  · exact ⟨fun pc => branchTarget pc imm, rfl⟩
  · exact ⟨fun pc => pc + 8, rfl⟩

/-! ### What each does to its thread -/

/-- A thread `y` after an instruction that found it as `x`: scalar registers, flag and program counter aside it is as it was, the
registers in `reg` are kept, and the flag is kept where `flag` says so. -/
structure KeepsThread (x y : Thread) (reg : Nat → Prop) (flag : Prop) : Prop where
  rest : { y with x := x.x, xp := x.xp, pc := x.pc, flag := x.flag, flagP := x.flagP } = x
  regs : ∀ r, reg r → y.getX r = x.getX r ∧ y.poisonX r = x.poisonX r
  flags : flag → y.flag = x.flag ∧ y.flagP = x.flagP

theorem keepsThread_put (x : Thread) (rd : Nat) (v : PVal) {reg : Nat → Prop} (flag : Prop) (h : ∀ r, reg r → r ≠ rd ∨ r = 0) :
    KeepsThread x (x.put rd v).next reg flag where
  rest := by obtain ⟨_, _, e⟩ := put_shape x rd v; rw [e]; rfl
  regs r hr := ⟨getX_put x v (h r hr), poisonX_put x v (h r hr)⟩
  flags _ := by obtain ⟨_, _, e⟩ := put_shape x rd v; rw [e]; exact ⟨rfl, rfl⟩

theorem keepsThread_flag (x : Thread) (c p : Bool) (reg : Nat → Prop) {flag : Prop} (h : ¬flag) :
    KeepsThread x { x.next with flag := c, flagP := p } reg flag :=
  ⟨rfl, fun _ _ => ⟨rfl, rfl⟩, fun hf => absurd hf h⟩

theorem keepsThread_pc (x : Thread) (d : Nat) (reg : Nat → Prop) (flag : Prop) : KeepsThread x { x with pc := d } reg flag :=
  ⟨rfl, fun _ _ => ⟨rfl, rfl⟩, fun _ => ⟨rfl, rfl⟩⟩

/-- Settles O56: each of the four changes one thread (`modThread_frame`), and of it what `KeepsThread` leaves open. -/
theorem registerInstructionsFrame : Obligations.RegisterInstructionsFrame := by
  unfold Obligations.RegisterInstructionsFrame
  intro s u t th mod rd ra rb imm i hi hkind hu
  obtain ⟨ht, hth⟩ := canIssue_lt hi
  suffices ∃ k f, exec i s = .next (State.modThread { s with free := k } t th f) ∧
      KeepsThread ((s.tile t).thread th) (f ((s.tile t).thread th))
        (fun r => r ≠ rd ∨ r = 0 ∨ i = .compare t th mod ra rb ∨ i = .branch t th mod imm) (i ≠ .compare t th mod ra rb) by
    obtain ⟨k, f, run, kept⟩ := this
    obtain ⟨state, tiles, tile, threads, own⟩ := modThread_frame s k ht hth f (Host.Outcome.next.inj (hu.symm.trans run))
    rw [← own] at kept
    exact ⟨state, tiles, tile, threads, kept.rest, fun r _ => kept.regs r, kept.flags⟩
  rcases hkind with ⟨rfl, h⟩ | ⟨rfl, h⟩ | ⟨rfl, h⟩ | ⟨rfl, h, hp⟩
  · obtain ⟨k, v, run⟩ := runAlu_listed s t th rd (((s.tile t).thread th).operand ra) (((s.tile t).thread th).operand rb) h
    exact ⟨k, _, congrArg Host.Outcome.next ((if_pos hi).trans run), keepsThread_put _ _ _ _ (by simp)⟩
  · obtain ⟨k, v, run⟩ := runAlu_listed s t th rd (((s.tile t).thread th).operand ra) (imm64 imm, false) h
    exact ⟨k, _, congrArg Host.Outcome.next ((if_pos hi).trans run), keepsThread_put _ _ _ _ (by simp)⟩
  · obtain ⟨c, p, run⟩ := exec_compare_listed ra rb hi h
    exact ⟨s.free, _, run, keepsThread_flag _ _ _ _ (by simp)⟩
  · obtain ⟨f, run⟩ := exec_branch_listed imm hi h hp
    exact ⟨s.free, _, run, keepsThread_pc _ _ _ _⟩

end Sys2Proof.Proofs
end

section
/-! PROOFS. Loads, stores and atomic operations (O24), and their alignment (O58). -/

namespace Sys2Proof.Proofs
open Sys2Proof Sys2Proof.Machine Sys2Proof.Laws

/-! ### The address of an access (R119 to R121, R181) -/

section
variable {s : State} {t th n al ea : Nat} {w : Bool}

theorem access_poisoned : s.access t th (ea, true) n al w = .error (s.poisonUse t th ((s.tile t).thread th).pc) :=
  if_pos rfl

theorem access_misaligned (h : ea % al ≠ 0) : s.access t th (ea, false) n al w = .error (s.threadFault t th 0x0006 ea) :=
  (if_neg Bool.false_ne_true).trans (if_pos h)

/-- An aligned address is the access's if it is in reach, and has the cause of its own fault if not. -/
theorem access_of_aligned (h : ea % al = 0) : s.access t th (ea, false) n al w =
    match s.reach t ea n w with
    | .error c => .error (s.threadFault t th c ea)
    | .ok a => .ok a :=
  (if_neg Bool.false_ne_true).trans (if_neg (not_not.mpr h))

/-- What an aligned access that faults raises is the cause its address has. -/
theorem reach_error_of_access {v : State} (h : ea % al = 0) (hv : s.access t th (ea, false) n al w = .error v) :
    ∃ c, s.reach t ea n w = .error c ∧ v = s.threadFault t th c ea := by
  rw [access_of_aligned h] at hv
  cases hr : s.reach t ea n w with
  | error c =>
    simp only [hr] at hv
    exact ⟨c, rfl, (Except.error.inj hv).symm⟩
  | ok a =>
    simp only [hr] at hv
    cases hv

end

/-! ### An access that faults -/

section
variable {s u : State} {t th : Nat} (hi : s.canIssue t th = true)
include hi

theorem exec_load_fault {mod ra imm : Nat} (rd : Nat) (ups : List Upset) (hm : mod < 16)
    (h : s.access t th (((s.tile t).thread th).effAddr ra imm) (2 ^ (mod % 4)) (2 ^ (mod % 4)) false = .error u) :
    exec (.load t th mod rd ra imm ups) s = .next u := by
  simp only [exec, execLoad, sizeOf2, h]
  rw [if_pos hi, if_neg (by omega)]

theorem exec_store_fault {mod ra imm : Nat} (rb : Nat) (hm : mod < 4)
    (h : s.access t th (((s.tile t).thread th).effAddr ra imm) (2 ^ mod) (2 ^ mod) true = .error u) :
    exec (.store t th mod ra rb imm) s = .next u := by
  simp only [exec, execStore, sizeOf2, Nat.mod_eq_of_lt hm, h]
  rw [if_pos hi, if_neg (by omega)]

end

/-- Settles O58: a misaligned access is the error `access_misaligned` gives, and an aligned one has no error but its address's own. -/
theorem accessesAreAligned : Obligations.AccessesAreAligned := by
  unfold Obligations.AccessesAreAligned
  refine ⟨?load, ?store, ?vector⟩
  case load =>
    rintro s t th mod rd ra imm a _ ups hi hm _ rfl ha
    exact ⟨fun mis => exec_load_fault hi rd ups hm (by rw [ha]; exact access_misaligned mis), fun al _ => reach_error_of_access al⟩
  case store =>
    rintro s t th mod ra rb imm a _ hi hm _ rfl ha
    exact ⟨fun mis => exec_store_fault hi rb hm (by rw [ha]; exact access_misaligned mis), fun al _ => reach_error_of_access al⟩
  case vector =>
    intro s t th rd ra imm a hi ha
    refine ⟨fun mis => ⟨?_, ?_⟩, fun al _ _ => reach_error_of_access al⟩
    · simp only [exec, execVectorLoad, ha, access_misaligned mis]
      rw [if_pos hi]
    · simp only [exec, execVectorStore, ha, access_misaligned mis]
      rw [if_pos hi]

/-! ### Loads, stores and atomics that reach their address -/

/-- A load of memory waits while a line it needs is held, and else writes RD from the bytes it finds. -/
theorem exec_load_memory {s : State} {t th mod ra imm a n : Nat} (rd : Nat) (ups : List Upset) (hi : s.canIssue t th = true)
    (hm : mod < 16) (hn : n = 2 ^ (mod % 4))
    (ha : s.access t th (((s.tile t).thread th).effAddr ra imm) n n false = .ok a) (hout : a < tileBlock t ∨ tileBlock t + 0x1000 ≤ a) :
    exec (.load t th mod rd ra imm ups) s = .next
      (if s.loadHeld t a n (bit mod 2 == 1) = true then s.hold [(a, n)]
      else
        let r := (ups.foldl State.strike s).threadLoad t a n (bit mod 2 == 1)
        let v := wordsVal r.2 (a % 8) n
        (r.1.modThread t th (fun x => (x.put rd (extend n (bit mod 3 == 1) v.1, v.2)).next)).crewProgress t) := by
  subst hn
  simp only [exec, execLoad, sizeOf2, ha]
  rw [if_pos hi, if_neg (by omega), if_neg (by omega)]
  rfl

/-- A register of the tile as a load reads it: the register at its word, or a free value where none is. -/
theorem readTileReg_eq {s s1 : State} {t a v : Nat} (n : Nat)
    (h : s.tileReg t ((a - tileBlock t) / 8 * 8) = some (v, s1) ∨
      (s.tileReg t ((a - tileBlock t) / 8 * 8) = none ∧ s.draw = (v, s1))) :
    s.readTileReg t a n = (v / 2 ^ (8 * ((a - tileBlock t) % 8)) % 2 ^ (8 * n), s1) := by
  rcases h with h | ⟨h, hd⟩
  · simp only [State.readTileReg, h]
  · simp only [State.readTileReg, h, hd]

/-- T0 and T1 perform atomic operations (R123). -/
theorem atomic_goes {a : Nat} (h : isT0 a = true ∨ isT1 a = true) : ¬(!(isT0 a || isT1 a)) = true := by
  rcases h with h | h <;> simp [h]

/-- Settles O24: an access that faults ends the instruction with its fault, and one that reaches its address takes the branch of that
address. -/
theorem loadsAndStoresComplete : Obligations.LoadsAndStoresComplete := by
  unfold Obligations.LoadsAndStoresComplete
  refine ⟨?load, ?loadHeld, ?loadOwn, ?store, ?storeOwn, ?atomic, ?atomicNot, ?access, ?loadFault, ?storeFault, ?atomicFault, ?unlisted⟩
  case load =>
    intro s s1 t th mod rd ra imm a n ups b hi hm hn ha hout hfree hload
    rw [exec_load_memory rd ups hi hm hn ha hout, if_neg (by rw [hfree]; decide), hload]
  case loadHeld =>
    intro s t th mod rd ra imm a n ups hi hm hn ha hout hheld
    rw [exec_load_memory rd ups hi hm hn ha hout, if_pos hheld]
  case loadOwn =>
    rintro s s1 t th mod rd ra imm a _ _ v ups hi hm rfl ha hlo hhi rfl hreg
    simp only [exec, execLoad, sizeOf2, ha, readTileReg_eq _ hreg]
    rw [if_pos hi, if_neg (by omega), if_pos ⟨hlo, hhi⟩]
  case store =>
    rintro s t th mod ra rb imm a _ _ hi hm rfl rfl ha hout
    simp only [exec, execStore, sizeOf2, Nat.mod_eq_of_lt hm, ha]
    rw [if_pos hi, if_neg (by omega), if_neg (by omega)]
    rfl
  case storeOwn =>
    rintro s s1 t th mod ra rb imm a _ v _ _ hi hm rfl rfl ha hlo hhi rfl hv
    simp only [exec, execStore, sizeOf2, Nat.mod_eq_of_lt hm, ha]
    rw [if_pos hi, if_neg (by omega), if_pos ⟨hlo, hhi⟩]
    rcases hv with ⟨sound, rfl, rfl⟩ | ⟨poisoned, drawn⟩
    · simp only [Thread.operand, sound]
      rfl
    · simp only [Thread.operand, poisoned, drawn, if_true]
  case atomic =>
    rintro s _ _ _ t th mod rd ra rb a _ _ _ _ _ _ _ hi hm rfl rfl rfl ha hhome hfree rfl rfl rfl rfl rfl rfl rfl
    simp only [exec, execAtomic, ha]
    rw [if_pos hi, if_neg (by omega), if_neg (atomic_goes hhome), if_neg (by rw [hfree]; decide)]
    rfl
  case atomicNot =>
    rintro s t th mod rd ra rb a _ _ hi hm rfl rfl ha
    simp only [exec, execAtomic, ha]
    rw [if_pos hi, if_neg (by omega)]
    refine ⟨fun ⟨notT0, notT1⟩ => ?_, fun ⟨home, held⟩ => ?_⟩
    · rw [if_pos (by simp [notT0, notT1])]
    · rw [if_neg (atomic_goes home), if_pos held]
  case access =>
    intro s t th n ea w
    refine ⟨access_poisoned, access_misaligned, fun c hal hr => ?_⟩
    rw [access_of_aligned hal, hr]
  case loadFault =>
    rintro s u t th mod rd ra imm _ ups hi hm rfl ha
    exact exec_load_fault hi rd ups hm ha
  case storeFault =>
    rintro s u t th mod ra rb imm _ hi hm rfl ha
    exact exec_store_fault hi rb hm ha
  case atomicFault =>
    rintro s u t th mod rd ra rb _ hi hm rfl ha
    simp only [exec, execAtomic, ha]
    rw [if_pos hi, if_neg (by omega)]
  case unlisted =>
    intro s t th mod rd ra rb imm ups hi
    exact ⟨fun h => congrArg Host.Outcome.next ((if_pos hi).trans (if_pos h)),
      fun h => congrArg Host.Outcome.next ((if_pos hi).trans (if_pos h)),
      fun h => congrArg Host.Outcome.next ((if_pos hi).trans (if_pos h))⟩

end Sys2Proof.Proofs
end

section
/-! PROOFS. The bow engines, their buffers and the fetch deadlines (O29, O30). -/

namespace Sys2Proof.Proofs
open Sys2Proof Sys2Proof.Machine Sys2Proof.Laws

/-! ### The bow engines (R126 to R129) -/

theorem engineOf_lt {e : Nat} (h : e < 2) : engineOf e = some e := if_pos h

/-! ### Transfers (R126, R129, R133) -/

/-- A transfer of a slot under way on a working tile goes on. -/
theorem transfer_goes {s : State} {t slot : Nat} {st : SlotState} (hst : (vget Slot.reset (s.tile t).slots slot).state = st)
    (hslot : slot < 64) (hrun : s.tileRuns t = true) :
    ¬((vget Slot.reset (s.tile t).slots slot).state != st || decide (64 ≤ slot) || !s.tileRuns t) = true := by
  simp [hst, hslot, hrun]

/-- Settles O29: each instruction and each event takes its one branch. -/
theorem bowsComplete : Obligations.BowsComplete := by
  unfold Obligations.BowsComplete
  refine ⟨?start, ?wait, ?descriptor, ?fill, ?drain, ?tearing⟩
  case start =>
    rintro s _ t th ra rb _ _ hi rfl ha hb rfl he rfl
    simp only [exec, execBowStart, Thread.operand, ha, hb, engineOf_lt he, bne_iff_ne]
    rw [if_pos hi, if_neg (by decide)]
  case wait =>
    rintro s t th rb _ _ hi rfl hb rfl he
    simp only [exec, execBowWait, Thread.operand, hb, engineOf_lt he]
    rw [if_pos hi, if_neg (by decide)]
    rfl
  case descriptor =>
    rintro s s1 t e ups j _ l d hj he hu hc rfl hst hl hr
    simp only [exec, execBowDescriptor, hj, hl, beq_iff_eq, ← hr]
    rw [if_neg (by simp [he, hu, hc])]
    rcases hst with h | h | h <;> simp only [h]
  case fill =>
    rintro s _ t slot _ _ rows rfl hst hslot hrun htear hback rfl hrows rfl
    simp only [exec, execFillComplete, hrows]
    rw [if_neg (transfer_goes hst hslot hrun), if_neg (by rw [htear]; decide), if_neg (by rw [hback]; decide)]
  case drain =>
    rintro s t slot _ _ rows rfl hst hslot hrun htear hback rfl hrows
    simp only [exec, execDrainComplete, hrows]
    rw [if_neg (transfer_goes hst hslot hrun), if_neg (by rw [htear]; decide), if_neg (by rw [hback]; decide)]
  case tearing =>
    intro s t slot hslot hrun htear
    refine ⟨fun hst => congrArg Host.Outcome.next ?_, fun hst => congrArg Host.Outcome.next ?_⟩
    · exact (if_neg (transfer_goes hst hslot hrun)).trans (if_pos htear)
    · exact (if_neg (transfer_goes hst hslot hrun)).trans (if_pos htear)

/-! ### The buffers (R128, R129, R155 to R157) -/

/-- Settles O30: each instruction takes the branch of its slot's state. -/
theorem buffersComplete : Obligations.BuffersComplete := by
  unfold Obligations.BuffersComplete
  refine ⟨?wait, ?post, ?release, ?beyond, ?stepDone, ?deadline⟩
  case wait =>
    intro s t th rd i hi hlt
    simp only [exec, execBufWait]
    rw [if_pos hi, if_neg (by omega)]
    cases (vget Slot.reset (s.tile t).slots i).state <;> rfl
  case post =>
    intro s t th i hi hlt
    simp only [exec, execBufPost, bne_iff_ne, ite_not]
    rw [if_pos hi, if_neg (by omega)]
  case release =>
    intro s t th i hi hlt
    simp only [exec, execBufRelease, beq_iff_eq]
    rw [if_pos hi, if_neg (by omega)]
  case beyond =>
    intro s t th rd i hi hge
    exact ⟨congrArg Host.Outcome.next ((if_pos hi).trans (if_pos hge)), congrArg Host.Outcome.next ((if_pos hi).trans (if_pos hge)),
      congrArg Host.Outcome.next ((if_pos hi).trans (if_pos hge))⟩
  case stepDone =>
    intro s t th hi
    exact congrArg Host.Outcome.next (if_pos hi)
  case deadline =>
    intro s t slot hlt hrun hpast
    exact congrArg Host.Outcome.next (if_pos (by simp [hlt, hrun, hpast]))

end Sys2Proof.Proofs
end

section
/-! PROOFS. Fences, flushes, barriers, semaphores and the end of a thread (O31). -/

namespace Sys2Proof.Proofs
open Sys2Proof Sys2Proof.Machine Sys2Proof.Laws

/-- A semaphore that exists is granted unless it is taken, and waited for when it is (R296, R297). -/
theorem exec_semAcquire {s : State} {t th ra : Nat} {m : Sem} (rd : Nat) (hi : s.canIssue t th = true)
    (hp : ((s.tile t).thread th).poisonX ra = false) (hm : s.sem (((s.tile t).thread th).getX ra) = some m) :
    exec (.semAcquire t th rd ra) s = .next
      (let i := ((s.tile t).thread th).getX ra
      let u := s.modThread t th (fun h => { h with block := .semAcquire i rd })
      let v := u.modSem i (fun y => { y with waiters := y.waiters ++ [(t, th)] })
      if m.st = 1 then (State.boost 4096 v i (v.waiterClass (t, th))).schedule
      else u.grantSem i (t, th) (if m.st = 2 then 0x800D else stDone)) := by
  simp only [exec, execSemAcquire, Thread.operand, hp, hm]
  rw [if_pos hi, if_neg (by decide)]

/-- Settles O31: each instruction and each event takes its one branch. -/
theorem syncComplete : Obligations.SyncComplete := by
  unfold Obligations.SyncComplete
  refine ⟨?fenceTile, ?fenceDev, ?flush, ?inval, ?barrier, ?late, ?grant, ?waits, ?release, ?boost, ?exit, ?ack⟩
  case fenceTile => exact fun s t th hi => congrArg Host.Outcome.next (if_pos hi)
  case fenceDev =>
    rintro s _ t th hi rfl
    exact congrArg Host.Outcome.next (if_pos hi)
  case flush =>
    rintro s _ t th ra rb _ _ hi rfl ha hb rfl rfl
    simp only [exec, execFlush, Thread.operand, ha, hb, List.isEmpty_iff]
    rw [if_pos hi, if_neg (by decide)]
    rfl
  case inval =>
    rintro s t th ra rb _ hi rfl ha hb
    simp only [exec, execInval, Thread.operand, ha, hb]
    rw [if_pos hi, if_neg (by decide)]
    rfl
  case barrier => exact fun s t th hi => congrArg Host.Outcome.next (if_pos hi)
  case late => exact fun s t th rd imm hi => congrArg Host.Outcome.next (if_pos hi)
  case grant =>
    rintro s t th rd ra _ _ m hi rfl hp rfl hm hst
    rw [exec_semAcquire rd hi hp hm]
    exact congrArg Host.Outcome.next (if_neg hst)
  case waits =>
    rintro s _ t th rd ra _ _ m hi rfl hp rfl hm hst rfl
    rw [exec_semAcquire rd hi hp hm]
    exact congrArg Host.Outcome.next (if_pos hst)
  case release =>
    rintro s _ t th ra _ _ m hi rfl hp rfl hm rfl
    simp only [exec, execSemRelease, Thread.operand, hp, hm]
    rw [if_pos hi, if_neg (by decide)]
  case boost =>
    intro s sem b hb
    have found : s.sched.boosts.find? (fun b => b.sem == sem && s.since b.since (us 50)) = some b := hb
    simp only [exec, execBoostExpired, found]
  case exit =>
    rintro s _ t th hi rfl
    exact congrArg Host.Outcome.next (if_pos hi)
  case ack =>
    intro s t i w hw ht htear hfirst
    simp only [exec, execWriteAcknowledged, hw]
    rw [if_neg (by simp [ht, htear, hfirst])]

end Sys2Proof.Proofs
end

section
/-! PROOFS. The events of a step: its end, spill, resumption and teardown (O32). -/

namespace Sys2Proof.Proofs
open Sys2Proof Sys2Proof.Machine Sys2Proof.Laws

/-- The end of a placed step whose crew has ended its part: a golden pass goes to its judgement, a safety-relevant step to its golden
pass, and another step ends (R114, R405). -/
theorem exec_stepEnd {s : State} {ctx : Nat} {j : Job} {m : Model} {p : Placement} (hj : s.jobOf ctx = some j) (hi : j.issues = true)
    (he : j.tiles.all (fun t => (s.tile t).partEnded) = true) (hm : s.model j.model = some m)
    (hp : s.placementOf j j.placement = some p) :
    exec (.stepEnd ctx) s = .next
      (let u := (s.countAbandoned j).modJob j.uid (fun j =>
        { j with state := .golden, inGolden := true, goldenFlags := some 0, arrived := [], layerArrived := [] })
      if j.inGolden = true then
        ((s.countAbandoned j).modJob j.uid (fun j => { j with state := .judging })).tryVerdict j.uid
      else if m.safe.isSome = true then (match u.job j.uid with | some k => u.beginPass k m p k.tiles | none => u)
      else (s.countAbandoned j).endStep j false) := by
  simp only [exec, execStepEnd, hj, hi, he, hm, hp, Bool.and_self, if_true]
  cases j.inGolden <;> cases m.safe.isSome <;> rfl

/-- Settles O32: each event takes its one branch. -/
theorem stepEventsComplete : Obligations.StepEventsComplete := by
  unfold Obligations.StepEventsComplete
  refine ⟨?ends, ?golden, ?judged, ?drained, ?saved, ?resumed, ?torn⟩
  case ends =>
    intro s ctx j m p hj hi he hm hp hordinary hg
    simp only [exec_stepEnd hj hi he hm hp, hg, hordinary]
    rfl
  case golden =>
    rintro s _ ctx j k m p hj hi he hm hp hsafe hg rfl hk
    simp only [exec_stepEnd hj hi he hm hp, hg, Option.isSome_iff_ne_none.mpr hsafe, hk]
    rfl
  case judged =>
    intro s ctx j m p hj hi he hm hp hg
    simp only [exec_stepEnd hj hi he hm hp, hg, if_true]
  case drained =>
    intro s ctx j hj hst hd
    simp only [exec, execSpillDrainComplete, hj]
    rw [if_pos ⟨hst, hd⟩]
  case saved =>
    rintro s _ ctx j p hj hst hp rfl
    simp only [exec, execSpillSaveComplete, hj, hp]
    rw [if_pos hst]
  case resumed =>
    rintro s _ ctx j p hj hst hon hp rfl
    simp only [exec, execResumeIssue, hj, hp]
    rw [if_pos ⟨hst, hon⟩]
  case torn =>
    intro s ctx cause j hj hst
    simp only [exec, execTeardownComplete, hj, hst]

end Sys2Proof.Proofs
end

section
/-! PROOFS. The memory opcodes (O5). -/

namespace Sys2Proof.Proofs
open Sys2Proof Sys2Proof.Machine Sys2Proof.Laws

theorem firstBad_eq_none {l : List (Bool × Nat)} : firstBad l = none ↔ ∀ x ∈ l, x.1 = false := by
  induction l with
  | nil => simp [firstBad]
  | cons x l ih =>
    obtain ⟨b, o⟩ := x
    cases b <;> simp [firstBad, badAt, ih]

/-! ### Rows whose ranges nothing holds, and bytes delivered (R152, R432, R437) -/

theorem runs_opcode {s : State} {op q k : Nat} {c : Cmd} (h : s.runs op q k c) : c.opcode = op := by
  obtain ⟨-, -, hop, -, -⟩ := h
  exact hop

/-- A memory command none of whose ranges is held has the row of any command. -/
theorem memRow_free {s : State} {op q k : Nat} {c : Cmd} {check : State → Cmd → Check10} {body : State → Cmd → State × Res}
    (h : s.runs op q k c) (hfree : c.ranges.any (fun r => s.heldRange r.1 r.2) = false) :
    s.memRow op check body q k = s.opcodeRow op false check body q k := by
  obtain ⟨hc, -, -, -, -⟩ := h
  exact if_neg (by simp only [State.memHeld, hc, hfree, Bool.and_false, Bool.false_eq_true, not_false_iff])

/-- The same of a command with a source and a destination. -/
theorem memRow_free_pair {s : State} {op q k a b n : Nat} {c : Cmd} {check : State → Cmd → Check10}
    {body : State → Cmd → State × Res} (h : s.runs op q k c) (hr : c.ranges = [(a, n), (b, n)]) (ha : s.heldRange a n = false) (hb : s.heldRange b n = false) :
    s.memRow op check body q k = s.opcodeRow op false check body q k :=
  memRow_free h (by simp [hr, ha, hb])

/-- A running command that delivers bytes completes, is refused for the supply, or goes on with its page writes. -/
theorem opcodeRow_deliver {s t : State} {op q k dst : Nat} {c : Cmd} {b : List PByte} {cheap : Bool}
    {check : State → Cmd → Check10} {body : State → Cmd → State × Res} (h : s.runs op q k c) (hc : check s c = none)
    (hb : body s c = t.deliver c dst b) :
    s.opcodeRow op cheap check body q k = .next
      (if isNvs dst = false then (t.storeBytes dst b).completed c 0 0 b.length
        else if c.sag = true ∨ t.sagging = true then t.completed c 0x8009 0 0
        else (t.startWrite c.uid dst b).modCmd q k (fun c => { c with phase := .running })) := by
  rw [State.deliver] at hb
  cases hn : isNvs dst with
  | false =>
    rw [hn, if_neg Bool.false_ne_true] at hb
    rw [if_pos rfl]
    exact opcodeRow_reply h hc hb
  | true =>
    rw [hn, if_pos rfl] at hb
    rw [if_neg (by decide)]
    by_cases hs : c.sag = true ∨ t.sagging = true
    · rw [if_pos hs]
      exact opcodeRow_reply h hc (hb.trans (if_pos (Bool.or_eq_true_iff.mpr hs)))
    · rw [if_neg hs]
      exact opcodeRow_going h hc (hb.trans (if_neg (mt Bool.or_eq_true_iff.mp hs)))

/-! ### mem.push (R182) -/

theorem opcodeRow_memPush {s u : State} {q k : Nat} {ups : List Upset} {c : Cmd} {r : State × List PByte} (h : s.runs 0x0202 q k c)
    (hc : chkMemPush s c = none) (hr : r = s.readWith ups (c.p 0 8) (c.p 16 4)) (hu : u = r.1.storeBytes (c.p 8 8) r.2) :
    s.opcodeRow 0x0202 false chkMemPush (runMemPush ups) q k = .next
      (match poisonedWords (c.p 8 8) (r.2.map some) with
        | [] => u.completed c 0 0 r.2.length
        | w :: l => ((u.bump (integCtr 0x38) (l.length + 1)).raise 0x0202 92 0 w).completed c 0x8006
            (min (l.length + 1) 0xFFFFFFFF) 0) := by
  subst hr hu
  cases hp : poisonedWords (c.p 8 8) ((s.readWith ups (c.p 0 8) (c.p 16 4)).2.map some) with
  | nil => exact opcodeRow_reply h hc (by simp only [runMemPush, hp]; rfl)
  | cons w l => exact opcodeRow_reply h hc (by simp only [runMemPush, hp]; rfl)

/-! ### mem.mode (R174) -/

/-- For each 16 MiB region of a range of T1, whether it is in line mode. -/
def regionLines (s : State) (a n : Nat) : List Bool :=
  (List.range (n / 2 ^ 24)).map (fun i => s.store.lineRegions.contains ((a - t1Base) / 2 ^ 24 + i))

/-- The mode that mem.mode finds a range in, as it replies it: 1 line mode, 0 byte mode, 2 some of each. -/
def modeBefore (s : State) (a n : Nat) : Nat :=
  if (regionLines s a n).all id then 1 else if (regionLines s a n).any id then 2 else 0

theorem all_regionLines (s : State) (a n : Nat) :
    (regionLines s a n).all id = true ↔ ∀ i, i < n / 2 ^ 24 → (a - t1Base) / 2 ^ 24 + i ∈ s.store.lineRegions := by
  simp [regionLines]

theorem any_regionLines (s : State) (a n : Nat) :
    (regionLines s a n).any id = false ↔ ∀ i, i < n / 2 ^ 24 → (a - t1Base) / 2 ^ 24 + i ∉ s.store.lineRegions := by
  simp [regionLines]

theorem modeBefore_eq_one {s : State} {a n : Nat} :
    modeBefore s a n = 1 ↔ ∀ i, i < n / 2 ^ 24 → (a - t1Base) / 2 ^ 24 + i ∈ s.store.lineRegions := by
  rw [← all_regionLines, modeBefore]
  split
  · next h => simp [h]
  · next h => split <;> simp [h]

/-- Of a range that holds a region at all. -/
theorem modeBefore_eq_zero {s : State} {a n : Nat} (hn : 0 < n / 2 ^ 24) :
    modeBefore s a n = 0 ↔ ∀ i, i < n / 2 ^ 24 → (a - t1Base) / 2 ^ 24 + i ∉ s.store.lineRegions := by
  rw [← any_regionLines, modeBefore]
  split
  · next h =>
    have anyLine : (regionLines s a n).any id = true := List.any_eq_true.mpr
      ⟨true, by simpa [regionLines] using ⟨0, hn, (all_regionLines s a n).mp h 0 hn⟩, rfl⟩
    simp [anyLine]
  · split <;> simp [*]

theorem chkMemMode_regions {s : State} {c : Cmd} (h : chkMemMode s c = none) : 0 < c.p 8 8 / 2 ^ 24 := by
  simp only [chkMemMode, firstBad_eq_none, List.forall_mem_cons, decide_eq_false_iff_not] at h
  obtain ⟨-, hlen, -⟩ := h
  omega

theorem opcodeRow_memMode {s : State} {q k : Nat} {c : Cmd} (h : s.runs 0x0205 q k c) (hc : chkMemMode s c = none) :
    s.opcodeRow 0x0205 false chkMemMode runMemMode q k = .next
      (if s.store.converts.any (fun x => decide (x.base < c.p 0 8 + c.p 8 8 ∧ c.p 0 8 < x.base + x.len)) = true
        then s.completed c 0x8016 0 0
        else State.modCmd { s with store := { s.store with converts :=
          s.store.converts ++ [⟨c.uid, c.p 0 8, c.p 8 8, c.p 16 1, modeBefore s (c.p 0 8) (c.p 8 8), 0⟩] } } q k
            (fun c => { c with phase := .running })) := by
  split
  · next hover => exact opcodeRow_reply h hc (if_pos hover)
  · next hover => exact opcodeRow_going h hc (if_neg hover)

/-- The first row of mem.mode is that of any command. -/
theorem exec_memMode_ready {s : State} {q k : Nat} {c : Cmd} (h : s.runs 0x0205 q k c) :
    exec (.memMode q k) s = s.opcodeRow 0x0205 false chkMemMode runMemMode q k := by
  obtain ⟨hc, hready, -, -, -⟩ := h
  simp only [exec, execMemMode, hc]
  exact if_neg (by simp [hready])

/-! ### mem.spillarea (R149) -/

/-- No home copy of a model lies in a spill area, and no page has a slot in the present one: mem.spillarea sets it. -/
theorem runMemSpillarea_eq {s : State} {c : Cmd} (hslots : s.boat.slots = [])
    (hhomes : c.p 8 8 ≠ 0 → s.boat.nvs.all (fun e => decide ((e.first + e.count) * 4096 ≤ c.p 0 8 - nvsBaseAddr ∨
      c.p 0 8 - nvsBaseAddr + c.p 8 8 ≤ e.first * 4096)) = true) :
    runMemSpillarea s c = (State.spillBackground { s with tier := { s.tier with
      spillBase := if c.p 8 8 = 0 then 0 else (c.p 0 8 - nvsBaseAddr) / 16384, spillPages := c.p 8 8 / 16384 } }, .done (c.p 8 8)) := by
  refine (if_neg ?_).trans (if_neg (by simp [hslots]))
  rintro ⟨hlen, hany⟩
  obtain ⟨e, he, hover⟩ := List.any_eq_true.mp hany
  have apart := of_decide_eq_true (List.all_eq_true.mp (hhomes hlen) e he)
  have := of_decide_eq_true hover
  omega

/-- Settles O5: each opcode's row is that of any command while its ranges are free; pull, copy and fill deliver their bytes. -/
theorem memoryOpcodesComplete : Obligations.MemoryOpcodesComplete := by
  unfold Obligations.MemoryOpcodesComplete
  refine ⟨?pull, ?push, ?copy, ?fill, ?mode, ?modeOn, ?scrub, ?spillOff, ?spillSet⟩
  case pull =>
    rintro s q k ups c _ h hc hsrc hdst rfl
    exact (memRow_free_pair h (by simp only [Cmd.ranges, runs_opcode h]) hsrc hdst).trans (opcodeRow_deliver h hc rfl)
  case push =>
    intro s u q k ups c r h hc hsrc hdst hr hu
    exact (memRow_free_pair h (by simp only [Cmd.ranges, runs_opcode h]) hsrc hdst).trans (opcodeRow_memPush h hc hr hu)
  case copy =>
    rintro s q k ups c _ h hc hsrc hdst rfl
    exact (memRow_free_pair h (by simp only [Cmd.ranges, runs_opcode h]) hsrc hdst).trans (opcodeRow_deliver h hc rfl)
  case fill =>
    rintro s q k c _ h hc hdst rfl
    exact (memRow_free h (by simp [Cmd.ranges, runs_opcode h, hdst])).trans (opcodeRow_deliver h hc rfl)
  case mode =>
    intro s q k c h hc
    exact ⟨modeBefore s (c.p 0 8) (c.p 8 8), (exec_memMode_ready h).trans (opcodeRow_memMode h hc), modeBefore_eq_one,
      modeBefore_eq_zero (chkMemMode_regions hc)⟩
  case modeOn =>
    intro s q k c x hc hop hrun hx
    simp only [exec, execMemMode, hc, hx]
    rw [if_pos ⟨hop, hrun⟩]
  case scrub =>
    intro s q k c h hon
    exact opcodeRow_reply h (firstBad_eq_none.mpr (by simpa using hon)) rfl
  case spillOff =>
    intro s q k c h hslots hlen
    exact opcodeRow_reply h (if_pos hlen) ((runMemSpillarea_eq hslots (absurd hlen)).trans (by simp [hlen, Res.done, stDone]))
  case spillSet =>
    intro s q k c h hslots hlen hbase hunit hmax hnvs hpool hhomes
    have passes : chkMemSpillarea s c = none :=
      (if_neg hlen).trans (firstBad_eq_none.mpr (by simpa [hbase, hunit, hnvs, hpool] using hmax))
    exact opcodeRow_reply h passes ((runMemSpillarea_eq hslots fun _ => hhomes).trans (by rw [if_neg hlen]; rfl))

end Sys2Proof.Proofs
end

section
/-! PROOFS. The model opcodes (O6). -/

namespace Sys2Proof.Proofs
open Sys2Proof Sys2Proof.Machine Sys2Proof.Laws

/-! ### model.load (R162, R272) -/

/-- An image that passes every check is loaded, with the supply above the warning level. -/
theorem runModelLoad_eq {s r : State} {c : Cmd} {b : List Byte} (hr : r = s.noteRead (c.p 0 8) (c.p 8 8))
    (hb : b = vals (r.peek (c.p 0 8) (c.p 8 8))) (hlen : r.lenOk c = true)
    (hclean : (r.peek (c.p 0 8) (c.p 8 8)).any PByte.p = false) (hform : imgFault b 1 = none) (hsigned : r.signed b = true)
    (hcontent : contentFault b = none) (hhot : c.p 16 1 = 0 → (imgPlacements b).any (fun p => p.hot) = true)
    (hcmd : c.sag = false) (hsag : r.sagging = false) : runModelLoad s c = r.loadImage c.uid b (c.p 16 1) := by
  subst hr hb
  have tier : ¬(c.p 16 1 = 0 ∧
      (!(imgPlacements (vals ((s.noteRead (c.p 0 8) (c.p 8 8)).peek (c.p 0 8) (c.p 8 8)))).any (fun p => p.hot)) = true) :=
    fun ⟨h0, hno⟩ => by simp [hhot h0] at hno
  simp only [runModelLoad, hlen, hclean, hform, hsigned, hcontent, hcmd, hsag, if_neg tier, Bool.not_true, Bool.or_self,
    Bool.false_eq_true, if_false]

/-! ### model.swap (R274) -/

/-- Two models that no swap names and that may take each other's place. -/
theorem runModelSwap_eq {s : State} {c : Cmd} {old new : Nat} {a b : Model} (ho : old = s.modelId (c.p 0 4))
    (hn : new = s.modelId (c.p 4 4)) (ha : s.model old = some a) (hb : s.model new = some b) (hne : old ≠ new)
    (hcomp : a.compatible b = true)
    (hfree : ∀ p ∈ s.boat.models, ∀ h, p.2.swapTo = some h → p.1 ≠ old ∧ p.1 ≠ new ∧ h ≠ old ∧ h ≠ new) :
    runModelSwap s c = (s.modModel old (fun m => { m with swapTo := some new, swapUid := c.uid }), .going) := by
  subst ho hn
  have unnamed : ∀ x, (x = s.modelId (c.p 0 4) ∨ x = s.modelId (c.p 4 4)) →
      s.boat.models.any (fun p => p.2.swapTo.isSome && (p.1 == x || p.2.swapTo == some x)) = false := by
    intro x hx
    refine List.any_eq_false.mpr fun p hp => ?_
    cases hs : p.2.swapTo with
    | none => simp
    | some h =>
      obtain ⟨h1, h2, h3, h4⟩ := hfree p hp h hs
      rcases hx with rfl | rfl <;> simp [*]
  simp only [runModelSwap, ha, hb, if_neg hne, unnamed _ (.inl rfl), unnamed _ (.inr rfl), hcomp, Bool.not_true, Bool.or_self,
    Bool.false_eq_true, if_false]

/-! ### model.tier (R162) -/

/-- What model.tier answers of a model that may go to a tier: done where it is there, waiting while it is in use, else moved at once. -/
theorem runModelTier_eq {s : State} {c : Cmd} {m : Model} (hm : s.model (c.p 0 4) = some m)
    (hhot : c.p 4 1 = 0 → m.hotPlacement.isSome = true) (hpin : m.pinned = true → c.p 4 1 ≤ m.state.tier) :
    runModelTier s c =
      if m.state.tier = c.p 4 1 then (s, .done (c.p 4 1))
      else if s.modelBusy (c.p 0 4) m = true then s.waitModel c (c.p 0 4) (c.p 4 1)
      else ((s.tierNow (c.p 0 4) (c.p 4 1)).1.schedule, .reply (s.tierNow (c.p 0 4) (c.p 4 1)).2 0 (c.p 4 1)) := by
  have placed : ¬(c.p 4 1 = 0 ∧ m.hotPlacement.isNone = true) :=
    fun ⟨h0, hno⟩ => Bool.false_ne_true ((Option.isNone_eq_false_iff.mpr (hhot h0)).symm.trans hno)
  have allowed : m.pinRefuses (c.p 4 1) = false := by
    cases hp : m.pinned with
    | false => simp [Model.pinRefuses, hp]
    | true => simp [Model.pinRefuses, hpin hp]
  simp only [runModelTier, hm, if_neg placed, allowed, Bool.false_eq_true, if_false]

/-- Settles O6: each opcode's checks pass, and what its body answers is one of its branches. -/
theorem modelOpcodesComplete : Obligations.ModelOpcodesComplete := by
  unfold Obligations.ModelOpcodesComplete
  refine ⟨?load, ?evict, ?pin, ?swap, ?effect, ?tier, ?info⟩
  case load =>
    intro s r q k c b h hok htier hr hb hlen hclean hform hsigned hcontent hhot hcmd hsag
    have passes : chkModelLoad s c = none := firstBad_eq_none.mpr (by simp [hok, htier])
    have answers := runModelLoad_eq hr hb hlen hclean hform hsigned hcontent hhot hcmd hsag
    rcases hres : r.loadImage c.uid b (c.p 16 1) with ⟨s', _ | _⟩
    · exact opcodeRow_reply h passes (answers.trans hres)
    · exact opcodeRow_going h passes (answers.trans hres)
  case evict =>
    intro s q k c m h hm hpin
    cases hbusy : s.modelBusy (c.p 0 4) m with
    | false => exact opcodeRow_reply h rfl (by simp [runModelEvict, hm, hpin, hbusy, Res.done, stDone])
    | true => exact opcodeRow_going h rfl (by simp [runModelEvict, hm, hpin, hbusy, State.waitModel])
  case pin =>
    intro s q k c m h hm hon
    exact opcodeRow_reply h (firstBad_eq_none.mpr (by simp [hon])) (by simp [runModelPin, hm, Res.done, stDone, b2n])
  case swap =>
    intro s q k old new c a b h ho hn ha hb hne hcomp hfree
    exact opcodeRow_going h rfl (runModelSwap_eq ho hn ha hb hne hcomp hfree)
  case effect =>
    rintro s _ old new a b ha hswap huse hb rfl
    refine congrArg Host.Outcome.next ?_
    simp only [ha, hswap, hb, huse, ne_eq, not_true, if_false]
    cases s.lateUid a.swapUid <;> rfl
  case tier =>
    intro s q k c m h hm htier hhot hpin
    have passes : chkModelTier s c = none := firstBad_eq_none.mpr (by simp [htier])
    have answers := runModelTier_eq hm hhot hpin
    split
    · next hsame => exact opcodeRow_reply h passes (answers.trans (if_pos hsame))
    · next hmoves =>
      rw [if_neg hmoves] at answers
      split
      · next hbusy => exact opcodeRow_going h passes (answers.trans (if_pos hbusy))
      · next hidle => exact opcodeRow_reply h passes (answers.trans (if_neg hidle))
  case info =>
    intro s q k c m h hm hdest
    exact opcodeRow_reply h (firstBad_eq_none.mpr (by simp [hdest])) (by simp only [runModelInfo, hm]; rfl)

end Sys2Proof.Proofs
end

section
/-! PROOFS. Line frames, and the events of the stacks (O33, O34). -/

namespace Sys2Proof.Proofs
open Sys2Proof Sys2Proof.Machine

/-! ### Line frames (R142, R166, R431, R432) -/

/-- Settles O33: the frame of a usable channel takes the branch of what it delivers. -/
theorem lineFramesComplete : Obligations.LineFramesComplete := by
  unfold Obligations.LineFramesComplete
  refine ⟨?delivered, ?inError⟩
  case delivered =>
    rintro s _ a _ ty n write errs ups b rfl hregion hchan husable hdom hdown hframe rfl
    refine congrArg Host.Outcome.next ?_
    simp only [hregion, hchan, husable, hdom, hdown, hframe, Bool.not_false, Bool.and_self, if_true]
    cases write <;> rfl
  case inError =>
    rintro s a _ ty n _ write errs ups rfl hregion hchan husable hdom hdown rfl hframe
    refine congrArg Host.Outcome.next ?_
    simp only [hregion, hchan, husable, hdom, hdown, hframe, Bool.not_false, Bool.and_self, if_true]

/-! ### The stacks' events (R143, R146, R147, R183) -/

/-- Settles O34: each event takes its one branch. -/
theorem stackEventsComplete : Obligations.StackEventsComplete := by
  unfold Obligations.StackEventsComplete
  refine ⟨fun s stack => rfl, ?durable, ?patrol⟩
  case durable =>
    intro s page w hw
    simp only [exec, execNvsPageWriteDurable, hw]
  case patrol =>
    rintro s _ _ page corrected _ hpage hdom rfl rfl rfl
    refine congrArg Host.Outcome.next ((if_neg (by simpa [hdom] using hpage)).trans ?_)
    simp only [Bool.not_eq_true']
    rfl

end Sys2Proof.Proofs
end

section
/-! PROOFS. The scalar operations, compares and branches (O23). -/

namespace Sys2Proof.Proofs
open Sys2Proof Sys2Proof.Machine Sys2Proof.Laws

/-! ### The model's numbers as bit vectors -/

/-- A number sign-extended from `w` bits is its bit vector read as two's complement. -/
theorem sext_eq_toInt {w : Nat} (h : 0 < w) (v : Nat) : sext w v = (BitVec.ofNat w v).toInt := by
  have half : 2 ^ w = 2 * 2 ^ (w - 1) := by rw [← Nat.pow_succ', Nat.succ_eq_add_one, Nat.sub_add_cancel h]
  rw [BitVec.toInt_eq_toNat_cond, BitVec.toNat_ofNat]
  by_cases hv : v % 2 ^ w < 2 ^ (w - 1)
  · exact (if_pos hv).trans (if_pos (by omega)).symm
  · exact (if_neg hv).trans (if_neg (by omega)).symm

theorem sext_toNat (a : BitVec 64) : sext 64 a.toNat = a.toInt := by
  rw [sext_eq_toInt (by decide), BitVec.ofNat_toNat, BitVec.setWidth_eq]

theorem wrap_eq_ofInt (w : Nat) (i : Int) : wrap w i = (BitVec.ofInt w i).toNat := (BitVec.toNat_ofInt ..).symm

theorem imm64_eq_signExtend (imm : Nat) : imm64 imm = ((BitVec.ofNat 32 imm).signExtend 64).toNat := by
  rw [imm64, sext_eq_toInt (by decide), wrap_eq_ofInt]; rfl

/-- A scalar register holds 64 bits. -/
theorem getX_eq_toNat (x : Thread) (r : Nat) : x.getX r = (BitVec.ofNat 64 (x.getX r)).toNat := by
  have lt : x.getX r < 2 ^ 64 := by
    unfold Thread.getX
    split
    · decide
    · exact BitVec.isLt _
  rw [BitVec.toNat_ofNat, Nat.mod_eq_of_lt lt]

/-! ### Scalar operations -/

/-- R267's results of ALU_REG and ALU_IMM, wherever the spec states one. -/
def ScalarResult (mod : Nat) (a b r : BitVec 64) : Prop :=
  (mod = 0 ∧ r = a + b) ∨ (mod = 1 ∧ r = a - b) ∨ (mod = 2 ∧ r = a &&& b) ∨ (mod = 3 ∧ r = a ||| b) ∨ (mod = 4 ∧ r = a ^^^ b) ∨
  (mod = 5 ∧ b.toNat < 64 ∧ r = a <<< b.toNat) ∨ (mod = 6 ∧ b.toNat < 64 ∧ r = a >>> b.toNat) ∨
  (mod = 7 ∧ b.toNat < 64 ∧ r = a.sshiftRight b.toNat) ∨ (mod = 8 ∧ r = a * b) ∨ (mod = 9 ∧ r = if b.slt a then b else a) ∨
  (mod = 10 ∧ r = if a.slt b then b else a)

/-- A stated result draws no free value. -/
theorem ScalarResult.not_open {mod : Nat} {a b r : BitVec 64} (h : ScalarResult mod a b r) : aluOpen mod b.toNat = false := by
  unfold ScalarResult at h
  exact decide_eq_false (by omega)

/-- Where the spec states a result, the model's operation has it. -/
theorem ScalarResult.aluVal_eq {mod : Nat} {a b r : BitVec 64} (h : ScalarResult mod a b r) (k : Nat) :
    aluVal mod a.toNat b.toNat k = some r.toNat := by
  rcases h with ⟨rfl, rfl⟩ | ⟨rfl, rfl⟩ | ⟨rfl, rfl⟩ | ⟨rfl, rfl⟩ | ⟨rfl, rfl⟩ | ⟨rfl, hb, rfl⟩ | ⟨rfl, hb, rfl⟩ | ⟨rfl, hb, rfl⟩ |
    ⟨rfl, rfl⟩ | ⟨rfl, rfl⟩ | ⟨rfl, rfl⟩
  · rfl
  · simp only [aluVal, BitVec.toNat_sub, Nat.mod_eq_of_lt b.isLt, Nat.add_comm]
  · rfl
  · rfl
  · rfl
  · simp only [aluVal, if_pos hb, BitVec.toNat_shiftLeft, Nat.shiftLeft_eq]
  · simp only [aluVal, if_pos hb, BitVec.toNat_ushiftRight, Nat.shiftRight_eq_div_pow]
  · simp only [aluVal, if_pos hb, sext_toNat, wrap_eq_ofInt, ← Int.shiftRight_eq_div_pow]
    rfl
  · rfl
  · simp only [aluVal, sext_toNat, BitVec.slt, decide_eq_true_eq, apply_ite BitVec.toNat]
  · simp only [aluVal, sext_toNat, BitVec.slt, decide_eq_true_eq, apply_ite BitVec.toNat]

/-- A shift by 64 or more has some 64-bit value, the free one. -/
theorem aluVal_open {mod b : Nat} (h : aluOpen mod b = true) (a k : Nat) : aluVal mod a b k = some (k % 2 ^ 64) := by
  obtain ⟨hlo, hhi, hb⟩ := of_decide_eq_true h
  interval_cases mod <;> exact congrArg some (if_neg (by omega))

/-- An operation that is not listed has no result and draws no free value. -/
theorem aluVal_unlisted {mod : Nat} (h : 10 < mod) (a b k : Nat) : aluVal mod a b k = none ∧ aluOpen mod b = false := by
  obtain ⟨n, rfl⟩ := Nat.exists_eq_add_of_le' h
  exact ⟨rfl, decide_eq_false (by omega)⟩

section
variable {s : State} {t th mod rd : Nat} {a b : PVal}

theorem runAlu_stated {v : Nat} (ho : aluOpen mod b.1 = false) (hv : aluVal mod a.1 b.1 0 = some v) :
    s.runAlu t th mod rd a b = s.modThread t th (fun y => (y.put rd (v, a.2 || b.2)).next) := by
  simp only [State.runAlu, ho, hv, Bool.false_eq_true, if_false]

theorem runAlu_open (ho : aluOpen mod b.1 = true) :
    s.runAlu t th mod rd a b = State.modThread { s with free := s.free + 1 } t th
      (fun y => (y.put rd (Config.freeValue s.free % 2 ^ 64, a.2 || b.2)).next) := by
  simp only [State.runAlu, ho, if_true, State.draw, aluVal_open ho]

theorem runAlu_unlisted (h : 10 < mod) : s.runAlu t th mod rd a b = s.faultPc t th 0x0008 := by
  obtain ⟨hv, ho⟩ := aluVal_unlisted h a.1 b.1 0
  simp only [State.runAlu, ho, hv, Bool.false_eq_true, if_false]

end

/-- What a scalar operation with a stated result does, its operands as bit vectors. -/
theorem runAlu_result (s : State) (t th rd : Nat) {mod : Nat} {a b r : BitVec 64} (h : ScalarResult mod a b r) (p q : Bool) :
    s.runAlu t th mod rd (a.toNat, p) (b.toNat, q) = s.modThread t th (fun y => (y.put rd (r.toNat, p || q)).next) :=
  runAlu_stated h.not_open (h.aluVal_eq 0)

/-- The operations of a thread that may issue. -/
theorem exec_aluReg {s : State} {t th : Nat} (hi : s.canIssue t th = true) (mod rd ra rb : Nat) :
    exec (.aluReg t th mod rd ra rb) s =
      .next (s.runAlu t th mod rd (((s.tile t).thread th).operand ra) (((s.tile t).thread th).operand rb)) :=
  congrArg Host.Outcome.next (if_pos hi)

theorem exec_aluImm {s : State} {t th : Nat} (hi : s.canIssue t th = true) (mod rd ra imm : Nat) :
    exec (.aluImm t th mod rd ra imm) s = .next (s.runAlu t th mod rd (((s.tile t).thread th).operand ra) (imm64 imm, false)) :=
  congrArg Host.Outcome.next (if_pos hi)

/-! ### Compares -/

/-- R267's conditions. -/
def Condition (mod : Nat) (a b : BitVec 64) (c : Bool) : Prop :=
  (mod = 0 ∧ c = (a == b)) ∨ (mod = 1 ∧ c = (a != b)) ∨ (mod = 2 ∧ c = a.slt b) ∨ (mod = 3 ∧ c = a.ult b) ∨
  (mod = 4 ∧ c = b.sle a) ∨ (mod = 5 ∧ c = b.ule a)

/-- The model's conditions are R267's. -/
theorem Condition.condVal_eq {mod : Nat} {a b : BitVec 64} {c : Bool} (h : Condition mod a b c) : condVal mod a.toNat b.toNat = some c := by
  rcases h with ⟨rfl, rfl⟩ | ⟨rfl, rfl⟩ | ⟨rfl, rfl⟩ | ⟨rfl, rfl⟩ | ⟨rfl, rfl⟩ | ⟨rfl, rfl⟩
  · simp only [condVal, BitVec.toNat_eq, Bool.beq_eq_decide_eq]
  · simp only [condVal, BitVec.toNat_eq, bne, Bool.beq_eq_decide_eq]
  · simp only [condVal, sext_toNat, BitVec.slt]
  · rfl
  · simp only [condVal, sext_toNat, BitVec.sle]
  · rfl

theorem condVal_unlisted {mod : Nat} (h : 5 < mod) (a b : Nat) : condVal mod a b = none := by
  obtain ⟨n, rfl⟩ := Nat.exists_eq_add_of_le' h
  rfl

/-! ### Branches -/

theorem branchTarget_eq (pc imm : Nat) : branchTarget pc imm = (((pc : Int) + 8 * (BitVec.ofNat 32 imm).toInt) % 2 ^ 64).toNat := by
  rw [branchTarget, sext_eq_toInt (by decide)]
  rfl

/-- Settles O23: the operands are the bit vectors of their registers, and each operation has the result, condition or target that R267
gives it (`ScalarResult.aluVal_eq`, `Condition.condVal_eq`, `branchTarget_eq`). -/
theorem scalarInstructionsComplete : Obligations.ScalarInstructionsComplete := by
  unfold Obligations.ScalarInstructionsComplete
  refine ⟨?reg, ?imm, ?regOpen, ?immOpen, ?compare, ?branch, ?unlisted⟩
  case reg =>
    rintro s t th mod rd ra rb x _ _ r hi rfl rfl rfl hr
    rw [exec_aluReg hi, Thread.operand, Thread.operand, getX_eq_toNat _ ra, getX_eq_toNat _ rb]
    exact congrArg _ (runAlu_result s t th rd hr _ _)
  case imm =>
    rintro s t th mod rd ra imm x _ _ r hi rfl rfl rfl hr
    rw [exec_aluImm hi, Thread.operand, getX_eq_toNat _ ra, imm64_eq_signExtend, runAlu_result s t th rd hr, Bool.or_false]
  case regOpen =>
    rintro s t th mod rd ra rb x hi rfl hlo hhi hb
    rw [exec_aluReg hi, runAlu_open (decide_eq_true ⟨hlo, hhi, hb⟩)]
    exact ⟨_, Nat.mod_lt _ (by decide), rfl⟩
  case immOpen =>
    rintro s t th mod rd ra imm x hi rfl hlo hhi hb
    rw [← imm64_eq_signExtend] at hb
    rw [exec_aluImm hi, runAlu_open (decide_eq_true ⟨hlo, hhi, hb⟩), Bool.or_false]
    exact ⟨_, Nat.mod_lt _ (by decide), rfl⟩
  case compare =>
    rintro s t th mod ra rb x _ _ c hi rfl rfl rfl hc
    have value := Condition.condVal_eq hc
    rw [← getX_eq_toNat, ← getX_eq_toNat] at value
    simp only [exec, execCompare, Thread.operand, value]
    rw [if_pos hi]
    rfl
  case branch =>
    rintro s t th mod imm _ x hi rfl hmod hp rfl
    have usable : ¬(mod ≠ 0 ∧ ((s.tile t).thread th).flagP = true) := by
      rcases hp with h | h <;> simp [h]
    simp only [exec, execBranch]
    rw [if_pos hi, if_neg (by omega), if_neg usable]
    refine congrArg _ (modThread_congr ?_)
    simp only [branchTarget_eq, Bool.or_eq_true, Bool.and_eq_true, beq_iff_eq, Bool.not_eq_true', or_assoc]
    split <;> rfl
  case unlisted =>
    intro s t th mod rd ra rb imm hi
    refine ⟨fun h => ⟨?_, ?_⟩, fun h => ?_, fun h => ?_, fun ⟨hlo, hhi, hp⟩ => ?_⟩
    · rw [exec_aluReg hi, runAlu_unlisted h]
    · rw [exec_aluImm hi, runAlu_unlisted h]
    · simp only [exec, execCompare, condVal_unlisted h]
      rw [if_pos hi]
    · exact congrArg Host.Outcome.next ((if_pos hi).trans (if_pos h))
    · exact congrArg Host.Outcome.next ((if_pos hi).trans ((if_neg (by omega)).trans (if_pos ⟨by omega, hp⟩)))

end Sys2Proof.Proofs
end

section
/-! PROOFS. Rebuild copies, and the gating and waking of domains (O36, O44). -/

namespace Sys2Proof.Proofs
open Sys2Proof Sys2Proof.Machine

/-! ### Rebuilds (R184, R437) -/

/-- Settles O36: the chosen granule, or page, is one that the rebuild has still to copy, so that the copy goes through. -/
theorem rebuildsComplete : Obligations.RebuildsComplete := by
  unfold Obligations.RebuildsComplete
  refine ⟨?granule, ?line, ?page⟩
  case granule =>
    rintro s _ g _ lost _ r rest hr hdown hlost rfl hnext hlt hahead rfl rfl
    have goes : ¬(s.fault.bridge.down = true ∨ s.fault.bridge.lost = true ∨ r.choose g < r.next ∨ s.rebuildGranules ≤ r.choose g ∨
        r.ahead.contains (r.choose g) = true) := by
      simpa [hdown, hlost, hnext, hlt] using hahead
    simp only [exec, execRebuildGranuleCopy, hr]
    rw [if_neg goes]
  case line =>
    rintro s _ _ l rfl rfl
    refine ⟨rfl, fun hgood => ?_⟩
    simp only [State.rebuildLine, hgood, Bool.or_self, Bool.false_eq_true, if_false]
  case page =>
    rintro s page _ _ lost r rest hr hsag hdown hlost hchan rfl rfl hnext hlt hahead
    have goes : ¬(s.sagging = true ∨ s.fault.bridge.down = true ∨ s.fault.bridge.lost = true ∨ nvsChan page ≠ r.chan ∨
        r.choose (page / 32) < r.next ∨ s.rebuildPages ≤ r.choose (page / 32) ∨ r.ahead.contains (r.choose (page / 32)) = true) := by
      simpa [hsag, hdown, hlost, hchan, hnext, hlt] using hahead
    refine ⟨s.draw.1, _, rfl, ?_⟩
    simp only [exec, execNvsRebuildPage, hr]
    rw [if_neg goes]
    rfl

/-! ### Domains (R177, R448, R449) -/

/-- Settles O44: an idle domain is gated, and one that is coming up is powered, with its scratchpads where it is a tile pair. -/
theorem domainsComplete : Obligations.DomainsComplete := by
  unfold Obligations.DomainsComplete
  refine ⟨?gate, ?wake⟩
  case gate =>
    intro s d hgating hgate hon hidle hlong
    exact congrArg Host.Outcome.next (if_pos (by simp [*]))
  case wake =>
    rintro s _ d hwaking hdead rfl
    have comes : (s.pwr.waking.any (fun p => p.1 == d) && !s.fault.dead.contains d) = true := by rw [hwaking, hdead]; rfl
    refine ⟨fun htile => congrArg Host.Outcome.next ((if_pos comes).trans ?_),
      fun hother => congrArg Host.Outcome.next ((if_pos comes).trans ?_)⟩
    · exact congrArg State.startWaking (if_pos htile)
    · exact congrArg State.startWaking (if_neg (by omega))

end Sys2Proof.Proofs
end

section
/-! PROOFS. Check errors, probes and fences of the units (O42). -/

namespace Sys2Proof.Proofs
open Sys2Proof Sys2Proof.Machine Sys2Proof.Laws

/-! ### Fences (R440) -/

/-- A fold over the types of unit and over the units of each is one over the table of units. -/
theorem foldl_units (f : State → Nat × Nat → State) (s : State) :
    (List.range 7).foldl (fun s ty => (List.range (unitCount ty)).foldl (fun s n => f s (ty, n)) s) s = allUnits.foldl f s := by
  simp only [allUnits, List.foldl_flatMap, List.foldl_map]

/-- The comparison of one unit's fence with the cox's table. -/
def compareFence (s : State) (x : Nat × Nat) : State :=
  if (s.unit x.1 x.2).state = .usable then (if (s.unit x.1 x.2).fenced = true then s.quarantine x.1 x.2 0 else s)
  else if (s.unit x.1 x.2).fenced = true then s else s.modUnit x.1 x.2 (fun u => { u with fenced := true })

theorem exec_pathCompare (s : State) : exec .pathCompare s = .next (allUnits.foldl compareFence s) := by
  rw [← foldl_units]
  refine congrArg Host.Outcome.next ?_
  congr 1
  funext u ty
  congr 1
  funext v n
  by_cases hstate : (v.unit ty n).state = .usable <;> cases hfence : (v.unit ty n).fenced <;> simp [compareFence, hstate, hfence]

/-- A domain switched off for good: retired, no longer coming up, and without its scratchpads where it is a tile pair. -/
def deadDomain (s : State) (d : Nat) : State :=
  let s1 := s.setDom d false
  let s2 : State := { s1 with
    fault := { s1.fault with dead := insertSorted s1.fault.dead d }
    pwr := { s1.pwr with waking := s1.pwr.waking.filter (fun p => p.1 != d) } }
  if d < 64 then (s2.poisonFill (2 * d)).poisonFill (2 * d + 1) else s2

theorem deadDomain_pwr (s : State) (d : Nat) :
    (deadDomain s d).pwr = { s.pwr with on := vset s.pwr.on d false, waking := s.pwr.waking.filter (fun p => p.1 != d) } := by
  unfold deadDomain
  split <;> rfl

theorem deadDomain_fault (s : State) (d : Nat) :
    (deadDomain s d).fault = { s.fault with dead := insertSorted s.fault.dead d } := by
  unfold deadDomain
  split <;> rfl

theorem deadDomain_off {s : State} {d : Nat} (h : d < 96) : (deadDomain s d).domOn d = false := by
  rw [State.domOn, if_neg (by omega), deadDomain_pwr]
  simp only [vget_vset, h, and_self, if_true]

theorem mem_deadDomain_dead (s : State) (d : Nat) : d ∈ (deadDomain s d).fault.dead := by
  rw [deadDomain_fault]
  exact (mem_insertSorted _ _ _).mpr (.inl rfl)

theorem deadDomain_not_waking (s : State) (d : Nat) : (deadDomain s d).pwr.waking.any (fun p => p.1 == d) = false := by
  rw [deadDomain_pwr]
  simp

theorem deadDomain_poisoned (s : State) {d : Nat} (h : d < 64) :
    ∃ v : State, deadDomain s d = (v.poisonFill (2 * d)).poisonFill (2 * d + 1) := ⟨_, if_pos h⟩

/-- Settles O42: each event takes its one branch; the comparison goes over the table of units, and a fence that is not confirmed leaves
its domain dead (`deadDomain`) before the units of it are retired. -/
theorem unitFaultsComplete : Obligations.UnitFaultsComplete := by
  unfold Obligations.UnitFaultsComplete
  refine ⟨?check, ?passed, ?failed, ?failedT1, ?silent, ?compare, ?unconfirmed⟩
  case check =>
    rintro s _ ty n hn hu hd rfl
    have errs : ¬(unitCount ty ≤ n ∨ s.usable ty n = false ∨ s.domOn (unitDomain ty n) = false) := by simp [hn, hu, hd]
    refine ⟨fun h => ?retired, fun h hty => ?tile, fun h hty => ?run, fun h hty => ?query, fun h hty => ?other⟩
    case retired => exact congrArg Host.Outcome.next ((if_neg errs).trans (if_pos h))
    case tile =>
      subst hty
      exact congrArg Host.Outcome.next ((if_neg errs).trans (if_neg (ne_true_of_eq_false h)))
    case run => rcases hty with rfl | rfl <;> exact congrArg Host.Outcome.next ((if_neg errs).trans (if_neg (ne_true_of_eq_false h)))
    case query =>
      subst hty
      exact congrArg Host.Outcome.next ((if_neg errs).trans (if_neg (ne_true_of_eq_false h)))
    case other =>
      obtain ⟨k, rfl⟩ := Nat.exists_eq_add_of_le' hty
      exact congrArg Host.Outcome.next ((if_neg errs).trans (if_neg (ne_true_of_eq_false h)))
  case passed =>
    intro s ty n hp
    exact congrArg Host.Outcome.next (if_pos hp)
  case failed =>
    intro s ty n hp hty
    refine congrArg Host.Outcome.next ((if_pos hp).trans ?_)
    simp only [State.probeCause, if_neg hty, Bool.false_eq_true, if_false, Nat.reduceBEq, Bool.or_false]
  case failedT1 =>
    intro s n hp
    exact ⟨6 + s.draw.1 % 2, by omega, congrArg Host.Outcome.next (if_pos hp)⟩
  case silent =>
    intro s ty n hp hlong
    exact congrArg Host.Outcome.next (if_pos (by rw [hp, hlong]; rfl))
  case compare => exact exec_pathCompare
  case unconfirmed =>
    rintro s ty n _ rfl hn hstate hconf hcause hlong hdead hd
    exact ⟨deadDomain s (unitDomain ty n), deadDomain_off hd, mem_deadDomain_dead _ _, deadDomain_not_waking _ _,
      deadDomain_poisoned s, congrArg Host.Outcome.next (if_pos ⟨hn, hstate, hconf, hcause, hlong, hdead⟩)⟩

end Sys2Proof.Proofs
end

section
/-! PROOFS. The context and page opcodes (O8). -/

namespace Sys2Proof.Proofs
open Sys2Proof Sys2Proof.Machine Sys2Proof.Laws

/-! ### ctx.open and ctx.close (R209, R210) -/

theorem chkCtxOpen_none {s : State} {c : Cmd} (hkind : c.p 0 1 = 0 ∨ c.p 0 1 = 2 ∨ c.p 0 1 = 4) (hmodel : c.p 0 1 = 4 → c.p 1 4 = 0) :
    chkCtxOpen s c = none := by
  refine firstBad_eq_none.mpr ?_
  simp only [List.forall_mem_cons, decide_eq_false_iff_not, List.not_mem_nil, false_implies, implies_true, and_true]
  omega

/-- A context that no step or other command uses is closed. -/
theorem runCtxClose_eq {s : State} {c : Cmd} {id : Nat} {x : Ctx} (hid : c.ctx = some id) (hx : s.ctx id = some x) (h1 : x.kind ≠ 1)
    (h3 : x.kind ≠ 3) (hstep : x.step = false) (hnamed : s.namedElsewhere c.uid id = false)
    (hsound : x.torn = true ∨ s.tablesBad id = false) :
    runCtxClose s c = (((((State.breakSems { s with sched := { s.sched with boosts := s.sched.boosts.filter (fun b => b.ctx != id) } }
      id).freeSeq id).dropCtx id).schedule), .done 0) := by
  have sound : (!x.torn && s.tablesBad id) = false := by rcases hsound with h | h <;> simp [h]
  simp only [runCtxClose, hid, hx, h1, h3, hstep, hnamed, sound, or_self, Bool.or_self, Bool.false_eq_true, if_false]

/-! ### What every KV command asks of its context (R213, R226) -/

/-- A KV command of a sequence with sound tables acts on it. -/
theorem onSeq_eq {s : State} {c : Cmd} {id : Nat} {z : SeqCtx} (hid : c.ctx = some id) (hz : (s.ctx id).bind Ctx.seq = some z)
    (hsound : s.tablesBad id = false) (f : Nat → SeqCtx → State × Res) : s.onSeq c f = f id z := by
  simp only [State.onSeq, hid, hz, hsound, Bool.false_eq_true, if_false]

/-! ### kv.append and kv.trim (R216, R226) -/

/-- The length of the first of some lists. -/
def firstLen : List KvList → Nat
  | l :: _ => l.len
  | [] => 0

/-- What kv.append answers of layers that the sequence has, their lists all of one length. -/
theorem runKvAppend_eq {s : State} {c : Cmd} {id n len w : Nat} {z : SeqCtx} {mine : List KvList} (hid : c.ctx = some id)
    (hz : (s.ctx id).bind Ctx.seq = some z) (hsound : s.tablesBad id = false) (hn : n = c.p 12 2 * z.heads)
    (hlayers : c.p 10 2 + c.p 12 2 ≤ z.layers) (hw : w = n * c.p 8 2 * 4 * headD z.headDim) (hsrc : s.destOk (c.p 0 8) w = true)
    (hfree : s.namesWithdrawn (c.p 0 8) w = false) (hmine : mine = (z.lists.drop (c.p 10 2 * z.heads)).take n)
    (hlen : len = firstLen mine) (hall : ∀ l ∈ mine, l.len = len) :
    runKvAppend s c =
      if s.ctxStep id = true ∧ (∃ l ∈ mine, l.len < l.vis) ∧ c.p 8 2 ≠ 0 then s.deferKv c id
      else match s.appendAll id (c.p 10 2 * z.heads) n (c.p 8 2) (c.p 0 8) (headD z.headDim) with
        | .error e => (s, .fail e)
        | .ok s1 => (((s1.noteRead (c.p 0 8) w).syncCtx id).spillBackground, .done (len + c.p 8 2)) := by
  subst hn hw hmine hlen
  have same := List.any_eq_false.mpr fun l hl => ne_true_of_eq_false (bne_eq_false_iff_eq.mpr (hall l hl))
  rw [runKvAppend, onSeq_eq hid hz hsound]
  refine (if_neg (Nat.not_lt.mpr hlayers)).trans ((if_neg (by simp [hsrc])).trans ((if_neg (by simp [hfree])).trans
    ((if_neg (ne_true_of_eq_false same)).trans (if_congr ?_ rfl rfl))))
  simp only [Bool.and_eq_true, List.any_eq_true, decide_eq_true_eq, bne_iff_ne, and_assoc]

/-- What kv.trim answers of no more tokens than each list holds. -/
theorem runKvTrim_eq {s : State} {c : Cmd} {id : Nat} {z : SeqCtx} (hid : c.ctx = some id) (hz : (s.ctx id).bind Ctx.seq = some z)
    (hsound : s.tablesBad id = false) (hhas : z.lists.all (fun l => decide (c.p 0 4 + c.p 4 4 ≤ l.len - l.first)) = true) :
    runKvTrim s c =
      if s.ctxStep id = true ∧ (∃ l ∈ z.lists, l.len - c.p 4 4 < l.vis ∧ 0 < c.p 4 4 ∧ (l.len - c.p 4 4) % tppOf z.headDim ≠ 0) then
        s.deferKv c id
      else match s.trimAll id z (c.p 0 4) (c.p 4 4) with
        | .error e => (s, .fail e)
        | .ok s1 => (s1.syncCtx id, .done (match s1.kvList id 0 with | some l => l.len - l.first | none => 0)) := by
  have within : z.lists.any (fun l => decide (l.len - l.first < c.p 0 4 + c.p 4 4)) = false := by
    simpa only [List.any_eq_false, List.all_eq_true, decide_eq_true_eq, Nat.not_lt] using hhas
  rw [runKvTrim, onSeq_eq hid hz hsound]
  refine (if_neg (ne_true_of_eq_false within)).trans (if_congr ?_ rfl rfl)
  simp only [Bool.and_eq_true, List.any_eq_true, decide_eq_true_eq]

/-! ### kv.move (R214, R216, R222) -/

theorem chkKvMove_none {s : State} {c : Cmd} (h : c.p 8 1 = 1 ∨ c.p 8 1 = 2) : chkKvMove s c = none :=
  firstBad_eq_none.mpr (by simpa [or_iff_not_imp_left] using h)

/-- A kv.move that has started its pages replies, or goes on while any is on its way. -/
theorem opcodeRow_awaitPages {s u : State} {op q k : Nat} {c : Cmd} {w : KvWait} {cheap : Bool} {check : State → Cmd → Check10}
    {body : State → Cmd → State × Res} (h : s.runs op q k c) (hc : check s c = none) (hb : body s c = u.awaitPages w) :
    s.opcodeRow op cheap check body q k = .next
      (if u.kvPending w = true then
        State.modCmd { u with boat := { u.boat with waits := u.boat.waits ++ [w] } } q k (fun c => { c with phase := .running })
      else u.completed c 0 0 w.pages.length) := by
  rw [State.awaitPages] at hb
  split
  · next hpending => exact opcodeRow_going h hc (hb.trans (if_pos hpending))
  · next harrived => exact opcodeRow_reply h hc (hb.trans (if_neg harrived))

/-- kv.move to T1 with a frame for every page. -/
theorem runKvMove_in {s u : State} {c : Cmd} {id : Nat} {z : SeqCtx} (hid : c.ctx = some id) (htier : c.p 8 1 = 1)
    (hz : (s.ctx id).bind Ctx.seq = some z) (hsound : s.tablesBad id = false)
    (hu : s.fetchAll id (z.rangePages (c.p 0 4) (c.p 4 4) (fun p => p.state == .spilled)) = .ok u) :
    runKvMove s c = (u.syncCtx id).awaitPages ⟨c.uid, id, 1, z.rangePages (c.p 0 4) (c.p 4 4) (fun p => p.state == .spilled), [],
      z.rangePages (c.p 0 4) (c.p 4 4) (fun p => p.state == .fetching)⟩ := by
  rw [runKvMove, onSeq_eq hid hz hsound, if_neg (by omega)]
  simp only [State.moveIn, hu]

/-- kv.move to NVS with a slot for every page, the supply above the warning level. -/
theorem runKvMove_out {s : State} {c : Cmd} {id : Nat} {z : SeqCtx} {dirty clean : List (Nat × Nat)} (hid : c.ctx = some id)
    (htier : c.p 8 1 = 2) (hz : (s.ctx id).bind Ctx.seq = some z) (hsound : s.tablesBad id = false) (hdim : z.headDim < 2)
    (harea : s.tier.spillPages ≠ 0) (hsag : s.sagging = false)
    (hdirty : dirty = z.rangePages (c.p 0 4) (c.p 4 4) (fun p => p.state == .resident))
    (hclean : clean = z.rangePages (c.p 0 4) (c.p 4 4) (fun p => p.state == .clean))
    (hroom : dirty.length ≤ s.tier.spillPages - s.boat.slots.length) :
    runKvMove s c = ((clean.foldl (fun s x => s.leaveT1 id x.1 x.2)
      (dirty.foldl (fun s x => (s.startSpill id x.1 x.2).getD s) s)).syncCtx id).awaitPages
        ⟨c.uid, id, 2, dirty ++ clean, clean, z.rangePages (c.p 0 4) (c.p 4 4) (fun p => p.state == .spilling && !p.durable)⟩ := by
  subst hdirty hclean
  rw [runKvMove, onSeq_eq hid hz hsound, if_pos htier]
  simp only [State.moveOut, if_neg (Nat.not_le.mpr hdim), if_neg harea, hsag, if_neg (Nat.not_lt.mpr hroom), Bool.false_eq_true, if_false]

/-! ### kv.stats (R227) -/

/-- The record of a sequence, torn down or with sound tables, is stored where there is room. -/
theorem runKvStats_eq {s : State} {c : Cmd} {id : Nat} {x : Ctx} {z : SeqCtx} (hid : c.ctx = some id) (hx : s.ctx id = some x)
    (hz : x.seq = some z) (hsound : x.torn = true ∨ s.tablesBad id = false) (hdest : s.destOk (c.p 0 8) z.stats.length = true) :
    runKvStats s c = (s.storeClean (c.p 0 8) z.stats, .done z.stats.length) := by
  have found : c.ctx.bind s.ctx = some x := by rw [hid]; exact hx
  have sequence : (s.ctx id).bind Ctx.seq = some z := by rw [hx]; exact hz
  simp only [runKvStats, found]
  cases htorn : x.torn with
  | true => simp only [hz, hdest, if_true]
  | false =>
    rw [htorn] at hsound
    simp only [onSeq_eq hid sequence (hsound.resolve_left Bool.false_ne_true), hdest, Bool.false_eq_true, if_false, if_true]

/-- Settles O8: each opcode's checks pass, and what its body answers is one of its branches. -/
theorem contextOpcodesComplete : Obligations.ContextOpcodesComplete := by
  unfold Obligations.ContextOpcodesComplete
  refine ⟨?openPlan, ?openImage, ?openSeq, ?close, ?append, ?trim, ?moveIn, ?moveOut, ?fetch, ?stats⟩
  case openPlan =>
    intro s q k id c h hkind hmodel hfree
    exact opcodeRow_reply h (chkCtxOpen_none (by omega) fun _ => hmodel) (by simp only [runCtxOpen, hkind, hfree, if_true]; rfl)
  case openImage =>
    intro s q k id c m h hkind hm hfree
    exact opcodeRow_reply h (chkCtxOpen_none (by omega) (by omega)) (by simp [runCtxOpen, hkind, hm, hfree, Res.done, stDone])
  case openSeq =>
    intro s s1 q k id f c m z h hkind hm hz hsag hfree halloc
    exact opcodeRow_reply h (chkCtxOpen_none (by omega) (by omega))
      (by simp [runCtxOpen, hkind, hm, hz, hsag, hfree, halloc, Res.done, stDone])
  case close =>
    intro s q k id c x h hid hx h1 h3 hstep hnamed hsound
    exact opcodeRow_reply h rfl (runCtxClose_eq hid hx h1 h3 hstep hnamed hsound)
  case append =>
    intro s q k id n len w c z mine h hid hz hsound hn hsome hlayers hany hw hsrc hfree hmine hlen hall
    have passes : chkKvAppend s c = none := firstBad_eq_none.mpr (by simp [hany, hsome])
    have answers := runKvAppend_eq hid hz hsound hn hlayers hw hsrc hfree hmine hlen hall
    split
    · next hwaits => exact opcodeRow_going h passes (answers.trans (if_pos hwaits))
    · next hgoes =>
      rw [if_neg hgoes] at answers
      split
      · next s1 hok => exact opcodeRow_reply h passes (answers.trans (by rw [hok]; rfl))
      · next e herr => exact opcodeRow_reply h passes (answers.trans (by rw [herr]; rfl))
  case trim =>
    intro s q k id c z h hid hz hsound hhas
    have answers := runKvTrim_eq hid hz hsound hhas
    split
    · next hwaits => exact opcodeRow_going h rfl (answers.trans (if_pos hwaits))
    · next hgoes =>
      rw [if_neg hgoes] at answers
      split
      · next s1 hok => exact opcodeRow_reply h rfl (answers.trans (by rw [hok]; rfl))
      · next e herr => exact opcodeRow_reply h rfl (answers.trans (by rw [herr]; rfl))
  case moveIn =>
    rintro s u q k id c z _ _ _ h hid htier hz hsound rfl rfl hu rfl
    exact opcodeRow_awaitPages h (chkKvMove_none (.inl htier)) (runKvMove_in hid htier hz hsound hu)
  case moveOut =>
    rintro s _ q k id c z _ dirty clean _ h hid htier hz hsound hdim harea hsag hdirty hclean rfl hroom rfl rfl
    exact opcodeRow_awaitPages h (chkKvMove_none (.inr htier))
      (runKvMove_out hid htier hz hsound hdim harea hsag hdirty hclean hroom)
  case fetch =>
    rintro s _ q k id c z h hid hz hsound rfl
    exact opcodeRow_reply h rfl (onSeq_eq hid hz hsound _)
  case stats =>
    intro s q k id c x z h hid hx hz hsound hleast hdest
    exact opcodeRow_reply h (firstBad_eq_none.mpr (by simp [hleast])) (runKvStats_eq hid hx hz hsound hdest)

end Sys2Proof.Proofs
end

section
/-! PROOFS. The supply-sag events (O50). -/

namespace Sys2Proof.Proofs
open Sys2Proof Sys2Proof.Machine

/-! ### Supply sag (R460, R490 to R493) -/

/-- Settles O50: each event takes the branch of the power state and of the sag chain's state. -/
theorem sagEventsComplete : Obligations.SagEventsComplete := by
  unfold Obligations.SagEventsComplete
  refine ⟨?begins, ?again, ?moored, ?rises, ?confirmed, ?resets, ?counts⟩
  case begins =>
    intro s hon hsag
    exact congrArg Host.Outcome.next ((if_neg hon).trans (if_pos hsag))
  case again =>
    intro s hon hsag
    exact congrArg Host.Outcome.next ((if_neg hon).trans (if_neg hsag))
  case moored =>
    intro s hmoored
    exact congrArg Host.Outcome.next (if_pos hmoored)
  case rises =>
    intro s hon hsag
    exact congrArg Host.Outcome.next (if_pos ⟨hsag, hon⟩)
  case confirmed =>
    intro s s1 d hsag hlong hdur
    simp only [exec, execSagConfirmed, ← hdur]
    rw [if_pos ⟨hsag, hlong⟩]
  case resets =>
    intro s hon
    exact congrArg Host.Outcome.next (if_neg hon)
  case counts =>
    intro s hmoored
    exact congrArg Host.Outcome.next (if_pos hmoored)

end Sys2Proof.Proofs
end

section
/-! PROOFS. The instructions of the sweep, transform and pool units and the end of their runs, and the events of sweeps and pages (O27,
O28). -/

namespace Sys2Proof.Proofs
open Sys2Proof Sys2Proof.Machine

/-! ### The units' instructions (R191, R244, R252) -/

/-- Settles O27: a descriptor named rightly and a unit that works leave each instruction and each event its one branch. -/
theorem unitInstructionsComplete : Obligations.UnitInstructionsComplete := by
  unfold Obligations.UnitInstructionsComplete
  refine ⟨?sweep, ?sweepWait, ?xform, ?xformWait, ?xformEnds, ?pool, ?poolBusy, ?poolEnds⟩
  case sweep =>
    rintro s _ t th ra o ctx hi ho hctx rfl
    simp only [exec, execSweepRun, ho, hctx]
    rw [if_pos hi]
  case sweepWait =>
    intro s t th hi
    simp only [exec, execSweepWait, Option.isNone_iff_eq_none]
    rw [if_pos hi]
    rfl
  case xform =>
    rintro s _ t th ra o ctx hi ho hctx rfl
    simp only [exec, execXfRun, ho, hctx]
    rw [if_pos hi]
  case xformWait =>
    intro s t th hi
    simp only [exec, execXfWait, Option.isNone_iff_eq_none]
    rw [if_pos hi]
    rfl
  case xformEnds =>
    rintro s _ e r _ hr rfl husable hon hup rfl
    simp only [exec, execXfRunComplete, hr]
    rw [if_pos ⟨husable, hon, by rw [hup]; rfl⟩]
  case pool =>
    rintro s t th ra o _ hi ho hfree rfl hgood
    simp only [exec, execPoolRun, ho, hgood]
    rw [if_pos hi, if_neg (by rw [hfree]; decide)]
  case poolBusy =>
    intro s t th ra o hi ho hbusy
    refine congrArg Host.Outcome.next ((if_pos hi).trans ?_)
    rw [ho]
    exact if_pos (Option.isSome_iff_ne_none.mpr hbusy)
  case poolEnds =>
    intro s t o ho hrun
    simp only [exec, execPoolComplete, ho, beq_iff_eq]
    rw [if_pos hrun]
    rfl

/-! ### Sweeps and pages (R191, R214, R224) -/

/-- A sweep that a working pipeline holds, its pages at hand: its outcome is written and the pipeline is free, unless a range it reads is
held. -/
theorem exec_sweepComplete {s : State} {p id n : Nat} {w : Sweep} {q : SeqCtx} {l : KvList} {d : List Byte}
    (hw : vget none s.sweep.pipes p = some w) (hlist : s.sweepList w = some (id, n, q, l, d)) (hp : p < 16)
    (husable : s.usable 1 p = true) (hon : s.domOn (64 + p / 4) = true) (hup : s.fault.bridge.down = false)
    (hready : w.ready l (tppOf q.headDim) = true) :
    exec (.sweepComplete p) s = .next
      (let u := if swBack d = true then
          match s.finishBackward w id n q l d with
          | .ok v => v.freePipe p w
          | .error e => (s.freePipe p w).runFault w.run (e, none)
        else (s.finishForward w id n q l d).freePipe p w
      if (s.sweepReads w id n q l d).any (fun r => s.heldRange r.1 r.2) = true then s.hold (s.sweepReads w id n q l d)
      else (((((u.syncCtx id).spillBackground).walkAll).runsPlace).noteReads (s.sweepReads w id n q l d)).endKvWaits) := by
  simp only [exec, execSweepComplete, hw, hlist]
  rw [if_pos ⟨hp, husable, hon, by rw [hup]; rfl, hready⟩]
  cases swBack d with
  | false => rfl
  | true => cases s.finishBackward w id n q l d <;> rfl

/-- Settles O28: a sweep's end is `exec_sweepComplete` of its three outcomes, and each other event takes its one branch. -/
theorem sweepEventsComplete : Obligations.SweepEventsComplete := by
  unfold Obligations.SweepEventsComplete
  refine ⟨?sweep, ?grace, ?fetched, ?durable⟩
  case sweep =>
    intro s u v p id n w q l d hw hlist hp husable hon hup hready hu
    rw [exec_sweepComplete hw hlist hp husable hon hup hready]
    rcases hu with ⟨forward, rfl⟩ | ⟨backward, merged, rfl⟩ | ⟨backward, e, failed, rfl⟩
    · simp only [forward, Bool.false_eq_true, if_false]
    · simp only [backward, merged, if_true]
    · simp only [backward, failed, if_true]
  case grace =>
    intro s p list page id dl w q l d hw hlist hwait hpast hmay hruns
    simp only [exec, execKvGraceExpired, hw, hlist, hwait]
    rw [if_pos ⟨trivial, trivial, hpast, hmay, hruns⟩]
  case fetched =>
    intro s ctx list page hst
    exact congrArg Host.Outcome.next (if_pos hst)
  case durable =>
    intro s ctx list page hst hnot
    exact congrArg Host.Outcome.next (if_pos ⟨hst, hnot⟩)

end Sys2Proof.Proofs
end

section
/-! PROOFS. The 64-bit instruction words of a tile's threads (O52). -/

namespace Sys2Proof.Proofs
open Sys2Proof Sys2Proof.Machine Sys2Proof.Laws

/-! ### The fields of an instruction word (R267) -/

/-- Each field is in the range that its place in the word gives it. -/
def FieldsInRange (op rd ra rb mod imm : Nat) : Prop :=
  op < 256 ∧ rd < 32 ∧ ra < 32 ∧ rb < 32 ∧ mod < 64 ∧ imm < 4294967296

/-- The instruction that R267 lists for the fields of a word. -/
def fieldsInstr (t th op rd ra rb mod imm : Nat) : Option Instr :=
  match op with
  | 0x01 => some (.aluReg t th mod rd ra rb)
  | 0x02 => some (.aluImm t th mod rd ra imm)
  | 0x03 => some (.compare t th mod ra rb)
  | 0x04 => some (.branch t th mod imm)
  | 0x05 => some (.load t th mod rd ra imm [])
  | 0x06 => some (.store t th mod ra rb imm)
  | 0x07 => some (.atomic t th mod rd ra rb)
  | 0x08 => if mod = 0 then some (.vectorLoad t th rd ra imm) else if mod = 1 then some (.vectorStore t th rd ra imm) else none
  | 0x09 => some (.vectorOp t th mod rd ra rb)
  | 0x0A => some (.prefixScan t th mod rd ra rb)
  | 0x10 => unitInstr t th mod ra rb
  | 0x11 => bowInstr t th mod rd ra rb imm
  | 0x12 => syncInstr t th mod rd ra rb imm
  | _ => none

/-- The model's decoder reads the fields of a word whose bits [25:23] are 0. -/
theorem listedInstrOf_eq (t th w : Nat) : listedInstrOf t th w =
    if bits w 25 23 ≠ 0 then none
    else fieldsInstr t th (bits w 7 0) (bits w 12 8) (bits w 17 13) (bits w 22 18) (bits w 31 26) (bits w 63 32) := rfl

/-- The fields of any word are in their ranges. -/
theorem bits_inRange (w : Nat) :
    FieldsInRange (bits w 7 0) (bits w 12 8) (bits w 17 13) (bits w 22 18) (bits w 31 26) (bits w 63 32) := by
  unfold FieldsInRange bits
  omega

/-- A word made of fields in their ranges decodes to the instruction listed for them. -/
theorem listedInstrOf_threadFields {op rd ra rb mod imm : Nat} (t th : Nat) (h : FieldsInRange op rd ra rb mod imm) :
    listedInstrOf t th (threadFields op rd ra rb mod imm) = fieldsInstr t th op rd ra rb mod imm := by
  obtain ⟨hop, hrd, hra, hrb, hmod, himm⟩ := h
  exact listedInstrOf_fields t th hop hrd hra hrb hmod himm

/-- The OP of a word, whatever its other fields. -/
theorem threadFields_op {op : Nat} (h : op < 256) (rd ra rb mod imm : Nat) : bits (threadFields op rd ra rb mod imm) 7 0 = op := by
  unfold threadFields bits
  omega

/-! ### From an instruction to its word -/

/-- The word of a well-formed instruction is made of fields in their ranges, for which the instruction is listed. -/
theorem threadWordOf_fields {i : Instr} {t th w : Nat} (hi : i.wf = true) (h : threadWordOf i = some (t, th, w)) :
    ∃ op rd ra rb mod imm, FieldsInRange op rd ra rb mod imm ∧ w = threadFields op rd ra rb mod imm ∧
      fieldsInstr t th op rd ra rb mod imm = some i := by
  rw [instr_wf_iff] at hi
  unfold threadWordOf at h
  split at h
  case h_35 => exact absurd h (by simp)
  all_goals
    obtain ⟨rfl, rfl, rfl⟩ : _ ∧ _ ∧ _ := by simpa only [Option.some.injEq, Prod.mk.injEq] using h
    refine ⟨_, _, _, _, _, _, ?_, rfl, rfl⟩
    simp only [Instr.limits, List.forall_mem_cons] at hi
    unfold FieldsInRange
    omega

/-- The word of a well-formed instruction fits its 64 bits, and the instruction is what is listed for it. -/
theorem listedInstrOf_word {i : Instr} {t th w : Nat} (hi : i.wf = true) (h : threadWordOf i = some (t, th, w)) :
    w < 2 ^ 64 ∧ bits w 25 23 = 0 ∧ listedInstrOf t th w = some i := by
  obtain ⟨op, rd, ra, rb, mod, imm, range, rfl, listed⟩ := threadWordOf_fields hi h
  have ⟨hop, hrd, hra, hrb, hmod, himm⟩ := range
  obtain ⟨fits, reserved, -⟩ := threadFields_bits hop hrd hra hrb hmod himm
  exact ⟨fits, reserved, (listedInstrOf_threadFields t th range).trans listed⟩

/-- A thread that reaches the word of a well-formed instruction executes it. -/
theorem threadInstrOf_word {i : Instr} {t th w : Nat} (hi : i.wf = true) (h : threadWordOf i = some (t, th, w)) :
    threadInstrOf t th w = some i := by
  obtain ⟨-, -, listed⟩ := listedInstrOf_word hi h
  exact threadInstrOf_of_listed listed

/-! ### From a word to its instruction -/

/-- A well-formed instruction of a thread with a word of a given OP. -/
def HasWord (t th op : Nat) (i : Instr) : Prop := i.wf = true ∧ ∃ w, threadWordOf i = some (t, th, w) ∧ bits w 7 0 = op

/-- An instruction within its limits whose word is made of an OP and other fields. -/
theorem hasWord_of_fields {i : Instr} {t th op rd ra rb mod imm : Nat} (hop : op < 256) (hi : ∀ p ∈ i.limits, p.1 < p.2)
    (h : threadWordOf i = some (t, th, threadFields op rd ra rb mod imm)) : HasWord t th op i :=
  ⟨(instr_wf_iff i).mpr hi, _, h, threadFields_op hop ..⟩

section
variable {t th op rd ra rb mod imm : Nat} {i : Instr} (ht : t < 128) (hth : th < 128)
include ht hth

/-- A listed unit operation has a word of OP 0x10. -/
theorem unitInstr_hasWord (hra : ra < 32) (hrb : rb < 32) (h : unitInstr t th mod ra rb = some i) : HasWord t th 0x10 i := by
  unfold unitInstr at h
  split at h
  all_goals cases h
  all_goals exact hasWord_of_fields (by decide) (by simp [Instr.limits, *]) rfl

/-- A listed bow or buffer operation has a word of OP 0x11. -/
theorem bowInstr_hasWord (hrd : rd < 32) (hra : ra < 32) (hrb : rb < 32) (himm : imm < 4294967296)
    (h : bowInstr t th mod rd ra rb imm = some i) : HasWord t th 0x11 i := by
  unfold bowInstr at h
  split at h
  all_goals cases h
  all_goals exact hasWord_of_fields (by decide) (by simp [Instr.limits, *]) rfl

/-- A listed order or synchronisation operation has a word of OP 0x12. -/
theorem syncInstr_hasWord (hrd : rd < 32) (hra : ra < 32) (hrb : rb < 32) (himm : imm < 4294967296)
    (h : syncInstr t th mod rd ra rb imm = some i) : HasWord t th 0x12 i := by
  unfold syncInstr at h
  split at h
  all_goals cases h
  all_goals exact hasWord_of_fields (by decide) (by simp [Instr.limits, *]) rfl

/-- A listed vector load or store has a word of OP 0x08; MOD tells them apart. -/
theorem vectorAccess_hasWord (hrd : rd < 32) (hra : ra < 32) (himm : imm < 4294967296)
    (h : fieldsInstr t th 0x08 rd ra rb mod imm = some i) : HasWord t th 0x08 i := by
  simp only [fieldsInstr] at h
  split at h
  case isTrue load =>
    cases h
    exact hasWord_of_fields (by decide) (by simp [Instr.limits, *]) rfl
  case isFalse other =>
    obtain ⟨-, store⟩ := Option.ite_none_right_eq_some.mp h
    cases store
    exact hasWord_of_fields (by decide) (by simp [Instr.limits, *]) rfl

/-- Every instruction listed for fields in their ranges has a word of the same OP. -/
theorem fieldsInstr_hasWord (range : FieldsInRange op rd ra rb mod imm) (h : fieldsInstr t th op rd ra rb mod imm = some i) :
    HasWord t th op i := by
  obtain ⟨-, hrd, hra, hrb, hmod, himm⟩ := range
  have listed := h
  unfold fieldsInstr at h
  split at h
  case h_8 => exact vectorAccess_hasWord ht hth hrd hra himm listed
  case h_11 => exact unitInstr_hasWord ht hth hra hrb h
  case h_12 => exact bowInstr_hasWord ht hth hrd hra hrb himm h
  case h_13 => exact syncInstr_hasWord ht hth hrd hra hrb himm h
  all_goals cases h
  all_goals exact hasWord_of_fields (by decide) (by simp [Instr.limits, *]) rfl

end

/-- The instruction listed for a word is well formed and has a word of the same OP. -/
theorem listedInstrOf_hasWord {t th w : Nat} {i : Instr} (ht : t < 128) (hth : th < 128) (h : listedInstrOf t th w = some i) :
    HasWord t th (bits w 7 0) i := by
  rw [listedInstrOf_eq] at h
  exact fieldsInstr_hasWord ht hth (bits_inRange w) (Option.ite_none_left_eq_some.mp h).2

/-! ### Words that R267 does not list -/

/-- An OP outside R267's table lists nothing. -/
theorem fieldsInstr_unlisted {op : Nat} (h : op = 0 ∨ (0x0A < op ∧ op < 0x10) ∨ 0x12 < op) (t th rd ra rb mod imm : Nat) :
    fieldsInstr t th op rd ra rb mod imm = none := by
  unfold fieldsInstr
  split
  case h_14 => rfl
  all_goals exact absurd h (by decide)

/-- Nor does a word of such an OP, or with a reserved bit set. -/
theorem listedInstrOf_unlisted {w : Nat} (t th : Nat)
    (h : bits w 25 23 ≠ 0 ∨ bits w 7 0 = 0 ∨ (0x0A < bits w 7 0 ∧ bits w 7 0 < 0x10) ∨ 0x12 < bits w 7 0) :
    listedInstrOf t th w = none := by
  rw [listedInstrOf_eq]
  by_cases reserved : bits w 25 23 ≠ 0
  · exact if_pos reserved
  · exact (if_neg reserved).trans (fieldsInstr_unlisted (h.resolve_left reserved) ..)

/-- The row of an unlisted word raises cause ILLEGAL at its thread's program counter. -/
theorem exec_illegalInstr {s : State} {t th : Nat} (hi : s.canIssue t th = true) :
    exec (illegalInstr t th) s = .next (s.threadFault t th 0x0008 (((s.tile t).thread th).pc)) :=
  (exec_aluReg hi ..).trans (congrArg Host.Outcome.next (runAlu_unlisted (by decide)))

/-- Settles O52: an instruction's word is made of its fields, which the decoder reads back (`listedInstrOf_word`), and what the decoder
lists for a word is within its limits, so that it has a word of its own (`listedInstrOf_hasWord`). -/
theorem threadWordsRoundTrip : Obligations.ThreadWordsRoundTrip := by
  unfold Obligations.ThreadWordsRoundTrip
  refine ⟨?encode, ?injective, ?decode, ?unlisted, ?illegal⟩
  case encode =>
    intro i t th w hi h
    obtain ⟨fits, reserved, listed⟩ := listedInstrOf_word hi h
    exact ⟨fits, reserved, threadInstrOf_of_listed listed⟩
  case injective =>
    intro i j t th w hi hj hiw hjw
    exact Option.some.inj ((threadInstrOf_word hi hiw).symm.trans (threadInstrOf_word hj hjw))
  case decode =>
    intro t th w i ht hth _ h
    obtain ⟨hi, w', word, op⟩ := listedInstrOf_hasWord ht hth h
    exact ⟨threadInstrOf_of_listed h, hi, w', word, op, threadInstrOf_word hi word⟩
  case unlisted =>
    intro t th w h
    simp only [threadInstrOf, listedInstrOf_unlisted t th h, Option.getD_none]
  case illegal =>
    intro s t th hi
    exact exec_illegalInstr hi

end Sys2Proof.Proofs
end

section
/-! PROOFS. The firmware and key opcodes and the handover's events (O16). -/

namespace Sys2Proof.Proofs
open Sys2Proof Sys2Proof.Machine Sys2Proof.Laws

/-- fw.stage of an image that passes every check, a standby pair being idle or holding another (R502). -/
theorem runFwStage_eq {s : State} {c : Cmd} {b : List Byte} (hlong : 64 ≤ c.p 8 4) (hb : b = vals (s.peek (c.p 0 8) (c.p 8 4)))
    (hlen : leAt b 8 8 = c.p 8 4) (hclean : (s.peek (c.p 0 8) (c.p 8 4)).any PByte.p = false) (hsound : imgFault b 2 = none)
    (hsigned : s.signed b = true) (hnew : s.cox.version / 2 ^ 24 ≤ leAt b 20 4 / 2 ^ 24) (hup : s.cox.standby ≠ 0)
    (hworks : s.cox.standby ≠ 3) :
    runFwStage s c = ((s.noteRead (c.p 0 8) (c.p 8 4)).modCox (fun x => { x with standby := 2, staged := some ⟨leAt b 20 4, c.p 8 4⟩ }),
      .done (leAt b 20 4)) := by
  subst hb
  simp only [runFwStage, hclean, hsound, hsigned]
  rw [if_neg (by omega), if_neg Bool.false_ne_true]
  exact (if_neg (by decide)).trans ((if_neg (Nat.not_lt.mpr hnew)).trans ((if_neg hworks).trans (if_neg hup)))

/-- fw.handover of a staged image outside a sag (R503). -/
theorem runFwHandover_eq {s : State} {i : FwImage} (c : Cmd) (hworks : s.cox.standby ≠ 3) (hi : s.cox.staged = some i)
    (hsag : s.sagging = false) :
    runFwHandover s c = (((s.takeOver i.version).modCox (fun x => { x with slotWrite := some i })).bump (coxCtr 0x20) 1,
      .done (if s.cox.active then 0 else 1)) := by
  simp only [runFwHandover, hi, hsag, hworks, Bool.false_eq_true, if_false]
  cases s.cox.active <;> rfl

/-- The state with the key slot that sec.key names changed. -/
def withKey (r : State) (c : Cmd) (v : Option (Nat × Nat × Bool)) : State :=
  { r with boat := { r.boat with keys := vset r.boat.keys (c.p 0 1) v } }

/-- What sec.key answers to bytes without poison (R260): a key is written to an empty slot, and zeros revoke one written. -/
theorem runSecKey_clean {s r : State} {c : Cmd} {b : List Byte} (hr : r = s.noteRead (c.p 1 8) 97)
    (hclean : (r.peek (c.p 1 8) 97).any PByte.p = false) (hb : b = vals (r.peek (c.p 1 8) 97)) :
    runSecKey s c =
      if b.all (fun z => z == 0) = true then
        match vget none r.boat.keys (c.p 0 1) with
        | some (x, y, false) => (withKey r c (some (x, y, true)), .done 0)
        | _ => (r, .fail stWrongState)
      else if byteAt b 0 = 4 ∧ onCurve (beNat (slice b 1 48)) (beNat (slice b 49 48)) = true then
        match vget none r.boat.keys (c.p 0 1) with
        | none => (withKey r c (some (beNat (slice b 1 48), beNat (slice b 49 48), false)), .done 0)
        | some _ => (r, .fail stKeyLocked)
      else (r, .bad 1) := by
  subst hr hb
  exact if_neg (ne_true_of_eq_false hclean)

/-- Settles O16: each opcode's checks pass, and what its body answers is one of its branches; so is what each event does. -/
theorem firmwareOpcodesComplete : Obligations.FirmwareOpcodesComplete := by
  unfold Obligations.FirmwareOpcodesComplete
  refine ⟨?stage, ?handover, ?slotWrite, ?reloaded, ?key, ?verify⟩
  case stage =>
    intro s q k c b h himage hlong hb hlen hclean hsound hsigned hnew hup hworks
    exact opcodeRow_reply h (firstBad_eq_none.mpr (by simp [himage]))
      (runFwStage_eq hlong hb hlen hclean hsound hsigned hnew hup hworks)
  case handover =>
    intro s q k c i h hworks hi hsag
    exact opcodeRow_reply h rfl (runFwHandover_eq c hworks hi hsag)
  case slotWrite =>
    intro s i hi hsag
    simp only [exec, execStartImageSlotWrite, hi, hsag]
    rfl
  case reloaded =>
    intro s pass hreload
    exact congrArg Host.Outcome.next (if_pos hreload)
  case key =>
    rintro s _ q k _ _ c _ f h hslot himage rfl hclean rfl rfl rfl rfl
    have passes : chkSecKey s c = none := firstBad_eq_none.mpr (by simp [himage, hslot])
    have answers := runSecKey_clean rfl hclean rfl
    split
    · next zeros =>
      rw [if_pos zeros] at answers
      split
      · next hwritten => exact opcodeRow_reply h passes (answers.trans (by rw [hwritten]; rfl))
      · next hother =>
        refine opcodeRow_reply h passes (answers.trans ?_)
        split
        · next hwritten => exact absurd hwritten (hother _ _)
        · rfl
    · next hform =>
      rw [if_neg hform] at answers
      split
      · next point =>
        rw [if_pos point] at answers
        split
        · next hempty => exact opcodeRow_reply h passes (answers.trans (by rw [hempty]; rfl))
        · next hwritten => exact opcodeRow_reply h passes (answers.trans (by rw [hwritten]; rfl))
      · next hbad => exact opcodeRow_reply h passes (answers.trans (if_neg hbad))
  case verify =>
    rintro s _ q k c _ h himage rfl hlen hclean rfl hsound hsigned
    refine opcodeRow_reply h (firstBad_eq_none.mpr (by simp [himage])) ?_
    simp only [runSecVerify, hlen, hclean, hsound, hsigned]
    rfl

end Sys2Proof.Proofs
end

section
/-! PROOFS. The opcodes of jobs, clients and semaphores (O7). -/

namespace Sys2Proof.Proofs
open Sys2Proof.Machine Sys2Proof.Laws

/-! ### Jobs (R279, R281) -/

/-- What job.submit answers of a context and a model that refuse nothing: the job is entered, and ready if it is its context's first. -/
theorem runJobSubmit_eq {s : State} {c : Cmd} {id : Nat} {x : Ctx} {m : Model} (hid : c.ctx = some id) (hx : s.ctx id = some x)
    (hm : s.model (c.p 0 4) = some m) (hok : s.jobRefusal c x m = none) (hsound : s.tablesBad id = false) {u : State}
    (hu : u = { s with sched := { s.sched with jobs := s.sched.jobs ++ [jobOfCmd c s id] } }) :
    runJobSubmit s c = ((if (s.jobOf id).isNone = true then u.makeReady c.uid else u).schedule, .going) := by
  subst hu
  simp only [runJobSubmit, hid, hx, hm, hok, hsound, Bool.false_eq_true, if_false]

/-- The state in which a cancelled job, named by its command's number, has ended, if it was still there (R281). -/
def endCancelled (u : State) (uid : Nat) : State :=
  match u.job uid with
  | some i => (u.finishJob i false).schedule
  | none => u

/-- What job.cancel answers of a job not torn down: it is marked, and ends at once when its step is ready or spilled, a step that has
been dispatched before leaving its context. -/
theorem runJobCancel_eq {s s1 u : State} {c : Cmd} {id : Nat} {x : Ctx} {j : Job} (hid : c.ctx = some id) (hx : s.ctx id = some x)
    (hj : s.jobOf id = some j) (htorn : x.torn = false) (hlive : ∀ cause, j.state ≠ .tearing cause)
    (hs1 : s1 = s.modJob j.uid (fun j => { j with cancelled := true, detailHi := j.detailHi ||| 1 }))
    (hu : u = (if j.state = .spilled ∨ j.counted = true then ((s1.undefineOut j).dropStep j).leaveStep j.ctx else s1.dropStep j)) :
    runJobCancel s c = (if j.state = .spilled ∨ j.state = .ready then endCancelled u j.uid else s1, .done j.ended) := by
  subst hs1 hu
  simp only [runJobCancel, hid, Option.bind_some, hx, hj, htorn, Bool.false_eq_true, if_false]
  split
  · next cause htearing => exact absurd htearing (hlive cause)
  · next hspilled =>
    simp only [hspilled, true_or, if_true]
    rfl
  · next hready =>
    simp only [hready, reduceCtorEq, false_or, if_true]
    rfl
  · next hspilled hready => rw [if_neg (not_or.mpr ⟨hspilled, hready⟩)]

/-! ### Semaphores (R296) -/

/-- A run of semaphores, as sem.free lists it, holds the numbers from its first up to its end. -/
theorem contains_run (first n i : Nat) :
    ((List.range n).map (first + ·)).contains i = decide (first ≤ i ∧ i < first + n) := by
  rw [Bool.eq_iff_iff, List.contains_iff_mem, List.mem_map, decide_eq_true_eq]
  constructor
  · rintro ⟨k, hk, rfl⟩
    have := List.mem_range.mp hk
    omega
  · rintro ⟨hle, hlt⟩
    exact ⟨i - first, List.mem_range.mpr (by omega), by omega⟩

/-- What sem.free answers of a run of the client's own semaphores that none holds or waits for: it takes them out. -/
theorem runSemFree_eq {s : State} {c : Cmd} (hend : c.p 0 4 + c.p 4 2 ≤ 4096)
    (hown : ∀ i, c.p 0 4 ≤ i → i < c.p 0 4 + c.p 4 2 → ∃ x, s.sem i = some x ∧ x.client = c.client ∧ x.holder = none ∧ x.waiters = []) :
    runSemFree s c = ({ s with sched := { s.sched with
      sems := s.sched.sems.filter (fun p => !decide (c.p 0 4 ≤ p.1 ∧ p.1 < c.p 0 4 + c.p 4 2)) } }, .done 0) := by
  have inRun {i : Nat} (hi : i ∈ (List.range (c.p 4 2)).map (c.p 0 4 + ·)) :
      ∃ x, s.sem i = some x ∧ x.client = c.client ∧ x.holder = none ∧ x.waiters = [] := by
    obtain ⟨hle, hlt⟩ := of_decide_eq_true ((contains_run (c.p 0 4) (c.p 4 2) i).symm.trans (List.contains_iff_mem.mpr hi))
    exact hown i hle hlt
  refine (if_neg ?owned).trans ((if_neg ?idle).trans ?freed)
  case owned =>
    rw [not_or, Nat.not_lt, Bool.not_eq_true', Bool.not_eq_false]
    refine ⟨hend, List.all_eq_true.mpr fun i hi => ?_⟩
    obtain ⟨x, hx, hclient, -, -⟩ := inRun hi
    simp only [hx, hclient, beq_self_eq_true]
  case idle =>
    refine ne_true_of_eq_false (List.any_eq_false.mpr fun i hi => ?_)
    obtain ⟨x, hx, -, hholder, hwaiters⟩ := inRun hi
    simp [hx, hholder, hwaiters]
  case freed => simp only [contains_run]

/-- Settles O7: each opcode's checks pass, and what its body answers is the branch that enters, ends, stores, takes or frees. -/
theorem jobOpcodesComplete : Obligations.JobOpcodesComplete := by
  unfold Obligations.JobOpcodesComplete
  refine ⟨?submit, ?cancel, ?client, ?stats, ?alloc, ?free⟩
  case submit =>
    intro s u q k id c x m h passes hid hx hm hok hsound hu
    exact opcodeRow_going h passes (runJobSubmit_eq hid hx hm hok hsound hu)
  case cancel =>
    intro s s1 u q k id c x j h hid hx hj htorn hlive hs1 hu
    exact opcodeRow_reply h rfl (runJobCancel_eq hid hx hj htorn hlive hs1 hu)
  case client =>
    rintro s q k c _ h hclass hweight rfl
    exact opcodeRow_reply h (firstBad_eq_none.mpr (by simp [hclass, hweight])) rfl
  case stats =>
    rintro s _ q k c _ h hsome hdest hclear rfl rfl
    exact opcodeRow_reply h (firstBad_eq_none.mpr (by simp [hsome, hdest, hclear])) rfl
  case alloc =>
    rintro s q k _ c e h rfl hone hmost hrun
    exact opcodeRow_reply h (firstBad_eq_none.mpr (by simp [Nat.ne_of_gt hone, hmost])) (by simp only [runSemAlloc, hrun]; rfl)
  case free =>
    intro s q k c h hsome hend hown
    exact opcodeRow_reply h (firstBad_eq_none.mpr (by simp [hsome])) (runSemFree_eq hend hown)

end Sys2Proof.Proofs
end

section
/-! PROOFS. The umpires' self-tests and the gap holds (O41). -/

namespace Sys2Proof.Proofs
open Sys2Proof.Machine

/-! ### The end of a segment (R415, R417, R418) -/

/-- A segment that failed takes its umpire out. -/
theorem exec_segmentEnd_failed {s : State} {u : Nat} (ht : (s.umpire u).testing = true) :
    exec (.segmentEnd u false) s = .next (s.segmentFail u).schedule :=
  congrArg Host.Outcome.next (if_neg (by simp [ht]))

/-- A segment that passed before the sixteenth: the next one is due, and a gap is asked for again where the test is late. -/
theorem exec_segmentEnd_passed {s : State} {u : Nat} (ht : (s.umpire u).testing = true) (hseg : (s.umpire u).segment < 15) :
    exec (.segmentEnd u true) s = .next
      (let s1 := s.modUmpire u (fun x => { x with testing := false, segment := x.segment + 1 })
       if (s.umpire u).holdReq = true then s1.askGap u else s1).schedule :=
  congrArg Host.Outcome.next ((if_neg (by simp [ht])).trans (if_pos hseg))

/-- The sixteenth segment passed completes the test. -/
theorem exec_segmentEnd_last {s : State} {u : Nat} (ht : (s.umpire u).testing = true) (hseg : 15 ≤ (s.umpire u).segment) :
    exec (.segmentEnd u true) s = .next
      (((s.modUmpire u (fun x => { x with
        testing := false, segment := 0, tests := min (x.tests + 1) 0xFFFFFFFF, last := s.time.half, stale := false,
        holdReq := false })).dropGap u).schedule) :=
  congrArg Host.Outcome.next ((if_neg (by simp [ht])).trans (if_neg (Nat.not_lt.mpr hseg)))

/-- Settles O41: each event takes its one branch, and a segment's end the branch of its outcome and its place in the test. -/
theorem selfTestsComplete : Obligations.SelfTestsComplete := by
  unfold Obligations.SelfTestsComplete
  refine ⟨?start, ?segmentEnd, ?deferral, ?overdue, ?gap⟩
  case start =>
    intro s u hu hfailed htesting hruns hsafe hsoon
    exact congrArg Host.Outcome.next (if_neg (by simp [Nat.le_of_lt_succ hu, hfailed, htesting, hruns, hsafe, hsoon]))
  case segmentEnd =>
    intro s u ht
    refine ⟨exec_segmentEnd_failed ht, fun hseg hhold => ?onTime, fun hseg hhold => ?late, exec_segmentEnd_last ht⟩
    case onTime =>
      rw [exec_segmentEnd_passed ht hseg, if_neg (ne_true_of_eq_false hhold)]
    case late =>
      rw [exec_segmentEnd_passed ht hseg, if_pos hhold]
  case deferral =>
    intro s u hu hfailed htesting hruns hlate
    exact congrArg Host.Outcome.next (if_neg (by simp [Nat.le_of_lt_succ hu, hfailed, htesting, hruns, hlate]))
  case overdue =>
    intro s u hu hfailed hstale hpower hisland hon hlate
    exact congrArg Host.Outcome.next (if_neg (by simp [Nat.le_of_lt_succ hu, hfailed, hstale, hpower, hisland, hon, hlate]))
  case gap =>
    intro s u u' t n hgap helapsed hnone
    simp only [exec, execGapHoldElapsed, hgap, helapsed, hnone, Bool.not_false, Bool.and_self, if_true]

end Sys2Proof.Proofs
end

section
/-! PROOFS. The planner's heuristic and queue order (O57), its opcodes and the end of a search (O9). -/

namespace Sys2Proof.Proofs
open Sys2Proof.Machine Sys2Proof.Laws

/-! ### The heuristic and the queue (R315) -/

/-- Adding up, from an amount, the terms that a test lets in. -/
theorem foldl_add_ite {α : Type} (p : α → Prop) [DecidablePred p] (f : α → Nat) (l : List α) (a : Nat) :
    l.foldl (fun a d => if p d then a + f d else a) a = a + (l.map (fun d => if p d then f d else 0)).sum := by
  induction l generalizing a with
  | nil => rfl
  | cons d l ih =>
    rw [List.foldl_cons, ih, List.map_cons, List.sum_cons]
    split
    · rw [Nat.add_assoc]
    · rw [Nat.zero_add]

/-- The distance of two coordinates, as the model subtracts them. -/
theorem max_sub_min_eq_natAbs (x g : Nat) : max x g - min x g = ((x : Int) - (g : Int)).natAbs := by omega

/-- What a dimension adds to the heuristic: the distance to the goal, the short way round where the dimension wraps, by its coefficient. -/
def goalTerm (l : LatTab) (goal st : List Nat) (d : Nat) : Nat :=
  if bit l.goal d = 1 then
    l.coef.getD d 0 *
      (if bit l.wrap d = 1 then
        min ((st.getD d 0 : Int) - (goal.getD d 0 : Int)).natAbs
          (l.size.getD d 0 - ((st.getD d 0 : Int) - (goal.getD d 0 : Int)).natAbs)
      else ((st.getD d 0 : Int) - (goal.getD d 0 : Int)).natAbs)
  else 0

theorem h_eq_sum (l : LatTab) (goal st : List Nat) :
    l.h goal st = min 0xFFFFFFFF ((List.range 6).map (goalTerm l goal st)).sum := by
  simp only [LatTab.h, max_sub_min_eq_natAbs, foldl_add_ite, Nat.zero_add]
  rfl

/-- One entry may stand ahead of another: it is lower in the order of R315, or its equal. -/
def NoLater (a b : QEntry) : Prop := a.f < b.f ∨ (a.f = b.f ∧ (a.g < b.g ∨ (a.g = b.g ∧ a.idx ≤ b.idx)))

theorem before_iff (a b : QEntry) :
    a.before b = true ↔ a.f < b.f ∨ (a.f = b.f ∧ (a.g < b.g ∨ (a.g = b.g ∧ a.idx < b.idx))) := by
  simp only [QEntry.before, Bool.or_eq_true, Bool.and_eq_true, decide_eq_true_eq, beq_iff_eq]

theorem NoLater.of_before {a b : QEntry} (h : a.before b = true) : NoLater a b := by
  have := (before_iff a b).mp h
  unfold NoLater
  omega

theorem NoLater.of_not_before {a b : QEntry} (h : ¬a.before b = true) : NoLater b a := by
  have := mt (before_iff a b).mpr h
  unfold NoLater
  omega

theorem NoLater.trans {a b c : QEntry} (h : NoLater a b) (k : NoLater b c) : NoLater a c := by
  unfold NoLater at *
  omega

theorem putEntry_perm (q : List QEntry) (e : QEntry) : (putEntry q e).Perm (e :: q) := by
  induction q with
  | nil => exact .refl _
  | cons x t ih =>
    rw [putEntry]
    split
    · exact .refl _
    · exact (ih.cons x).trans (.swap e x t)

/-- A queue in order stays so: the new entry stands ahead of the first entry it is before, and behind every other. -/
theorem putEntry_ordered {q : List QEntry} (e : QEntry) (h : q.Pairwise NoLater) : (putEntry q e).Pairwise NoLater := by
  induction q with
  | nil => exact List.pairwise_singleton ..
  | cons x t ih =>
    obtain ⟨hx, ht⟩ := List.pairwise_cons.mp h
    rw [putEntry]
    split
    · next hbefore =>
      have first := NoLater.of_before hbefore
      exact .cons (List.forall_mem_cons.mpr ⟨first, fun y hy => first.trans (hx y hy)⟩) h
    · next hafter =>
      refine .cons (fun y hy => ?_) (ih ht)
      rcases List.mem_cons.mp ((putEntry_perm t e).mem_iff.mp hy) with rfl | hy
      · exact .of_not_before hafter
      · exact hx y hy

/-- Settles O57: the model's sum is R315's, and putting an entry in its place keeps the queue's order and its entries. -/
theorem plannerKeysAndOrder : Obligations.PlannerKeysAndOrder := by
  unfold Obligations.PlannerKeysAndOrder
  exact ⟨h_eq_sum, fun _ _ _ => rfl, fun q e hq => ⟨putEntry_ordered e hq, putEntry_perm q e⟩⟩

/-! ### plan.lattice and plan.map (R309 to R312) -/

/-- What an executed command comes to, by its body's result: completed with the reply, or marked as running. -/
def afterBody (q k : Nat) (c : Cmd) : State × Res → State
  | (s, .reply st de re) => s.completed c st de re
  | (s, .going) => s.modCmd q k (fun c => { c with phase := .running })

theorem opcodeRow_body {s : State} {op q k : Nat} {c : Cmd} {cheap : Bool} {check : State → Cmd → Check10}
    {body : State → Cmd → State × Res} {r : State × Res} (h : s.runs op q k c) (hc : check s c = none) (hb : body s c = r) :
    s.opcodeRow op cheap check body q k = .next (afterBody q k c r) := by
  obtain ⟨s', _ | _⟩ := r
  · exact opcodeRow_reply h hc hb
  · exact opcodeRow_going h hc hb

/-- What plan.lattice answers without primitives: it takes out the lattice at its address, which no query uses. -/
theorem runPlanLattice_remove {s : State} {c : Cmd} {x : Lattice} (hn : c.p 8 2 = 0)
    (hx : s.plan.lattices.find? (fun x => x.addr == c.p 0 8) = some x) (hidle : s.queries.any (fun q => q.lattice == x.handle) = false) :
    runPlanLattice s c =
      ({ s with plan := { s.plan with lattices := s.plan.lattices.filter (fun y => y.handle != x.handle) } }, .done x.handle) := by
  simp only [runPlanLattice, hx, hidle, hn, Bool.false_eq_true, if_false, if_true]

/-- The handle that a table at an address is registered under: the one it has, no query using it, or else the lowest free one. -/
def latticeHandle (s : State) (a : Nat) : Option Nat :=
  match s.plan.lattices.find? (fun x => x.addr == a) with
  | some x => if s.queries.any (fun q => q.lattice == x.handle) = true then none else some x.handle
  | none => lowestFree (s.plan.lattices.map Lattice.handle) 0 16

/-- plan.lattice with primitives registers its table where there is a handle for it. -/
theorem runPlanLattice_register {s : State} {c : Cmd} {h : Nat} (hn : c.p 8 2 ≠ 0) (hh : some h = latticeHandle s (c.p 0 8)) :
    runPlanLattice s c = s.registerLattice (c.p 0 8) (c.p 8 2) (c.p 10 1) h := by
  unfold latticeHandle at hh
  unfold runPlanLattice
  split at hh
  · next x hx =>
    split at hh
    · contradiction
    · next hidle =>
      obtain rfl := Option.some.inj hh
      simp only [hx, if_neg hidle, if_neg hn]
  · next hnew => simp only [hnew, if_neg hn, ← hh]

/-- What plan.map answers of a map that no withdrawn line touches: it is installed if it is newer than the map there is. -/
theorem runPlanMap_eq {s : State} {c : Cmd} (hfree : s.namesWithdrawn (c.p 0 8) (mapBytes (c.p 8 2)) = false) :
    runPlanMap s c =
      if c.p 10 4 ≤ s.plan.version then (s, .reply stWrongState s.plan.version 0)
      else ({ s with plan := { s.plan with version := c.p 10 4, edge := c.p 8 2, base := c.p 0 8, current := true } }, .done (c.p 10 4)) :=
  if_neg (ne_true_of_eq_false hfree)

theorem chkPlanMap_none {s : State} {c : Cmd} (halign : c.p 0 8 % 64 = 0) (hone : 1 ≤ c.p 8 2) (hmost : c.p 8 2 ≤ 1024)
    (hin : s.inT1Host (c.p 0 8) (mapBytes (c.p 8 2)) = true) : chkPlanMap s c = none :=
  firstBad_eq_none.mpr (by simp [halign, hin, hmost, Nat.ne_of_gt hone])

/-! ### plan.query and plan.cancel (R314, R319) -/

/-- What plan.query puts into the queue. -/
def queryOfCmd (c : Cmd) (id : Nat) : PlanQuery :=
  { uid := c.uid, ctx := id, client := c.client, lattice := c.p 0 2, start := six c.params 2, goal := six c.params 14,
    weight := c.p 26 4, out := c.p 30 8, unit := c.p 38 1, deadline := c.deadline, noDegrade := c.noDegrade, urgent := false,
    version := 0, base := 0, edge := 0, researches := 0, counts := PlanCounts.zero, takenAt := 0, searchAt := 0, cancels := [],
    check := none }

/-- What plan.query answers of a planner context without a query, a current map and a unit that may serve it: the query waits, and the
units take what they can. -/
theorem runPlanQuery_eq {s r u : State} {c : Cmd} {id : Nat} {x : Ctx} {t : Lattice} (hid : c.ctx = some id) (hx : s.ctx id = some x)
    (hkind : x.kind = 4) (hsound : s.tablesBad id = false) (ht : s.lattice (c.p 0 2) = some t) (hr : r = s.noteRead t.addr 64)
    (hclean : (r.latHead t).any PByte.p = false)
    (hfree : r.namesWithdrawn (c.p 30 8) (planRange (parseLat (vals (r.latHead t)) 0)) = false) (hmap : r.plan.current = true)
    (hidle : r.queries.any (fun q => q.ctx == id) = false) (hunits : r.notRetired 3 ≠ 0)
    (hunit : c.p 38 1 = 0xFF ∨ (r.retired 3 (c.p 38 1) = false ∧ r.quarantined 3 (c.p 38 1) = false))
    (hu : u = r.modPlanCtx id (fun p => { p with lattice := c.p 0 2, state := 1 })) :
    runPlanQuery s c = (State.planPlace { u with plan := { u.plan with queue := u.plan.queue ++ [queryOfCmd c id] } }, .going) := by
  subst hr hu
  have usable : ¬((s.noteRead t.addr 64).notRetired 3 = 0 ∨ (c.p 38 1 ≠ 0xFF ∧ (s.noteRead t.addr 64).retired 3 (c.p 38 1) = true)) := by
    rintro (hnone | ⟨hnamed, hretired⟩)
    · exact hunits hnone
    · exact absurd hretired (ne_true_of_eq_false (hunit.resolve_left hnamed).1)
  have sane : ¬(c.p 38 1 ≠ 0xFF ∧ (s.noteRead t.addr 64).quarantined 3 (c.p 38 1) = true) := fun ⟨hnamed, hq⟩ =>
    absurd hq (ne_true_of_eq_false (hunit.resolve_left hnamed).2)
  simp only [runPlanQuery, hid, Option.bind_some, hx, hkind, hsound, ht, hclean, hfree, hmap, hidle, if_neg usable, if_neg sane,
    ne_eq, not_true_eq_false, Bool.not_true, Bool.or_false, Bool.false_eq_true, if_false]
  rfl

/-- The running query of a context is marked with the command that cancels it. -/
def markCancelled (s : State) (id uid : Nat) : State :=
  { s with plan := { s.plan with units := s.plan.units.map (fun o => o.map (fun q =>
    if q.ctx = id then { q with cancels := q.cancels ++ [uid] } else q)) } }

/-- What plan.cancel answers of a planner context with a query. -/
theorem runPlanCancel_eq {s : State} {c : Cmd} {id : Nat} {x : Ctx} (hid : c.ctx = some id) (hx : s.ctx id = some x) (hkind : x.kind = 4)
    (hsound : s.tablesBad id = false) (hbusy : s.queries.any (fun q => q.ctx == id) = true) :
    runPlanCancel s c =
      match s.plan.queue.find? (fun q => q.ctx == id) with
      | some n => (s.endWaiting n true, .done 0)
      | none => (markCancelled s id c.uid, .going) := by
  simp only [runPlanCancel, hid, Option.bind_some, hx, hkind, hsound, hbusy, ne_eq, not_true_eq_false, Bool.false_eq_true, if_false,
    if_true]
  rfl

/-! ### The end of a search (R315 to R322) -/

/-- PLAN_SEARCH_END of a unit that works and holds a query whose table is free and its header clean. -/
theorem exec_planSearchEnd {s : State} {u : Nat} (cut : Nat) {q : PlanQuery} {x : Lattice} (hq : vget none s.plan.units u = some q)
    (hx : s.lattice q.lattice = some x) (husable : s.usable 3 u = true) (hon : s.domOn (72 + u) = true)
    (hfree : s.heldRange x.addr (s.latTable x).length = false) (hclean : (s.latHead x).any PByte.p = false) {j : PlanJob}
    (hj : j = ⟨parseLat (vals (s.latTable x)) x.prims, x.addr, s.latTable x, q.goal, q.weight, q.base, q.edge⟩) :
    exec (.planSearchEnd u cut) s = .next
      (match q.check with | none => s.endSearch u cut q j | some c => s.endCheck u q j c) := by
  subst hj
  simp only [exec, execPlanSearchEnd, hq, hx, husable, hon, hfree, hclean, Bool.not_true, Bool.or_false, Bool.false_eq_true, if_false]
    <;> rfl

/-- What a query's unit does next when no fence holds a line it reads or the record's place. -/
theorem unlessHeld_free {s : State} {q : PlanQuery} {n : Nat} {r : Search} (t : State)
    (hlines : r.lines.any (fun a => s.heldRange (a * 64) 64) = false) (hout : s.heldRange q.out n = false) :
    s.unlessHeld q n r t = t :=
  if_neg (by rw [hlines, hout]; decide)

/-- A search that nothing cuts short, by how it ended. -/
theorem endSearch_uncut {s : State} {u cut : Nat} {q : PlanQuery} {j : PlanJob} {r : Search} {e : SearchEnd} (hdeadline : q.deadline = none)
    (hcancels : q.cancels = []) (hr : s.runSearch j q.start q.counts none = (r, e))
    (hlines : r.lines.any (fun a => s.heldRange (a * 64) 64) = false) (hout : s.heldRange q.out (planRange j.lat) = false) :
    (e = .empty → s.endSearch u cut q j = s.closeQuery q r (r.endBest stNoPath q.version) false) ∧
    (∀ n, e = .selected n → s.endSearch u cut q j = s.beginCheck u q r n) ∧
    (e = .poisoned → s.endSearch u cut q j = s.poisonQuery q r) := by
  simp only [State.endSearch, hdeadline, hcancels, List.isEmpty_nil, Bool.not_true, Bool.or_false, Bool.false_eq_true, if_false, hr,
    unlessHeld_free _ hlines hout]
  refine ⟨?empty, ?selected, ?poisoned⟩
  case empty =>
    rintro rfl
    rfl
  case selected =>
    rintro n rfl
    rfl
  case poisoned =>
    rintro rfl
    rfl

/-- Settles O9: each opcode's checks pass and its body takes the one branch left, and a search's end goes by how it ended. -/
theorem plannerOpcodesComplete : Obligations.PlannerOpcodesComplete := by
  unfold Obligations.PlannerOpcodesComplete
  refine ⟨?remove, ?register, ?map, ?query, ?cancel, ?searchEnd, ?uncut⟩
  case remove =>
    intro s q k c x h hn hx hidle
    exact opcodeRow_reply h (firstBad_eq_none.mpr (by simp [hn])) (runPlanLattice_remove hn hx hidle)
  case register =>
    intro s q k n c h hone hmost hdims hdims' hhandle
    have checks : chkPlanLattice s c = none :=
      firstBad_eq_none.mpr (by simp [hmost, hdims', Nat.ne_of_gt hdims])
    exact opcodeRow_body h checks (runPlanLattice_register (Nat.ne_of_gt hone) hhandle)
  case map =>
    intro s q k c h halign hone hmost hin hfree
    have checks := chkPlanMap_none halign hone hmost hin
    split
    · next hold => exact opcodeRow_reply h checks ((runPlanMap_eq hfree).trans (if_pos hold))
    · next hnew => exact opcodeRow_reply h checks ((runPlanMap_eq hfree).trans (if_neg hnew))
  case query =>
    rintro s r u q k id c x t _ _ h hid hx hkind checks hsound ht hr hclean rfl hfree hmap hidle hunits hunit rfl hu
    exact opcodeRow_going h checks (runPlanQuery_eq hid hx hkind hsound ht hr hclean hfree hmap hidle hunits hunit hu)
  case cancel =>
    intro s q k id c x h hid hx hkind hsound hbusy
    have answer := runPlanCancel_eq hid hx hkind hsound hbusy
    split
    · next n hwaits => exact opcodeRow_reply h rfl (answer.trans (by rw [hwaits]; rfl))
    · next hruns => exact opcodeRow_going h rfl (answer.trans (by rw [hruns]; rfl))
  case searchEnd =>
    intro s u cut q x j hq hx husable hon hfree hclean hj
    exact exec_planSearchEnd cut hq hx husable hon hfree hclean hj
  case uncut =>
    intro s u cut q j r e hdeadline hcancels hr hlines hout
    exact endSearch_uncut hdeadline hcancels hr hlines hout

end Sys2Proof.Proofs
end

section
/-! PROOFS. One step of the machine (O1, O2). -/

namespace Sys2Proof.Proofs
open Sys2Proof.Machine

/-- The cycle of the clock that drives the elapsed count, its test of the outputs stated of every output (R466). -/
theorem cycle_eq (s : State) : s.cycle =
    if s.time.coarse = true then 5
    else if s.pwr.state = 3 ∨ (s.pwr.state = 2 ∧ s.clk.outs.toList.all (fun o => o.running == false) = true) then 40
    else 2 := by
  have quiet : (!s.clk.outs.toList.any ClkOut.running) = s.clk.outs.toList.all (fun o => o.running == false) := by
    rw [List.not_any_eq_all_not]
    simp only [beq_false]
  rw [State.cycle, quiet]

/-- A tick adds a cycle to the elapsed count, or nothing while it stands. -/
theorem tick_eq (s : State) : s.tick =
    { s with time := { s.time with half := s.time.half + (if s.time.running = false then 0 else s.cycle) } } := by
  obtain ⟨⟨half, running, coarse⟩, _⟩ := s
  cases running <;> rfl

/-- Settles O1: it is how `step` is defined. -/
theorem stepRunsFrontCommand : Obligations.StepRunsFrontCommand := fun _ _ _ => rfl

/-- Settles O2: a step on an empty queue is a tick, and a tick adds one cycle. -/
theorem idleStepOnlyCounts : Obligations.IdleStepOnlyCounts := by
  unfold Obligations.IdleStepOnlyCounts
  intro s h
  calc step s = .next s.tick := by simp only [step, h]
    _ = _ := by rw [tick_eq, cycle_eq]

end Sys2Proof.Proofs
end

section
/-! PROOFS. The fusion opcodes (O10). -/

namespace Sys2Proof.Proofs
open Sys2Proof.Machine Sys2Proof.Laws

/-- A fusion unit that is neither retired nor quarantined lets its commands through (R11). -/
theorem fuseGate_open {s : State} (hr : s.retired 6 0 = false) (hq : s.quarantined 6 0 = false) (r : State × Res) : s.fuseGate r = r :=
  (if_neg (ne_true_of_eq_false hr)).trans (if_neg (ne_true_of_eq_false hq))

/-- Fusion that is off lets its setup commands through too. -/
theorem fuseSetup_open {s : State} (hr : s.retired 6 0 = false) (hq : s.quarantined 6 0 = false) (hoff : s.fuse.enabled = false)
    (r : State × Res) : s.fuseSetup r = r :=
  (fuseGate_open hr hq _).trans (if_neg (ne_true_of_eq_false hoff))

/-- A change to a table's entry turns on nothing but that entry. -/
theorem vmod_congr {α : Type} {n i : Nat} (d : α) {v : Vector α n} {f g : α → α} (h : f (vget d v i) = g (vget d v i)) :
    vmod v i f = vmod v i g := by
  unfold vmod
  split
  · next hi =>
    simp only [vget, hi, dif_pos] at h
    rw [h]
  · rfl

theorem modStream_congr {s : State} {i : Nat} {f g : Stream → Stream} (h : f (s.stream i) = g (s.stream i)) :
    s.modStream i f = s.modStream i g := by
  have streams : vmod s.fuse.streams i f = vmod s.fuse.streams i g := vmod_congr _ h
  simp only [State.modStream, State.modFuse, streams]

/-- What fuse.enable answers of a unit that is neither retired nor quarantined (R328, R351): with the new setting known, the
former one is the other. -/
theorem runFuseEnable_eq {s : State} {c : Cmd} (hr : s.retired 6 0 = false) (hq : s.quarantined 6 0 = false) (hc : c.p 0 1 ≤ 1) :
    runFuseEnable s c =
      if c.p 0 1 = (if s.fuse.enabled = true then 1 else 0) then (s, .done (c.p 0 1))
      else if c.p 0 1 = 0 then ((s.fuseStop.modFuse (fun f => { f with degraded := false })).touch 76, .done 1)
      else match s.fuseOffender with
        | some d => (s, .reply 0x8016 d 0)
        | none => ((s.modFuse FuseSt.begin).wakeDomain 76, .done 0) := by
  rw [runFuseEnable, fuseGate_open hr hq]
  obtain h | h : c.p 0 1 = 0 ∨ c.p 0 1 = 1 := by omega
  · cases s.fuse.enabled <;> simp only [h, b2n] <;> rfl
  · cases s.fuse.enabled <;> simp only [h, b2n] <;> rfl

/-- Settles O10: each opcode's checks pass, the gate of R11 is open, and what the body answers is the branch of its rule. -/
theorem fusionOpcodesComplete : Obligations.FusionOpcodesComplete := by
  unfold Obligations.FusionOpcodesComplete
  refine ⟨?stream, ?xform, ?link, ?tracks, ?out, ?enable⟩
  case stream =>
    rintro s q k c _ _ h passes hr hq hoff rfl rfl
    refine opcodeRow_reply h passes ((fuseSetup_open hr hq hoff _).trans (Prod.ext (modStream_congr ?_) rfl))
    rfl
  case xform =>
    intro s q k c h hnorm hr hq
    exact opcodeRow_reply h (firstBad_eq_none.mpr (by simpa using hnorm)) (fuseGate_open hr hq _)
  case link =>
    intro s q k c h hmoving hchain hjoint hdelay hr hq hoff
    exact opcodeRow_reply h (firstBad_eq_none.mpr (by simp [hmoving, hchain, hjoint, hdelay])) (fuseSetup_open hr hq hoff _)
  case tracks =>
    intro s q k c h hm hmn hn hk hage hage' hcarry hr hq hoff
    exact opcodeRow_reply h (firstBad_eq_none.mpr (by simp; omega)) (fuseSetup_open hr hq hoff _)
  case out =>
    intro s q k c h halign hfew hmany hdest hfree hr hq hoff
    exact opcodeRow_reply h (firstBad_eq_none.mpr (by simp [halign, hfew, hmany, hdest]))
      ((if_neg (ne_true_of_eq_false hfree)).trans (fuseSetup_open hr hq hoff _))
  case enable =>
    intro s q k c h hr hq hone
    refine (opcodeRow_body h (firstBad_eq_none.mpr (by simp [hone])) (runFuseEnable_eq hr hq hone)).trans (congrArg _ ?_)
    rw [apply_ite (afterBody q k c), apply_ite (afterBody q k c)]
    cases s.fuseOffender <;> rfl

end Sys2Proof.Proofs
end

section
/-! PROOFS. The stroke opcodes (O11). -/

namespace Sys2Proof.Proofs
open Sys2Proof Sys2Proof.Machine Sys2Proof.Laws

/-- A chain after one chain changes. -/
theorem chain_modChain (s : State) (c d : Nat) (f : Chain → Chain) :
    (s.modChain c f).chain d = if d = c ∧ c < 4 then f (s.chain d) else s.chain d := vget_vmod _ _ _ _ _

theorem sameChains_sendPositions (s : State) (c : Nat) : SameChains s (s.sendPositions c) := by
  unfold State.sendPositions
  split
  · exact SameChains.refl s
  · exact ⟨rfl, rfl, rfl⟩

/-- The cutoff of a cycle closes it, and changes nothing else of its chain (R359). -/
theorem chain_cutoff (s : State) {c : Nat} (hc : c < 4) : (s.cutoff c).chain c = { s.chain c with cut := true } := by
  unfold State.cutoff
  dsimp only
  split
  · next hcut => rw [← hcut]
  · have misses (t : State) : SameChains t (((s.chain c).loopIds c).foldl (fun s l => if (s.loop l).got then s else s.loopMiss l) t) :=
      SameChains.foldl (fun u l => by
        split
        · exact SameChains.refl u
        · exact sameChains_loopMiss u l) _ t
    rw [((misses _).trans (sameChains_sendPositions _ c)).chain c, chain_modChain, if_pos ⟨rfl, hc⟩]

/-- What stroke.chain makes of a chain, its cycle under way closed (R353, R354). -/
def chainSet (c : Cmd) (x : Chain) : Chain :=
  { x with
    rate := c.p 1 1, joints := c.p 2 1, etherType := c.p 3 2, allow := bit (c.p 5 1) 0 == 1, ret := bit (c.p 5 1) 1 == 1
    running := decide (0 < c.p 2 1), clock := if c.p 2 1 = 0 then 2 else 0
    configured := x.configured || decide (0 < c.p 2 1), begun := if 0 < c.p 2 1 then false else x.begun
    first := if 0 < c.p 2 1 ∧ x.begun then (x.cycle + 1) % 2 ^ 64 else x.first
    returned := false, cut := true, straddle := none }

/-- What stroke.chain answers of a chain all of whose loops are OFF. -/
theorem runStrokeChain_eq {s : State} {c : Cmd} (hoff : ∀ j, j < 32 → (s.loop (32 * c.p 0 1 + j)).state = .off) :
    runStrokeChain s c = ((s.cutoff (c.p 0 1)).modChain (c.p 0 1) (chainSet c), .done 0) :=
  if_neg (by simpa using hoff)

/-- A section as stroke.loop sets it, its delays cleared (R364). -/
def sectionOf (c : Cmd) (i : Nat) : Section :=
  { coefs := (List.range 7).map (fun j => sext 32 (c.p (secOff i + 4 * j) 4))
    shifts := (List.range 7).map (fun j => c.p (secOff i + 28 + j) 1)
    x1 := 0, x2 := 0, x3 := 0, y1 := 0, y2 := 0, y3 := 0, sat := false }

/-- What stroke.enable answers of a loop that may take the setting (R370). -/
theorem runStrokeEnable_eq {s : State} {c : Cmd}
    (hready : c.p 1 1 = 1 → (s.chain (c.p 0 1 / 32)).running = true ∧ c.p 0 1 % 32 < (s.chain (c.p 0 1 / 32)).joints ∧
      (s.loop (c.p 0 1)).sections ≠ [] ∧ (s.loop (c.p 0 1)).profiled = true) :
    runStrokeEnable s c =
      (s.stage (c.p 0 1) (.enable (c.p 1 1 == 1)), .done (if (s.loop (c.p 0 1)).state = .off then 0 else 1)) := by
  have ready : ¬(c.p 1 1 = 1 ∧ (!(s.chain (c.p 0 1 / 32)).running || decide ((s.chain (c.p 0 1 / 32)).joints ≤ c.p 0 1 % 32) ||
      (s.loop (c.p 0 1)).sections.isEmpty || !(s.loop (c.p 0 1)).profiled) = true) := by
    rintro ⟨hon, hbad⟩
    obtain ⟨hrun, hjoint, hsections, hprofiled⟩ := hready hon
    simp [hrun, hsections, hprofiled] at hbad
    omega
  refine (if_neg ready).trans ?_
  cases (s.loop (c.p 0 1)).state <;> rfl

/-- Settles O11: each opcode's checks pass and its body takes the branch of its rule; the cutoff that stroke.chain makes first leaves
the chain's other fields. -/
theorem strokeOpcodesComplete : Obligations.StrokeOpcodesComplete := by
  unfold Obligations.StrokeOpcodesComplete
  refine ⟨?chain, ?loop, ?profile, ?limit, ?target, ?enable, ?tune, ?ff⟩
  case chain =>
    intro s q k c h hc hrate hjoints hether hflags hoff
    have passes : chkStrokeChain s c = none :=
      firstBad_eq_none.mpr (by simp [hc, hrate, hjoints, hether, hflags])
    have hc' : c.p 0 1 < 4 := by omega
    refine ⟨_, opcodeRow_reply h passes (runStrokeChain_eq hoff), ?_⟩
    rw [chain_modChain, if_pos ⟨rfl, hc'⟩, chain_cutoff s hc']
    refine ⟨rfl, rfl, rfl, decide_eq_true_iff, rfl, fun hsome => ?_, rfl, beq_iff_eq, beq_iff_eq⟩
    simp [chainSet, hsome]
  case loop =>
    intro s q k c h passes hoff
    refine ⟨(List.range (c.p 1 1)).map (sectionOf c), opcodeRow_reply h passes (if_neg (not_not_intro hoff)), by simp, fun i hi => ?_⟩
    exact ⟨sectionOf c i, by simp [hi], rfl, rfl, rfl, rfl, rfl, rfl, rfl, rfl⟩
  case profile =>
    intro s q k c h hloop hv ha hj
    exact opcodeRow_reply h (firstBad_eq_none.mpr (by simp [hloop, hv, ha, hj])) rfl
  case limit =>
    intro s q k c h hloop haction
    exact opcodeRow_reply h (firstBad_eq_none.mpr (by simp [hloop, haction])) rfl
  case target =>
    intro s q k c h hloop hrun
    exact opcodeRow_reply h (firstBad_eq_none.mpr (by simp [hloop])) (if_neg (not_not_intro hrun))
  case enable =>
    intro s q k c h hloop hone hready
    exact opcodeRow_reply h (firstBad_eq_none.mpr (by simp [hloop, hone])) (runStrokeEnable_eq hready)
  case tune =>
    intro s q k c h passes hrun hnone
    exact opcodeRow_going h passes (if_neg (by simp [hrun, hnone]))
  case ff =>
    intro s q k c h hchain
    exact opcodeRow_reply h (firstBad_eq_none.mpr (by simp [hchain])) rfl

end Sys2Proof.Proofs
end

section
/-! PROOFS. The switch's opcodes and events (O14, O39). -/

namespace Sys2Proof.Proofs
open Sys2Proof Sys2Proof.Machine Sys2Proof.Laws

/-! ### The opcodes (R382, R388, R389, R391, R396, R398) -/

/-- What net.vlan answers while there is room for the VLAN it sets (R398). -/
theorem runNetVlan_eq {s : State} {c : Cmd}
    (hroom : c.p 2 2 = 0 ∨ (s.net.vlan (c.p 0 2)).isSome = true ∨ s.net.vlans.length < 256) :
    runNetVlan s c = (s.modNet (fun n => n.setVlan ⟨c.p 0 2, c.p 2 2, c.p 4 2⟩), .done 0) := by
  refine if_neg ?_
  rintro ⟨hset, hnew, hfull⟩
  rcases hroom with hroom | hroom | hroom
  · exact hset hroom
  · rw [Option.isNone_eq_false_iff.mpr hroom] at hnew
    contradiction
  · omega

/-- What net.template answers of 128 bytes without poison that empty the slot, or that are sound and match no other template's frames
(R391). -/
theorem runNetTemplate_eq {s : State} {c : Cmd} {l : List Byte} (hfree : s.namesWithdrawn (c.p 1 8) 128 = false)
    (hclean : s.anyPoison (c.p 1 8) 128 = false) (hl : l = vals (s.peek (c.p 1 8) 128))
    (hok : byteAt l 0 = 0xFF ∨ (s.templateOk l = true ∧
      s.net.templates.any (fun x => x.1 != c.p 0 1 && matchKey x.2.bytes == matchKey l) = false)) :
    runNetTemplate s c = ((s.noteRead (c.p 1 8) 128).modNet (fun n => n.setTemplate (c.p 0 1)
      (if byteAt l 0 = 0xFF then none else some ⟨l, 0, 0, none, none, []⟩)), .done 0) := by
  subst hl
  refine (if_neg (ne_true_of_eq_false hfree)).trans ((if_neg (ne_true_of_eq_false hclean)).trans ?_)
  split
  · rfl
  · next hset =>
    obtain ⟨hsound, hunique⟩ := hok.resolve_left hset
    exact (if_neg (by simp [hsound])).trans (if_neg (ne_true_of_eq_false hunique))

/-- An entry put in front of a list or not. -/
theorem ite_singleton_append {α : Type} (p : Prop) [Decidable p] (a : α) (l : List α) :
    (if p then [a] else []) ++ l = if p then a :: l else l := by
  split
  · rfl
  · rfl

/-- Settles O14: each opcode's checks pass and its body takes the branch of its rule. -/
theorem netOpcodesComplete : Obligations.NetOpcodesComplete := by
  unfold Obligations.NetOpcodesComplete
  refine ⟨?port, ?vlan, ?shaper, ?filter, ?template, ?key⟩
  case port =>
    rintro s _ q k _ _ c h rfl hport rfl hrole hzero hvid hvid' rfl
    exact opcodeRow_reply h (firstBad_eq_none.mpr (by simp [hport, hrole, hzero, hvid', Nat.ne_of_gt hvid])) rfl
  case vlan =>
    intro s q k c h hvid hvid' hmembers huntagged hroom
    exact opcodeRow_reply h (firstBad_eq_none.mpr (by simp [hvid', Nat.ne_of_gt hvid, hmembers, huntagged])) (runNetVlan_eq hroom)
  case shaper =>
    intro s q k c h hport hclass hslopes
    exact opcodeRow_reply h (firstBad_eq_none.mpr (by simp [hport, hclass, hslopes])) rfl
  case filter =>
    rintro s q k c _ h passes rfl
    exact opcodeRow_reply h passes rfl
  case template =>
    intro s q k c l h hslot hin hfree hclean hl hok
    exact opcodeRow_reply h (firstBad_eq_none.mpr (by simp [hslot, hin])) (runNetTemplate_eq hfree hclean hl hok)
  case key =>
    rintro s q k c _ _ h passes htrunk rfl rfl
    refine opcodeRow_reply h passes ((if_neg (not_not_intro htrunk)).trans ?_)
    simp only [ite_singleton_append]
    rfl

/-! ### The events (R381 to R385, R392, R395) -/

/-- A link's coming up, on a port where it is down, is reported (R382). -/
theorem linkTo_up {s : State} {p : Nat} (hp : p < 16) (h : (s.nport p).link = false) :
    s.linkTo p true = (s.modPort p (fun x => { x with link := true })).raise 0x0B01 91 p 1 :=
  if_neg (by simp [h, Nat.le_of_lt_succ hp])

/-- A link's loss is counted and reported, and what the port had under way is forgotten (R382, R392, R419). -/
theorem linkTo_down {s : State} {p : Nat} (hp : p < 16) (h : (s.nport p).link = true) :
    s.linkTo p false = (((s.modPort p (fun x => { x with link := false })).modNet (fun n => (n.stopSamples p).forget p)).bump
      (netCtr p 0x38) 1).raise 0x0B01 91 p 0 :=
  if_neg (by simp [h, Nat.le_of_lt_succ hp])

/-- A frame that arrives on a live port of the powered switch. -/
theorem exec_frameReceive_live {s : State} {port : Nat} (frame : List Byte) (bad : Bool) (hon : s.netOn = true) (hport : port ≤ 15)
    (hlive : (s.nport port).live = true) :
    exec (.frameReceive port frame bad) s = .next
      (if 9216 < frame.length + 4 then s.bump (netCtr port 0x10) 1
      else if 12 ≤ port then (if bad = true then s.bump (netCtr port 0x08) 1 else s)
      else if bad = true then s.badFrame port frame
      else if frame.length < 14 then s
      else match s.unprotect port frame with
        | (s1, none) => s1
        | (s1, some f) => s1.bridge port (frame.length + 4) f) :=
  congrArg Host.Outcome.next (if_neg (by simp [hon, hport, hlive]))

/-- Settles O39: each event takes its one branch. -/
theorem switchEventsComplete : Obligations.SwitchEventsComplete := by
  unfold Obligations.SwitchEventsComplete
  refine ⟨?receive, ?transmit, ?link, ?age⟩
  case receive =>
    intro s port frame bad hon hport hlive
    rw [exec_frameReceive_live frame bad hon hport hlive]
    refine ⟨fun hlong => ?_, fun hshort hjoint => ?_, fun hshort hswitch hbad => ?_, fun hshort hswitch hgood => ?_⟩
    · rw [if_pos hlong]
    · rw [if_neg (Nat.not_lt.mpr hshort), if_pos hjoint]
    · rw [if_neg (Nat.not_lt.mpr hshort), if_neg (Nat.not_le.mpr hswitch), if_pos hbad]
    · exact congrArg Host.Outcome.next ((if_neg (Nat.not_lt.mpr hshort)).trans ((if_neg (Nat.not_le.mpr hswitch)).trans
        (if_neg (ne_true_of_eq_false hgood))))
  case transmit =>
    intro s port hon hport hlive hidle
    refine congrArg Host.Outcome.next ((if_neg (by simp [hon, hlive, hidle, Nat.le_of_lt_succ hport])).trans ?_)
    cases (s.nport port).nextFrame s.time.half <;> rfl
  case link =>
    intro s port hon hport
    refine ⟨fun hrole hlink => ?_, fun hlink => ?_⟩
    · exact congrArg Host.Outcome.next ((if_neg (by simp [hon, hrole])).trans (linkTo_up hport hlink))
    · exact congrArg Host.Outcome.next ((if_neg (by simp [hon])).trans (linkTo_down hport hlink))
  case age =>
    intro s i e hon he hold
    simp only [exec, execFdbAgeOut, he, hon, hold, Bool.and_self, if_true]
    rfl

end Sys2Proof.Proofs
end

section
/-! PROOFS. The safety opcodes (O12) and the checks of safety-relevant steps (O40). -/

namespace Sys2Proof.Proofs
open Sys2Proof.Machine Sys2Proof.Laws

/-- What safe.job answers of a pinned model that no job uses, with both addresses 0: its mark is gone (R402). -/
theorem runSafeJob_unmark {s : State} {c : Cmd} {m : Model} (hm : s.model (c.p 0 4) = some m) (hpinned : m.pinned = true)
    (hidle : m.inUse = 0) (hin : c.p 4 8 = 0) (hout : c.p 12 8 = 0) : runSafeJob s c = (s.unmark (c.p 0 4), .done 0) := by
  simp only [runSafeJob, hm, hpinned, hidle, hin, hout, ne_eq, not_true_eq_false, Bool.not_true, Bool.false_eq_true, and_self,
    if_false, if_true]

/-- What safe.job answers of such a model and a sound pair of ranges: the marking (R402, R407, R408). -/
theorem runSafeJob_mark {s : State} {c : Cmd} {m : Model} {p : PhaseEntry} (hm : s.model (c.p 0 4) = some m) (hpinned : m.pinned = true)
    (hidle : m.inUse = 0) (hset : c.p 4 8 ≠ 0 ∨ c.p 12 8 ≠ 0) (hp : m.safePhase = some p) (hin : p.inBytes ≤ 2 ^ 20)
    (hout : p.outBytes ≤ 2 ^ 20) (hgrants : m.placements.any m.writeGrant = false) (hinAt : s.inT1Host (c.p 4 8) p.inBytes = true)
    (houtAt : s.inT1Host (c.p 12 8) (p.outBytes + 64) = true) (htrailer : trailerOk (vals (s.peek (c.p 12 8 + p.outBytes) 64)) = true)
    (hinFree : s.namesWithdrawn (c.p 4 8) p.inBytes = false) (houtFree : s.namesWithdrawn (c.p 12 8) (p.outBytes + 64) = false) :
    runSafeJob s c = s.mark (c.p 0 4) (c.p 4 8) (c.p 12 8) p.inBytes p.outBytes := by
  have sets : ¬(c.p 4 8 = 0 ∧ c.p 12 8 = 0) := by omega
  have sized : ¬(2 ^ 20 < p.inBytes ∨ 2 ^ 20 < p.outBytes ∨ m.placements.any m.writeGrant = true) := by
    rw [hgrants]
    simp only [Bool.false_eq_true, or_false]
    omega
  simp only [runSafeJob, hm, hpinned, hidle, hp, if_neg sets, if_neg sized, hinAt, houtAt, htrailer, hinFree, houtFree, ne_eq,
    not_true_eq_false, Bool.not_true, Bool.or_false, Bool.false_eq_true, if_false]

/-- Settles O12: each opcode's checks pass and its body takes the branch of its rule. -/
theorem safetyOpcodesComplete : Obligations.SafetyOpcodesComplete := by
  unfold Obligations.SafetyOpcodesComplete
  refine ⟨?unmark, ?mark, ?frozen, ?selftest⟩
  case unmark =>
    intro s q k c m h hm hpinned hidle hin hout
    exact opcodeRow_reply h rfl (runSafeJob_unmark hm hpinned hidle hin hout)
  case mark =>
    intro s q k c m p h hm hpinned hidle hset hp hin hout hgrants hinAt houtAt htrailer hinFree houtFree
    refine (opcodeRow_body h rfl (runSafeJob_mark hm hpinned hidle hset hp hin hout hgrants hinAt houtAt htrailer hinFree
      houtFree)).trans (congrArg Host.Outcome.next ?_)
    obtain ⟨s', _ | _⟩ := s.mark (c.p 0 4) (c.p 4 8) (c.p 12 8) p.inBytes p.outBytes
    · rfl
    · rfl
  case frozen =>
    rintro s q k c _ h hport hone rfl
    refine opcodeRow_reply h (firstBad_eq_none.mpr (by simp [hport, hone])) ?_
    simp only [runSafeFrozen, beq_iff_eq]
    rfl
  case selftest =>
    intro s q k c h hdest
    exact opcodeRow_reply h (firstBad_eq_none.mpr (by simp [hdest])) rfl

/-! ### Checks (R404, R408, R409, R412) -/

/-- GOLDEN_COMPARE of a step that waits for its comparison, the die bridge being up. -/
theorem exec_goldenCompare_judging {s u : State} {ctx : Nat} {j : Job} {m : Model} {k : SafeMark} (hj : s.jobOf ctx = some j)
    (hst : j.state = .judging) (harea : j.goldenArea.isSome = true) (hdown : s.fault.bridge.down = false)
    (hlost : s.fault.bridge.lost = false) (hm : s.model j.model = some m) (hk : m.safe = some k)
    (hu : u = (s.freeGolden j).judged j.uid j.tiles (if s.goldenSame j k = true then 0 else 8)) :
    exec (.goldenCompare ctx) s = .next
      (if s.goldenSame j k = true then u.tryVerdict j.uid
      else (u.modJob j.uid (fun j => { j with mismatch := true, state := .testing })).bump (safeCtr 0x100) 1) := by
  subst hu
  simp only [exec, execGoldenCompare, hj, hst, harea, hdown, hlost, hm, hk, Option.bind_some, Bool.or_self, Bool.not_false,
    and_self, if_true]

/-- Settles O40: each event takes its one branch. -/
theorem checksComplete : Obligations.ChecksComplete := by
  unfold Obligations.ChecksComplete
  refine ⟨?record, ?golden, ?tests⟩
  case record =>
    intro s t a i j c hc hdown hlost
    refine ⟨?_, fun hlate => ?_⟩
    · simp only [exec, execCheckRecord, hc, hdown, hlost, Bool.or_self, Bool.false_eq_true, if_false]
    · simp only [exec, execCheckRecordTimeout, hc, hdown, hlost, hlate, Bool.not_false, Bool.and_self, if_true]
  case golden =>
    intro s u ctx j m k hj hst harea hdown hlost hm hk hu
    exact exec_goldenCompare_judging hj hst harea hdown hlost hm hk hu
  case tests =>
    rintro s _ _ ctx fails _ j hj hst rfl rfl rfl
    simp only [exec, execTileTestDone, hj, hst, if_true]

end Sys2Proof.Proofs
end

section
/-! PROOFS. The fault opcodes (O15). -/

namespace Sys2Proof.Proofs
open Sys2Proof.Machine Sys2Proof.Laws

/-- What fault.retire answers of a unit there is: it finds it retired, or retires it with its fence confirmed (R439). -/
theorem runFaultRetire_eq (s : State) (c : Cmd) : runFaultRetire s c =
    (if s.retired (c.p 0 1) (c.p 1 2) = true then s
      else ((s.retire (c.p 0 1) (c.p 1 2) 8).modUnit (c.p 0 1) (c.p 1 2) (fun u => { u with confirmed := true })).answerProbes, .done 0) :=
  (apply_ite (fun u : State => (u, Res.done 0)) _ _ _).symm

/-- Settles O15: each opcode's checks pass, and what its body answers is one of its branches. -/
theorem faultOpcodesComplete : Obligations.FaultOpcodesComplete := by
  unfold Obligations.FaultOpcodesComplete
  refine ⟨?status, ?retire, ?probe, ?bucket⟩
  case status =>
    intro s q k c h hdest
    exact opcodeRow_reply h (firstBad_eq_none.mpr (by simp [hdest])) rfl
  case retire =>
    intro s q k c h passes
    exact opcodeRow_reply h passes (runFaultRetire_eq s c)
  case probe =>
    intro s q k c h passes
    split
    · next waits => exact opcodeRow_going h passes (if_pos waits)
    · next known => exact opcodeRow_reply h passes (if_neg known)
  case bucket =>
    intro s q k c h htype hone hmost hwindow hwindow'
    exact opcodeRow_reply h (firstBad_eq_none.mpr (by simp [htype, hmost, hwindow', Nat.ne_of_gt hone, Nat.ne_of_gt hwindow])) rfl

end Sys2Proof.Proofs
end

section
/-! PROOFS. The power and clock opcodes (O13). -/

namespace Sys2Proof.Proofs
open Sys2Proof.Machine Sys2Proof.Laws

/-- A rating or an output that is asked for finds the PLL stable. -/
theorem pll_serves {s : State} {n : Nat} (h : n = 0 ∨ s.pllStable = true) : ¬(n ≠ 0 ∧ (!s.pllStable) = true) := by
  rintro ⟨hasked, hunstable⟩
  rw [h.resolve_left hasked] at hunstable
  contradiction

/-- What pwr.state answers at once: the present state, Row or Paddle (R450). -/
theorem runPwrState_now {s : State} {c : Cmd} (h : c.p 0 1 < 2 ∨ c.p 0 1 = s.pwr.state) :
    runPwrState s c =
      if c.p 0 1 = s.pwr.state then (s, .done (c.p 0 1))
      else if c.p 0 1 = 0 then ((s.modPwr (fun p => { p with state := 0, wakeEnabled := 0 })).ungate, .done 0)
      else (s.modPwr (fun p => { p with state := 1, wakeEnabled := bits (c.p 1 4) 15 0 }), .done 1) := by
  unfold runPwrState
  dsimp only
  split
  · rfl
  · next hnew =>
    split
    · rfl
    · next hrow => rw [if_pos (by omega)]

/-- The entry that pwr.state begins: no agent has answered, and no stage has passed (R452). -/
def entryOfCmd (s : State) (c : Cmd) : Entry :=
  { uid := c.uid, target := c.p 0 1, wakeWord := c.p 1 4, stage := 0
    agents := (s.askedDomains (c.p 0 1) (c.p 1 4)).map (fun d => (d, Answer.none)), fired := none, passed := none }

/-- What pwr.state answers for Easy or Moored, Moored being refused on the RC oscillator and in a sag (R450, R451). -/
theorem runPwrState_entry {s : State} {c : Cmd} (hdeep : 2 ≤ c.p 0 1) (hnew : c.p 0 1 ≠ s.pwr.state)
    (hmoored : c.p 0 1 = 3 → s.time.coarse = false ∧ s.sagging = false) :
    runPwrState s c = (s.modPwr (fun p => { p with entry := some (entryOfCmd s c) }), .going) := by
  have clocked : ¬(c.p 0 1 = 3 ∧ s.time.coarse = true) := fun ⟨h3, hcoarse⟩ => ne_true_of_eq_false (hmoored h3).1 hcoarse
  have supplied : ¬(c.p 0 1 = 3 ∧ s.sagging = true) := fun ⟨h3, hsag⟩ => ne_true_of_eq_false (hmoored h3).2 hsag
  refine (if_neg hnew).trans ((if_neg (by omega)).trans ((if_neg (by omega)).trans ((if_neg clocked).trans (if_neg supplied))))

/-- What clk.source answers of a source it may choose (R465, R467). -/
theorem runClkSource_eq {s : State} {c : Cmd} (hone : c.p 0 1 ≤ 1) (hpll : c.p 0 1 = 1 → s.pllStable = true) :
    runClkSource s c =
      (if c.p 0 1 = 1 ∧ s.time.coarse = true then
        State.raise { s with clk := { s.clk with src := c.p 0 1 == 1 }, time := { s.time with coarse := false } } 0x0109 95 0 0
      else { s with clk := { s.clk with src := c.p 0 1 == 1 } }, .done (if s.clk.src = true then 1 else 0)) := by
  unfold runClkSource
  obtain h | h : c.p 0 1 = 0 ∨ c.p 0 1 = 1 := by omega
  · simp only [h]
    rfl
  · simp only [h, hpll h]
    cases s.time.coarse
    · rfl
    · rfl

/-- Settles O13: each opcode's checks pass and its body takes the branch of its rule. -/
theorem powerOpcodesComplete : Obligations.PowerOpcodesComplete := by
  unfold Obligations.PowerOpcodesComplete
  refine ⟨?cap, ?sag, ?hint, ?now, ?entry, ?lock, ?source, ?out⟩
  case cap =>
    intro s q k c h hlow hhigh horder
    exact opcodeRow_reply h (firstBad_eq_none.mpr (by simp [hlow, hhigh, horder])) rfl
  case sag =>
    intro s q k c h passes
    exact opcodeRow_reply h passes rfl
  case hint =>
    intro s q k c h hsoon hlow hhigh
    exact opcodeRow_reply h (firstBad_eq_none.mpr (by simp [hsoon, hlow, hhigh])) rfl
  case now =>
    intro s q k c h passes hnow
    refine (opcodeRow_body h passes (runPwrState_now hnow)).trans (congrArg Host.Outcome.next ?_)
    rw [apply_ite (afterBody q k c), apply_ite (afterBody q k c)]
    rfl
  case entry =>
    intro s q k c h passes hdeep hnew hmoored
    exact ⟨entryOfCmd s c, opcodeRow_going h passes (runPwrState_entry hdeep hnew hmoored), rfl, rfl, rfl, rfl, rfl, rfl, rfl⟩
  case lock =>
    intro s q k c h hrating hmask hpll
    exact opcodeRow_reply h (firstBad_eq_none.mpr (by simp; omega)) (if_neg (pll_serves hpll))
  case source =>
    rintro s _ q k c h hone hpll rfl
    exact opcodeRow_reply h (firstBad_eq_none.mpr (by simp [hone])) (runClkSource_eq hone hpll)
  case out =>
    intro s q k c h passes hpll
    exact opcodeRow_reply h passes (if_neg (pll_serves hpll))

end Sys2Proof.Proofs
end

section
/-! PROOFS. The clock judge (O47). -/

namespace Sys2Proof.Proofs
open Sys2Proof Sys2Proof.Machine

/-- What the loss of a candidate does, by the candidate (R355, R464, R467). -/
theorem candLost_eq {s u : State} {c : Nat} (hu : u = { s with clk := { s.clk with cands := vset s.clk.cands c ⟨0, false⟩ } }) :
    s.candLost c =
      if c = 0 ∧ (s.cand 0).stable = true then u.crystalLost else if 2 ≤ c then u.chainClockLost (c - 2) else u := by
  subst hu
  unfold State.candLost
  dsimp only
  split
  · next h0 =>
    subst h0
    simp only [true_and]
    rfl
  · next hother => exact (if_neg (fun h => hother h.1)).symm

/-- Settles O47: each event takes its one branch, and both ways of losing a candidate are the same loss. -/
theorem clockEventsComplete : Obligations.ClockEventsComplete := by
  unfold Obligations.ClockEventsComplete
  refine ⟨?passes, ?lost⟩
  case passes =>
    intro s c n hc hok
    exact congrArg Host.Outcome.next ((if_neg (Nat.not_lt.mpr hc)).trans (if_pos hok))
  case lost =>
    rintro s u _ c n hc hu rfl
    refine ⟨fun hfails => congrArg Host.Outcome.next ?_, fun hstable => congrArg Host.Outcome.next ?_⟩
    · exact (if_neg (Nat.not_lt.mpr hc)).trans ((if_neg (ne_true_of_eq_false hfails)).trans (candLost_eq hu))
    · exact (if_pos ⟨hc, hstable⟩).trans (candLost_eq hu)

end Sys2Proof.Proofs
end

section
/-! PROOFS. Entries into Easy and Moored, and the way back (O45, O46). -/

namespace Sys2Proof.Proofs
open Sys2Proof Sys2Proof.Machine

/-! ### The entries (R452 to R456) -/

/-- ENTRY_POINT_REACHED while every agent has answered and point 3 is ahead (R453). -/
theorem exec_entryPointReached_answered {s : State} {e : Entry} (he : s.pwr.entry = some e) (hahead : e.passed = none)
    (hanswered : e.answered = true) :
    exec .entryPointReached s = .next
      (match s.entryStop e with
        | some (c, w) => s.abandonEntry e c w
        | none =>
          if e.stage < 3 then s.modPwr (fun p => { p with entry := some { e with stage := e.stage + 1 } })
          else ((s.finishUid e.uid true 0 0 e.target).replyNow e.uid).modPwr (fun p =>
            { p with entry := some { e with passed := some s.time.half } })) := by
  simp only [exec, execEntryPointReached, he]
  exact congrArg Host.Outcome.next (if_neg (by simp [hahead, hanswered]))

/-- Settles O45: each event takes its one branch. -/
theorem entriesComplete : Obligations.EntriesComplete := by
  unfold Obligations.EntriesComplete
  refine ⟨?answer, ?timeout, ?point, ?rails⟩
  case answer =>
    intro s e d d' a he ha
    simp only [exec, execAgentAnswer, he, ha]
    cases a <;> rfl
  case timeout =>
    intro s e d d' t he ha hlate
    simp only [exec, execAgentDelayTimeout, he, ha, hlate, if_true]
  case point =>
    intro s e he hahead hanswered
    rw [exec_entryPointReached_answered he hahead hanswered]
    refine ⟨fun c w hstop => ?_, fun hgoes hstage => ?_, fun hgoes hstage => ?_⟩
    · rw [hstop]
    · rw [hgoes]
      exact congrArg Host.Outcome.next (if_pos hstage)
    · rw [hgoes]
      exact congrArg Host.Outcome.next (if_neg (Nat.not_lt.mpr hstage))
  case rails =>
    rintro s _ e t he hpassed hserved rfl
    have served : ¬(e.target = 3 ∧ (!s.since t (us 100)) = true) := by
      rintro ⟨hmoored, hearly⟩
      rw [hserved hmoored] at hearly
      contradiction
    simp only [exec, execRailsOff, he, hpassed]
    exact congrArg Host.Outcome.next (if_neg served)

/-! ### The wake sources and the return from Easy (R186, R456, R457, R461, R462) -/

/-- Settles O46: each source and each stage is the one branch of its rule. -/
theorem wakesComplete : Obligations.WakesComplete := by
  unfold Obligations.WakesComplete
  refine ⟨?timer, ?sag, ?energy, ?call, ?rails, ?memory, ?row, ?compute, ?tests⟩
  case timer => exact fun s hdue => congrArg Host.Outcome.next (if_pos hdue)
  case sag => exact fun s => rfl
  case energy => exact fun s port hport => congrArg Host.Outcome.next (if_pos hport)
  case call =>
    rintro s _ b rfl
    rfl
  case rails =>
    rintro s _ h rfl
    simp only [exec, execEasyReturnStage, h]
  case memory =>
    intro s h
    simp only [exec, execEasyReturnStage, h]
    rfl
  case row =>
    intro s h
    simp only [exec, execEasyReturnStage, h]
    rfl
  case compute =>
    intro s h
    simp only [exec, execEasyReturnStage, h]
  case tests =>
    intro s h
    simp only [exec, execEasyReturnStage, h]

end Sys2Proof.Proofs
end

section
/-! PROOFS. Power control, telemetry, hints and rating slips (O48, O49). -/

namespace Sys2Proof.Proofs
open Sys2Proof Sys2Proof.Machine Sys2Proof.Laws

/-! ### The controller and VDD_CORE (R474, R476, R481 to R485, R510) -/

/-- A quotient changes nothing of the state but which free value comes next. -/
theorem roundDiv_state (s : State) (a b : Nat) : (s.roundDiv a b).2 = { s with free := (s.roundDiv a b).2.free } := by
  unfold State.roundDiv
  split
  · rfl
  · rfl

/-- The rail is written from 400 µs after acceptance on, and then only within its limits (R476, R510). -/
theorem setVcore_written {s : State} (hup : s.start.stage = .accepting) (hlate : s.since s.start.acceptedAt (us 400) = true) :
    ∃ v n : Nat, 580 ≤ v ∧ v ≤ 950 ∧ s.setVcore = { s with free := n, cap := { s.cap with vcore := v } } := by
  have writes : ¬(decide (s.start.stage ≠ .accepting) || !s.since s.start.acceptedAt (us 400)) = true := by simp [hup, hlate]
  rw [State.setVcore, if_neg writes]
  dsimp only
  rw [roundDiv_state]
  exact ⟨_, _, le_max_left _ _, max_le (by decide) (min_le_left _ _), rfl⟩

/-- The rail is not written before. -/
theorem setVcore_idle {s : State} (h : ¬(s.start.stage = .accepting ∧ s.since s.start.acceptedAt (us 400) = true)) : s.setVcore = s := by
  refine if_pos ?_
  simp only [Bool.or_eq_true, decide_eq_true_eq, Bool.not_eq_true', ← Bool.not_eq_true]
  exact not_and_or.mp h

/-- Settles O48: each event takes its one branch, the numbers of notches and VDD_CORE's value being those of the free values drawn. -/
theorem powerControlCompletes : Obligations.PowerControlCompletes := by
  unfold Obligations.PowerControlCompletes
  refine ⟨?tick, ?written, ?idle, ?lost, ?mismatch, ?agrees, ?valid, ?unreliable, ?thermal, ?band⟩
  case tick =>
    rintro s _ v w est meas rfl hv hw
    refine ⟨Config.freeValue v.free % 4096, Config.freeValue w.free % 1200, _, rfl, ?_⟩
    subst hw hv
    simp only [exec, execCapControlTick, State.draw, Bool.not_eq_true']
  case written => exact fun s hup hlate => setVcore_written hup hlate
  case idle => exact fun s h => setVcore_idle h
  case lost =>
    intro s htelem hlate
    exact ⟨_, rfl, congrArg Host.Outcome.next (if_pos ⟨htelem, hlate⟩)⟩
  case mismatch =>
    intro s t htelem ht hlate
    simp only [exec, execMismatchTimer, ht, htelem, hlate, and_self, if_true]
  case agrees =>
    intro s t hshaken htelem ht hlong
    exact congrArg Host.Outcome.next ((if_neg htelem).trans (if_pos ⟨hshaken, by simpa only [ht] using hlong⟩))
  case valid =>
    intro s t htelem ht hlong
    exact congrArg Host.Outcome.next ((if_pos htelem).trans (if_pos (by simpa only [ht] using hlong)))
  case unreliable =>
    intro s htelem hlate
    exact congrArg Host.Outcome.next (if_pos ⟨htelem, hlate⟩)
  case thermal => exact fun s temp => rfl
  case band =>
    intro s d temp hd
    refine congrArg Host.Outcome.next (if_congr ?_ rfl rfl)
    exact or_iff_right (by omega)

/-! ### Hints and slips (R478, R479, R488) -/

/-- A domain's slips are reported, and their count starts again. -/
def takeSlips (s : State) (d n : Nat) : State := (s.modCap (fun c => { c with slips := vset c.slips d 0 })).raise 0x0A03 d 0 n

/-- What RATING_SLIP_REPORT does for one domain. -/
def reportDomain (s : State) (d : Nat) : State :=
  if vget 0 s.cap.slips d = 0 then s else takeSlips s d (vget 0 s.cap.slips d)

theorem exec_ratingSlipReport (s : State) : exec .ratingSlipReport s = .next ((List.range 77).foldl reportDomain s) := rfl

theorem slips_takeSlips (s : State) {d : Nat} (n e : Nat) (hd : d < 77) :
    vget 0 (takeSlips s d n).cap.slips e = if e = d then 0 else vget 0 s.cap.slips e := by
  simp [takeSlips, State.modCap, vget_vset, hd]

/-- After a domain's turn it has no slips, and every other has the slips it had. -/
theorem slips_reportDomain (s : State) {d : Nat} (e : Nat) (hd : d < 77) :
    vget 0 (reportDomain s d).cap.slips e = if e = d then 0 else vget 0 s.cap.slips e := by
  unfold reportDomain
  split
  · next hnone =>
    split
    · next he => rw [he, hnone]
    · rfl
  · exact slips_takeSlips s _ e hd

/-- Every domain that has had its turn is without slips. -/
theorem slips_foldl_reportDomain {d : Nat} (l : List Nat) (hl : ∀ e ∈ l, e < 77) (s : State) (h : d ∈ l ∨ vget 0 s.cap.slips d = 0) :
    vget 0 (l.foldl reportDomain s).cap.slips d = 0 := by
  induction l generalizing s with
  | nil => simpa using h
  | cons e l ih =>
    obtain ⟨he, hl⟩ := List.forall_mem_cons.mp hl
    refine ih hl _ ?_
    rw [slips_reportDomain s d he]
    rcases h with h | h
    · rcases List.mem_cons.mp h with rfl | h
      · exact .inr (if_pos rfl)
      · exact .inl h
    · exact .inr (by rw [h, ite_self])

/-- The turns of different domains report what each had slipped at first, and only the domains that had slipped. -/
theorem foldl_reportDomain_eq {s : State} (l : List Nat) (hl : ∀ d ∈ l, d < 77) (hdiff : l.Nodup) (u : State)
    (hu : ∀ d ∈ l, vget 0 u.cap.slips d = vget 0 s.cap.slips d) :
    l.foldl reportDomain u =
      (l.filter (fun d => vget 0 s.cap.slips d != 0)).foldl (fun u d => takeSlips u d (vget 0 s.cap.slips d)) u := by
  induction l generalizing u with
  | nil => rfl
  | cons d l ih =>
    obtain ⟨hd, hl⟩ := List.forall_mem_cons.mp hl
    obtain ⟨hud, hul⟩ := List.forall_mem_cons.mp hu
    obtain ⟨hnew, hdiff⟩ := List.nodup_cons.mp hdiff
    have later : ∀ e ∈ l, vget 0 (reportDomain u d).cap.slips e = vget 0 s.cap.slips e := by
      intro e he
      rw [slips_reportDomain u e hd, if_neg (fun h : e = d => hnew (h ▸ he)), hul e he]
    rw [List.foldl_cons, ih hl hdiff _ later, List.filter_cons]
    by_cases hnone : vget 0 s.cap.slips d = 0
    · rw [reportDomain, if_pos (hud.trans hnone), if_neg (by simp [hnone])]
    · rw [reportDomain, if_neg (hud ▸ hnone), if_pos (by simp [hnone]), List.foldl_cons, hud]

/-- Settles O49: each event takes its one branch; the report takes the domains in turn, none touching another's slips. -/
theorem hintsAndSlipsComplete : Obligations.HintsAndSlipsComplete := by
  unfold Obligations.HintsAndSlipsComplete
  have below : ∀ d ∈ List.range 77, d < 77 := fun d => List.mem_range.mp
  refine ⟨?begins, ?lapses, ?slip, ?report⟩
  case begins =>
    intro s i h hi hwaits hdue
    simp only [exec, execHintIntervalBegin, hi, hwaits, hdue, decide_true, Bool.not_false, Bool.and_self, if_true]
  case lapses =>
    intro s i h hi hpast
    simp only [exec, execHintLapse, hi, hpast, if_true]
  case slip =>
    intro s d hd hlocked hon
    exact congrArg Host.Outcome.next (if_pos ⟨hd, hlocked, hon⟩)
  case report =>
    intro s
    refine ⟨_, exec_ratingSlipReport s, fun d hd => ?_, ?_⟩
    · exact slips_foldl_reportDomain _ below s (.inl (List.mem_range.mpr hd))
    · exact foldl_reportDomain_eq _ below List.nodup_range s (fun _ _ => rfl)

end Sys2Proof.Proofs
end

section
/-! PROOFS. The fall of a rail (O60). -/

namespace Sys2Proof.Proofs
open Sys2Proof.Machine Sys2Proof.Laws

theorem moveTo_pending (s : State) (a : Nat) (b : List PByte) : (s.moveTo a b).pending = s.pending := storeBytes_pending s a b

/-- Page writes cut short by a supply's loss leave the queue of waiting commands. -/
theorem tearWrites_pending (s : State) : s.tearWrites.pending = s.pending := by
  refine List.foldlRecOn (motive := fun u : State => u.pending = s.pending) _ _ rfl (fun u hu w _ => ?_)
  refine List.foldlRecOn (motive := fun v : State => v.pending = s.pending) _ _ hu (fun v hv p _ => ?_)
  dsimp only
  split
  · exact (moveTo_pending _ _ _).trans hv
  · exact hv

/-- The supplies' judgement moves the start sequence on, and leaves its cause, the elapsed count and the waiting commands (R496). -/
theorem suppliesIn_frame (s : State) :
    s.suppliesIn.start.cause = s.start.cause ∧ s.suppliesIn.time = s.time ∧ s.suppliesIn.pending = s.pending := by
  unfold State.suppliesIn
  split
  · exact ⟨rfl, rfl, rfl⟩
  · exact ⟨rfl, rfl, rfl⟩

/-- A start has its cause, keeps the waiting commands, and has the elapsed count that its cause leaves (R499). -/
theorem startOver_frame (s : State) (cause : Nat) :
    (s.startOver cause).start.cause = cause ∧ (s.startOver cause).time = (s.freshStart cause).time ∧
      (s.startOver cause).pending = s.pending := suppliesIn_frame _

/-- A rail judged invalid, the page writes in progress cut short (R147, R512). -/
def railOut (s : State) (r : Nat) : State := s.tearWrites.modStart (fun x => { x with rails := vset x.rails r false })

theorem exec_supplyLoss_rail {s : State} {r : Nat} (hr : r < 11) (haon : r ≠ 2) (hup : s.start.stage = .accepting)
    (hen : s.start.railsEn = true) : exec (.supplyLoss r) s = .next ((railOut s r).startOver 1) :=
  congrArg Host.Outcome.next ((if_neg (by omega)).trans ((if_neg haon).trans ((if_neg (not_not_intro hup)).trans (if_pos hen))))

theorem exec_supplyLoss_aon (s : State) : exec (.supplyLoss 2) s = .next ((railOut s 2).startOver 0) := rfl

/-- Settles O60: each fall is a start of its cause. -/
theorem railFallsReset : Obligations.RailFallsReset := by
  unfold Obligations.RailFallsReset
  refine ⟨?rail, ?aon⟩
  case rail =>
    intro s r hr haon hup hen
    obtain ⟨cause, -, pending⟩ := startOver_frame (railOut s r) 1
    exact ⟨_, exec_supplyLoss_rail hr haon hup hen, cause, startOver_stage _ 1, pending.trans (tearWrites_pending s)⟩
  case aon =>
    intro s
    obtain ⟨cause, time, pending⟩ := startOver_frame (railOut s 2) 0
    exact ⟨_, exec_supplyLoss_aon s, cause, startOver_stage _ 0, time, pending.trans (tearWrites_pending s)⟩

end Sys2Proof.Proofs
end
